-- ==== Sys2Proof/Word.lean ====
section
/-! DEFINITION. The word types of the register and byte interfaces (R14): registers are 32 bits and little-endian. -/
namespace Sys2Proof

/-- A register of BAR0 (R14). -/
abbrev Word := BitVec 32
/-- One byte of a memory or of a packet. -/
abbrev Byte := BitVec 8

end Sys2Proof
end

