-- ==== Sys2Proof/Syntax.lean ====
section
/-! DEFINITION. The commands that the block takes from outside: ONE inductive `Instr`, one constructor per row of the
command table, and the plain-data operands that the rows carry. A Bisor command carries the taken packet's source,
sequence and raw parameter bytes, so that every check of R8 is the model's own; a row that stands for something that
happens at a pin, on a link or in time carries what the outside world puts into it. -/
namespace Sys2Proof

/-- Where a network request came from, so that its reply goes back there (R72). -/
structure Peer where
  port : Nat
  ifc : Nat
  vlan : Nat
  v6 : Bool
  addr : Nat
  udp : Nat
deriving DecidableEq, Repr, Inhabited

/-- Where a Bisor command arrived (R71): at host mailbox pair `n`, or over the network. -/
inductive Src where
  | mailbox (n : Nat)
  | net (peer : Peer)
deriving DecidableEq, Repr

/-- A taken request: where it arrived, its session (0 unauthenticated), its sequence, the host epoch stamped at its
doorbell (R78) and its parameter bytes. -/
structure Req where
  src : Src
  session : Nat
  seq : Word
  epoch : Nat
  params : List Byte
deriving DecidableEq, Repr

/-- The instant of an arrival: the FCLK cycle in the present beat, and the count of TCLK cycles (TIM_RAW). -/
structure At where
  cyc : Nat
  tclk : Nat
deriving DecidableEq, Repr

/-- A bus master: the host, a management core 1–4, an engine 0–63, or another on-chip master (R94). -/
inductive Master where
  | host
  | mgmt (i : Nat)
  | ppe (e : Nat)
  | other
deriving DecidableEq, Repr

/-- What a beat boundary brings from outside (R20): the TCLK count at the boundary and the stamp of its FCLK edge as an
offset from the disciplined time at that count in 1/65,536 ns (R409), what every core sampled in the beat that ends (core,
samples in order: the differential input in 1/65,536 V as the core's pipeline converts it, R104), the first samples of the
beat that begins, which decide the blanking test of the last ones (R144, R145), and the stages that have not finished the
beat before it, as bits of GLB_OVRSTAT, with the slices that have not as bits 16–31 (R40). -/
structure BeatInput where
  tclk : Nat
  stamp : Int
  samples : List (Nat × List Int)
  ahead : List (Nat × List Int)
  overruns : Nat
  grant : Nat                  -- bytes that HBM granted to the CAPTURE class (R254)
deriving DecidableEq, Repr

/-- The outcome of one core's foreground calibration (R118): converged, at a range limit, and the set it found. -/
structure FgCore where
  core : Nat
  converged : Bool
  atLimit : Bool
  trims : List Int
  altC : Nat
  altF : Int
deriving DecidableEq, Repr

/-- What a core's estimators found over an interval (R122): the classes that met the confidence criterion (bits as
CLS_EN) and the error of each trim in steps. -/
structure BgEst where
  conf : Nat
  err : List Int
deriving DecidableEq, Repr

/-- What firmware learns of a drive at bring-up (R383). -/
structure DriveReport where
  lba : Nat
  mdts : Nat
  minPage : Nat
  nsActive : Bool
  metadata : Bool
  cap : Nat
  serial : List Byte
  model : List Byte
  width : Nat
  speed : Nat
deriving DecidableEq, Repr

/-- A received Ethernet frame (R389) with its receive time stamp (seconds, ns, 1/65,536 ns) and its line status. -/
structure RxFrame where
  port : Nat
  bytes : List Byte
  fcsOk : Bool
  fecOk : Bool
  sec : Nat
  ns : Nat
  frac : Nat
  ring : List Byte   -- the posted descriptor when the receive ring lies in host memory (R393)
deriving DecidableEq, Repr

/-- A request to an HBM controller (R337, R338): class 0 CAPTURE, 1 DISPLAY-URGENT, 2 STREAM, 3 PPE/DMA, 4 HOST, 5 a display
request that is not urgent; the page whose row it needs, and its direction. -/
structure HbmReq where
  cls : Nat
  page : Nat
  write : Bool
deriving DecidableEq, Repr

/-- What a window of one HBM controller meets (R339): requests by the slot in which they arrive, slots in which the channel is
paused or refreshes, and slots that would be lost to opening or closing a row or to turning the bus. -/
structure ArbUse where
  chan : Nat
  arrive : List (Nat × HbmReq)
  paused : List Nat
  slow : List Nat
deriving DecidableEq, Repr

/-- Words of an HBM access in which ECC found an error (R345), as device addresses. -/
structure EccHits where
  ce : List Nat
  ue : List Nat
deriving DecidableEq, Repr

/-- The bytes of BAR0 that a read asks for: a register, or a stretch of a memory window. -/
structure Span where
  base : Nat
  len : Nat
deriving DecidableEq, Repr


/-- The commands of the table, one constructor per row. -/
inductive Instr where
  /-- Echoes the parameter bytes back in the reply (R75). -/
  | ping (q : Req)
  /-- Returns the device id and the host and firmware epochs (R75). -/
  | deviceIdGet (q : Req)
  /-- Sets the device id, optionally persisting it in boot flash; refused over the network (R76). -/
  | deviceIdSet (q : Req)
  /-- Returns copies of GLB_ID, GLB_CAP0, GLB_CAP1, the device id and the firmware version (R5). -/
  | queryCaps (q : Req)
  /-- Reports whether a hardware lock is held and by which master, without acquiring it (R75). -/
  | lockPeek (q : Req)
  /-- Locks the named commit groups, checks them and the budget, and hands a next-beat or absolute commit ticket to the commit unit (R45). -/
  | commit (q : Req) (w : At)
  /-- In FCLK cycle 511 before the effective beat the shadows of a ticket's groups are copied into force, locks are released and events 4 and 5 fire (R45). -/
  | commitCopy
  /-- Reports whether a ticket is pending, applied or cancelled (R52). -/
  | commitStatus (q : Req)
  /-- Withdraws a pending ticket and releases its locks (R52). -/
  | commitCancel (q : Req) (w : At)
  /-- Evaluates the per-beat budget of the active state with pending tickets and named shadows, changing nothing (R37). -/
  | budgetCheck (q : Req)
  /-- Writes and commits the profile group with the OVL of every present slice, as a next-beat, absolute or restart commit (R56). -/
  | profileSet (q : Req) (w : At)
  /-- Returns the running profile bytes and its effective beat (R56). -/
  | profileGet (q : Req)
  /-- Returns the register values in force rather than the shadows (R43). -/
  | activeRead (q : Req) (group : Nat) (word : Nat)
  /-- The data path stops after the beat before the effective beat of a restart change, with END on the last outputs (R57). -/
  | restartStop
  /-- After reconfiguration the data path runs again and the restart change's reply or ticket completes with the first beat of the new run (R57). -/
  | restartRunStart
  /-- At every beat boundary the beat counter advances, event 0 fires and per-beat stages hand over to the next beat (R20). -/
  | beatBoundary (b : BeatInput)
  /-- Mark n fires event 8+n at every beat whose number modulo 2^PLOG equals PHASE (R30). -/
  | beatMark (n : Nat)
  /-- A SYNCIN edge while armed in IDLE resets the FCLK dividers and starts a new beat, or is ignored and sets IGNORED (R454). -/
  | syncinEdge (rising : Bool) (b : BeatInput)
  /-- Sets the core divisor R for the device as a restart change (R103). -/
  | cnvDivide (q : Req) (w : At)
  /-- Starts foreground calibration of the named quadrants (R131). -/
  | calForeground (q : Req)
  /-- At the end of a quadrant's 180 ms calibration the new set is committed if every core converged, otherwise FAILED is reported (R118). -/
  | foregroundCalEnd (quad : Nat) (r : List FgCore)
  /-- Returns the result, cause, progress and set of each quadrant's calibration (R133). -/
  | calStatus (q : Req)
  /-- Interrupts foreground calibration of the named quadrants (R132). -/
  | calAbort (q : Req)
  /-- Writes one value into CNV_BGCAL of every named core (R134). -/
  | calBackground (q : Req)
  /-- Returns a core's status, calibration and over-range registers (R135). -/
  | cnvStatus (q : Req)
  /-- A write of CNV_BGCAL takes effect at the next beat boundary, changing mode, classes or interval (R126). -/
  | cnvBgcalWrite (m : Master) (core : Nat) (v : Word)
  /-- At the end of a background interval each enabled class tests confidence and computes targets within 8 steps (R123). -/
  | bgCalIntervalEnd (core : Nat) (e : BgEst)
  /-- At a beat boundary each core lands one pending trim step and its paths carry CAL (R124). -/
  | bgStepLanding
  /-- A write of CNV_CTRL.PWRDN powers the core down at the next boundary, or starts its power-up (R130). -/
  | cnvPwrdnWrite (m : Master) (core : Nat) (v : Word)
  /-- Within 50 µs after PWRDN is cleared the core reaches RUN (R130). -/
  | coreReady (core : Nat)
  /-- A sample beyond full scale starts an over-range episode, marking OVR groups and NBR on quadrant neighbours (R109). -/
  | overRangeEpisode (core : Nat) (cyc : Nat) (ovd : Bool)
  /-- When a whole tail passes without over-range the episode ends (R109). -/
  | overRangeTailEnd (core : Nat) (s1 : Int)
  /-- Writes the eight shadow registers of one path without committing (R165). -/
  | pthConfig (q : Req)
  /-- Loads one FIR bank and computes its DC delay (R166). -/
  | firLoad (q : Req)
  /-- Returns a path's status, group delay, fade state and counts (R167). -/
  | pthStatus (q : Req)
  /-- A swap request, or a queued one when the running fade ends, starts a cross-fade or is discarded as SAME (R156). -/
  | fadeStart (path : Nat)
  /-- After X beats the target bank alone is in force, LAST reads DONE and event 288+n fires (R156). -/
  | fadeEnd (path : Nat)
  /-- After F coarse samples the output select delivers fine samples and event 288+n fires at the next boundary (R161). -/
  | coarseToFine (path : Nat)
  /-- Writes the twelve shadow registers of one lane without committing (R195). -/
  | slcConfig (q : Req)
  /-- Loads part of a window bank, marking it LOADING on FIRST and VALID on a checked LAST (R196). -/
  | windowLoad (q : Req)
  /-- A LOADING bank that receives no part for 1 s is abandoned and stays not VALID (R196). -/
  | windowLoadAbandon (slice : Nat) (bank : Nat)
  /-- Requests a restart of the named traces at the next beat boundary (R197). -/
  | traceClear (q : Req)
  /-- A trace closes its open block with END and starts afresh (R183). -/
  | traceRestart (slice : Nat) (lane : Nat) (traces : Nat)
  /-- Returns a slice's status, counts and anchor (R198). -/
  | slcStatus (q : Req)
  /-- Writes the density control, HBM base and slot shadows (R227). -/
  | denSet (q : Req)
  /-- Writes one path's histogram configuration and mapping shadows (R227). -/
  | denPathSet (q : Req)
  /-- Writes one density region's shadows (R227). -/
  | denRegionSet (q : Req)
  /-- Writes the correlation array's control, period, ring and gain shadows (R227). -/
  | corrSet (q : Req)
  /-- Returns density and correlation status and counts (R227). -/
  | denStatus (q : Req)
  /-- At a boundary with r mod FP = 0 each enabled histogram closes a frame (R208). -/
  | densityFlush
  /-- Readout of closed frames starts at r+1 or when the previous readout ends, reading and writing back each cell (R209). -/
  | densityReadoutStart
  /-- A histogram's readout finishes writing its frame and descriptor, seq last (R215). -/
  | densityReadoutEnd (spans : List (Nat × Nat))
  /-- An integration ends at a boundary with r mod IPER = 0 or at a disable (R223). -/
  | corrIntegrationEnd
  /-- At r+1 the full bank swaps with the cleared bank and its dump starts, or the swap is deferred with LATE (R224). -/
  | corrBankSwap
  /-- A correlation dump finishes writing its slot and header (R226). -/
  | corrDumpEnd
  /-- Writes one trigger unit's shadow registers (R257). -/
  | trgConfig (q : Req)
  /-- Requests arming of the named groups at the next boundary or at target_beat (R258). -/
  | trgArm (q : Req)
  /-- A group becomes ARMED at its arm beat (R231). -/
  | groupArm (m : Nat)
  /-- Requests the named groups to go IDLE at the next boundary (R258). -/
  | trgDisarm (q : Req)
  /-- At the boundary after a TRG_DISARM the groups go IDLE before that boundary's decisions (R258). -/
  | groupDisarm (m : Nat)
  /-- Requests the named armed groups to fire at the next boundary (R258). -/
  | trgForce (q : Req)
  /-- At the boundary after TRG_FORCE the groups fire with cause 0xFF and FORCED (R258). -/
  | forcedFire (m : Nat)
  /-- An AUTO group's TIME or EVENTS hold-off runs out and the group is armed again (R233). -/
  | holdoffEnd (m : Nat)
  /-- One beat after a firing drove TRIGIO low the pin is released (R232). -/
  | trigioPulseEnd (pin : Nat)
  /-- Loads a new version of a mask, tested from the next beat's spectra (R239). -/
  | maskLoad (q : Req)
  /-- When all earlier spectra have been tested the old mask version is dropped and MSKBUSY clears (R239). -/
  | maskVersionRelease (m : Nat)
  /-- Writes one Carousel channel's shadow registers (R257). -/
  | carConfig (q : Req)
  /-- Arms the named channels at the next boundary (R258). -/
  | carArm (q : Req)
  /-- Requests the named channels to close their segments with END and stop (R256). -/
  | carStop (q : Req)
  /-- At the next boundary after CAR_STOP the segment closes with END and the channel becomes STOPPED (R256). -/
  | segmentStopClose (c : Nat)
  /-- Returns one channel's state and counts (R257). -/
  | carStatus (q : Req)
  /-- After unit L the segment header is written, the count increments and the channel enters GAP or STOPPED (R251). -/
  | segmentEnd (c : Nat)
  /-- After one boundary's units the channel leaves GAP and re-arms with a new segment (R249). -/
  | segmentGapEnd (c : Nat)
  /-- With OVFRESUME a channel stopped by overflow re-arms once its buffer is empty (R254). -/
  | overflowResume (c : Nat)
  /-- Copies and checks a program image and loads it into the named engines, leaving them STOPPED (R293). -/
  | ppeLoad (q : Req)
  /-- Moves STOPPED engines to READY and starts their background context (R298). -/
  | ppeStart (q : Req)
  /-- Stops READY and HALTED engines before their next bundle (R298). -/
  | ppeStop (q : Req)
  /-- Writes one task entry of an engine's shadow table (R298). -/
  | ppeTaskSet (q : Req)
  /-- Returns an engine's registers, digest, cycles and task table (R298). -/
  | ppeStatus (q : Req)
  /-- Writes bytes into an engine's data memory or its cluster's shared memory (R298). -/
  | ppeMemWrite (q : Req)
  /-- Reads bytes from an engine's data or cluster shared memory (R298). -/
  | ppeMemRead (q : Req)
  /-- Sets a cluster's gating permission and returns its state (R298). -/
  | ppeCluster (q : Req)
  /-- At a beat boundary the dispatcher suspends the background and starts each due task in entry order (R283). -/
  | taskDispatch (e : Nat)
  /-- A task that used c_t cycles without END, or reached the next boundary, is stopped as BEAT_OVERRUN (R285). -/
  | taskBudgetExpiry (e : Nat)
  /-- An engine issues one 64-bit bundle of two slots in a cycle (R270). -/
  | ppeBundleIssue (e : Nat) (stall : Nat)
  /-- A pending enabled interrupt is taken before a bundle, saving RPC and issuing entry 15 (R280). -/
  | ppeInterrupt (e : Nat) (hold : Nat) (idle : Nat)
  /-- The engine takes its IN message, emptying IN (R291). -/
  | mbCtlIntake (e : Nat)
  /-- The engine rings its OUT half, notifying firmware and the host (R291). -/
  | mbCtlOutring (e : Nat)
  /-- A cluster whose engines have been idle for 250 beats with GATE = 1 gates (R294). -/
  | clusterGate (c : Nat)
  /-- A gated cluster woken by a doorbell, event, load or GATE = 0 resumes within 12 µs (R295). -/
  | clusterWake (c : Nat)
  /-- Writes one stream entry into the shadow table (R331). -/
  | streamSet (q : Req)
  /-- Returns a stream's entry and counts (R331). -/
  | streamStatus (q : Req)
  /-- Starts formatting a Noviebel volume on a set of drives (R331). -/
  | volFormat (q : Req)
  /-- When headers are written and the chunk area deallocated the volume becomes READY (R331). -/
  | volFormatDone (v : Nat)
  /-- Returns a volume's state, drive count and chunk counts (R331). -/
  | volStatus (q : Req)
  /-- The carrier writes a record into the host ring when room allows and then writes the producer word (R322). -/
  | hostRingWrite (stream : Nat)
  /-- A write of OC_HCONSh_HI applies the host consumer count or is ignored with HBAD (R323). -/
  | ocHconsWrite (h : Nat) (hi : Bool) (v : Word)
  /-- A full or ended chunk is written whole to its drive with one NVMe Write (R325). -/
  | chunkWrite (v : Nat)
  /-- flushb beats after its first record a chunk is closed and written (R325). -/
  | chunkFlushTime (v : Nat)
  /-- A LAUNCH datagram leaves when disciplined time reaches its record time plus loff, or at once with LLATE (R329). -/
  | datagramLaunch (stream : Nat) (tclk : Nat)
  /-- Lays out the Carousel and stream regions and their spare pools (R350). -/
  | memRegionSet (q : Req)
  /-- Returns HBM status, capacity, region and error counts (R350). -/
  | memStatus (q : Req)
  /-- Returns entries of the row-exclusion map (R350). -/
  | memRetiredRead (q : Req)
  /-- At the end of a 16-beat window credits are reloaded and CAPTURE or DISPLAY shortfalls become debt (R340). -/
  | arbWindowEnd (uses : List ArbUse)
  /-- A controller issues a per-bank refresh at the interval demanded by temperature (R342). -/
  | hbmRefresh (chan : Nat)
  /-- A stack above 95 °C raises source 102, and above 85 °C refresh doubles (R342). -/
  | stackOverTemperature (stack : Nat) (temp : Int)
  /-- Four pseudo-channels pause to retrain at their scheduled beat (R343). -/
  | retrain (g : Nat)
  /-- A retraining completes within 1,000 ns, or is repeated and then fails the channel (R343). -/
  | retrainEnd (chan : Nat) (ok : Bool)
  /-- A command/address parity error replays the retry buffer, then retrains, then fails the channel (R344). -/
  | parityError (chan : Nat) (replays : Nat) (persist : Bool)
  /-- Patrol scrubbing reads and corrects words in round-robin slots (R346). -/
  | patrolScrub (h : EccHits)
  /-- Firmware repairs a failing row with sPPR, pausing its channel up to 5 µs (R347). -/
  | rowRepair (chan : Nat) (page : Nat) (spares : Nat)
  /-- A host access through BAR2 reaches HBM, or returns all ones outside it or before READY (R335). -/
  | bar2Access (write : Bool) (x : Nat) (n : Nat) (bytes : List Byte) (h : EccHits)
  /-- Writes IRQEN, RETRY and the program address and starts a channel (R373). -/
  | dmaStart (q : Req) (fe : Nat)
  /-- Aborts the named channels and replies when all have stopped (R373). -/
  | dmaAbort (q : Req)
  /-- Returns a channel's registers and outcome words (R373). -/
  | dmaStatus (q : Req)
  /-- Writes bytes into DMA SRAM (R373). -/
  | dmaSramWrite (q : Req)
  /-- Writing START loads the channel block and fetches instruction 0 (R369). -/
  | dmaCtrlStart (m : Master) (n : Nat) (v : Word) (fe : Nat)
  /-- Writing ABORT stops the channel after its burst in flight or at once at a WAIT (R368). -/
  | dmaCtrlAbort (m : Master) (n : Nat) (v : Word)
  /-- A MOVE instruction transfers COUNT bytes in bursts, optionally shuffled and paced (R357). -/
  | move (n : Nat)
  /-- A LOOP instruction counts passes, applies strides and jumps to its target (R358). -/
  | loop (n : Nat) (fe : Nat)
  /-- A WAIT instruction watches an event and completes when enough firings are counted (R359). -/
  | wait (n : Nat) (fe : Nat)
  /-- When ECNT reaches N the WAIT subtracts N and the channel fetches the next instruction (R359). -/
  | waitComplete (n : Nat) (fe : Nat)
  /-- A WAIT not completed within TMO beats stops the channel with cause WTMO (R359). -/
  | waitTimeout (n : Nat)
  /-- Fires a software event and or vector 16+n once earlier writes have landed (R360). -/
  | dmaSignal (n : Nat) (fe : Nat)
  /-- Stops the channel in DONE and fires event 128+n and its vector (R360). -/
  | dmaEnd (n : Nat)
  /-- A channel whose pacing, source and destination allow it is given a mover for one burst (R364). -/
  | burstStart (n : Nat) (cyc : Nat)
  /-- A burst completes, or on an error response is retried up to RETRY times before ERR_HALT (R362). -/
  | burstEnd (n : Nat) (data : List Byte) (err : Bool) (h : EccHits) (fe : Nat)
  /-- Returns the status registers of all links (R403). -/
  | linkStatus (q : Req)
  /-- Sets the Ethernet lane mode; ports go down and retrain (R403). -/
  | ethMode (q : Req)
  /-- Sets one Ethernet interface's VLAN, addresses, MTU and flags (R403). -/
  | ethIfSet (q : Req)
  /-- Sets one UDP receive filter (R403). -/
  | ethFilterSet (q : Req)
  /-- Enables or disables a neighbour port (R403). -/
  | nbrSet (q : Req)
  /-- Retrains and re-initialises the named NVMe root ports (R403). -/
  | nvmeReset (q : Req)
  /-- Returns a drive's state, geometry and health (R403). -/
  | nvmeInfo (q : Req)
  /-- Reads blocks from a drive into the general HBM region and replies on completion (R403). -/
  | nvmeRead (q : Req)
  /-- Sets the UDP port on which Bisor packets are accepted (R403). -/
  | bisorPortSet (q : Req)
  /-- Firmware enables a trained drive's controller, identifies it and creates its queues, or marks it UNSUITABLE (R383). -/
  | driveBringUp (port : Nat) (d : DriveReport)
  /-- An NVMe command completes; an error is reissued once and then stops the volume (R326). -/
  | nvmeCompletion (port : Nat) (ok : Bool) (data : List Byte)
  /-- A command not completed within LNK_NVTMO counts as an error completion (R385). -/
  | nvmeCommandTimeout (port : Nat)
  /-- A root link down or CSTS.CFS fails the port and stops its volumes (R385). -/
  | nvmePortFail (port : Nat)
  /-- Every 60 s firmware reads each drive's SMART log and reports Critical Warning (R386). -/
  | smartPoll (port : Nat) (temp : Nat) (crit : Nat) (used : Nat) (written : Nat)
  /-- A received frame is filtered and delivered to firmware, PTP, the Bisor queue, a receive queue, or dropped (R389). -/
  | ethFrameReceive (f : RxFrame)
  /-- On link-up firmware sends gratuitous ARP and unsolicited Neighbour Advertisements (R390). -/
  | ethLinkUp (port : Nat)
  /-- An Ethernet port leaves UP, holding its stream carriers and raising source 133 (R405). -/
  | ethLinkDown (port : Nat)
  /-- Every 1 s firmware resends an ARP or ND request for an unresolved next hop (R390). -/
  | nextHopRetry
  /-- Firmware refreshes cache entries older than 300 s (R390). -/
  | neighbourRefresh (seconds : Nat)
  /-- Advancing a queue's tail posts descriptors for the unit to process (R393). -/
  | lnkEqtailWrite (q : Nat) (v : Word)
  /-- The unit sends the frame at the head of a transmit queue, or refuses it, and writes the descriptor back (R394). -/
  | txDescriptor (q : Nat) (host : List Byte) (frame : List Byte) (tclk : Nat)
  /-- A transmit frame with LAUNCH leaves at its launch time, or at once as LATE (R394). -/
  | frameLaunch (q : Nat) (host : List Byte) (frame : List Byte) (tclk : Nat)
  /-- A TOKEN flit is received and forwarded on the opposite port while hops remain (R245). -/
  | tokenReceive (port : Nat) (content : List Byte) (cyc : Nat)
  /-- A received token is presented at a local boundary, meeting TOKEN units or arming groups (R246). -/
  | tokenPresent
  /-- A GRID flit with GRID bit 1 yields a servo sample for a neighbour source (R411). -/
  | gridFlitReceive (port : Nat) (beat : Nat) (grid : Bool) (tclk : Nat) (stamp : Int)
  /-- A GRID flit is sent at each TAI-second beat, or every 2,500,000 beats in free-beat mode (R399). -/
  | gridFlitSend
  /-- A record arriving in REC flits is passed whole to a matching FORWARD stream or dropped (R399). -/
  | nbrRecordReceive (port : Nat) (record : List Byte)
  /-- A CREDIT flit returns buffer credits to the sender (R399). -/
  | creditReceive (port : Nat) (n : Nat)
  /-- An ECHO request is answered with an ECHO reply (R399). -/
  | echoRequestReceive (port : Nat) (content : List Byte)
  /-- An ECHO reply updates the port's round-trip measurement (R400). -/
  | echoReplyReceive (port : Nat) (content : List Byte) (tclk : Nat)
  /-- Once per second a port sends an ECHO request (R400). -/
  | echoSend (port : Nat) (tclk : Nat)
  /-- A flit failing its CRC is discarded and counted, dropping any record it belonged to (R400). -/
  | flitCrcFail (port : Nat) (record : Bool) (token : Bool)
  /-- After lane lock, deskew and 1,024 good flits a neighbour port is UP (R398). -/
  | nbrPortUp (port : Nat)
  /-- Loss of lock or 16 bad flits takes a neighbour port down and retraining starts (R398). -/
  | nbrPortDown (port : Nat)
  /-- A PCIe hot reset or FLR resets the host interface: mailboxes, locks, host rings, channels and queues (R91). -/
  | pcieHotReset (flr : Bool)
  /-- Assertion of PERST# resets the host interface only (R381). -/
  | perstAssert
  /-- Release of PERST# wakes the device from STANDBY or HIBERNATE when enabled (R510). -/
  | perstRelease (gen : Nat) (width : Nat)
  /-- A link that goes down without reset raises source 138 and is handled as a hot reset (R381). -/
  | pcieSurpriseDown
  /-- A link retraining to lower speed or width sets DOWNTRAIN and raises source 136 (R381). -/
  | pcieDowntrain (gen : Nat) (width : Nat)
  /-- Unmasking a vector with its pending bit set sends one message (R379). -/
  | msixUnmask (v : Nat)
  /-- Returns the disciplined time, beat, servo and grid state at one instant (R425). -/
  | timeGet (q : Req) (w : At)
  /-- Steps time by a relative amount or to an absolute value at the next boundary, returning the servo to ACQUIRE (R425). -/
  | timeStep (q : Req)
  /-- Requests a small jump of time in FREE state (R425). -/
  | timeAdjust (q : Req)
  /-- Writes the servo registers, restarting the state machine on a change of source (R425). -/
  | servoSet (q : Req) (tclk : Nat)
  /-- Configures and restarts the PTP ordinary clock (R425). -/
  | ptpSet (q : Req)
  /-- Returns the PTP port state, parent and offsets (R425). -/
  | ptpStatus (q : Req)
  /-- Starts grid alignment: measure, slew, verify and load the beat counter (R421). -/
  | gridAlign (q : Req)
  /-- Aborts a running grid alignment, setting ALIGNFAIL (R423). -/
  | gridAlignAbort
  /-- Sets the UTC offset and leap flags (R425). -/
  | utcSet (q : Req)
  /-- A source sample updates the servo: sets or jumps the time, or computes a new rate, moving between states (R412). -/
  | servoSample (tclk : Nat)
  /-- No sample within 1.5·τ counts as missing, and three in LOCKED enter HOLDOVER (R411). -/
  | sampleMissing (tclk : Nat)
  /-- HOLDOVER beyond HOLDMAX seconds clears TAI and ends grid mode (R413). -/
  | holdmaxExpiry
  /-- An accepted jump takes effect at the first beat boundary after acceptance (R415). -/
  | jumpApply (tclk : Nat)
  /-- Firmware sends a scheduled Sync, Announce, Delay_Req or Pdelay_Req message (R416). -/
  | ptpMessageSend (kind : Nat) (tclk : Nat)
  /-- Missing Announce messages for announceReceiptTimeout intervals end the current master (R416). -/
  | announceReceiptTimeout
  /-- At the end of an averaging window the grid error average is taken for MEASURE, VERIFY or TRACK (R420). -/
  | gridAvgWindowEnd
  /-- When all slew steps are applied alignment enters VERIFY (R421). -/
  | gridSlewEnd
  /-- At the next boundary the beat counter is loaded with its TAI number and tracking starts (R421). -/
  | gridLoad (tclk : Nat) (stamp : Int)
  /-- At the end of a UTC day with a leap flag TIM_UTCOFF changes and the flag clears (R418). -/
  | leapSecond (tclk : Nat)
  /-- PPSOUT rises when disciplined time reaches a whole second (R572). -/
  | ppsoutRise
  /-- PPSOUT falls after PPSW ms counted on TCLK (R572). -/
  | ppsoutFall
  /-- Writes a TDC channel's control register (R441). -/
  | tdcChanSet (q : Req)
  /-- Starts code-density width calibration of the named channels (R436). -/
  | tdcCal (q : Req)
  /-- Aborts width calibration of the named channels, keeping their old tables (R436). -/
  | tdcCalAbort (q : Req)
  /-- Pops up to max stamps from a channel's queue (R441). -/
  | tdcRead (q : Req)
  /-- Starts a frequency unit's gate at the next boundary or at target_beat (R439). -/
  | freqStart (q : Req)
  /-- Ends a frequency unit at the next boundary without a result (R441). -/
  | freqStop (q : Req)
  /-- Returns a frequency unit's last result (R441). -/
  | freqResult (q : Req)
  /-- Returns a channel's status, fill, counts and warm-up state (R441). -/
  | tdcStatus (q : Req)
  /-- An edge on a TDC pin is stamped and passed to its queue, the Ringmaster and the servo (R428). -/
  | tdcEdge (c : Nat) (rise : Bool) (tclk : Nat) (half : Bool) (code : Nat) (cyc : Nat)
  /-- At the end of the 4 ns blind time a changed level is stamped as a DEAD edge (R429). -/
  | blindTimeEnd (c : Nat) (level : Bool)
  /-- After 131,072 hits the new width table is committed or the calibration fails with source 20 (R436). -/
  | widthCalEnd (c : Nat) (hits : List Nat)
  /-- Every RECAL minutes firmware recalibrates the next channel in turn (R437). -/
  | tdcRecal
  /-- At the end of a gate the regression is fitted, and a continuous unit starts its next gate (R438). -/
  | freqGateEnd (f : Nat)
  /-- At boundary end+2 the result is written, event 353+f fires and a REC record is sent (R439). -/
  | freqResultWrite (f : Nat)
  /-- A level held steady 1 ms on OCXO_WARM sets or clears TB_WARM in pin mode (R440). -/
  | ocxoWarmChange (level : Bool)
  /-- Firmware sets TB_WARM once the RPLL has been locked WMIN seconds and the rate is steady (R440). -/
  | tbWarmCriterion (secs : Nat)
  /-- Sets the SCLK source, frequency and reference selection as a restart change (R462). -/
  | clkSclkSet (q : Req)
  /-- Writes one band-table entry of a sample MDLL (R463). -/
  | clkBandSet (q : Req)
  /-- Applies native phase steps to the named quadrants, one per FCLK cycle (R463). -/
  | clkPhaseStep (q : Req)
  /-- Returns the clock status registers (R461). -/
  | clkStatus (q : Req)
  /-- Writing ARM makes the next SYNCIN edge reset the dividers (R454). -/
  | clkSyncArm (v : Word)
  /-- Writing CANCEL clears ARM (R464). -/
  | clkSyncCancel (v : Word)
  /-- REFIN missing for 250 ns or off frequency counts as RPLL loss of lock (R448). -/
  | refinLoss (cyc : Nat)
  /-- When REFIN returns the RPLL relocks first and then the MDLLs behind it (R459). -/
  | refinReturn
  /-- A synthesiser losing lock switches itself and its dependants to bypass within 20 ns (R455). -/
  | synthLossOfLock (n : Nat) (cyc : Nat)
  /-- A synthesiser on bypass detects lock once its reference has left bypass (R456). -/
  | synthLock (n : Nat)
  /-- After 4,096 reference cycles of continuous lock a synthesiser leaves bypass (R456). -/
  | bypassReturn (n : Nat)
  /-- A band attempt not locked within 100 µs moves to the next entry or sets LOCKFAIL (R450). -/
  | bandAttemptTimeout (q : Nat)
  /-- An HBM PLL losing lock raises FATAL source 4 (R458). -/
  | hbmPllLossOfLock (n : Nat)
  /-- An SCLKIN pin without an edge for 20 ns counts as loss of lock and raises source 5 (R451). -/
  | sclkinLoss (pin : Nat) (cyc : Nat)
  /-- Requests a new display timing at the next copy point (R469). -/
  | dspModeSet (q : Req)
  /-- Registers a buffer handle with its geometry and tag (R479). -/
  | dspBufReg (q : Req)
  /-- Frees a buffer handle not in use (R479). -/
  | dspBufFree (q : Req)
  /-- Requests a layer-register copy and replies after it with the first showing frame (R477). -/
  | dspCommit (q : Req)
  /-- Writes entries of the luma or chroma palette (R482). -/
  | dspPalSet (q : Req)
  /-- Performs a DPCD or I²C-over-AUX read or write (R482). -/
  | dspAux (q : Req) (sink : Option (List Byte))
  /-- Returns display status and counts (R482). -/
  | dspStatus (q : Req)
  /-- Writing GO requests a copy of the double-buffered layer registers (R477). -/
  | dspCmtGo (v : Word)
  /-- Writing DIRTY marks a frame non-static after an in-place buffer change (R478). -/
  | dspCmtDirty (v : Word)
  /-- At line VTOTAL-8 pending copies, modes and L0 half switches apply and prefill starts (R477). -/
  | copyPoint (h : EccHits)
  /-- A display line is scanned out, with underrun blanking if a pixel was not fetched (R476). -/
  | scanoutLine (under : List (Nat × Nat)) (h : EccHits)
  /-- After 120 static frames the front porch is stretched to 30 Hz (R478). -/
  | staticRefreshStretch
  /-- A fall of HPD stops the link with LINKFAIL and source 233 (R470). -/
  | hpdFall
  /-- After HPD rises firmware retrains the link at the next copy point (R470). -/
  | hpdRise
  /-- Training completes and the first frame after the black frame sets MODE_SWITCHED, or it fails with LINKFAIL (R469). -/
  | linkTrainingEnd (ok : Bool) (adaptive : Bool)
  /-- Writes a Badger core's control, sequence, calibration and limit registers (R497). -/
  | monCoreSet (q : Req)
  /-- Requests an injected sequence on the named cores (R497). -/
  | monInject (q : Req)
  /-- Returns a core's status and result words (R497). -/
  | monRead (q : Req)
  /-- Writes the fast-watch control and calibration registers (R497). -/
  | monFwSet (q : Req)
  /-- A regular pass starts continuously or at a BEAT boundary, or is skipped with SLIP (R489). -/
  | monPassStart (m : Nat)
  /-- 125 ns after an entry's last sample its result word and limit comparators update (R487). -/
  | monEntryDone (m : Nat) (codes : List Nat) (before : Bool)
  /-- An injection request pre-empts the regular sequence after the conversion in progress (R492). -/
  | injectRequest (m : Nat) (last : Bool)
  /-- A core of a fast-watch pair takes and corrects an interleaved sample (R495). -/
  | fastWatchSample (m : Nat) (code : Nat) (skip : Nat)
  /-- Requests a transition to RUN, IDLE, STANDBY or HIBERNATE (R519). -/
  | pwrStateSet (q : Req)
  /-- A RUN-IDLE transition takes effect at its boundary, ending or restarting enabled functions (R502). -/
  | pwrTransitionApply (us : Nat)
  /-- Entry to STANDBY or HIBERNATE stops the data path, waits for drains, saves state and powers steps off (R508). -/
  | stateEntry (us : Nat)
  /-- The next staggered-start step powers its units once spacing and the previous completion allow (R504). -/
  | staggerStep (us : Nat) (retOk : Bool)
  /-- A step not completed within 50 ms (500 ms for HBM) stops the start with STEPFAIL (R506). -/
  | stepFail (us : Nat)
  /-- Beat 128 after step 39 begins the run and completes the transition or wake (R507). -/
  | runFirstBeat (us : Nat)
  /-- Returns the power registers (R519). -/
  | pwrStatus (q : Req)
  /-- Resets the data path, PPE or all but links at the next boundary and restarts from beat 0 (R516). -/
  | reset (q : Req)
  /-- A WAKE low held 1 µs wakes the device when enabled (R510). -/
  | wakePin
  /-- The Owl timer reaching 0 wakes the device when enabled (R510). -/
  | owlTimerExpiry
  /-- PORST_N or PWR_GOOD low resets everything but the FATAL latch and starts a cold boot on release (R515). -/
  | porstN (pgood : Bool)
  /-- WARM_RST_N resets everything outside the Owl domain and reboots without hard repairs (R515). -/
  | warmRstN (refin : Option Nat) (starts : List Nat)
  /-- VDD_AON below its power-on threshold clears everything including the FATAL latch (R515). -/
  | vddAonLoss
  /-- Release of PORST_N loads fuses, runs the boot ROM, starts firmware, powers steps and calibrates (R512). -/
  | coldBoot (refin : Option Nat) (starts : List Nat) (strap : Bool)
  /-- Firmware starts, sets FWREADY and enters BOOTING (R512). -/
  | firmwareStart (idOk : Bool)
  /-- VDD_CORE below 0.70 V for 1 µs raises source 9 (R521). -/
  | vddCoreLow
  /-- A junction crossing 100, 105 or 115 °C raises sources 10, 11 or 12 (R521). -/
  | junctionThreshold (temp : Int)
  /-- A junction at 125 °C turns off every switched unit within 10 µs until PORST_N (R580). -/
  | thermalShutdown
  /-- Returns the fault collector's status, sticky and railbad bits (R539). -/
  | fltStatus (q : Req)
  /-- Clears class pending, sticky and railbad bits in one KCLK cycle (R539). -/
  | fltAck (q : Req)
  /-- Writes one source's enable, isolate and class byte (R539). -/
  | fltConfig (q : Req)
  /-- Returns trouble-log entries from a serial onwards (R539). -/
  | logRead (q : Req)
  /-- Empties the trouble log, leaving the serial running (R536). -/
  | logClear (q : Req)
  /-- In factory test mode injects a report or a rail failure on a source (R538). -/
  | fltInject (q : Req)
  /-- Ends isolation of the named engines, leaving them STOPPED (R532). -/
  | fltRelease (q : Req)
  /-- A write of FLT_INJECT in test mode injects a report (R538). -/
  | fltInjectRegister (v : Word)
  /-- Clearing a class pending bit acknowledges that class and may release FAULT_N (R527). -/
  | fltClspendWrite (v : Word)
  /-- Clearing sticky bits re-arms FLT_FIRST and log suppression (R526). -/
  | fltStickyWrite (n : Nat) (v : Word)
  /-- Clearing a RAILBAD bit makes the collector watch that rail pair again (R523). -/
  | fltRailbadWrite (n : Nat) (v : Word)
  /-- A source's report is classed, escalated if pending, logged and given its class reaction (R528). -/
  | faultReport (src : Nat) (code : Nat) (cyc : Nat)
  /-- A rail pair reading equal for 2 KCLK cycles sets RAILBAD and raises source 224 (R523). -/
  | railPairFail (src : Nat)
  /-- Returns boot, fuse, update and slot status (R560). -/
  | fwStatus (q : Req)
  /-- Verifies a staged image and starts writing it into the slot that did not boot (R549). -/
  | fwUpdate (q : Req)
  /-- After erase, write, readback and mark the update ends DONE, or FAILED with source 194 (R549). -/
  | fwUpdateEnd (result : Nat)
  /-- Returns a quote of measurements and configuration signed with the identity key (R552). -/
  | attest (q : Req) (w : At)
  /-- Authenticates an operator and opens a network session with a wrapped key (R556). -/
  | keyExchange (q : Req)
  /-- Closes the session in which it is sent (R557). -/
  | keyClose (q : Req)
  /-- A session without an accepted packet for SEC_SESSTMO seconds closes (R557). -/
  | sessionIdleTimeout (n : Nat)
  /-- Writes an operator slot's key and role, resetting its counter (R555). -/
  | operatorSet (q : Req)
  /-- Returns the device identity certificate (R560). -/
  | identityGet (q : Req)
  /-- Burns rollback fuses up to the running image's svn (R548). -/
  | rollbackCommit (q : Req)
  /-- Sets the PPE image signing policy for later loads (R558). -/
  | ppePolicySet (q : Req)
  /-- Burns the owner key hash and optionally revokes the vendor key (R547). -/
  | ownerKeySet (q : Req)
  /-- Returns a fresh 32-byte factory unlock challenge (R559). -/
  | testUnlockChallenge (q : Req)
  /-- Checks a vendor signature over serial and challenge and unlocks factory test mode (R559). -/
  | testUnlock (q : Req)
  /-- Writing a command doorbell with the packet length makes the mailbox FULL (R78). -/
  | mbxHcdbWrite (n : Nat) (v : Word)
  /-- A write into a mailbox data area is taken, or refused when FULL, foreign or fenced (R81). -/
  | mailboxDataWrite (m : Master) (addr : Nat) (bytes : List Byte)
  /-- Firmware takes a FULL command mailbox when its reply mailbox is free, in doorbell order (R78). -/
  | mailboxTake
  /-- Firmware takes the next network packet of a source in queue order for header, authentication and replay checks (R71). -/
  | networkPacketTake
  /-- Writing MBX_HRACKn releases the reply mailbox (R78). -/
  | mbxHrackWrite (n : Nat)
  /-- A message not taken within MBX_TMO is withdrawn and TIMEOUT set (R89). -/
  | mailboxTimeout (box : Nat)
  /-- Writing a cluster doorbell bit sets an engine's IN FULL and wakes its cluster (R83). -/
  | mbxCldbWrite (m : Master) (c : Nat) (v : Word)
  /-- Writing OUTACK releases an engine's OUT half (R84). -/
  | mbxPestatOutack (m : Master) (e : Nat)
  /-- Reading MBX_DROPCNT, MBX_AUTHCNT or MBX_REPLAYCNT returns and clears the count (R85). -/
  | mbxCountRead (m : Master) (which : Nat)
  /-- Reading a free lock acquires it; reading a held lock returns its owner (R94). -/
  | glbLockRead (n : Nat) (ms : List Master)
  /-- The owner writing its id releases a lock (R95). -/
  | glbLockRelease (m : Master) (n : Nat) (v : Word)
  /-- Reading the _LO of a 64-bit pair latches its _HI for that master (R16): a read of `len` bytes at BAR0 offset `addr`. -/
  | pairLoRead (m : Master) (addr : Span) (tclk : Nat)
  /-- Reading GLB_BEAT_LO latches GLB_BEAT_HI and GLB_BEATPOS in the same cycle (R24). -/
  | glbBeatLoRead (m : Master) (cyc : Nat)
  /-- Reading TIM_NOW_LO returns the time and latches its other words and the raw count (R409). -/
  | timNowLoRead (m : Master) (tclk : Nat)
  /-- Reading CNV_CALTIME_LO latches CNV_CALTIME_HI and CNV_CALTIME_X (R136). -/
  | cnvCaltimeLoRead (m : Master) (core : Nat)
  /-- Reading TDC_CHSTAMP0 pops a stamp and latches TDC_CHSTAMP1-3 (R433). -/
  | tdcChstamp0Read (m : Master) (ch : Nat)
  /-- Writing GLB_SWEVT fires a software event in the next FCLK cycle (R586). -/
  | glbSwevtWrite (m : Master) (v : Word)
  /-- A write to a shadowed register reaches its shadow, or is refused while its group is locked (R49). -/
  | shadowRegisterWrite (m : Master) (addr : Nat) (v : Word)
  /-- A write to any other register applies its RW, W1C and W1S fields or is ignored (R17). -/
  | registerWrite (m : Master) (addr : Nat) (bytes : List Byte)
  /-- A cluster that was WAKING finishes powering up within 12 µs, continues where it stopped, and a pending doorbell then interrupts its engine (R295). -/
  | clusterWakeEnd (c : Nat)
  /-- A new level on a TRIGIO pin is first seen in an FCLK cycle, firing event 384+n or 416+n and giving TRIGIO16-31 their event position for the Ringmaster (R242). -/
  | trigioLevelChange (pin : Nat) (level : Bool) (cyc : Nat)
  /-- The last native step of a CLK_PHASE_STEP applies and the command replies with last_beat (R463). -/
  | clkPhaseStepEnd
  /-- A host write to the endpoint's configuration space changes Bus Master Enable, the D0/D3hot power state or the MSI-X function mask, with the behaviour of R375, R378 and R379 (R375). -/
  | pcieConfigWrite (bme : Bool) (d3 : Bool) (msixEn : Bool) (fmask : Bool) (mps : Nat) (mrrs : Nat)
  /-- The endpoint detects a link or transaction error such as a Receiver Error, Malformed TLP or Unexpected Completion, logs it in AER and, if uncorrectable, raises fault source 137 (R380). -/
  | aerError (uncor : Bool) (err : Nat)
deriving DecidableEq, Repr

end Sys2Proof
end

