-- ==== Sys2Proof/Machine/Flags.lean ====
section
/-! DEFINITION. Status codes of replies (R73), record flags (R61, R306) and the other named codes the chapters share. -/
namespace Sys2Proof.Machine

abbrev ST_OK : Nat := 0x0000
abbrev ST_ACCEPTED : Nat := 0x0001
abbrev ST_BAD_OPCODE : Nat := 0x0101
abbrev ST_BAD_LENGTH : Nat := 0x0102
abbrev ST_BAD_PARAM : Nat := 0x0103
abbrev ST_UNIT_ABSENT : Nat := 0x0104
abbrev ST_OVER_BUDGET : Nat := 0x0105
abbrev ST_BUSY : Nat := 0x0106
abbrev ST_IN_USE : Nat := 0x0107
abbrev ST_STATE : Nat := 0x0108
abbrev ST_TIMEOUT : Nat := 0x0109
abbrev ST_LOCKED : Nat := 0x010A
abbrev ST_AUTH_FAIL : Nat := 0x0201
abbrev ST_REPLAY : Nat := 0x0202
abbrev ST_SIG_FAIL : Nat := 0x0203
abbrev ST_ROLLBACK : Nat := 0x0204
abbrev ST_FAULT : Nat := 0x0301
abbrev ST_HW_ERROR : Nat := 0x0302

/-- Record flags (R61), as their masks. -/
abbrev F_OVR : Nat := 0x001
abbrev F_NBR : Nat := 0x002
abbrev F_SAT : Nat := 0x004
abbrev F_CAL : Nat := 0x008
abbrev F_COARSE : Nat := 0x010
abbrev F_OVRUN : Nat := 0x020
abbrev F_BYP : Nat := 0x040
abbrev F_BLANK : Nat := 0x080
abbrev F_RFI : Nat := 0x100
abbrev F_TORN : Nat := 0x200
abbrev F_OVERFLOW : Nat := 0x400
abbrev F_END : Nat := 0x800
/-- Beside R61, inside the block only: OVD6 fired (R241). -/
abbrev F_OVD6 : Nat := 0x1000
/-- Flags of R306. -/
abbrev F_MORE : Nat := 0x10000
abbrev F_LOSS : Nat := 0x20000
abbrev F_QCLIP : Nat := 0x40000
abbrev F_DITH : Nat := 0x80000
abbrev F_TRUNC : Nat := 0x100000

/-- Power states as PWR_STAT.STATE codes them (R520). -/
abbrev PS_BOOTING : Nat := 0
abbrev PS_RUN : Nat := 1
abbrev PS_IDLE : Nat := 2
abbrev PS_STANDBY : Nat := 3
abbrev PS_HIBERNATE : Nat := 4
abbrev PS_ENTERING : Nat := 5
abbrev PS_LEAVING : Nat := 6
abbrev PS_HALTED : Nat := 7

end Sys2Proof.Machine
end

