-- ==== Sys2Proof/Config.lean ====
section
/-! DEFINITION. What an implementation fixes and the spec leaves open: opaque constants without a body, so that no
proof can lean on a value. Each is named in the assumption log. -/
namespace Sys2Proof.Config

/-- A fresh value of the part at the `n`th use, for a value that the spec leaves open (log 3). -/
opaque freeValue : Nat → Nat
/-- SHA-256 and HMAC-SHA-256 (R68, R543): named by the spec, defined outside it. -/
opaque sha256 : List Byte → BitVec 256
opaque hmac : BitVec 256 → List Byte → BitVec 256
/-- RSASSA-PSS verification of a message under a modulus and exponent (R543). -/
opaque rsaVerify : List Byte → Nat → List Byte → List Byte → Bool
/-- RSAES-OAEP unwrapping under the identity key to the bytes it holds (R556); none when it fails. -/
opaque oaepUnwrap : List Byte → Option (List Byte)
/-- The identity key's RSASSA-PSS signature over a message at the `n`th use (R552; the salt is random). -/
opaque identSign : Nat → List Byte → BitVec 3072
/-- The identity certificate, and whether its key matches the private key (R551). -/
opaque identCert : List Byte
/-- The fused serial number of the part (R551, R559). -/
opaque fusedSerial : Nat
/-- The digest of the boot ROM (R546). -/
opaque romDigest : BitVec 256
/-- Values recorded at factory test: the reset value of a factory register (R116, R136), by its address. -/
opaque factory : Nat → Word
/-- Mirgeval's vendor ID, fused (R375), and the fused base MAC address (R387). -/
opaque vendorId : BitVec 16
opaque baseMac : BitVec 48
/-- A core's fine-skew filter (R114; its taps are not stated): FSKEW, the words of its input up to the end of the beat, oldest
first, and the index of the sample; in 2^-18 LSB like its input. -/
opaque fracDelay : Int → List Int → Nat → Int
/-- The NCO's table of 65,536 cosine and sine values, 15 fraction bits (R147; the values are the part's own, log 20). -/
opaque ncoCos : Nat → BitVec 16
opaque ncoSin : Nat → BitVec 16
/-- Tap k of a half-band stage in 2^-40 (R150; the values are the part's own): linear phase up to the middle tap 23, or MINPH. -/
opaque hbTap : Nat → Int
opaque hbMinTap : Nat → Int
/-- A merged column of a source whose words are LOG words (R188 speaks of power only), from MODE and the column's words. -/
opaque mergeLog : Bool → List Nat → Nat
/-- How many of the spectra that a readout splits by cell a cell received before it was read (R210), from a free index and the
cell. -/
opaque splitCut : Nat → Nat → Nat
/-- The bank of a controller in which the row of a page lies (R334, R337; the map is not stated). -/
opaque hbmBank : Nat → Nat
/-- The banks of a pseudo-channel, each with 2 spare rows (R347, R351; their number is not stated). -/
opaque hbmBanks : Nat
/-- The band tables as boot flash holds them: entry i of sample MDLL q is word 32q+i (R450). -/
opaque bandTable : Nat → Word
/-- The levels of the GPIO balls of a register word that the board drives, at a point of the run: how many outputs came before (R573). -/
opaque gpioBall : Nat → Nat → Word
/-- The factory width table of a TDC channel, in hits of 2^17 per code (R436, R444). -/
opaque tdcWidth : Nat → Nat → Nat

end Sys2Proof.Config
end

