-- ==== Sys2Proof/Machine/Bits.lean ====
section
/-! DEFINITION. Bit fields, byte strings (little-endian, R14), signed numbers and roundings that the chapters share. -/
namespace Sys2Proof.Machine

/-- Bits `hi:lo` of a number. -/
def bitsOf (v hi lo : Nat) : Nat := v / 2 ^ lo % 2 ^ (hi + 1 - lo)
/-- Field `hi:lo` of a register value. -/
def fld (v : Word) (hi lo : Nat) : Nat := bitsOf v.toNat hi lo
/-- Bit `i` of a register value. -/
def bit (v : Word) (i : Nat) : Bool := v.toNat.testBit i
/-- The mask of bits `hi:lo`. -/
def mask (hi lo : Nat) : Word := BitVec.ofNat 32 ((2 ^ (hi + 1 - lo) - 1) * 2 ^ lo)
/-- Replace field `hi:lo` of a register value by `x`, cut to the field's width. -/
def setFld (v : Word) (hi lo x : Nat) : Word :=
  (v &&& ~~~ mask hi lo) ||| BitVec.ofNat 32 (x % 2 ^ (hi + 1 - lo) * 2 ^ lo)
/-- Set or clear bit `i`. -/
def putBit (v : Word) (i : Nat) (b : Bool) : Word := setFld v i i (if b then 1 else 0)

/-- A number as a 32-bit word, modulo 2^32. -/
def w32 (n : Nat) : Word := BitVec.ofNat 32 n
/-- A signed number as a 32-bit word. -/
def i32 (n : Int) : Word := BitVec.ofInt 32 n
/-- The signed value of the low `n` bits of a number. -/
def sext (n : Nat) (v : Nat) : Int :=
  let x := v % 2 ^ n
  if x < 2 ^ (n - 1) then (x : Int) else (x : Int) - 2 ^ n
/-- The low `n` bits of a signed number, in two's complement. -/
def lowBits (n : Nat) (v : Int) : Nat := (v % (2 ^ n : Nat)).toNat

/-- Byte `i` of a byte string; a byte past its end reads 0. -/
def byteAt : List Byte → Nat → Nat
  | [], _ => 0
  | b :: _, 0 => b.toNat
  | _ :: t, i + 1 => byteAt t i
/-- The `n`-byte little-endian field at offset `o`. -/
def leAt (p : List Byte) (o : Nat) : Nat → Nat
  | 0 => 0
  | n + 1 => byteAt p o + 256 * leAt p (o + 1) n
/-- One-, two-, four- and eight-byte fields of a packet. -/
def u8 (p : List Byte) (o : Nat) : Nat := byteAt p o
def u16 (p : List Byte) (o : Nat) : Nat := leAt p o 2
def u32 (p : List Byte) (o : Nat) : Nat := leAt p o 4
def u64 (p : List Byte) (o : Nat) : Nat := leAt p o 8
/-- Bytes `o … o+n−1` of a byte string. -/
def slice (p : List Byte) (o n : Nat) : List Byte := (p.drop o).take n
/-- All `n` bytes from offset `o` are zero (a reserved field, R15). -/
def zeroAt (p : List Byte) (o n : Nat) : Bool := leAt p o n == 0

/-- `n` as `k` little-endian bytes. -/
def leBytes : Nat → Nat → List Byte
  | 0, _ => []
  | k + 1, n => BitVec.ofNat 8 n :: leBytes k (n / 256)
def b1 (n : Nat) : List Byte := leBytes 1 n
def b2 (n : Nat) : List Byte := leBytes 2 n
def b4 (n : Nat) : List Byte := leBytes 4 n
def b8 (n : Nat) : List Byte := leBytes 8 n
/-- A register as four bytes. -/
def bw (v : Word) : List Byte := leBytes 4 v.toNat
def zeros (n : Nat) : List Byte := List.replicate n 0

/-- Arithmetic shift right, rounding towards minus infinity. -/
def asr (v : Int) (n : Nat) : Int := v / (2 ^ n : Nat)
/-- round_half_up(v / 2^n). -/
def rhu (v : Int) (n : Nat) : Int := if n = 0 then v else (v + (2 ^ (n - 1) : Nat)) / (2 ^ n : Nat)
/-- round_half_up(a / b) for a positive b. -/
def rdiv (a : Int) (b : Nat) : Int := (2 * a + b) / (2 * b : Nat)
/-- Hold `v` within `lo … hi`. -/
def clampI (lo hi v : Int) : Int := if v < lo then lo else if hi < v then hi else v
/-- Hold `v` in `n` bits, signed. -/
def satI (n : Nat) (v : Int) : Int := clampI (-(2 ^ (n - 1) : Nat)) ((2 ^ (n - 1) : Nat) - 1) v
/-- The value does not fit `n` signed bits. -/
def ovfI (n : Nat) (v : Int) : Bool := decide (satI n v ≠ v)
/-- A count that saturates at `m`. -/
def satAdd (m a b : Nat) : Nat := min m (a + b)
/-- ⌈a / b⌉. -/
def cdiv (a b : Nat) : Nat := (a + b - 1) / b
/-- The number of set bits among the low `n` bits. -/
def popN : Nat → Nat → Nat
  | 0, _ => 0
  | n + 1, v => v % 2 + popN n (v / 2)
/-- The indices below `n` of the set bits of `v`, ascending. -/
def bitList (n v : Nat) : List Nat := (List.range n).filter (fun i => v.testBit i)
/-- The word with exactly the listed bits set. -/
def bitsSet (l : List Nat) : Nat := l.foldr (fun i a => a ||| 2 ^ i) 0
/-- A distinct copy of a list, first occurrences kept. -/
def uniq : List Nat → List Nat
  | [] => []
  | a :: t => a :: (uniq t).filter (fun b => b != a)
/-- Element `i` of a list of numbers, 0 past its end. -/
def nth {α : Type} (d : α) : List α → Nat → α
  | [], _ => d
  | a :: _, 0 => a
  | _ :: t, i + 1 => nth d t i
/-- Replace element `i`. -/
def setNth {α : Type} : List α → Nat → α → List α
  | [], _, _ => []
  | _ :: t, 0, v => v :: t
  | a :: t, i + 1, v => a :: setNth t i v

/-- CRC-32C (R303): polynomial 0x1EDC_6F41 reflected, initial value and final XOR all ones. -/
def crcStep (c : BitVec 32) : Nat → BitVec 32
  | 0 => c
  | n + 1 => crcStep (if c.getLsbD 0 then (c >>> 1) ^^^ 0x82F63B78#32 else c >>> 1) n
def crc32c (p : List Byte) : Word :=
  (p.foldl (fun c b => crcStep (c ^^^ b.setWidth 32) 8) 0xFFFFFFFF#32) ^^^ 0xFFFFFFFF#32
/-- CRC-16 of a neighbour flit (R398): polynomial 0x1021, initial value 0xFFFF, no reflection, no final XOR. -/
def crc16Step (c : BitVec 16) : Nat → BitVec 16
  | 0 => c
  | n + 1 => crc16Step (if c.getLsbD 15 then (c <<< 1) ^^^ 0x1021#16 else c <<< 1) n
def crc16 (p : List Byte) : BitVec 16 :=
  p.foldl (fun c b => crc16Step (c ^^^ BitVec.ofNat 16 (256 * b.toNat)) 8) 0xFFFF#16

end Sys2Proof.Machine
end

