-- ==== Sys2Proof/Machine/Sparse.lean ====
section
/-! DEFINITION. Sparse tables over Nat keys, the one representation of every memory and register file of the model:
keys strictly rising, and no entry equal to what an unlisted key reads as. -/
namespace Sys2Proof.Machine.Sparse

/-- What key `k` reads as: its entry, or the default of an unlisted key. -/
def get {α : Type} (d : Nat → α) : List (Nat × α) → Nat → α
  | [], k => d k
  | (a, v) :: t, k => if a = k then v else get d t k

/-- Put `v` at key `k`, keeping the keys rising. -/
def ins {α : Type} : List (Nat × α) → Nat → α → List (Nat × α)
  | [], k, v => [(k, v)]
  | (a, w) :: t, k, v =>
    if a = k then (k, v) :: t else if k < a then (k, v) :: (a, w) :: t else (a, w) :: ins t k v

/-- Drop every entry of key `k`. -/
def del {α : Type} (m : List (Nat × α)) (k : Nat) : List (Nat × α) := m.filter (fun p => p.1 != k)

/-- Write `v` at key `k`; writing what an unlisted key reads as removes the entry. -/
def set {α : Type} [DecidableEq α] (d : Nat → α) (m : List (Nat × α)) (k : Nat) (v : α) : List (Nat × α) :=
  if v = d k then del m k else ins m k v

/-- Every key of the table is above `k`. -/
def above {α : Type} (k : Nat) (m : List (Nat × α)) : Bool := m.all (fun p => k < p.1)

/-- The canonical form: strictly rising keys, no entry equal to its default. -/
def wf {α : Type} [DecidableEq α] (d : Nat → α) : List (Nat × α) → Bool
  | [] => true
  | (a, v) :: t => above a t && decide (v ≠ d a) && wf d t

end Sys2Proof.Machine.Sparse
end

