-- ==== Sys2Proof/Machine/Regs.lean ====
section
/-! DEFINITION. The register map of BAR0 (R582): the address of every named register, and one table row per named
register with its instances, its RW and W1C bits, its reset value and its commit group (R17, R43, R44). -/
namespace Sys2Proof.Machine

/-- GLB_ID (R3). -/
abbrev GLB_ID : Nat := 0x0000000
/-- GLB_CAP0 (R3). -/
abbrev GLB_CAP0 : Nat := 0x0000008
/-- GLB_CAP1 (R3). -/
abbrev GLB_CAP1 : Nat := 0x000000C
/-- GLB_BEAT_LO (R23). -/
abbrev GLB_BEAT_LO : Nat := 0x0000010
/-- GLB_BEAT_HI (R23). -/
abbrev GLB_BEAT_HI : Nat := 0x0000014
/-- GLB_BEATPOS (R23). -/
abbrev GLB_BEATPOS : Nat := 0x0000018
/-- GLB_BEATSTAT (R23). -/
abbrev GLB_BEATSTAT : Nat := 0x000001C
/-- GLB_OVRSTAT (R42). -/
abbrev GLB_OVRSTAT : Nat := 0x0000020
/-- GLB_OVRCNT (R42). -/
abbrev GLB_OVRCNT : Nat := 0x0000024
/-- GLB_OVRBEAT_LO (R42). -/
abbrev GLB_OVRBEAT_LO : Nat := 0x0000028
/-- GLB_OVRBEAT_HI (R42). -/
abbrev GLB_OVRBEAT_HI : Nat := 0x000002C
/-- GLB_CMTSTAT (R55). -/
abbrev GLB_CMTSTAT : Nat := 0x0000030
/-- GLB_CMTLAST_LO (R55). -/
abbrev GLB_CMTLAST_LO : Nat := 0x0000038
/-- GLB_CMTLAST_HI (R55). -/
abbrev GLB_CMTLAST_HI : Nat := 0x000003C
/-- GLB_MARK (R30). -/
abbrev GLB_MARK (n : Nat) : Nat := 0x0000040 + 0x4 * n
/-- GLB_PINCTRL (R572). -/
abbrev GLB_PINCTRL : Nat := 0x0000080
/-- GLB_SWEVT (R586). -/
abbrev GLB_SWEVT : Nat := 0x0000088
/-- GLB_GPIOOE (R573). -/
abbrev GLB_GPIOOE (n : Nat) : Nat := 0x0000090 + 0x4 * n
/-- GLB_GPIOOUT (R573). -/
abbrev GLB_GPIOOUT (n : Nat) : Nat := 0x0000098 + 0x4 * n
/-- GLB_GPIOIN (R573). -/
abbrev GLB_GPIOIN (n : Nat) : Nat := 0x00000A0 + 0x4 * n
/-- GLB_LOCK (R93). -/
abbrev GLB_LOCK (n : Nat) : Nat := 0x0001000 + 0x4 * n
/-- PWR_STAT (R520). -/
abbrev PWR_STAT : Nat := 0x0010000
/-- PWR_WAKECFG (R520). -/
abbrev PWR_WAKECFG : Nat := 0x0010004
/-- PWR_WAKESRC (R520). -/
abbrev PWR_WAKESRC : Nat := 0x0010008
/-- PWR_OWLTMR (R520). -/
abbrev PWR_OWLTMR : Nat := 0x001000C
/-- PWR_TRANSTIME (R520). -/
abbrev PWR_TRANSTIME : Nat := 0x0010010
/-- PWR_RSTCAUSE (R520). -/
abbrev PWR_RSTCAUSE : Nat := 0x0010014
/-- PWR_TEMP (R520). -/
abbrev PWR_TEMP : Nat := 0x0010018
/-- PWR_BOOTTIME (R520). -/
abbrev PWR_BOOTTIME : Nat := 0x001001C
/-- PWR_STEP (R520). -/
abbrev PWR_STEP (n : Nat) : Nat := 0x0010100 + 0x4 * n
/-- FLT_CTRL (R540). -/
abbrev FLT_CTRL : Nat := 0x0020000
/-- FLT_CLSPEND (R540). -/
abbrev FLT_CLSPEND : Nat := 0x0020004
/-- FLT_FIRST (R540). -/
abbrev FLT_FIRST : Nat := 0x0020008
/-- FLT_IRQEN (R540). -/
abbrev FLT_IRQEN : Nat := 0x002000C
/-- FLT_LOGSTAT (R540). -/
abbrev FLT_LOGSTAT : Nat := 0x0020010
/-- FLT_LOGSEQ (R540). -/
abbrev FLT_LOGSEQ : Nat := 0x0020014
/-- FLT_LOGLOST (R540). -/
abbrev FLT_LOGLOST : Nat := 0x0020018
/-- FLT_LOGSUP (R540). -/
abbrev FLT_LOGSUP : Nat := 0x002001C
/-- FLT_ESCCNT (R540). -/
abbrev FLT_ESCCNT : Nat := 0x0020020
/-- FLT_TEST (R540). -/
abbrev FLT_TEST : Nat := 0x0020024
/-- FLT_INJECT (R540). -/
abbrev FLT_INJECT : Nat := 0x0020028
/-- FLT_FATALSRC (R540). -/
abbrev FLT_FATALSRC : Nat := 0x002002C
/-- FLT_LOGWM (R540). -/
abbrev FLT_LOGWM : Nat := 0x0020030
/-- FLT_STICKY (R540). -/
abbrev FLT_STICKY (n : Nat) : Nat := 0x0020040 + 0x4 * n
/-- FLT_RAILBAD (R540). -/
abbrev FLT_RAILBAD (n : Nat) : Nat := 0x0020060 + 0x4 * n
/-- FLT_SRCCFG (R540). -/
abbrev FLT_SRCCFG (n : Nat) : Nat := 0x0020100 + 0x4 * n
/-- SEC_BOOT (R561). -/
abbrev SEC_BOOT : Nat := 0x0030000
/-- SEC_FUSE (R561). -/
abbrev SEC_FUSE : Nat := 0x0030004
/-- SEC_UPDATE (R561). -/
abbrev SEC_UPDATE : Nat := 0x0030008
/-- SEC_SESS (R561). -/
abbrev SEC_SESS : Nat := 0x003000C
/-- SEC_SESSTMO (R561). -/
abbrev SEC_SESSTMO : Nat := 0x0030010
/-- SEC_PPEPOL (R561). -/
abbrev SEC_PPEPOL : Nat := 0x0030014
/-- SEC_KXCNT (R561). -/
abbrev SEC_KXCNT : Nat := 0x0030018
/-- SEC_KXFAIL (R561). -/
abbrev SEC_KXFAIL : Nat := 0x003001C
/-- SEC_ROMDIG (R561). -/
abbrev SEC_ROMDIG (n : Nat) : Nat := 0x0030020 + 0x4 * n
/-- SEC_FWDIG (R561). -/
abbrev SEC_FWDIG (n : Nat) : Nat := 0x0030040 + 0x4 * n
/-- SEC_CFGHASH (R561). -/
abbrev SEC_CFGHASH (n : Nat) : Nat := 0x0030060 + 0x4 * n
/-- MBX_STAT (R85). -/
abbrev MBX_STAT : Nat := 0x0040000
/-- MBX_ERRSRC (R85). -/
abbrev MBX_ERRSRC : Nat := 0x0040004
/-- MBX_TMO (R85). -/
abbrev MBX_TMO : Nat := 0x0040008
/-- MBX_EPOCH (R85). -/
abbrev MBX_EPOCH : Nat := 0x004000C
/-- MBX_IRQEN (R85). -/
abbrev MBX_IRQEN : Nat := 0x0040010
/-- MBX_DROPCNT (R85). -/
abbrev MBX_DROPCNT : Nat := 0x0040014
/-- MBX_AUTHCNT (R85). -/
abbrev MBX_AUTHCNT : Nat := 0x0040018
/-- MBX_REPLAYCNT (R85). -/
abbrev MBX_REPLAYCNT : Nat := 0x004001C
/-- MBX_HCDB (R85). -/
abbrev MBX_HCDB (n : Nat) : Nat := 0x0040100 + 0x10 * n
/-- MBX_HCSTAT (R85). -/
abbrev MBX_HCSTAT (n : Nat) : Nat := 0x0040104 + 0x10 * n
/-- MBX_HCSEQ (R85). -/
abbrev MBX_HCSEQ (n : Nat) : Nat := 0x0040108 + 0x10 * n
/-- MBX_HCBEAT (R85). -/
abbrev MBX_HCBEAT (n : Nat) : Nat := 0x004010C + 0x10 * n
/-- MBX_HRSTAT (R85). -/
abbrev MBX_HRSTAT (n : Nat) : Nat := 0x0040200 + 0x10 * n
/-- MBX_HRACK (R85). -/
abbrev MBX_HRACK (n : Nat) : Nat := 0x0040204 + 0x10 * n
/-- MBX_HRSEQ (R85). -/
abbrev MBX_HRSEQ (n : Nat) : Nat := 0x0040208 + 0x10 * n
/-- MBX_HREPOCH (R85). -/
abbrev MBX_HREPOCH (n : Nat) : Nat := 0x004020C + 0x10 * n
/-- MBX_PESTAT (R85). -/
abbrev MBX_PESTAT (n : Nat) : Nat := 0x0040400 + 0x4 * n
/-- MBX_CLDB (R85). -/
abbrev MBX_CLDB (n : Nat) : Nat := 0x0040600 + 0x10 * n
/-- MBX_CLPEND (R85). -/
abbrev MBX_CLPEND (n : Nat) : Nat := 0x0040604 + 0x10 * n
/-- MBX_CLMASK (R85). -/
abbrev MBX_CLMASK (n : Nat) : Nat := 0x0040608 + 0x10 * n
/-- CLK_STAT (R464). -/
abbrev CLK_STAT : Nat := 0x0100000
/-- CLK_LOCK (R464). -/
abbrev CLK_LOCK : Nat := 0x0100004
/-- CLK_BYP (R464). -/
abbrev CLK_BYP : Nat := 0x0100008
/-- CLK_LOL (R464). -/
abbrev CLK_LOL : Nat := 0x010000C
/-- CLK_RPLL (R464). -/
abbrev CLK_RPLL : Nat := 0x0100010
/-- CLK_SYNC (R464). -/
abbrev CLK_SYNC : Nat := 0x0100014
/-- CLK_VCLK (R464). -/
abbrev CLK_VCLK : Nat := 0x0100018
/-- CLK_BYPCNT (R464). -/
abbrev CLK_BYPCNT : Nat := 0x010001C
/-- CLK_SMDLL (R464). -/
abbrev CLK_SMDLL (n : Nat) : Nat := 0x0100020 + 0x4 * n
/-- CLK_PHOFF (R464). -/
abbrev CLK_PHOFF (n : Nat) : Nat := 0x0100030 + 0x4 * n
/-- CLK_BAND (R464). -/
abbrev CLK_BAND (n j : Nat) : Nat := 0x0100400 + 0x80 * n + 0x4 * j
/-- TIM_CTRL (R426). -/
abbrev TIM_CTRL : Nat := 0x0110000
/-- TIM_STAT (R426). -/
abbrev TIM_STAT : Nat := 0x0110004
/-- TIM_SERVO (R426). -/
abbrev TIM_SERVO : Nat := 0x0110008
/-- TIM_STEPMAX (R426). -/
abbrev TIM_STEPMAX : Nat := 0x011000C
/-- TIM_RATEMAX (R426). -/
abbrev TIM_RATEMAX : Nat := 0x0110010
/-- TIM_RATE (R426). -/
abbrev TIM_RATE : Nat := 0x0110014
/-- TIM_INTEG (R426). -/
abbrev TIM_INTEG : Nat := 0x0110018
/-- TIM_LASTERR (R426). -/
abbrev TIM_LASTERR : Nat := 0x011001C
/-- TIM_PPSDLY (R426). -/
abbrev TIM_PPSDLY : Nat := 0x0110020
/-- TIM_NBRDLY (R426). -/
abbrev TIM_NBRDLY : Nat := 0x0110024
/-- TIM_UTCOFF (R426). -/
abbrev TIM_UTCOFF : Nat := 0x0110028
/-- TIM_NOW_LO (R426). -/
abbrev TIM_NOW_LO : Nat := 0x0110030
/-- TIM_NOW_HI (R426). -/
abbrev TIM_NOW_HI : Nat := 0x0110034
/-- TIM_NOW_X (R426). -/
abbrev TIM_NOW_X : Nat := 0x0110038
/-- TIM_RAW_LO (R426). -/
abbrev TIM_RAW_LO : Nat := 0x0110040
/-- TIM_RAW_HI (R426). -/
abbrev TIM_RAW_HI : Nat := 0x0110044
/-- TIM_GRID (R426). -/
abbrev TIM_GRID : Nat := 0x0110050
/-- TIM_GRIDERR (R426). -/
abbrev TIM_GRIDERR : Nat := 0x0110054
/-- TIM_GCTRL (R426). -/
abbrev TIM_GCTRL : Nat := 0x0110058
/-- TIM_CNT (R426). -/
abbrev TIM_CNT : Nat := 0x0110060
/-- TIM_EVTSTAT (R426). -/
abbrev TIM_EVTSTAT : Nat := 0x0110064
/-- TIM_IRQEN (R426). -/
abbrev TIM_IRQEN : Nat := 0x0110068
/-- TDC_CTRL (R442). -/
abbrev TDC_CTRL : Nat := 0x0120000
/-- TDC_EVTSTAT (R442). -/
abbrev TDC_EVTSTAT : Nat := 0x0120004
/-- TDC_IRQEN (R442). -/
abbrev TDC_IRQEN : Nat := 0x0120008
/-- TDC_WARM (R442). -/
abbrev TDC_WARM : Nat := 0x012000C
/-- TDC_FCTRL (R442). -/
abbrev TDC_FCTRL (n : Nat) : Nat := 0x0120020 + 0x20 * n
/-- TDC_FGATE (R442). -/
abbrev TDC_FGATE (n : Nat) : Nat := 0x0120024 + 0x20 * n
/-- TDC_FRES_LO (R442). -/
abbrev TDC_FRES_LO (n : Nat) : Nat := 0x0120028 + 0x20 * n
/-- TDC_FRES_HI (R442). -/
abbrev TDC_FRES_HI (n : Nat) : Nat := 0x012002C + 0x20 * n
/-- TDC_FRMS (R442). -/
abbrev TDC_FRMS (n : Nat) : Nat := 0x0120030 + 0x20 * n
/-- TDC_FN (R442). -/
abbrev TDC_FN (n : Nat) : Nat := 0x0120034 + 0x20 * n
/-- TDC_CHCTRL (R442). -/
abbrev TDC_CHCTRL (n : Nat) : Nat := 0x0120100 + 0x40 * n
/-- TDC_CHSTAT (R442). -/
abbrev TDC_CHSTAT (n : Nat) : Nat := 0x0120104 + 0x40 * n
/-- TDC_CHQFILL (R442). -/
abbrev TDC_CHQFILL (n : Nat) : Nat := 0x0120108 + 0x40 * n
/-- TDC_CHSTAMP0 (R442). -/
abbrev TDC_CHSTAMP0 (n : Nat) : Nat := 0x012010C + 0x40 * n
/-- TDC_CHSTAMP1 (R442). -/
abbrev TDC_CHSTAMP1 (n : Nat) : Nat := 0x0120110 + 0x40 * n
/-- TDC_CHSTAMP2 (R442). -/
abbrev TDC_CHSTAMP2 (n : Nat) : Nat := 0x0120114 + 0x40 * n
/-- TDC_CHSTAMP3 (R442). -/
abbrev TDC_CHSTAMP3 (n : Nat) : Nat := 0x0120118 + 0x40 * n
/-- TDC_CHSTAMPCNT (R442). -/
abbrev TDC_CHSTAMPCNT (n : Nat) : Nat := 0x012011C + 0x40 * n
/-- TDC_CHLOSTCNT (R442). -/
abbrev TDC_CHLOSTCNT (n : Nat) : Nat := 0x0120120 + 0x40 * n
/-- TDC_CHDEADCNT (R442). -/
abbrev TDC_CHDEADCNT (n : Nat) : Nat := 0x0120124 + 0x40 * n
/-- TDC_CHCALSTAT (R442). -/
abbrev TDC_CHCALSTAT (n : Nat) : Nat := 0x0120128 + 0x40 * n
/-- TDC_CHWMCNT (R442). -/
abbrev TDC_CHWMCNT (n : Nat) : Nat := 0x012012C + 0x40 * n
/-- CNV_CTRL (R136). -/
abbrev CNV_CTRL (n : Nat) : Nat := 0x1000000 + 0x1000 * n
/-- CNV_STAT (R136). -/
abbrev CNV_STAT (n : Nat) : Nat := 0x1000004 + 0x1000 * n
/-- CNV_BGCAL (R136). -/
abbrev CNV_BGCAL (n : Nat) : Nat := 0x1000008 + 0x1000 * n
/-- CNV_BGSTAT (R136). -/
abbrev CNV_BGSTAT (n : Nat) : Nat := 0x100000C + 0x1000 * n
/-- CNV_CALCNT (R136). -/
abbrev CNV_CALCNT (n : Nat) : Nat := 0x1000010 + 0x1000 * n
/-- CNV_LIMSTAT (R136). -/
abbrev CNV_LIMSTAT (n : Nat) : Nat := 0x1000014 + 0x1000 * n
/-- CNV_CALTIME_LO (R136). -/
abbrev CNV_CALTIME_LO (n : Nat) : Nat := 0x1000018 + 0x1000 * n
/-- CNV_CALTIME_HI (R136). -/
abbrev CNV_CALTIME_HI (n : Nat) : Nat := 0x100001C + 0x1000 * n
/-- CNV_CALTIME_X (R136). -/
abbrev CNV_CALTIME_X (n : Nat) : Nat := 0x1000020 + 0x1000 * n
/-- CNV_CALBEAT_LO (R136). -/
abbrev CNV_CALBEAT_LO (n : Nat) : Nat := 0x1000024 + 0x1000 * n
/-- CNV_CALBEAT_HI (R136). -/
abbrev CNV_CALBEAT_HI (n : Nat) : Nat := 0x1000028 + 0x1000 * n
/-- CNV_FGSTAT (R136). -/
abbrev CNV_FGSTAT (n : Nat) : Nat := 0x100002C + 0x1000 * n
/-- CNV_OVRSTAT (R136). -/
abbrev CNV_OVRSTAT (n : Nat) : Nat := 0x1000030 + 0x1000 * n
/-- CNV_OVRCNT (R136). -/
abbrev CNV_OVRCNT (n : Nat) : Nat := 0x1000034 + 0x1000 * n
/-- CNV_NBRCNT (R136). -/
abbrev CNV_NBRCNT (n : Nat) : Nat := 0x1000038 + 0x1000 * n
/-- CNV_OVRBEAT_LO (R136). -/
abbrev CNV_OVRBEAT_LO (n : Nat) : Nat := 0x100003C + 0x1000 * n
/-- CNV_OVRBEAT_HI (R136). -/
abbrev CNV_OVRBEAT_HI (n : Nat) : Nat := 0x1000040 + 0x1000 * n
/-- CNV_OFFSET (R136). -/
abbrev CNV_OFFSET (n : Nat) : Nat := 0x1000044 + 0x1000 * n
/-- CNV_GAIN (R136). -/
abbrev CNV_GAIN (n : Nat) : Nat := 0x1000048 + 0x1000 * n
/-- CNV_SKEW (R136). -/
abbrev CNV_SKEW (n : Nat) : Nat := 0x100004C + 0x1000 * n
/-- CNV_THR12 (R136). -/
abbrev CNV_THR12 (n : Nat) : Nat := 0x1000050 + 0x1000 * n
/-- CNV_THR34 (R136). -/
abbrev CNV_THR34 (n : Nat) : Nat := 0x1000054 + 0x1000 * n
/-- CNV_THR56 (R136). -/
abbrev CNV_THR56 (n : Nat) : Nat := 0x1000058 + 0x1000 * n
/-- CNV_LANDSTAT (R136). -/
abbrev CNV_LANDSTAT (n : Nat) : Nat := 0x100005C + 0x1000 * n
/-- CNV_INDLY (R136). -/
abbrev CNV_INDLY (n : Nat) : Nat := 0x1000060 + 0x1000 * n
/-- CNV_MEAN (R136). -/
abbrev CNV_MEAN (n : Nat) : Nat := 0x1000064 + 0x1000 * n
/-- CNV_RMS (R136). -/
abbrev CNV_RMS (n : Nat) : Nat := 0x1000068 + 0x1000 * n
/-- CNV_CLIPCNT (R136). -/
abbrev CNV_CLIPCNT (n : Nat) : Nat := 0x100006C + 0x1000 * n
/-- PTH_CTRL (R168). -/
abbrev PTH_CTRL (n : Nat) : Nat := 0x1200000 + 0x1000 * n
/-- PTH_STAT (R168). -/
abbrev PTH_STAT (n : Nat) : Nat := 0x1200004 + 0x1000 * n
/-- PTH_DCB (R168). -/
abbrev PTH_DCB (n : Nat) : Nat := 0x1200008 + 0x1000 * n
/-- PTH_DCEST (R168). -/
abbrev PTH_DCEST (n : Nat) : Nat := 0x120000C + 0x1000 * n
/-- PTH_BLK (R168). -/
abbrev PTH_BLK (n : Nat) : Nat := 0x1200010 + 0x1000 * n
/-- PTH_BLKCNT (R168). -/
abbrev PTH_BLKCNT (n : Nat) : Nat := 0x1200014 + 0x1000 * n
/-- PTH_BLKTOT (R168). -/
abbrev PTH_BLKTOT (n : Nat) : Nat := 0x1200018 + 0x1000 * n
/-- PTH_NCOFTW_LO (R168). -/
abbrev PTH_NCOFTW_LO (n : Nat) : Nat := 0x120001C + 0x1000 * n
/-- PTH_NCOFTW_HI (R168). -/
abbrev PTH_NCOFTW_HI (n : Nat) : Nat := 0x1200020 + 0x1000 * n
/-- PTH_NCOPH (R168). -/
abbrev PTH_NCOPH (n : Nat) : Nat := 0x1200024 + 0x1000 * n
/-- PTH_DEC (R168). -/
abbrev PTH_DEC (n : Nat) : Nat := 0x1200028 + 0x1000 * n
/-- PTH_FIR (R168). -/
abbrev PTH_FIR (n : Nat) : Nat := 0x120002C + 0x1000 * n
/-- PTH_FIRINFO_A (R168). -/
abbrev PTH_FIRINFO_A (n : Nat) : Nat := 0x1200030 + 0x1000 * n
/-- PTH_FIRINFO_B (R168). -/
abbrev PTH_FIRINFO_B (n : Nat) : Nat := 0x1200034 + 0x1000 * n
/-- PTH_XFSTAT (R168). -/
abbrev PTH_XFSTAT (n : Nat) : Nat := 0x1200038 + 0x1000 * n
/-- PTH_GRPDLY (R168). -/
abbrev PTH_GRPDLY (n : Nat) : Nat := 0x120003C + 0x1000 * n
/-- PTH_SATCNT (R168). -/
abbrev PTH_SATCNT (n : Nat) : Nat := 0x1200040 + 0x1000 * n
/-- SLC_STAT (R199). -/
abbrev SLC_STAT (n : Nat) : Nat := 0x1400000 + 0x2000 * n
/-- SLC_IRQEN (R199). -/
abbrev SLC_IRQEN (n : Nat) : Nat := 0x1400004 + 0x2000 * n
/-- SLC_EVTSTAT (R199). -/
abbrev SLC_EVTSTAT (n : Nat) : Nat := 0x1400008 + 0x2000 * n
/-- SLC_SATCNT (R199). -/
abbrev SLC_SATCNT (n : Nat) : Nat := 0x140000C + 0x2000 * n
/-- SLC_WININFO_A (R199). -/
abbrev SLC_WININFO_A (n : Nat) : Nat := 0x1400010 + 0x2000 * n
/-- SLC_WININFO_B (R199). -/
abbrev SLC_WININFO_B (n : Nat) : Nat := 0x1400014 + 0x2000 * n
/-- SLC_ANCHOR_LO (R199). -/
abbrev SLC_ANCHOR_LO (n : Nat) : Nat := 0x1400018 + 0x2000 * n
/-- SLC_ANCHOR_HI (R199). -/
abbrev SLC_ANCHOR_HI (n : Nat) : Nat := 0x140001C + 0x2000 * n
/-- SLC_LCTRL (R199). -/
abbrev SLC_LCTRL (n j : Nat) : Nat := 0x1400100 + 0x2000 * n + 0x100 * j
/-- SLC_LFFT (R199). -/
abbrev SLC_LFFT (n j : Nat) : Nat := 0x1400104 + 0x2000 * n + 0x100 * j
/-- SLC_LRANK (R199). -/
abbrev SLC_LRANK (n j : Nat) : Nat := 0x1400108 + 0x2000 * n + 0x100 * j
/-- SLC_LPEAK (R199). -/
abbrev SLC_LPEAK (n j : Nat) : Nat := 0x140010C + 0x2000 * n + 0x100 * j
/-- SLC_LPKRANGE (R199). -/
abbrev SLC_LPKRANGE (n j : Nat) : Nat := 0x1400110 + 0x2000 * n + 0x100 * j
/-- SLC_LMERGE (R199). -/
abbrev SLC_LMERGE (n j : Nat) : Nat := 0x1400114 + 0x2000 * n + 0x100 * j
/-- SLC_LMRANGE (R199). -/
abbrev SLC_LMRANGE (n j : Nat) : Nat := 0x1400118 + 0x2000 * n + 0x100 * j
/-- SLC_LMASK (R199). -/
abbrev SLC_LMASK (n j : Nat) : Nat := 0x140011C + 0x2000 * n + 0x100 * j
/-- SLC_LTRACE (R199). -/
abbrev SLC_LTRACE (n j t : Nat) : Nat := 0x1400120 + 0x2000 * n + 0x100 * j + 0x4 * t
/-- SLC_LSPECCNT_LO (R199). -/
abbrev SLC_LSPECCNT_LO (n j : Nat) : Nat := 0x1400130 + 0x2000 * n + 0x100 * j
/-- SLC_LSPECCNT_HI (R199). -/
abbrev SLC_LSPECCNT_HI (n j : Nat) : Nat := 0x1400134 + 0x2000 * n + 0x100 * j
/-- SLC_LLAST_LO (R199). -/
abbrev SLC_LLAST_LO (n j : Nat) : Nat := 0x1400138 + 0x2000 * n + 0x100 * j
/-- SLC_LLAST_HI (R199). -/
abbrev SLC_LLAST_HI (n j : Nat) : Nat := 0x140013C + 0x2000 * n + 0x100 * j
/-- SLC_LRFICNT (R199). -/
abbrev SLC_LRFICNT (n j : Nat) : Nat := 0x1400140 + 0x2000 * n + 0x100 * j
/-- SLC_LRFITOT (R199). -/
abbrev SLC_LRFITOT (n j : Nat) : Nat := 0x1400144 + 0x2000 * n + 0x100 * j
/-- SLC_LPKCNT (R199). -/
abbrev SLC_LPKCNT (n j : Nat) : Nat := 0x1400148 + 0x2000 * n + 0x100 * j
/-- SLC_LMSKSTAT (R199). -/
abbrev SLC_LMSKSTAT (n j : Nat) : Nat := 0x140014C + 0x2000 * n + 0x100 * j
/-- SLC_LMSKCNT (R199). -/
abbrev SLC_LMSKCNT (n j : Nat) : Nat := 0x1400150 + 0x2000 * n + 0x100 * j
/-- SLC_LBINS (R199). -/
abbrev SLC_LBINS (n j : Nat) : Nat := 0x1400154 + 0x2000 * n + 0x100 * j
/-- SLC_LPOI (R199). -/
abbrev SLC_LPOI (n j : Nat) : Nat := 0x1400158 + 0x2000 * n + 0x100 * j
/-- SLC_LWINFO (R199). -/
abbrev SLC_LWINFO (n j : Nat) : Nat := 0x140015C + 0x2000 * n + 0x100 * j
/-- DEN_CTRL (R228). -/
abbrev DEN_CTRL : Nat := 0x1600000
/-- DEN_STAT (R228). -/
abbrev DEN_STAT : Nat := 0x1600004
/-- DEN_HBMBASE_LO (R228). -/
abbrev DEN_HBMBASE_LO : Nat := 0x1600008
/-- DEN_HBMBASE_HI (R228). -/
abbrev DEN_HBMBASE_HI : Nat := 0x160000C
/-- DEN_SLOTS (R228). -/
abbrev DEN_SLOTS : Nat := 0x1600010
/-- DEN_SATCNT (R228). -/
abbrev DEN_SATCNT : Nat := 0x1600014
/-- DEN_LATECNT (R228). -/
abbrev DEN_LATECNT : Nat := 0x1600018
/-- DEN_LASTFLUSH_LO (R228). -/
abbrev DEN_LASTFLUSH_LO : Nat := 0x160001C
/-- DEN_LASTFLUSH_HI (R228). -/
abbrev DEN_LASTFLUSH_HI : Nat := 0x1600020
/-- DEN_RDBEATS (R228). -/
abbrev DEN_RDBEATS : Nat := 0x1600024
/-- DEN_PCFG (R228). -/
abbrev DEN_PCFG (n : Nat) : Nat := 0x1600100 + 0x8 * n
/-- DEN_PMAP (R228). -/
abbrev DEN_PMAP (n : Nat) : Nat := 0x1600104 + 0x8 * n
/-- DEN_RGNA (R228). -/
abbrev DEN_RGNA (n : Nat) : Nat := 0x1600200 + 0x10 * n
/-- DEN_RGNB (R228). -/
abbrev DEN_RGNB (n : Nat) : Nat := 0x1600204 + 0x10 * n
/-- DEN_RGNACC (R228). -/
abbrev DEN_RGNACC (n : Nat) : Nat := 0x1600208 + 0x10 * n
/-- CORR_CTRL (R228). -/
abbrev CORR_CTRL : Nat := 0x1600400
/-- CORR_STAT (R228). -/
abbrev CORR_STAT : Nat := 0x1600404
/-- CORR_IPER (R228). -/
abbrev CORR_IPER : Nat := 0x1600408
/-- CORR_HBMBASE_LO (R228). -/
abbrev CORR_HBMBASE_LO : Nat := 0x160040C
/-- CORR_HBMBASE_HI (R228). -/
abbrev CORR_HBMBASE_HI : Nat := 0x1600410
/-- CORR_SLOTS (R228). -/
abbrev CORR_SLOTS : Nat := 0x1600414
/-- CORR_LATECNT (R228). -/
abbrev CORR_LATECNT : Nat := 0x1600418
/-- CORR_LASTEND_LO (R228). -/
abbrev CORR_LASTEND_LO : Nat := 0x160041C
/-- CORR_LASTEND_HI (R228). -/
abbrev CORR_LASTEND_HI : Nat := 0x1600420
/-- CORR_GAIN (R228). -/
abbrev CORR_GAIN (n : Nat) : Nat := 0x1600440 + 0x4 * n
/-- TRG_CTRL (R259). -/
abbrev TRG_CTRL (n : Nat) : Nat := 0x1700000 + 0x400 * n
/-- TRG_SRC (R259). -/
abbrev TRG_SRC (n : Nat) : Nat := 0x1700004 + 0x400 * n
/-- TRG_THR (R259). -/
abbrev TRG_THR (n : Nat) : Nat := 0x1700008 + 0x400 * n
/-- TRG_PARAM (R259). -/
abbrev TRG_PARAM (n : Nat) : Nat := 0x170000C + 0x400 * n
/-- TRG_PAT (R259). -/
abbrev TRG_PAT (n : Nat) : Nat := 0x1700010 + 0x400 * n
/-- TRG_CARE (R259). -/
abbrev TRG_CARE (n : Nat) : Nat := 0x1700014 + 0x400 * n
/-- TRG_HOLD (R259). -/
abbrev TRG_HOLD (n : Nat) : Nat := 0x1700018 + 0x400 * n
/-- TRG_TOK (R259). -/
abbrev TRG_TOK (n : Nat) : Nat := 0x170001C + 0x400 * n
/-- TRG_TIME_NS (R259). -/
abbrev TRG_TIME_NS (n : Nat) : Nat := 0x1700020 + 0x400 * n
/-- TRG_TIME_SLO (R259). -/
abbrev TRG_TIME_SLO (n : Nat) : Nat := 0x1700024 + 0x400 * n
/-- TRG_TIME_SHI (R259). -/
abbrev TRG_TIME_SHI (n : Nat) : Nat := 0x1700028 + 0x400 * n
/-- TRG_STAT (R259). -/
abbrev TRG_STAT (n : Nat) : Nat := 0x170002C + 0x400 * n
/-- TRG_FIRECNT (R259). -/
abbrev TRG_FIRECNT (n : Nat) : Nat := 0x1700030 + 0x400 * n
/-- TRG_LASTBEAT_LO (R259). -/
abbrev TRG_LASTBEAT_LO (n : Nat) : Nat := 0x1700034 + 0x400 * n
/-- TRG_LASTBEAT_HI (R259). -/
abbrev TRG_LASTBEAT_HI (n : Nat) : Nat := 0x1700038 + 0x400 * n
/-- TRG_LASTPOS (R259). -/
abbrev TRG_LASTPOS (n : Nat) : Nat := 0x170003C + 0x400 * n
/-- TRG_ARMSTAT (R259). -/
abbrev TRG_ARMSTAT : Nat := 0x1708000
/-- TRG_FIRESTAT (R259). -/
abbrev TRG_FIRESTAT : Nat := 0x1708004
/-- TRG_IRQEN (R259). -/
abbrev TRG_IRQEN : Nat := 0x1708008
/-- TRG_IODIR (R259). -/
abbrev TRG_IODIR : Nat := 0x170800C
/-- TRG_MSKBUSY_LO (R259). -/
abbrev TRG_MSKBUSY_LO : Nat := 0x1708010
/-- TRG_MSKBUSY_HI (R259). -/
abbrev TRG_MSKBUSY_HI : Nat := 0x1708014
/-- TRG_TOKRXCNT (R259). -/
abbrev TRG_TOKRXCNT : Nat := 0x1708018
/-- TRG_TOKTXCNT (R259). -/
abbrev TRG_TOKTXCNT : Nat := 0x170801C
/-- TRG_TOKERRCNT (R259). -/
abbrev TRG_TOKERRCNT : Nat := 0x1708020
/-- CAR_STAT (R260). -/
abbrev CAR_STAT : Nat := 0x1780000
/-- CAR_IRQEN (R260). -/
abbrev CAR_IRQEN : Nat := 0x1780004
/-- CAR_RATE (R260). -/
abbrev CAR_RATE : Nat := 0x1780008
/-- CAR_OVFCNT (R260). -/
abbrev CAR_OVFCNT : Nat := 0x178000C
/-- CAR_CHCTRL (R260). -/
abbrev CAR_CHCTRL (n : Nat) : Nat := 0x1780100 + 0x40 * n
/-- CAR_CHSRC (R260). -/
abbrev CAR_CHSRC (n : Nat) : Nat := 0x1780104 + 0x40 * n
/-- CAR_CHBASE_LO (R260). -/
abbrev CAR_CHBASE_LO (n : Nat) : Nat := 0x1780108 + 0x40 * n
/-- CAR_CHBASE_HI (R260). -/
abbrev CAR_CHBASE_HI (n : Nat) : Nat := 0x178010C + 0x40 * n
/-- CAR_CHSEG (R260). -/
abbrev CAR_CHSEG (n : Nat) : Nat := 0x1780110 + 0x40 * n
/-- CAR_CHPOST (R260). -/
abbrev CAR_CHPOST (n : Nat) : Nat := 0x1780114 + 0x40 * n
/-- CAR_CHNSEG (R260). -/
abbrev CAR_CHNSEG (n : Nat) : Nat := 0x1780118 + 0x40 * n
/-- CAR_CHSTAT (R260). -/
abbrev CAR_CHSTAT (n : Nat) : Nat := 0x178011C + 0x40 * n
/-- CAR_CHSEGCNT_LO (R260). -/
abbrev CAR_CHSEGCNT_LO (n : Nat) : Nat := 0x1780120 + 0x40 * n
/-- CAR_CHSEGCNT_HI (R260). -/
abbrev CAR_CHSEGCNT_HI (n : Nat) : Nat := 0x1780124 + 0x40 * n
/-- CAR_CHCAP (R260). -/
abbrev CAR_CHCAP (n : Nat) : Nat := 0x1780128 + 0x40 * n
/-- CAR_CHMISS (R260). -/
abbrev CAR_CHMISS (n : Nat) : Nat := 0x178012C + 0x40 * n
/-- CAR_CHFILL (R260). -/
abbrev CAR_CHFILL (n : Nat) : Nat := 0x1780130 + 0x40 * n
/-- CAR_CHPATHS (R260). -/
abbrev CAR_CHPATHS (n : Nat) : Nat := 0x1780134 + 0x40 * n
/-- PPE_CTRL (R299). -/
abbrev PPE_CTRL (n : Nat) : Nat := 0x2000000 + 0x10000 * n
/-- PPE_STAT (R299). -/
abbrev PPE_STAT (n : Nat) : Nat := 0x2000004 + 0x10000 * n
/-- PPE_PC (R299). -/
abbrev PPE_PC (n : Nat) : Nat := 0x2000008 + 0x10000 * n
/-- PPE_CYC (R299). -/
abbrev PPE_CYC (n : Nat) : Nat := 0x200000C + 0x10000 * n
/-- PPE_CNT (R299). -/
abbrev PPE_CNT (n : Nat) : Nat := 0x2000010 + 0x10000 * n
/-- PPE_HOLD (R299). -/
abbrev PPE_HOLD (n : Nat) : Nat := 0x2000014 + 0x10000 * n
/-- PPE_IRQ (R299). -/
abbrev PPE_IRQ (n : Nat) : Nat := 0x2000018 + 0x10000 * n
/-- PPE_FAULT (R299). -/
abbrev PPE_FAULT (n : Nat) : Nat := 0x200001C + 0x10000 * n
/-- PPE_CLCTRL (R299). -/
abbrev PPE_CLCTRL (n : Nat) : Nat := 0x2400000 + 0x40 * n
/-- PPE_CLSTAT (R299). -/
abbrev PPE_CLSTAT (n : Nat) : Nat := 0x2400004 + 0x40 * n
/-- PPE_CLWAKECNT (R299). -/
abbrev PPE_CLWAKECNT (n : Nat) : Nat := 0x2400008 + 0x40 * n
/-- DMA_CTRL (R372). -/
abbrev DMA_CTRL (n : Nat) : Nat := 0x3000000 + 0x100 * n
/-- DMA_STAT (R372). -/
abbrev DMA_STAT (n : Nat) : Nat := 0x3000004 + 0x100 * n
/-- DMA_PROG_LO (R372). -/
abbrev DMA_PROG_LO (n : Nat) : Nat := 0x3000008 + 0x100 * n
/-- DMA_PROG_HI (R372). -/
abbrev DMA_PROG_HI (n : Nat) : Nat := 0x300000C + 0x100 * n
/-- MEM_STAT (R351). -/
abbrev MEM_STAT : Nat := 0x3100000
/-- MEM_CTRL (R351). -/
abbrev MEM_CTRL : Nat := 0x3100004
/-- MEM_SHARE (R351). -/
abbrev MEM_SHARE : Nat := 0x3100008
/-- MEM_SHARECAP (R351). -/
abbrev MEM_SHARECAP : Nat := 0x310000C
/-- MEM_CAPACITY (R351). -/
abbrev MEM_CAPACITY : Nat := 0x3100010
/-- MEM_CARBASE (R336). -/
abbrev MEM_CARBASE : Nat := 0x3100018
/-- MEM_CARSIZE (R336). -/
abbrev MEM_CARSIZE : Nat := 0x310001C
/-- MEM_CARSPARE (R336). -/
abbrev MEM_CARSPARE : Nat := 0x3100020
/-- MEM_STRBASE (R336). -/
abbrev MEM_STRBASE : Nat := 0x3100024
/-- MEM_STRSIZE (R336). -/
abbrev MEM_STRSIZE : Nat := 0x3100028
/-- MEM_STRSPARE (R336). -/
abbrev MEM_STRSPARE : Nat := 0x310002C
/-- MEM_RETCNT (R351). -/
abbrev MEM_RETCNT : Nat := 0x3100014
/-- MEM_CECNT (R351). -/
abbrev MEM_CECNT : Nat := 0x3100030
/-- MEM_UECNT (R351). -/
abbrev MEM_UECNT : Nat := 0x3100034
/-- MEM_CAPARCNT (R351). -/
abbrev MEM_CAPARCNT : Nat := 0x3100038
/-- MEM_REPCNT (R351). -/
abbrev MEM_REPCNT : Nat := 0x310003C
/-- MEM_ERRADDR_LO (R351). -/
abbrev MEM_ERRADDR_LO : Nat := 0x3100040
/-- MEM_ERRADDR_HI (R351). -/
abbrev MEM_ERRADDR_HI : Nat := 0x3100044
/-- MEM_CLSHORT (R351). -/
abbrev MEM_CLSHORT : Nat := 0x3100048
/-- MEM_TEMP (R351). -/
abbrev MEM_TEMP : Nat := 0x310004C
/-- MEM_PCSTAT (R351). -/
abbrev MEM_PCSTAT (n : Nat) : Nat := 0x3100400 + 0x10 * n
/-- MEM_PCCECNT (R351). -/
abbrev MEM_PCCECNT (n : Nat) : Nat := 0x3100404 + 0x10 * n
/-- MEM_PCUECNT (R351). -/
abbrev MEM_PCUECNT (n : Nat) : Nat := 0x3100408 + 0x10 * n
/-- MEM_PCLASTREP (R351). -/
abbrev MEM_PCLASTREP (n : Nat) : Nat := 0x310040C + 0x10 * n
/-- OC_STAT (R332). -/
abbrev OC_STAT : Nat := 0x3200000
/-- OC_DROPCNT (R332). -/
abbrev OC_DROPCNT : Nat := 0x3200004
/-- OC_NBRDROP (R332). -/
abbrev OC_NBRDROP : Nat := 0x3200008
/-- OC_HCONS_LO (R332). -/
abbrev OC_HCONS_LO (n : Nat) : Nat := 0x3200100 + 0x8 * n
/-- OC_HCONS_HI (R332). -/
abbrev OC_HCONS_HI (n : Nat) : Nat := 0x3200104 + 0x8 * n
/-- LNK_PCISTAT (R404). -/
abbrev LNK_PCISTAT : Nat := 0x3200200
/-- LNK_PCIDEV (R404). -/
abbrev LNK_PCIDEV : Nat := 0x3200204
/-- LNK_BISORPORT (R404). -/
abbrev LNK_BISORPORT : Nat := 0x3200208
/-- LNK_ETHMODE (R404). -/
abbrev LNK_ETHMODE : Nat := 0x320020C
/-- LNK_ETHSTAT (R404). -/
abbrev LNK_ETHSTAT (n : Nat) : Nat := 0x3200210 + 0x4 * n
/-- LNK_ETHRXDROP (R404). -/
abbrev LNK_ETHRXDROP : Nat := 0x3200230
/-- LNK_ETHTXLATE (R404). -/
abbrev LNK_ETHTXLATE : Nat := 0x3200234
/-- LNK_NBSTAT (R404). -/
abbrev LNK_NBSTAT (n : Nat) : Nat := 0x3200240 + 0x4 * n
/-- LNK_NBRTT (R404). -/
abbrev LNK_NBRTT (n : Nat) : Nat := 0x3200248 + 0x4 * n
/-- LNK_NBCRCCNT (R404). -/
abbrev LNK_NBCRCCNT : Nat := 0x3200250
/-- LNK_NVSTAT (R404). -/
abbrev LNK_NVSTAT (n : Nat) : Nat := 0x3200260 + 0x4 * n
/-- LNK_NVTMO (R404). -/
abbrev LNK_NVTMO : Nat := 0x3200270
/-- LNK_EQCTRL (R404). -/
abbrev LNK_EQCTRL (n : Nat) : Nat := 0x3200300 + 0x20 * n
/-- LNK_EQBASE_LO (R404). -/
abbrev LNK_EQBASE_LO (n : Nat) : Nat := 0x3200304 + 0x20 * n
/-- LNK_EQBASE_HI (R404). -/
abbrev LNK_EQBASE_HI (n : Nat) : Nat := 0x3200308 + 0x20 * n
/-- LNK_EQHEAD (R404). -/
abbrev LNK_EQHEAD (n : Nat) : Nat := 0x320030C + 0x20 * n
/-- LNK_EQTAIL (R404). -/
abbrev LNK_EQTAIL (n : Nat) : Nat := 0x3200310 + 0x20 * n
/-- DSP_CTRL (R483). -/
abbrev DSP_CTRL : Nat := 0x3300000
/-- DSP_STAT (R483). -/
abbrev DSP_STAT : Nat := 0x3300004
/-- DSP_CMT (R483). -/
abbrev DSP_CMT : Nat := 0x3300008
/-- DSP_BG (R483). -/
abbrev DSP_BG : Nat := 0x330000C
/-- DSP_FRAME_LO (R483). -/
abbrev DSP_FRAME_LO : Nat := 0x3300010
/-- DSP_FRAME_HI (R483). -/
abbrev DSP_FRAME_HI : Nat := 0x3300014
/-- DSP_UNDCNT (R483). -/
abbrev DSP_UNDCNT : Nat := 0x3300018
/-- DSP_TORNCNT (R483). -/
abbrev DSP_TORNCNT : Nat := 0x330001C
/-- DSP_LCTRL (R483). -/
abbrev DSP_LCTRL (n : Nat) : Nat := 0x3300100 + 0x20 * n
/-- DSP_LPOS (R483). -/
abbrev DSP_LPOS (n : Nat) : Nat := 0x3300104 + 0x20 * n
/-- DSP_LHANDLE (R483). -/
abbrev DSP_LHANDLE (n : Nat) : Nat := 0x3300108 + 0x20 * n
/-- DSP_L0SRC (R483). -/
abbrev DSP_L0SRC : Nat := 0x3300160
/-- DSP_PALY (R483). -/
abbrev DSP_PALY (n : Nat) : Nat := 0x3300400 + 0x4 * n
/-- DSP_PALC (R483). -/
abbrev DSP_PALC (n : Nat) : Nat := 0x3300500 + 0x4 * n
/-- MON_LIMSTAT (R498). -/
abbrev MON_LIMSTAT : Nat := 0x3400000
/-- MON_EVTSTAT (R498). -/
abbrev MON_EVTSTAT : Nat := 0x3400004
/-- MON_IRQEN (R498). -/
abbrev MON_IRQEN : Nat := 0x3400008
/-- MON_FWCTRL (R498). -/
abbrev MON_FWCTRL : Nat := 0x340000C
/-- MON_FWCAL (R498). -/
abbrev MON_FWCAL (n : Nat) : Nat := 0x3400010 + 0x4 * n
/-- MON_CTRL (R498). -/
abbrev MON_CTRL (n : Nat) : Nat := 0x3400100 + 0x100 * n
/-- MON_STAT (R498). -/
abbrev MON_STAT (n : Nat) : Nat := 0x3400104 + 0x100 * n
/-- MON_INJ (R498). -/
abbrev MON_INJ (n : Nat) : Nat := 0x3400108 + 0x100 * n
/-- MON_OW (R498). -/
abbrev MON_OW (n : Nat) : Nat := 0x340010C + 0x100 * n
/-- MON_RSEQ (R498). -/
abbrev MON_RSEQ (n j : Nat) : Nat := 0x3400140 + 0x100 * n + 0x4 * j
/-- MON_RCAL (R498). -/
abbrev MON_RCAL (n j : Nat) : Nat := 0x3400180 + 0x100 * n + 0x4 * j
/-- MON_ISEQ (R498). -/
abbrev MON_ISEQ (n j : Nat) : Nat := 0x34001C0 + 0x100 * n + 0x4 * j
/-- MON_ICAL (R498). -/
abbrev MON_ICAL (n j : Nat) : Nat := 0x34001D0 + 0x100 * n + 0x4 * j
/-- MON_LIMLO (R498). -/
abbrev MON_LIMLO (n j : Nat) : Nat := 0x34001E0 + 0x100 * n + 0x8 * j
/-- MON_LIMHI (R498). -/
abbrev MON_LIMHI (n j : Nat) : Nat := 0x34001E4 + 0x100 * n + 0x8 * j
/-- MON_RES (R582). -/
abbrev MON_RES (n j : Nat) : Nat := 0x3400800 + 0x80 * n + 0x4 * j

/-- One named register with all its instances: first address, (count, stride) of each index from the outermost, the
bits that a write sets (RW), the bits that writing 1 clears (W1C), the reset value, and the commit group of its first
instance with the group step per outermost index (a group of 64 or more: not shadowed). -/
structure RegRow where
  base : Nat
  dims : List (Nat × Nat)
  rw : Nat
  w1c : Nat
  reset : Nat
  group : Nat
  gstep : Nat
deriving DecidableEq, Repr

/-- The instance indices that an offset from a row's base names, if any. -/
def instIdx : List (Nat × Nat) → Nat → Option (List Nat)
  | [], o => if o = 0 then some [] else none
  | (n, s) :: t, o =>
    if o / s < n then
      match instIdx t (o % s) with
      | some l => some (o / s :: l)
      | none => none
    else none

/-- The row and instance at address `a` in a block's rows. -/
def findRow : List RegRow → Nat → Option (RegRow × List Nat)
  | [], _ => none
  | r :: t, a =>
    if a < r.base then findRow t a
    else
      match instIdx r.dims (a - r.base) with
      | some l => some (r, l)
      | none => findRow t a

/-- Registers of block GLB. -/
def rowsGLB0 : List RegRow := [
  ⟨0x0, [], 0x0, 0x0, 0x10000, 64, 0⟩,
  ⟨0x8, [], 0x0, 0x0, 0x4FF6F, 64, 0⟩,
  ⟨0xC, [], 0x0, 0x0, 0xF3830, 64, 0⟩,
  ⟨0x10, [], 0x0, 0x0, 0x0, 64, 0⟩,
  ⟨0x14, [], 0x0, 0x0, 0x0, 64, 0⟩,
  ⟨0x18, [], 0x0, 0x0, 0x0, 64, 0⟩,
  ⟨0x1C, [], 0x0, 0x0, 0x0, 64, 0⟩,
  ⟨0x20, [], 0x0, 0x7F, 0x0, 64, 0⟩,
  ⟨0x24, [], 0x0, 0x0, 0x0, 64, 0⟩,
  ⟨0x28, [], 0x0, 0x0, 0x0, 64, 0⟩,
  ⟨0x2C, [], 0x0, 0x0, 0x0, 64, 0⟩,
  ⟨0x30, [], 0x0, 0x6, 0x0, 64, 0⟩]
def rowsGLB1 : List RegRow := [
  ⟨0x38, [], 0x0, 0x0, 0x0, 64, 0⟩,
  ⟨0x3C, [], 0x0, 0x0, 0x0, 64, 0⟩,
  ⟨0x40, [(8, 0x4)], 0x9FFFFFFF, 0x0, 0x0, 64, 0⟩,
  ⟨0x80, [], 0xC0FF0000, 0x0, 0x640000, 64, 0⟩,
  ⟨0x88, [], 0x0, 0x0, 0x0, 64, 0⟩,
  ⟨0x90, [(2, 0x4)], 0xFFFFFFFF, 0x0, 0x0, 64, 0⟩,
  ⟨0x98, [(2, 0x4)], 0xFFFFFFFF, 0x0, 0x0, 64, 0⟩,
  ⟨0xA0, [(2, 0x4)], 0x0, 0x0, 0x0, 64, 0⟩,
  ⟨0x1000, [(256, 0x4)], 0x0, 0x0, 0x0, 64, 0⟩]
def rowsGLB : List RegRow := rowsGLB0 ++ rowsGLB1
/-- Registers of block PWR. -/
def rowsPWR : List RegRow := [
  ⟨0x10000, [], 0x0, 0xC, 0x3F0000, 64, 0⟩,
  ⟨0x10004, [], 0x30007, 0x0, 0x3, 64, 0⟩,
  ⟨0x10008, [], 0x0, 0x7, 0x0, 64, 0⟩,
  ⟨0x1000C, [], 0xFFFFFFFF, 0x0, 0x0, 64, 0⟩,
  ⟨0x10010, [], 0x0, 0x0, 0x0, 64, 0⟩,
  ⟨0x10014, [], 0x0, 0xFF, 0x0, 64, 0⟩,
  ⟨0x10018, [], 0x0, 0x0, 0x0, 64, 0⟩,
  ⟨0x1001C, [], 0x0, 0x0, 0x0, 64, 0⟩,
  ⟨0x10100, [(40, 0x4)], 0x0, 0x0, 0x0, 64, 0⟩]
/-- Registers of block FLT. -/
def rowsFLT0 : List RegRow := [
  ⟨0x20000, [], 0x1, 0x0, 0x0, 64, 0⟩,
  ⟨0x20004, [], 0x0, 0xF, 0x0, 64, 0⟩,
  ⟨0x20008, [], 0x0, 0x0, 0x0, 64, 0⟩,
  ⟨0x2000C, [], 0x3F, 0x0, 0x0, 64, 0⟩,
  ⟨0x20010, [], 0x0, 0x80000000, 0x0, 64, 0⟩,
  ⟨0x20014, [], 0x0, 0x0, 0x0, 64, 0⟩,
  ⟨0x20018, [], 0x0, 0x0, 0x0, 64, 0⟩,
  ⟨0x2001C, [], 0x0, 0x0, 0x0, 64, 0⟩,
  ⟨0x20020, [], 0x0, 0x0, 0x0, 64, 0⟩,
  ⟨0x20024, [], 0x0, 0x0, 0x0, 64, 0⟩,
  ⟨0x20028, [], 0x0, 0x0, 0x0, 64, 0⟩,
  ⟨0x2002C, [], 0x0, 0x0, 0x0, 64, 0⟩]
def rowsFLT1 : List RegRow := [
  ⟨0x20030, [], 0x1FFF, 0x0, 0xC00, 64, 0⟩,
  ⟨0x20040, [(8, 0x4)], 0x0, 0xFFFFFFFF, 0x0, 64, 0⟩,
  ⟨0x20060, [(8, 0x4)], 0x0, 0xFFFFFFFF, 0x0, 64, 0⟩,
  ⟨0x20100, [(64, 0x4)], 0xC3C3C3C3, 0x0, 0x0, 64, 0⟩]
def rowsFLT : List RegRow := rowsFLT0 ++ rowsFLT1
/-- Registers of block SEC. -/
def rowsSEC : List RegRow := [
  ⟨0x30000, [], 0x0, 0x0, 0x0, 64, 0⟩,
  ⟨0x30004, [], 0x0, 0x0, 0x0, 64, 0⟩,
  ⟨0x30008, [], 0x0, 0x0, 0x0, 64, 0⟩,
  ⟨0x3000C, [], 0x0, 0x0, 0x0, 64, 0⟩,
  ⟨0x30010, [], 0xFFFF, 0x0, 0x258, 64, 0⟩,
  ⟨0x30014, [], 0x0, 0x0, 0x0, 64, 0⟩,
  ⟨0x30018, [], 0x0, 0x0, 0x0, 64, 0⟩,
  ⟨0x3001C, [], 0x0, 0x0, 0x0, 64, 0⟩,
  ⟨0x30020, [(8, 0x4)], 0x0, 0x0, 0x0, 64, 0⟩,
  ⟨0x30040, [(8, 0x4)], 0x0, 0x0, 0x0, 64, 0⟩,
  ⟨0x30060, [(8, 0x4)], 0x0, 0x0, 0x0, 64, 0⟩]
/-- Registers of block MBX. -/
def rowsMBX0 : List RegRow := [
  ⟨0x40000, [], 0x0, 0xF, 0x0, 64, 0⟩,
  ⟨0x40004, [], 0x0, 0x0, 0x0, 64, 0⟩,
  ⟨0x40008, [], 0xFFFF, 0x0, 0x64, 64, 0⟩,
  ⟨0x4000C, [], 0x0, 0x0, 0x0, 64, 0⟩,
  ⟨0x40010, [], 0xFFFF, 0x0, 0x0, 64, 0⟩,
  ⟨0x40014, [], 0x0, 0x0, 0x0, 64, 0⟩,
  ⟨0x40018, [], 0x0, 0x0, 0x0, 64, 0⟩,
  ⟨0x4001C, [], 0x0, 0x0, 0x0, 64, 0⟩,
  ⟨0x40100, [(8, 0x10)], 0x0, 0x0, 0x0, 64, 0⟩,
  ⟨0x40104, [(8, 0x10)], 0x0, 0x30, 0x0, 64, 0⟩,
  ⟨0x40108, [(8, 0x10)], 0x0, 0x0, 0x0, 64, 0⟩,
  ⟨0x4010C, [(8, 0x10)], 0x0, 0x0, 0x0, 64, 0⟩]
def rowsMBX1 : List RegRow := [
  ⟨0x40200, [(8, 0x10)], 0x0, 0x0, 0x0, 64, 0⟩,
  ⟨0x40204, [(8, 0x10)], 0x0, 0x0, 0x0, 64, 0⟩,
  ⟨0x40208, [(8, 0x10)], 0x0, 0x0, 0x0, 64, 0⟩,
  ⟨0x4020C, [(8, 0x10)], 0x0, 0x0, 0x0, 64, 0⟩,
  ⟨0x40400, [(64, 0x4)], 0x0, 0x60, 0x0, 64, 0⟩,
  ⟨0x40600, [(8, 0x10)], 0x0, 0x0, 0x0, 64, 0⟩,
  ⟨0x40604, [(8, 0x10)], 0x0, 0x0, 0x0, 64, 0⟩,
  ⟨0x40608, [(8, 0x10)], 0xFF, 0x0, 0x0, 64, 0⟩]
def rowsMBX : List RegRow := rowsMBX0 ++ rowsMBX1
/-- Registers of block CLK. -/
def rowsCLK : List RegRow := [
  ⟨0x100000, [], 0x0, 0x0, 0x28000000, 64, 0⟩,
  ⟨0x100004, [], 0x0, 0x0, 0x0, 64, 0⟩,
  ⟨0x100008, [], 0x0, 0x0, 0x0, 64, 0⟩,
  ⟨0x10000C, [], 0x0, 0x1FFFF, 0x0, 64, 0⟩,
  ⟨0x100010, [], 0x0, 0x0, 0x10040, 64, 0⟩,
  ⟨0x100014, [], 0x20000000, 0x30000, 0x0, 64, 0⟩,
  ⟨0x100018, [], 0x0, 0x0, 0x0, 64, 0⟩,
  ⟨0x10001C, [], 0x0, 0x0, 0x0, 64, 0⟩,
  ⟨0x100020, [(4, 0x4)], 0x0, 0x1, 0x20000004, 64, 0⟩,
  ⟨0x100030, [(4, 0x4)], 0x0, 0x0, 0x0, 64, 0⟩,
  ⟨0x100400, [(4, 0x80), (32, 0x4)], 0xBFFFFFFF, 0x0, 0x0, 64, 0⟩]
/-- Registers of block TIM. -/
def rowsTIM0 : List RegRow := [
  ⟨0x110000, [], 0xFFFF0001, 0x0, 0x3C0001, 64, 0⟩,
  ⟨0x110004, [], 0x0, 0x0, 0x0, 64, 0⟩,
  ⟨0x110008, [], 0xE0FFFFFF, 0x0, 0x250064, 64, 0⟩,
  ⟨0x11000C, [], 0xFFFFFFFF, 0x0, 0x3E8, 64, 0⟩,
  ⟨0x110010, [], 0xFFFFFFFF, 0x0, 0x4E20, 64, 0⟩,
  ⟨0x110014, [], 0xFFFFFFFF, 0x0, 0x0, 64, 0⟩,
  ⟨0x110018, [], 0x0, 0x0, 0x0, 64, 0⟩,
  ⟨0x11001C, [], 0x0, 0x0, 0x0, 64, 0⟩,
  ⟨0x110020, [], 0xFFFFFFFF, 0x0, 0x0, 64, 0⟩,
  ⟨0x110024, [], 0xFFFFFFFF, 0x0, 0x0, 64, 0⟩,
  ⟨0x110028, [], 0x3FFFF, 0x0, 0x25, 64, 0⟩,
  ⟨0x110030, [], 0x0, 0x0, 0x0, 64, 0⟩]
def rowsTIM1 : List RegRow := [
  ⟨0x110034, [], 0x0, 0x0, 0x0, 64, 0⟩,
  ⟨0x110038, [], 0x0, 0x0, 0x0, 64, 0⟩,
  ⟨0x110040, [], 0x0, 0x0, 0x0, 64, 0⟩,
  ⟨0x110044, [], 0x0, 0x0, 0x0, 64, 0⟩,
  ⟨0x110050, [], 0x0, 0x0, 0x0, 64, 0⟩,
  ⟨0x110054, [], 0x0, 0x0, 0x0, 64, 0⟩,
  ⟨0x110058, [], 0xFFFFFF, 0x0, 0x642840, 64, 0⟩,
  ⟨0x110060, [], 0x0, 0x0, 0x0, 64, 0⟩,
  ⟨0x110064, [], 0x0, 0x3FF, 0x0, 64, 0⟩,
  ⟨0x110068, [], 0x3FF, 0x0, 0x0, 64, 0⟩]
def rowsTIM : List RegRow := rowsTIM0 ++ rowsTIM1
/-- Registers of block TDC. -/
def rowsTDC0 : List RegRow := [
  ⟨0x120000, [], 0xFFFF, 0x0, 0x0, 64, 0⟩,
  ⟨0x120004, [], 0x0, 0x7FFFFF, 0x0, 64, 0⟩,
  ⟨0x120008, [], 0x7FFFFF, 0x0, 0x0, 64, 0⟩,
  ⟨0x12000C, [], 0x7FFFFFFF, 0x0, 0x62580005, 64, 0⟩,
  ⟨0x120020, [(4, 0x20)], 0x0, 0x0, 0x0, 64, 0⟩,
  ⟨0x120024, [(4, 0x20)], 0x0, 0x0, 0x0, 64, 0⟩,
  ⟨0x120028, [(4, 0x20)], 0x0, 0x0, 0x0, 64, 0⟩,
  ⟨0x12002C, [(4, 0x20)], 0x0, 0x0, 0x0, 64, 0⟩,
  ⟨0x120030, [(4, 0x20)], 0x0, 0x0, 0x0, 64, 0⟩,
  ⟨0x120034, [(4, 0x20)], 0x0, 0x0, 0x0, 64, 0⟩,
  ⟨0x120100, [(17, 0x40)], 0xE0000FFF, 0x0, 0x800, 64, 0⟩,
  ⟨0x120104, [(17, 0x40)], 0x0, 0x0, 0x0, 64, 0⟩]
def rowsTDC1 : List RegRow := [
  ⟨0x120108, [(17, 0x40)], 0x0, 0x0, 0x0, 64, 0⟩,
  ⟨0x12010C, [(17, 0x40)], 0x0, 0x0, 0x0, 64, 0⟩,
  ⟨0x120110, [(17, 0x40)], 0x0, 0x0, 0x0, 64, 0⟩,
  ⟨0x120114, [(17, 0x40)], 0x0, 0x0, 0x0, 64, 0⟩,
  ⟨0x120118, [(17, 0x40)], 0x0, 0x0, 0x0, 64, 0⟩,
  ⟨0x12011C, [(17, 0x40)], 0x0, 0x0, 0x0, 64, 0⟩,
  ⟨0x120120, [(17, 0x40)], 0x0, 0x0, 0x0, 64, 0⟩,
  ⟨0x120124, [(17, 0x40)], 0x0, 0x0, 0x0, 64, 0⟩,
  ⟨0x120128, [(17, 0x40)], 0x0, 0x0, 0x0, 64, 0⟩,
  ⟨0x12012C, [(17, 0x40)], 0x0, 0x0, 0x0, 64, 0⟩]
def rowsTDC : List RegRow := rowsTDC0 ++ rowsTDC1
/-- Registers of block CNV. -/
def rowsCNV0 : List RegRow := [
  ⟨0x1000000, [(32, 0x1000)], 0x3, 0x0, 0x2, 64, 0⟩,
  ⟨0x1000004, [(32, 0x1000)], 0x0, 0x0, 0x0, 64, 0⟩,
  ⟨0x1000008, [(32, 0x1000)], 0xFFB, 0x0, 0xF81, 64, 0⟩,
  ⟨0x100000C, [(32, 0x1000)], 0x0, 0x0, 0x0, 64, 0⟩,
  ⟨0x1000010, [(32, 0x1000)], 0x0, 0x0, 0x0, 64, 0⟩,
  ⟨0x1000014, [(32, 0x1000)], 0x0, 0xFFFF, 0x0, 64, 0⟩,
  ⟨0x1000018, [(32, 0x1000)], 0x0, 0x0, 0x0, 64, 0⟩,
  ⟨0x100001C, [(32, 0x1000)], 0x0, 0x0, 0x0, 64, 0⟩,
  ⟨0x1000020, [(32, 0x1000)], 0x0, 0x0, 0x0, 64, 0⟩,
  ⟨0x1000024, [(32, 0x1000)], 0x0, 0x0, 0x0, 64, 0⟩,
  ⟨0x1000028, [(32, 0x1000)], 0x0, 0x0, 0x0, 64, 0⟩,
  ⟨0x100002C, [(32, 0x1000)], 0x0, 0x0, 0x0, 64, 0⟩]
def rowsCNV1 : List RegRow := [
  ⟨0x1000030, [(32, 0x1000)], 0x0, 0x7, 0x0, 64, 0⟩,
  ⟨0x1000034, [(32, 0x1000)], 0x0, 0x0, 0x0, 64, 0⟩,
  ⟨0x1000038, [(32, 0x1000)], 0x0, 0x0, 0x0, 64, 0⟩,
  ⟨0x100003C, [(32, 0x1000)], 0x0, 0x0, 0x0, 64, 0⟩,
  ⟨0x1000040, [(32, 0x1000)], 0x0, 0x0, 0x0, 64, 0⟩,
  ⟨0x1000044, [(32, 0x1000)], 0x0, 0x0, 0x0, 64, 0⟩,
  ⟨0x1000048, [(32, 0x1000)], 0x0, 0x0, 0x0, 64, 0⟩,
  ⟨0x100004C, [(32, 0x1000)], 0x0, 0x0, 0x0, 64, 0⟩,
  ⟨0x1000050, [(32, 0x1000)], 0x0, 0x0, 0x0, 64, 0⟩,
  ⟨0x1000054, [(32, 0x1000)], 0x0, 0x0, 0x0, 64, 0⟩,
  ⟨0x1000058, [(32, 0x1000)], 0x0, 0x0, 0x0, 64, 0⟩,
  ⟨0x100005C, [(32, 0x1000)], 0x0, 0x0, 0x0, 64, 0⟩]
def rowsCNV2 : List RegRow := [
  ⟨0x1000060, [(32, 0x1000)], 0x0, 0x0, 0x0, 64, 0⟩,
  ⟨0x1000064, [(32, 0x1000)], 0x0, 0x0, 0x0, 64, 0⟩,
  ⟨0x1000068, [(32, 0x1000)], 0x0, 0x0, 0x0, 64, 0⟩,
  ⟨0x100006C, [(32, 0x1000)], 0x0, 0x0, 0x0, 64, 0⟩]
def rowsCNV : List RegRow := rowsCNV0 ++ rowsCNV1 ++ rowsCNV2
/-- Registers of block PTH. -/
def rowsPTH0 : List RegRow := [
  ⟨0x1200000, [(32, 0x1000)], 0xFD, 0x0, 0x84, 0, 1⟩,
  ⟨0x1200004, [(32, 0x1000)], 0x0, 0x3F8, 0x0, 64, 0⟩,
  ⟨0x1200008, [(32, 0x1000)], 0x1F03, 0x0, 0x1400, 0, 1⟩,
  ⟨0x120000C, [(32, 0x1000)], 0x0, 0x0, 0x0, 64, 0⟩,
  ⟨0x1200010, [(32, 0x1000)], 0x7FFFF13, 0x0, 0x402001, 0, 1⟩,
  ⟨0x1200014, [(32, 0x1000)], 0x0, 0x0, 0x0, 64, 0⟩,
  ⟨0x1200018, [(32, 0x1000)], 0x0, 0x0, 0x0, 64, 0⟩,
  ⟨0x120001C, [(32, 0x1000)], 0xFFFFFFFF, 0x0, 0x0, 0, 1⟩,
  ⟨0x1200020, [(32, 0x1000)], 0xFFFF, 0x0, 0x0, 0, 1⟩,
  ⟨0x1200024, [(32, 0x1000)], 0x3FFFF, 0x0, 0x0, 0, 1⟩,
  ⟨0x1200028, [(32, 0x1000)], 0x10F, 0x0, 0x0, 0, 1⟩,
  ⟨0x120002C, [(32, 0x1000)], 0xFF01, 0x0, 0x0, 0, 1⟩]
def rowsPTH1 : List RegRow := [
  ⟨0x1200030, [(32, 0x1000)], 0x0, 0x0, 0x10000, 64, 0⟩,
  ⟨0x1200034, [(32, 0x1000)], 0x0, 0x0, 0x10000, 64, 0⟩,
  ⟨0x1200038, [(32, 0x1000)], 0x0, 0x20000000, 0x0, 64, 0⟩,
  ⟨0x120003C, [(32, 0x1000)], 0x0, 0x0, 0x700, 64, 0⟩,
  ⟨0x1200040, [(32, 0x1000)], 0x0, 0x0, 0x0, 64, 0⟩]
def rowsPTH : List RegRow := rowsPTH0 ++ rowsPTH1
/-- Registers of block SLC. -/
def rowsSLC0 : List RegRow := [
  ⟨0x1400000, [(16, 0x2000)], 0x0, 0x300, 0x0, 64, 0⟩,
  ⟨0x1400004, [(16, 0x2000)], 0x33FF, 0x0, 0x0, 64, 0⟩,
  ⟨0x1400008, [(16, 0x2000)], 0x0, 0x33FF, 0x0, 64, 0⟩,
  ⟨0x140000C, [(16, 0x2000)], 0x0, 0x0, 0x0, 64, 0⟩,
  ⟨0x1400010, [(16, 0x2000)], 0x0, 0x0, 0x0, 64, 0⟩,
  ⟨0x1400014, [(16, 0x2000)], 0x0, 0x0, 0x0, 64, 0⟩,
  ⟨0x1400018, [(16, 0x2000)], 0x0, 0x0, 0x0, 64, 0⟩,
  ⟨0x140001C, [(16, 0x2000)], 0x0, 0x0, 0x0, 64, 0⟩,
  ⟨0x1400100, [(16, 0x2000), (2, 0x100)], 0x1F0F, 0x0, 0x0, 32, 1⟩,
  ⟨0x1400104, [(16, 0x2000), (2, 0x100)], 0xF173CFF, 0x0, 0x801000D, 32, 1⟩,
  ⟨0x1400108, [(16, 0x2000), (2, 0x100)], 0xFF011F, 0x0, 0x500005, 32, 1⟩,
  ⟨0x140010C, [(16, 0x2000), (2, 0x100)], 0xFFFF707F, 0x0, 0x80010008, 32, 1⟩]
def rowsSLC1 : List RegRow := [
  ⟨0x1400110, [(16, 0x2000), (2, 0x100)], 0xFFFFFFFF, 0x0, 0xFFFF0000, 32, 1⟩,
  ⟨0x1400114, [(16, 0x2000), (2, 0x100)], 0x717F07FF, 0x0, 0x10400, 32, 1⟩,
  ⟨0x1400118, [(16, 0x2000), (2, 0x100)], 0xFFFF, 0x0, 0x0, 32, 1⟩,
  ⟨0x140011C, [(16, 0x2000), (2, 0x100)], 0x7BFBF, 0x0, 0x0, 32, 1⟩,
  ⟨0x1400120, [(16, 0x2000), (2, 0x100), (4, 0x4)], 0xFFE0FFFF, 0x0, 0x0, 32, 1⟩,
  ⟨0x1400130, [(16, 0x2000), (2, 0x100)], 0x0, 0x0, 0x0, 64, 0⟩,
  ⟨0x1400134, [(16, 0x2000), (2, 0x100)], 0x0, 0x0, 0x0, 64, 0⟩,
  ⟨0x1400138, [(16, 0x2000), (2, 0x100)], 0x0, 0x0, 0x0, 64, 0⟩,
  ⟨0x140013C, [(16, 0x2000), (2, 0x100)], 0x0, 0x0, 0x0, 64, 0⟩,
  ⟨0x1400140, [(16, 0x2000), (2, 0x100)], 0x0, 0x0, 0x0, 64, 0⟩,
  ⟨0x1400144, [(16, 0x2000), (2, 0x100)], 0x0, 0x0, 0x0, 64, 0⟩,
  ⟨0x1400148, [(16, 0x2000), (2, 0x100)], 0x0, 0x0, 0x0, 64, 0⟩]
def rowsSLC2 : List RegRow := [
  ⟨0x140014C, [(16, 0x2000), (2, 0x100)], 0x0, 0x0, 0x0, 64, 0⟩,
  ⟨0x1400150, [(16, 0x2000), (2, 0x100)], 0x0, 0x0, 0x0, 64, 0⟩,
  ⟨0x1400154, [(16, 0x2000), (2, 0x100)], 0x0, 0x0, 0x0, 64, 0⟩,
  ⟨0x1400158, [(16, 0x2000), (2, 0x100)], 0x0, 0x0, 0x0, 64, 0⟩,
  ⟨0x140015C, [(16, 0x2000), (2, 0x100)], 0x0, 0x0, 0x0, 64, 0⟩]
def rowsSLC : List RegRow := rowsSLC0 ++ rowsSLC1 ++ rowsSLC2
/-- Registers of block DEN. -/
def rowsDEN0 : List RegRow := [
  ⟨0x1600000, [], 0xFFFF, 0x0, 0x9C4, 48, 0⟩,
  ⟨0x1600004, [], 0x0, 0x3, 0x0, 64, 0⟩,
  ⟨0x1600008, [], 0xFFFFF000, 0x0, 0x0, 48, 0⟩,
  ⟨0x160000C, [], 0xFF, 0x0, 0x0, 48, 0⟩,
  ⟨0x1600010, [], 0x1FF, 0x0, 0x2, 48, 0⟩,
  ⟨0x1600014, [], 0x0, 0x0, 0x0, 64, 0⟩,
  ⟨0x1600018, [], 0x0, 0x0, 0x0, 64, 0⟩,
  ⟨0x160001C, [], 0x0, 0x0, 0x0, 64, 0⟩,
  ⟨0x1600020, [], 0x0, 0x0, 0x0, 64, 0⟩,
  ⟨0x1600024, [], 0x0, 0x0, 0x0, 64, 0⟩,
  ⟨0x1600100, [(32, 0x8)], 0xFFFFFFF1, 0x0, 0xC0003420, 48, 0⟩,
  ⟨0x1600104, [(32, 0x8)], 0xFFFFFFFF, 0x0, 0x3FF0000, 48, 0⟩]
def rowsDEN1 : List RegRow := [
  ⟨0x1600200, [(16, 0x10)], 0x9F0FFFFF, 0x0, 0x0, 48, 0⟩,
  ⟨0x1600204, [(16, 0x10)], 0xFFFF, 0x0, 0x0, 48, 0⟩,
  ⟨0x1600208, [(16, 0x10)], 0x0, 0x0, 0x0, 64, 0⟩,
  ⟨0x1600400, [], 0xF0001, 0x0, 0x0, 49, 0⟩,
  ⟨0x1600404, [], 0x0, 0x700, 0x0, 64, 0⟩,
  ⟨0x1600408, [], 0x1FFFFFF, 0x0, 0x9C4, 49, 0⟩,
  ⟨0x160040C, [], 0xFFFFF000, 0x0, 0x0, 49, 0⟩,
  ⟨0x1600410, [], 0xFF, 0x0, 0x0, 49, 0⟩,
  ⟨0x1600414, [], 0x1FF, 0x0, 0x2, 49, 0⟩,
  ⟨0x1600418, [], 0x0, 0x0, 0x0, 64, 0⟩,
  ⟨0x160041C, [], 0x0, 0x0, 0x0, 64, 0⟩,
  ⟨0x1600420, [], 0x0, 0x0, 0x0, 64, 0⟩]
def rowsDEN2 : List RegRow := [
  ⟨0x1600440, [(8, 0x4)], 0xFFFFFFFF, 0x0, 0x10001000, 49, 0⟩]
def rowsDEN : List RegRow := rowsDEN0 ++ rowsDEN1 ++ rowsDEN2
/-- Registers of block TRG. -/
def rowsTRG0 : List RegRow := [
  ⟨0x1700000, [(32, 0x400)], 0xFF9F0000, 0x0, 0x0, 50, 0⟩,
  ⟨0x1700004, [(32, 0x400)], 0xF0FFFFFF, 0x0, 0x0, 50, 0⟩,
  ⟨0x1700008, [(32, 0x400)], 0xFFFFFFFF, 0x0, 0x0, 50, 0⟩,
  ⟨0x170000C, [(32, 0x400)], 0xFFFF, 0x0, 0x0, 50, 0⟩,
  ⟨0x1700010, [(32, 0x400)], 0xFFFFFFFF, 0x0, 0x0, 50, 0⟩,
  ⟨0x1700014, [(32, 0x400)], 0xFFFFFFFF, 0x0, 0x0, 50, 0⟩,
  ⟨0x1700018, [(32, 0x400)], 0x81FFFFFF, 0x0, 0x1, 50, 0⟩,
  ⟨0x170001C, [(32, 0x400)], 0xB0FFFFFF, 0x0, 0x20000100, 50, 0⟩,
  ⟨0x1700020, [(32, 0x400)], 0x3FFFFFFF, 0x0, 0x0, 50, 0⟩,
  ⟨0x1700024, [(32, 0x400)], 0xFFFFFFFF, 0x0, 0x0, 50, 0⟩,
  ⟨0x1700028, [(32, 0x400)], 0xFFFF, 0x0, 0x0, 50, 0⟩,
  ⟨0x170002C, [(32, 0x400)], 0x0, 0x0, 0x0, 64, 0⟩]
def rowsTRG1 : List RegRow := [
  ⟨0x1700030, [(32, 0x400)], 0x0, 0x0, 0x0, 64, 0⟩,
  ⟨0x1700034, [(32, 0x400)], 0x0, 0x0, 0x0, 64, 0⟩,
  ⟨0x1700038, [(32, 0x400)], 0x0, 0x0, 0x0, 64, 0⟩,
  ⟨0x170003C, [(32, 0x400)], 0x0, 0x0, 0x0, 64, 0⟩,
  ⟨0x1708000, [], 0x0, 0x0, 0x0, 64, 0⟩,
  ⟨0x1708004, [], 0x0, 0xFFFFFFFF, 0x0, 64, 0⟩,
  ⟨0x1708008, [], 0xFFFFFFFF, 0x0, 0x0, 64, 0⟩,
  ⟨0x170800C, [], 0xFFFFFFFF, 0x0, 0x0, 64, 0⟩,
  ⟨0x1708010, [], 0x0, 0x0, 0x0, 64, 0⟩,
  ⟨0x1708014, [], 0x0, 0x0, 0x0, 64, 0⟩,
  ⟨0x1708018, [], 0x0, 0x0, 0x0, 64, 0⟩,
  ⟨0x170801C, [], 0x0, 0x0, 0x0, 64, 0⟩]
def rowsTRG2 : List RegRow := [
  ⟨0x1708020, [], 0x0, 0x0, 0x0, 64, 0⟩]
def rowsTRG : List RegRow := rowsTRG0 ++ rowsTRG1 ++ rowsTRG2
/-- Registers of block CAR. -/
def rowsCAR0 : List RegRow := [
  ⟨0x1780000, [], 0x0, 0xFFFF, 0x0, 64, 0⟩,
  ⟨0x1780004, [], 0xFFFF, 0x0, 0x0, 64, 0⟩,
  ⟨0x1780008, [], 0x0, 0x0, 0x0, 64, 0⟩,
  ⟨0x178000C, [], 0x0, 0x0, 0x0, 64, 0⟩,
  ⟨0x1780100, [(4, 0x40)], 0xFF000000, 0x0, 0x40000000, 51, 0⟩,
  ⟨0x1780104, [(4, 0x40)], 0xFF1F0000, 0x0, 0x0, 51, 0⟩,
  ⟨0x1780108, [(4, 0x40)], 0xFFFFF000, 0x0, 0x0, 51, 0⟩,
  ⟨0x178010C, [(4, 0x40)], 0xFF, 0x0, 0x0, 51, 0⟩,
  ⟨0x1780110, [(4, 0x40)], 0x1FFFFF, 0x0, 0x0, 51, 0⟩,
  ⟨0x1780114, [(4, 0x40)], 0xFFFFFF, 0x0, 0x0, 51, 0⟩,
  ⟨0x1780118, [(4, 0x40)], 0x1FFFF, 0x0, 0x0, 51, 0⟩,
  ⟨0x178011C, [(4, 0x40)], 0x0, 0x0, 0x0, 64, 0⟩]
def rowsCAR1 : List RegRow := [
  ⟨0x1780120, [(4, 0x40)], 0x0, 0x0, 0x0, 64, 0⟩,
  ⟨0x1780124, [(4, 0x40)], 0x0, 0x0, 0x0, 64, 0⟩,
  ⟨0x1780128, [(4, 0x40)], 0x0, 0x0, 0x0, 64, 0⟩,
  ⟨0x178012C, [(4, 0x40)], 0x0, 0x0, 0x0, 64, 0⟩,
  ⟨0x1780130, [(4, 0x40)], 0x0, 0x0, 0x0, 64, 0⟩,
  ⟨0x1780134, [(4, 0x40)], 0xFFFFFFFF, 0x0, 0x0, 51, 0⟩]
def rowsCAR : List RegRow := rowsCAR0 ++ rowsCAR1
/-- Registers of block PPE. -/
def rowsPPE : List RegRow := [
  ⟨0x2000000, [(64, 0x10000)], 0xF, 0x0, 0x0, 64, 0⟩,
  ⟨0x2000004, [(64, 0x10000)], 0x0, 0x1FE, 0xFF0000, 64, 0⟩,
  ⟨0x2000008, [(64, 0x10000)], 0x0, 0x0, 0x0, 64, 0⟩,
  ⟨0x200000C, [(64, 0x10000)], 0x0, 0x0, 0x0, 64, 0⟩,
  ⟨0x2000010, [(64, 0x10000)], 0x0, 0x0, 0x0, 64, 0⟩,
  ⟨0x2000014, [(64, 0x10000)], 0x0, 0x0, 0x0, 64, 0⟩,
  ⟨0x2000018, [(64, 0x10000)], 0x0, 0x0, 0x0, 64, 0⟩,
  ⟨0x200001C, [(64, 0x10000)], 0x0, 0x0, 0x0, 64, 0⟩,
  ⟨0x2400000, [(8, 0x40)], 0x1, 0x0, 0x0, 64, 0⟩,
  ⟨0x2400004, [(8, 0x40)], 0x0, 0x0, 0x0, 64, 0⟩,
  ⟨0x2400008, [(8, 0x40)], 0x0, 0x0, 0x0, 64, 0⟩]
/-- Registers of block DMA. -/
def rowsDMA : List RegRow := [
  ⟨0x3000000, [(128, 0x100)], 0x74, 0x0, 0x30, 64, 0⟩,
  ⟨0x3000004, [(128, 0x100)], 0x0, 0x0, 0x0, 64, 0⟩,
  ⟨0x3000008, [(128, 0x100)], 0xFFFFFFF0, 0x0, 0x0, 64, 0⟩,
  ⟨0x300000C, [(128, 0x100)], 0xFF, 0x0, 0x0, 64, 0⟩]
/-- Registers of block MEM. -/
def rowsMEM0 : List RegRow := [
  ⟨0x3100000, [], 0x0, 0x1FC, 0x0, 64, 0⟩,
  ⟨0x3100004, [], 0xFF01, 0x0, 0x1801, 64, 0⟩,
  ⟨0x3100008, [], 0xFFFFFFFF, 0x0, 0xA0A1E02, 54, 0⟩,
  ⟨0x310000C, [], 0x0, 0x0, 0x0, 64, 0⟩,
  ⟨0x3100010, [], 0x0, 0x0, 0xC0000, 64, 0⟩,
  ⟨0x3100018, [], 0x0, 0x0, 0x4000, 64, 0⟩,
  ⟨0x310001C, [], 0x0, 0x0, 0x80000, 64, 0⟩,
  ⟨0x3100020, [], 0x0, 0x0, 0x1000100, 64, 0⟩,
  ⟨0x3100024, [], 0x0, 0x0, 0x84100, 64, 0⟩,
  ⟨0x3100028, [], 0x0, 0x0, 0x10000, 64, 0⟩,
  ⟨0x310002C, [], 0x0, 0x0, 0x1000100, 64, 0⟩,
  ⟨0x3100014, [], 0x0, 0x0, 0x0, 64, 0⟩]
def rowsMEM1 : List RegRow := [
  ⟨0x3100030, [], 0x0, 0x0, 0x0, 64, 0⟩,
  ⟨0x3100034, [], 0x0, 0x0, 0x0, 64, 0⟩,
  ⟨0x3100038, [], 0x0, 0x0, 0x0, 64, 0⟩,
  ⟨0x310003C, [], 0x0, 0x0, 0x0, 64, 0⟩,
  ⟨0x3100040, [], 0x0, 0x0, 0x0, 64, 0⟩,
  ⟨0x3100044, [], 0x0, 0x0, 0x0, 64, 0⟩,
  ⟨0x3100048, [], 0x0, 0x1F, 0x0, 64, 0⟩,
  ⟨0x310004C, [], 0x0, 0x0, 0x0, 64, 0⟩,
  ⟨0x3100400, [(64, 0x10)], 0x0, 0x0, 0x0, 64, 0⟩,
  ⟨0x3100404, [(64, 0x10)], 0x0, 0x0, 0x0, 64, 0⟩,
  ⟨0x3100408, [(64, 0x10)], 0x0, 0x0, 0x0, 64, 0⟩,
  ⟨0x310040C, [(64, 0x10)], 0x0, 0x0, 0x0, 64, 0⟩]
def rowsMEM : List RegRow := rowsMEM0 ++ rowsMEM1
/-- Registers of block LNK. -/
def rowsLNK0 : List RegRow := [
  ⟨0x3200000, [], 0x0, 0xFF, 0x0, 64, 0⟩,
  ⟨0x3200004, [], 0x0, 0x0, 0x0, 64, 0⟩,
  ⟨0x3200008, [], 0x0, 0x0, 0x0, 64, 0⟩,
  ⟨0x3200100, [(32, 0x8)], 0xFFFFFFFF, 0x0, 0x0, 64, 0⟩,
  ⟨0x3200104, [(32, 0x8)], 0xFFFFFFFF, 0x0, 0x0, 64, 0⟩,
  ⟨0x3200200, [], 0x0, 0x1F, 0x0, 64, 0⟩,
  ⟨0x3200204, [], 0x0, 0x0, 0x64320000, 64, 0⟩,
  ⟨0x3200208, [], 0x0, 0x0, 0xB150, 64, 0⟩,
  ⟨0x320020C, [], 0x0, 0x0, 0x0, 64, 0⟩,
  ⟨0x3200210, [(8, 0x4)], 0x0, 0x3, 0x0, 64, 0⟩,
  ⟨0x3200230, [], 0x0, 0x0, 0x0, 64, 0⟩,
  ⟨0x3200234, [], 0x0, 0x0, 0x0, 64, 0⟩]
def rowsLNK1 : List RegRow := [
  ⟨0x3200240, [(2, 0x4)], 0x1, 0xE, 0x1, 64, 0⟩,
  ⟨0x3200248, [(2, 0x4)], 0x0, 0x0, 0x0, 64, 0⟩,
  ⟨0x3200250, [], 0x0, 0x0, 0x0, 64, 0⟩,
  ⟨0x3200260, [(4, 0x4)], 0x0, 0x3, 0x0, 64, 0⟩,
  ⟨0x3200270, [], 0xFFFFFFFF, 0x0, 0x7D0, 64, 0⟩,
  ⟨0x3200300, [(16, 0x20)], 0xC0FF03FF, 0x0, 0x400000, 64, 0⟩,
  ⟨0x3200304, [(16, 0x20)], 0xFFFFF000, 0x0, 0x0, 64, 0⟩,
  ⟨0x3200308, [(16, 0x20)], 0xFFFFFFFF, 0x0, 0x0, 64, 0⟩,
  ⟨0x320030C, [(16, 0x20)], 0x0, 0x0, 0x0, 64, 0⟩,
  ⟨0x3200310, [(16, 0x20)], 0xFFF, 0x0, 0x0, 64, 0⟩]
def rowsLNK : List RegRow := rowsLNK0 ++ rowsLNK1
/-- Registers of block DSP. -/
def rowsDSP0 : List RegRow := [
  ⟨0x3300000, [], 0x3, 0x0, 0x2, 64, 0⟩,
  ⟨0x3300004, [], 0x0, 0xFC, 0x0, 64, 0⟩,
  ⟨0x3300008, [], 0x0, 0x0, 0x0, 64, 0⟩,
  ⟨0x330000C, [], 0xFFFFFF, 0x0, 0x108080, 64, 0⟩,
  ⟨0x3300010, [], 0x0, 0x0, 0x0, 64, 0⟩,
  ⟨0x3300014, [], 0x0, 0x0, 0x0, 64, 0⟩,
  ⟨0x3300018, [], 0x0, 0x0, 0x0, 64, 0⟩,
  ⟨0x330001C, [], 0x0, 0x0, 0x0, 64, 0⟩,
  ⟨0x3300100, [(3, 0x20)], 0x80000700, 0x0, 0x400, 64, 0⟩,
  ⟨0x3300104, [(3, 0x20)], 0xFFFFFFFF, 0x0, 0x0, 64, 0⟩,
  ⟨0x3300108, [(3, 0x20)], 0xFFFFFFFF, 0x0, 0x0, 64, 0⟩,
  ⟨0x3300160, [], 0x7E7C01F, 0x0, 0x200000, 64, 0⟩]
def rowsDSP1 : List RegRow := [
  ⟨0x3300400, [(64, 0x4)], 0xFFFFFFFF, 0x0, 0x0, 64, 0⟩,
  ⟨0x3300500, [(256, 0x4)], 0xFFFF, 0x0, 0x0, 64, 0⟩]
def rowsDSP : List RegRow := rowsDSP0 ++ rowsDSP1
/-- Registers of block MON. -/
def rowsMON0 : List RegRow := [
  ⟨0x3400000, [], 0x0, 0xFFFF, 0x0, 64, 0⟩,
  ⟨0x3400004, [], 0x0, 0xFFF, 0x0, 64, 0⟩,
  ⟨0x3400008, [], 0xFFF, 0x0, 0x0, 64, 0⟩,
  ⟨0x340000C, [], 0xC000FEFE, 0x0, 0x0, 64, 0⟩,
  ⟨0x3400010, [(4, 0x4)], 0xFFFFFFFF, 0x0, 0x40000000, 64, 0⟩,
  ⟨0x3400100, [(4, 0x100)], 0xEFFE0000, 0x0, 0x0, 64, 0⟩,
  ⟨0x3400104, [(4, 0x100)], 0x0, 0x20000000, 0x0, 64, 0⟩,
  ⟨0x3400108, [(4, 0x100)], 0xF0FF0000, 0x0, 0x0, 64, 0⟩,
  ⟨0x340010C, [(4, 0x100)], 0xFFFFFFFF, 0x0, 0x0, 64, 0⟩,
  ⟨0x3400140, [(4, 0x100), (16, 0x4)], 0xFFFFF7FF, 0x0, 0x4, 64, 0⟩,
  ⟨0x3400180, [(4, 0x100), (16, 0x4)], 0xFFFFFFFF, 0x0, 0x40000000, 64, 0⟩,
  ⟨0x34001C0, [(4, 0x100), (4, 0x4)], 0xFFFFF7FF, 0x0, 0x4, 64, 0⟩]
def rowsMON1 : List RegRow := [
  ⟨0x34001D0, [(4, 0x100), (4, 0x4)], 0xFFFFFFFF, 0x0, 0x40000000, 64, 0⟩,
  ⟨0x34001E0, [(4, 0x100), (4, 0x8)], 0xFCFFFFFF, 0x0, 0x0, 64, 0⟩,
  ⟨0x34001E4, [(4, 0x100), (4, 0x8)], 0xFFFFFF, 0x0, 0x7FFFFF, 64, 0⟩,
  ⟨0x3400800, [(4, 0x80), (20, 0x4)], 0x0, 0x0, 0x0, 64, 0⟩]
def rowsMON : List RegRow := rowsMON0 ++ rowsMON1

/-- The register windows of R582 with their rows. -/
def regBlocks : List (Nat × Nat × List RegRow) := [
  (0x0, 0xFFFF, rowsGLB),
  (0x10000, 0x1FFFF, rowsPWR),
  (0x20000, 0x2FFFF, rowsFLT),
  (0x30000, 0x3FFFF, rowsSEC),
  (0x40000, 0x4FFFF, rowsMBX),
  (0x100000, 0x10FFFF, rowsCLK),
  (0x110000, 0x11FFFF, rowsTIM),
  (0x120000, 0x12FFFF, rowsTDC),
  (0x1000000, 0x101FFFF, rowsCNV),
  (0x1200000, 0x121FFFF, rowsPTH),
  (0x1400000, 0x141FFFF, rowsSLC),
  (0x1600000, 0x160FFFF, rowsDEN),
  (0x1700000, 0x170FFFF, rowsTRG),
  (0x1780000, 0x178FFFF, rowsCAR),
  (0x2000000, 0x24001FF, rowsPPE),
  (0x3000000, 0x3007FFF, rowsDMA),
  (0x3100000, 0x310FFFF, rowsMEM),
  (0x3200000, 0x320FFFF, rowsLNK),
  (0x3300000, 0x330FFFF, rowsDSP),
  (0x3400000, 0x340FFFF, rowsMON)]

/-- The register at a BAR0 offset; none where no register is named (R583). -/
def findBlock : List (Nat × Nat × List RegRow) → Nat → Option (RegRow × List Nat)
  | [], _ => none
  | (lo, hi, rows) :: t, a => if lo ≤ a ∧ a ≤ hi then findRow rows a else findBlock t a
def regAt (a : Nat) : Option (RegRow × List Nat) := findBlock regBlocks a

/-- The minimum class of each fault source that is not reserved (R465, R521, R427, R443, R541 and the chapters' own). -/
def faultMin : List (Nat × Nat) := [
  (0, 2), (1, 2), (2, 1), (3, 2), (4, 3), (5, 2), (8, 2), (9, 2), (10, 0), (11, 2), (12, 3), (13, 1),
  (16, 0), (17, 1), (18, 1), (20, 1), (21, 1)] ++ [
  (32, 1), (33, 1), (34, 1), (35, 1), (36, 0), (37, 0), (38, 0), (39, 0), (64, 2), (80, 0), (81, 0), (82, 1),
  (96, 0), (97, 2), (98, 1), (99, 3), (100, 1), (101, 2), (102, 0)] ++ [
  (128, 0), (129, 1), (130, 0), (131, 1), (132, 0), (133, 0), (134, 0), (135, 0), (136, 0), (137, 1), (138, 1),
  (160, 2), (161, 1), (162, 1), (163, 0), (168, 1), (169, 0)] ++ [
  (192, 2), (193, 1), (194, 1), (195, 0), (196, 0), (197, 0), (198, 2), (199, 0), (224, 2), (225, 0), (228, 0),
  (229, 0), (232, 0), (233, 1), (240, 0), (241, 0), (242, 0), (243, 0)]

/-- The first entry of a key in a list of pairs. -/
def lookupN : List (Nat × Nat) → Nat → Option Nat
  | [], _ => none
  | (a, v) :: t, k => if a = k then some v else lookupN t k

/-- The reset value of source `s`'s byte of FLT_SRCCFG (R540): EN, MIN and CLASS = MIN; 0 for a reserved source. -/
def srcCfgReset (s : Nat) : Nat :=
  match lookupN faultMin s with
  | some m => 0x80 + 16 * m + m
  | none => 0

/-- ΔI max of each step of the staggered start, in A (R504). -/
def stepAmps : List Nat :=
  [2, 1, 2, 3, 6, 4, 4, 10, 10, 8, 8, 6, 6, 5, 6, 2, 3, 3, 2, 2] ++
  [6, 6, 6, 6, 10, 10, 12, 12, 12, 12, 10, 12, 12, 6, 12, 12, 12, 12, 5, 8]

/-- The defined bits of a factory register of a core; FSKEW of DENSE, the layout not in force at reset, is 0 (R115, R136). -/
def factoryMask (o : Nat) : Word :=
  if o ≤ 0x48 then 0xFFF else if o = 0x4C then 0xFF00FFFF else if o = 0x60 then 0xFFFF else 0x3F3F3F3F
/-- What a register reads as while nothing has been written to it: its reset value. Factory values and the fused
Vendor ID are the part's own (R116, R136, R375). -/
def Regs.dflt (a : Nat) : Word :=
  if 0x20100 ≤ a ∧ a < 0x20200 ∧ a % 4 = 0 then
    let s := a - 0x20100
    w32 (srcCfgReset s + 256 * srcCfgReset (s + 1) + 65536 * srcCfgReset (s + 2) + 16777216 * srcCfgReset (s + 3))
  else if 0x10100 ≤ a ∧ a < 0x101A0 ∧ a % 4 = 0 then w32 (nth 0 stepAmps ((a - 0x10100) / 4) * 2 ^ 24)
  else if 0x1700000 ≤ a ∧ a < 0x1708000 ∧ a % 0x400 = 0 then w32 ((a - 0x1700000) / 0x400 * 2 ^ 24)
  else if 0x1000000 ≤ a ∧ a < 0x1020000 ∧ ((0x44 ≤ a % 0x1000 ∧ a % 0x1000 ≤ 0x58) ∨ a % 0x1000 = 0x60) ∧ a % 4 = 0 then
    Config.factory a &&& factoryMask (a % 0x1000)
  else if a = LNK_PCIDEV then 0x64320000#32 ||| Config.vendorId.setWidth 32
  else
    match regAt a with
    | some (r, _) => w32 r.reset
    | none => 0

/-- The commit group that shadows the register at `a`, if any (R43, R44). -/
def groupOf (a : Nat) : Option Nat :=
  match regAt a with
  | some (r, l) => if r.group < 64 then some (r.group + r.gstep * nth 0 l 0) else none
  | none => none

/-- The instance addresses of a row below `base` with the dims given, ascending. -/
def expand : List (Nat × Nat) → Nat → List Nat
  | [], b => [b]
  | (n, s) :: t, b => (List.range n).flatMap (fun i => expand t (b + s * i))

/-- Insertion into an ascending list. -/
def insN (x : Nat) : List Nat → List Nat
  | [] => [x]
  | a :: t => if x ≤ a then x :: a :: t else a :: insN x t
/-- A list of numbers in ascending order. -/
def sortN (l : List Nat) : List Nat := l.foldr insN []

/-- The addresses of the registers of commit group `g` (R44), ascending. -/
def groupAddrs (g : Nat) : List Nat :=
  let pick (rows : List RegRow) : List Nat :=
    rows.flatMap (fun r => if r.group ≤ g ∧ g - r.group < 64 ∧ r.group < 64 ∧
      (r.gstep = 1 ∨ r.group = g) then
        (if r.gstep = 1 then
          match r.dims with
          | (n, s) :: t => if g - r.group < n then expand t (r.base + s * (g - r.group)) else []
          | [] => []
        else expand r.dims r.base) else [])
  sortN (if g < 32 then pick rowsPTH else if g < 48 then pick rowsSLC else if g < 50 then pick rowsDEN
    else if g = 50 then pick rowsTRG else if g = 51 then pick rowsCAR else if g = 54 then pick rowsMEM else [])

end Sys2Proof.Machine
end

