-- ==== Sys2Proof/Machine/State.lean ====
section
/-! DEFINITION. The machine's state as plain data: every register by its BAR0 address, the copies in force of the
shadowed ones, every memory, and what the spec gives the block beside them; and the state right after reset.
Every table keyed by a number is sparse and canonical (Machine/Sparse.lean): an unlisted key reads as its default. -/
namespace Sys2Proof.Machine

/-- A path sample: real and imaginary component (imaginary 0 on a real path). -/
abbrev Cx := Int × Int

/-- What leaves the block. The list of outputs is the model's record of them, newest first. -/
inductive Out where
  | event (e : Nat)                            -- an internal event fires (R589)
  | msi (v : Nat) (addr : Nat) (data : Word)   -- an MSI-X message (R379)
  | netReply (p : Peer) (bytes : List Byte)    -- a Bisor reply over the network (R72)
  | frame (port : Nat) (bytes : List Byte)     -- an Ethernet frame leaves
  | launched (port : Nat) (bytes : List Byte)  -- a frame or datagram leaves at its launch time
  | flit (port : Nat) (bytes : List Byte)      -- a neighbour flit leaves: its 64 bytes (R398)
  | hostWrite (addr : Nat) (bytes : List Byte) -- a write to host memory
  | nvme (port : Nat) (op : Nat) (addr : Nat) (bytes : List Byte) -- an NVMe command issued
  | pin (id : Nat) (level : Bool)              -- a pin driven: 0 FAULT_N, 1 PPSOUT, 16+n TRIGIO n
  | line (n : Nat) (pixels : List Nat)         -- a display line shown
  | aux (op : Nat) (addr : Nat) (bytes : List Byte) -- an AUX transaction of the display (R482)
  | busError (m : Master)                      -- a bus error answers a master
  | readData (m : Master) (v : Word)           -- the value a read returns
  | readBytes (m : Master) (bytes : List Byte) -- the bytes a memory read returns
  | poisoned (m : Master)                      -- the read before it is poisoned (R345)
  | flow (what : Nat) (n : Nat)                -- firmware's own traffic (log 12)
deriving DecidableEq, Repr

/-- A commit ticket (R45, R51). -/
structure Ticket where
  num : Nat
  groups : Nat
  target : Nat
  gapOk : Bool
  late : Bool
  abs : Bool
  arrBeat : Nat
  arrCyc : Nat
  reply : Option (Nat × Req)     -- the request that is answered after the copy (R47)
  profile : Option (List Byte)   -- PROFILE_SET's parameter bytes (R56)
  restart : Bool                 -- it carries a restart change (R57)
deriving DecidableEq, Repr

/-- A ticket that left the pending set: its end is 0 applied, 1 cancelled. -/
structure Past where
  t : Ticket
  ending : Nat
deriving DecidableEq, Repr

/-- A restart change in progress (R57, R103, R462). -/
structure Restart where
  kind : Nat                     -- 0 layout, 1 power mode, 2 CNV_DIVIDE, 3 CLK_SCLK_SET
  op : Nat
  req : Req
  ticket : Nat                   -- PROFILE_SET's ticket, else 0
  lastBeat : Nat                 -- the last beat of the old run
  runAt : Nat                    -- the first beat of the new run when fixed, else 0
  stopped : Bool
  cal : Bool                     -- every present quadrant is to be calibrated (R57, R462)
deriving DecidableEq, Repr

/-- One converter core beside its registers. -/
structure CoreSt where
  pend : List Int := []          -- pending background steps, by trim index (R124)
  ep : Bool := false             -- in an over-range episode (R109)
  epOvd : Bool := false          -- OVD6 fired in it
  epFrom : Nat := 0              -- first OVR cycle of it in the present beat
  spans : List (Nat × Nat) := [] -- OVR cycles of the present beat (R111)
  ovds : List Nat := []          -- cycles of the present beat in which OVD6 fired
  ovr : Bool := false            -- the present beat carries OVR
  nbr : Bool := false            -- the present beat carries NBR
  nbrNext : Bool := false        -- the NBR window reaches into the next beat (R112)
  cal : Bool := false            -- a step landed in the present beat
  bg : Word := 0xF81             -- CNV_BGCAL in force: a write takes effect at the next boundary (R126)
  down : Bool := false           -- powered down (R130)
  waking : Bool := false         -- powering up
  landed : Bool := false         -- targets were computed, or a step landed, in the present beat (R124)
  ivlBad : Bool := false         -- the present interval holds a beat with BYP (R127)
  ivlOpen : Bool := false        -- an aligned interval runs (R121)
  ivlEnd : Bool := false         -- the interval that ended at this boundary is to be judged in this beat (R123)
  sums : Nat × Int × Nat := (0, 0, 0) -- codes of the present interval: count, sum, sum of squares (R136)
  ended : Nat × Int × Nat := (0, 0, 0) -- the same of the interval that ended
  line : List Int := []          -- the newest 63 words before the fine-skew filter
deriving DecidableEq, Repr

/-- A running cross-fade (R156). -/
structure Fade where
  src : Nat
  tgt : Nat
  x : Nat                        -- beats
  left : Nat                     -- beats left
deriving DecidableEq, Repr

/-- One path unit beside its registers. -/
structure PathSt where
  run : Bool := false            -- delivering samples
  m : Int := 0                   -- the DC estimate, 24 fraction bits (R142)
  blk : List Int := []           -- the last 14 DC words, newest first (R144)
  pos : Nat := 0                 -- input samples taken in the present run (parity of R146 follows the beat)
  phase : Nat := 0               -- the NCO accumulator, 48 bits
  hb : List (List Cx) := []      -- half-band delay lines, newest first, by stage
  fir : List Cx := []            -- the FIR delay line, newest first
  coarse : List Cx := []         -- the 16 newest samples leaving step 5
  cleft : Nat := 0               -- output samples before the first fine one (R161)
  fineWait : Bool := false       -- the first fine sample is still to come
  fineDue : Bool := false        -- event 288+n is due at the next boundary after the first fine sample
  satIn : List Nat := []         -- DC words on their way through the blanker that saturated, by the samples since
  satNext : Bool := false        -- a saturation that the next output sample takes in (R141)
  cutDue : Bool := false         -- a fade ran or a request was queued when the path stopped (R158)
  rephase : Bool := false        -- PHMODE 2 sets the phase again in this beat (R148)
  fade : Option Fade := none
  queued : Option (Nat × Nat) := none  -- bank and fade length of the queued request (R157)
  bankNow : Nat := 0             -- the bank in force
  bankLast : Nat := 0            -- BANK as the last commit of the group carried it (R155)
  bankA : List Int := [131071]
  bankB : List Int := [131071]
  flagsAt : List (Nat × Nat) := [] -- R61 flags by beats still to come (R163)
  prev : List Word := []         -- the path's shadow group as it was in force in the beat before
  out : List Cx := []            -- the path words of the beat last completed
  outFlags : Nat := 0
  outOvd : Bool := false         -- OVD6 fired in a group that this output beat carries (R241)
deriving DecidableEq, Repr

/-- A mask as MASK_LOAD leaves it: direction (0 upper, 1 lower), vertices, the version before it and the first beat
whose samples the present version tests (R239). -/
structure Mask where
  dir : Nat := 0
  verts : List (Nat × Int) := []
  oldDir : Nat := 0
  old : List (Nat × Int) := []
  fromBeat : Nat := 0
deriving DecidableEq, Repr

/-- A frame that has begun in a lane and still lacks samples, with the settings of the beat of its first sample (R54). -/
structure Flight where
  start : Nat                    -- index of its first sample (of the last N samples with a PFB)
  gen : Nat                      -- anchor generation
  tgen : List Nat                -- restart generation of each trace
  cfg : List Word                -- the lane's twelve shadow registers
  cplx : Bool
  win : List Int                 -- the window or prototype
  posBeat : Nat                  -- beat and offset (2^-24 beat) of the first input sample
  posOff : Nat
  zero : Nat                     -- samples before this index read 0 (R172)
deriving DecidableEq, Repr

/-- One trace's block since a restart (R182); linear values count units of 2^-119 over 2^sh. -/
structure TraceSt where
  t : Nat
  gen : Nat
  cfg : Word
  n : Nat := 0                   -- frames in the open block
  acc : List Int := []           -- per bin: sum, extreme, or exponential mean
  sh : Nat := 0
  live : Bool := false           -- acc holds a value
  flags : Nat := 0
  rfi : List Bool := []          -- bins flagged in the block
  first : Nat := 0               -- the earliest beat whose data it holds
  lastBeat : Nat := 0            -- spectrum number of the newest frame in it
  lane : List Word := []         -- the lane's settings at the newest frame
  posBeat : Nat := 0
  posOff : Nat := 0
deriving DecidableEq, Repr

/-- One lane of a slice. -/
structure LaneSt where
  on : Bool := false
  anchor : Nat := 0              -- beat of the anchor
  gen : Nat := 0
  tgen : List Nat := [0, 0, 0, 0]
  total : Nat := 0               -- samples taken since the lane's first run
  nextAt : Nat := 0              -- index of the next frame's start
  anchorAt : Nat := 0            -- index of the anchor's sample
  switchAt : Nat := 0            -- index of the first sample after the path's last switch (R160)
  cfgs : List (Nat × List Word) := []   -- the lane's settings by the index of their first sample, newest first (R54)
  cuts : List (Nat × Nat) := []  -- restarts: trace and index of the first sample after it, newest first (R183)
  buf : List Cx := []            -- held samples, oldest first; the last is sample total − 1
  bflags : List (Nat × Nat × Nat) := [] -- first index, count and flags of each held beat, oldest first
  flights : List Flight := []
  traces : List TraceSt := []
  hists : List (Nat × List (List Int × List Nat)) := [] -- by generation: LOG and power words, newest frame first (R184)
deriving DecidableEq, Repr

/-- A slice output on its way to readiness (R191): product codes of R305. -/
structure Product where
  readyAt : Nat
  slice : Nat
  lane : Nat
  product : Nat
  beat : Nat
  frames : Nat
  flags : Nat
  log : Bool                     -- LOG words
  values : List Nat              -- words; 8-byte peak entries; mask bytes
  count : Nat
  amp : Bool                     -- words that are amplitudes: an RMS trace
  first : Nat                    -- the earliest beat whose data it holds
  cands : Nat                    -- a peak list's candidates
deriving DecidableEq, Repr

/-- A spectrum as steps 3–6 leave it: handed to the density engine, the correlation array, the Ringmaster and the coder. -/
structure Spec where
  readyAt : Nat
  path : Nat
  beat : Nat
  flags : Nat
  pw : List Nat                  -- power words
  lg : List Int                  -- LOG words
  rfi : List Bool
  apply : Nat                    -- RF_APPLY
  cplx : Bool
  x : List Cx                    -- complex bins, 40 fraction bits of an LSB
  posBeat : Nat
  posOff : Nat
deriving DecidableEq, Repr

/-- One mask slot's result (R190). -/
structure MaskRes where
  readyAt : Nat
  slice : Nat
  lane : Nat
  slot : Nat
  viol : Bool
  count : Nat
  lowest : Nat
  excess : Int
  beat : Nat
  posBeat : Nat
  posOff : Nat
  flags : Nat
deriving DecidableEq, Repr

/-- An open WINDOW_LOAD (R196). -/
structure WinLoad where
  src : Src
  session : Nat
  llog : Nat
  written : List (Nat × Nat)
deriving DecidableEq, Repr

/-- One entry of the trouble log (R534). -/
structure LogEntry where
  beat : Nat
  cycle : Nat
  noBeat : Bool
  source : Nat
  cls : Nat
  esc : Bool
  inj : Bool
  cfg : Nat
  code : Nat
  serial : Nat
deriving DecidableEq, Repr

/-- An operator slot (R555). -/
structure Operator where
  modulus : List Byte
  exponent : Nat
  role : Nat
  counter : Nat
deriving DecidableEq, Repr

/-- An open network session (R68, R69). -/
structure Session where
  key : BitVec 256
  op : Nat
  empty : Bool
  high : Nat
  seen : Nat                     -- bit i: sequence high − i was accepted
  order : Nat                    -- opening order
deriving DecidableEq, Repr

/-- A request taken and not yet answered, and the key of its session when it was taken (R68, R71). -/
structure InHand where
  op : Nat
  req : Req
  key : Option (BitVec 256)
deriving DecidableEq, Repr

/-- What the boot flash's persistent store holds (R542). -/
structure Store where
  deviceId : Option Nat := none
  ethMode : Option Nat := none
  bisorPort : Option Nat := none
  ifs : List (Nat × List Byte) := []   -- ETH_IF_SET parameters by 4·port + interface
  operators : List (Nat × Operator) := []
  ppePolicy : Nat := 0
  ownerKey : List Byte := []
  ownerExp : Nat := 0
  retired : List Nat := []             -- the row-exclusion map: pages (R348)
  memLayout : List Byte := []          -- MEM_REGION_SET parameters (R350)
  repairs : List (Nat × Nat) := []     -- soft repairs logged in boot flash: pseudo-channel and page of the row (R347)
  hard : List (Nat × Nat) := []        -- hard repairs, in the stacks' fuses (R347)
deriving DecidableEq, Repr

/-- The fuses (R3, R547). -/
structure Fuses where
  id : Word
  cap0 : Word
  cap1 : Word
  vendorHash : BitVec 256
  ownerHash : Option (BitVec 256)
  noVendor : Bool
  svn : Nat
deriving DecidableEq, Repr

/-- A firmware update in progress (R549). -/
structure Update where
  slot : Nat
  was : Store                    -- the persistent store in flash: writes to it wait until the update ends (R550)
deriving DecidableEq, Repr

/-- A record waiting in a stream's staging queue: its bytes, its beat, the beat it was sealed in, its time in
1/65,536 ns. -/
structure QRec where
  bytes : List Byte
  beat : Nat
  sealedAt : Nat
  time : Nat
  inTime : Nat                   -- disciplined time at which it entered staging
deriving DecidableEq, Repr

/-- An item of a grouped stream (MON, TDC, LOG): its bytes, its beat, the time and tflags of that beat, its number. -/
structure Item where
  bytes : List Byte
  beat : Nat
  time : Nat
  tf : Nat
  num : Nat
  flags : Nat
deriving DecidableEq, Repr

/-- The running state of a stream (R309–R313, R331). -/
structure StreamSt where
  on : Bool := false
  since : Nat := 0                     -- enable beat e
  grp : Nat := 0                       -- the beat from which groups are counted, in the present numbering
  nextSeq : Nat := 0
  sealed : Nat := 0
  dropped : Nat := 0
  bytes : Nat := 0
  late : Nat := 0
  lastBeat : Nat := 0
  segLost : Nat := 0
  loss : Bool := false
  lfsr : Nat := 0
  iq : List (List Cx × Nat × Bool) := [] -- beats gathered, oldest first: words, flags, complex
  iqBeat : Nat := 0
  iqTime : Nat × Nat := (0, 0)
  items : List Item := []              -- items of the present group, oldest first
  count : Nat := 0                     -- outputs seen, for every
  queue : List QRec := []
  prod : Nat := 0                      -- P of a host ring (R322)
  cons : Nat := 0                      -- C in force (R323)
  irqBeat : Option Nat := none         -- beat of the last ring vector
  logNext : Nat := 0                   -- serial of the next log entry to take (R537)
  logGone : Nat := 0                   -- entries overwritten before the stream took them
  stopped : Bool := false              -- the carrier has halted (R321)
  outTime : Nat := 0                   -- time at which the record before the head left
  via : List Byte := []                -- the entry by which its records leave, also once it is disabled
  carrying : Bool := false             -- its channel runs the carrier's program (R321)
deriving DecidableEq, Repr

/-- A chunk of a volume being filled (R325). -/
structure Chunk where
  stream : Nat
  recs : List (List Byte)        -- newest first
  used : Nat
  firstSeq : Nat
  firstBeat : Nat
  lastBeat : Nat
  openedAt : Int                 -- beat (or tick) of its first record, in the present numbering
  closed : Bool                  -- the next record did not fit, or the END record entered
  hasEnd : Bool
deriving DecidableEq, Repr

/-- A Noviebel volume (R324): state 0 NONE, 1 FORMATTING, 2 READY, 3 FULL, 4 FAILED. -/
structure Volume where
  state : Nat := 0
  drives : List Nat := []
  k : Nat := 0
  ring : Bool := true
  lba : Nat := 0
  serial : Nat := 0
  flushb : Nat := 0
  cserial : Nat := 0
  chunks : List Chunk := []      -- open chunks
deriving DecidableEq, Repr

/-- A drive as bring-up identified it (R383, R386). -/
structure Drive where
  lba : Nat := 0
  mdts : Nat := 0
  cap : Nat := 0
  temp : Nat := 0
  crit : Nat := 0
  used : Nat := 0
  written : Nat := 0
  serial : List Byte := []
  model : List Byte := []
deriving DecidableEq, Repr

/-- An outstanding NVMe command (R326, R384). -/
structure NvCmd where
  port : Nat
  kind : Nat                     -- 0 chunk Write, 1 Flush, 2 Read, 3 Deallocate or header Write
  volume : Nat
  again : Bool                   -- reissued once
  hbm : Nat                      -- destination of a Read
  reply : Option Req
  bytes : List Byte
  at_ : Nat
deriving DecidableEq, Repr

/-- One Ethernet interface (R388). -/
structure EthIf where
  en : Bool := false
  bisor : Bool := false
  ptp : Bool := false
  vlan : Nat := 0
  prefix4 : Nat := 0
  prefix6 : Nat := 0
  ipv4 : Nat := 0
  gw4 : Nat := 0
  ipv6 : Nat := 0
  gw6 : Nat := 0
  mtu : Nat := 1500
deriving DecidableEq, Repr

/-- One UDP receive filter (R396). -/
structure EthFilter where
  en : Bool := false
  srcMatch : Bool := false
  port : Nat := 0
  ifc : Nat := 0
  queue : Nat := 8
  dport : Nat := 0
  sport : Nat := 0
  src : Nat := 0
deriving DecidableEq, Repr

/-- A next-hop cache entry (R390). -/
structure Hop where
  port : Nat
  ifc : Nat
  v6 : Bool
  ip : Nat
  mac : Option Nat
  age : Nat                      -- seconds
deriving DecidableEq, Repr

/-- One neighbour port (R398–R400). -/
structure NbrSt where
  credit : Nat := 1024           -- KiB of the receiver's buffer not in use
deriving DecidableEq, Repr

/-- The PCIe endpoint's configuration space where the chapters use it (R375–R380). -/
structure PciSt where
  bme : Bool := false            -- Bus Master Enable
  msixEn : Bool := false
  fmask : Bool := false          -- MSI-X Function Mask
  d3 : Bool := false
  mps : Nat := 128
  mrrs : Nat := 512
  ecrc : Bool := false           -- ECRC generation and checking: off after reset; no row writes it (R375)
  aspm : Bool := false           -- ASPM L1 enabled; no row writes it (R375)
  timeout : Nat := 50            -- Completion Timeout in ms, ranges A to C; no row writes it (R378)
  up : Bool := false
  aerCor : Nat := 0
  aerUnc : Nat := 0
  perst : Bool := false
  trainTo : Nat × Nat := (0, 0)  -- generation and width that the link trains to when the endpoint is powered
deriving DecidableEq, Repr

/-- An active REP of a context (R278): the body and the runs left, the present one included. -/
structure PpeRep where
  first : Nat
  last : Nat
  count : Nat
deriving DecidableEq, Repr
/-- What a context of an engine runs on beside its register bank (R276, R280, R283). -/
structure PpeCtx where
  pc : Nat := 0
  br : Option (Nat × Option Nat × Bool) := none -- delay slots left, target when taken, RETI
  reps : List PpeRep := []       -- innermost first
  hnd : Bool := false            -- in a handler
  waiting : Bool := false        -- WAITI has issued
  ie : Bool := false
  ieNext : Bool := false         -- IE is set as the next bundle issues
  icause : Nat := 0
  rpc : Nat := 0
deriving DecidableEq, Repr
/-- A write that becomes visible `left` bundles from now (R274). -/
structure PpeWr where
  left : Nat
  slotB : Bool
  key : Nat
  val : Nat
deriving DecidableEq, Repr
/-- One post-processing engine beside its BAR0 registers (R263, R268). Registers lie in `regs` under 128·bank + index
(bank 0 T, 1 B): G 0–31, P 32–39, M 40–47, ACC.re 48–51, ACC.im 52–55, the same as MVA sees them 56–63, SV, SI, SN 64–66,
the same as MOVS sees them 67–69; PMODE and PBASE under 264–279. -/
structure PpeSt where
  evsel : List Word := []
  ipend : Nat := 0
  ien : Nat := 0
  regs : List (Nat × Nat) := []
  pipe : List PpeWr := []        -- oldest first
  loaded : Bool := false
  entries : List Nat := []       -- the 16 entries of the image
  digest : BitVec 256 := 0
  ctx : Option PpeCtx := none    -- the context that issues
  bg : Option PpeCtx := none     -- the background while a task holds the engine
  task : Option Nat := none
  taskBeat : Nat := 0
  cyc : Nat := 0                 -- cycles the running task has used
  due : List Nat := []           -- tasks of this beat not yet started
  beatCyc : Nat := 0             -- task cycles and dispatch cost of this beat
  lasts : List Nat := [0, 0, 0, 0, 0, 0, 0, 0]
  stopBeat : Option Nat := none  -- beat in which a task was last stopped (R288)
  shadow : List Nat := []        -- the task table: 16 words, shadow and in force (R282)
  table : List Nat := []
deriving DecidableEq, Repr
/-- The engines' memories by device address (R267), their code by 8,192·engine + bundle, and the beats for which each
cluster has met the gating conditions (R294). -/
structure PpeMem where
  bytes : List (Nat × Byte) := []
  code : List (Nat × Nat) := []
  idle : List (Nat × Nat) := []
deriving DecidableEq, Repr
/-- What spans beats beside the units: beats already counted in GLB_OVRCNT (R42), newest first; DMA_ABORT requests and
the channels each still waits for (R373). -/
structure BeatX where
  ovrs : List Nat := []
  aborts : List (Req × List Nat) := []
  fwMsgs : List (Nat × InHand) := []  -- engines whose IN half firmware filled for a command in hand (R89)
  strNext : Option (List (Nat × List Byte)) := none -- the stream table that a copy brings into force at the boundary
  lastRun : Bool := false        -- the present beat is the last of its run
  runNext : Bool := false        -- a run starts at the coming boundary
  porst : Bool := true           -- PORST_N is held low
  off : Bool := false            -- the Owl domain has switched every unit off (R580)
  rgnFlags : List (Nat × Nat) := [] -- by region: flags of the spectra that ACC counts (R62, R217)
  loadAge : Nat := 3             -- boundaries since the counter was loaded, held at 3 (R28, R256)
  mover : Nat := 127             -- the channel that a mover took last (R363)
deriving DecidableEq, Repr
/-- A MOVE in progress (R362–R367). -/
structure DmaMove where
  pos : Nat := 0                 -- bytes delivered
  inFlight : Nat := 0            -- bytes of the burst in flight, 0 for none
  tries : Nat := 0               -- retries of that burst
  on : Bool := false             -- FILL is in ON
  bucket : Nat := 0              -- RATE tokens in quarter bytes
  bucketAt : Int := 0            -- FCLK cycle of that count, in the present numbering
deriving DecidableEq, Repr
/-- One DMA channel beside its registers and its block (R355, R369). -/
structure DmaSt where
  watching : Bool := false       -- not IDLE: ECNT counts
  wev : Nat := 0
  ecnt : Nat := 0
  a : List Nat := [0, 0, 0, 0]
  spaces : List Nat := [0, 0, 0, 0]
  qid : Nat := 0
  rate : Nat := 0
  high : Nat := 0
  low : Nat := 0
  cnt : List Nat := [0, 0]
  instr : Nat := 0               -- the instruction fetched
  mv : Option DmaMove := none
  waitAt : Int := 0              -- beat or tick in which the WAIT issued, in the present numbering
  abort : Bool := false          -- an abort waits for the burst in flight
  retries : Nat := 0             -- retries used in the last burst
deriving DecidableEq, Repr
/-- A trigger unit beside its registers; the group's state lies in its master (R231). -/
structure UnitSt where
  st : Nat := 0                  -- 0 IDLE, 1 ARMED, 2 HOLDOFF
  armBeat : Nat := 0
  holdTo : Nat := 0              -- TIME: the boundary that arms again
  holdLeft : Nat := 0            -- EVENTS: events still to count
  prev : Option Int := none      -- EDGE: the quantity at the sample before
  ready : Bool := true           -- EDGE: a rising crossing may be met again
  readyF : Bool := true          -- EDGE: a falling crossing may be met again
  run : Nat := 0                 -- LEVEL: samples of the present run
  runMet : Bool := false
  runBeat : Nat := 0
  runOff : Nat := 0
  timeMet : Bool := false        -- TIME: met since the arm beat
  prevFlags : Nat := 0           -- EDGE: flags of the beat of the sample before
  runFlags : Nat := 0            -- LEVEL: flags of the beats of the present run
deriving DecidableEq, Repr
/-- A condition on its way to its decision boundary (R234, R244). -/
structure Cond where
  unit : Nat
  due : Nat
  lag : Nat                      -- boundaries from the start of its source beat to its decision (R244)
  pos : Nat                      -- beat and offset of the event position
  off : Nat
  tdc : Option Nat               -- the TDC stamp's time (R242)
  free : Bool                    -- a token in free-beat mode (R246)
  flags : Nat                    -- R61 flags of the data that met it (R62)
deriving DecidableEq, Repr
/-- A fire as a channel takes it (R250, R253). -/
structure Fire where
  pos : Nat
  off : Nat
  time : Nat
  cause : Nat
  d : Nat
  tdc : Bool
  stopv : Bool
  forced : Bool
  free : Bool
  index : Option Nat             -- index of the event unit in the segment, once it is known
deriving DecidableEq, Repr
/-- A Carousel channel (R249): state 0 IDLE, 1 ARMED, 2 POST, 3 GAP, 4 STOPPED. -/
structure CarSt where
  st : Nat := 0
  armAt : Option Nat := none
  stopAt : Option Nat := none
  slot : Nat := 0
  segs : Nat := 0                -- segments since CAR_ARM
  s0 : Nat := 0
  low : Nat := 0                 -- units numbered below are not of the segment
  count : Nat := 0               -- units since s0
  nums : List Nat := []          -- numbers of the units of the ring, newest first
  gone : Option Nat := none      -- number of the unit overwritten last
  flags : List Nat := []         -- their flags
  atD : Nat := 0                 -- units that had entered by the decision boundary
  fire : Option Fire := none
  fill : Nat := 0                -- bytes in the channel's buffer
  gapAt : Nat := 0               -- boundary at which the segment ended
  resume : Bool := false         -- stopped by OVERFLOW with OVFRESUME
  cut : Option Nat := none       -- last_valid under OVERFLOW
  src : Nat := 0                 -- kind, unit bytes, C and paths of the segment in progress
  unit : Nat := 0
  cap : Nat := 0
  paths : Nat := 0
deriving DecidableEq, Repr
/-- A unit of captured data that enters a channel at a boundary. -/
structure CarUnit where
  chan : Nat
  at_ : Nat
  num : Nat
  flags : Nat
  bytes : List Byte
deriving DecidableEq, Repr
/-- Path flags of a beat as 32-bit words, one bit per path, until R241 presents them. -/
structure PatWords where
  beat : Nat
  ovr : Nat
  ovd : Nat
  nbr : Nat
  blank : Nat
  sat : Nat
  flags : List Nat               -- the flags of each path's output beat
deriving DecidableEq, Repr
/-- The trigger signal of an engine (R287). -/
structure PpeTrig where
  eng : Nat
  src : Nat
  pos : Nat
  off : Nat
deriving DecidableEq, Repr
/-- A density region's figures for spectrum b (R217). -/
structure Figure where
  region : Nat
  beat : Nat
  hits : Nat
  acc : Nat
  pos : Nat
  off : Nat
  flags : Nat                    -- flags of the spectra with hits in HITS
  accFlags : Nat                 -- the same for ACC
deriving DecidableEq, Repr
/-- A spectrum's number, flags and hits (column, row), held while a readout runs (R210). -/
structure HeldSpec where
  num : Nat
  flags : Nat
  hits : List (Nat × Nat)
  after : Nat                    -- pending final frames of earlier runs that it comes after (R213)
deriving DecidableEq, Repr
/-- What a histogram's pending final frame keeps of the run it ends, once the next run counts (R208, R213). -/
structure DenFin where
  pcfg : Word
  pmap : Word
  flags : Nat
  csat : Bool
  retained : Bool
  off : Nat                      -- boundaries since it was disabled, held at 2
deriving DecidableEq, Repr
/-- One density histogram beside its cells. -/
structure DenSt where
  on : Bool := false
  age : Nat := 0                 -- boundaries since counting began, held at 2: the first spectrum counted arrives at 2
  off : Option Nat := none       -- boundaries since it was disabled, held at 2: the last spectrum counted arrives at 1
  pcfg : Word := 0               -- the mapping it counts by: DEN_PCFG and DEN_PMAP in force (R205, R207)
  pmap : Word := 0
  flags : Nat := 0               -- flags of the spectra with a hit since the last readout
  csat : Bool := false
  keep : Bool := false           -- held through STANDBY or HIBERNATE (R214)
  retained : Bool := false       -- counts held through STANDBY or HIBERNATE are in the next frame
  held : List HeldSpec := []     -- binned while the path's readout runs, oldest first (R210)
  fin : List DenFin := []        -- earlier runs whose final frames still hold the cells, oldest first
deriving DecidableEq, Repr
/-- A flush: its boundary, the paths whose frames it closes, ascending; those of them whose frame is final; whether late
(R208, R212, R213). -/
structure Flush where
  r : Nat
  paths : List Nat
  finals : List Nat
  late : Bool
  due : Bool                     -- boundary r+1 has come
  time : Nat
  tf : Nat
  fp : Nat
  modes : List (Nat × Word)      -- DEN_PCFG in force at the start of the readout, by path (R207)
  start : Nat                    -- the beat in which the readout started (R210)
  slots : List (Nat × Nat)       -- the slot of each path's frame, as the readout began (R215)
  old : Bool                     -- closed before the counter was loaded (R256)
deriving DecidableEq, Repr
/-- A region as it stood before a commit changed it, and the boundaries since (R217). -/
structure RegionOld where
  n : Nat
  age : Nat
  a : Word
  b : Word
deriving DecidableEq, Repr
/-- The correlation array (R218–R226): the integration in progress, or one closed and waiting to be dumped. -/
structure CorrSt where
  start : Nat := 0
  age : Nat := 0                 -- boundaries since the start, held at 2: the first spectrum arrives at 2
  firstNum : Option Nat := none  -- number of the first spectrum included
  cfg : List Word := []          -- group 49 as read at the start: CTRL, IPER, GAIN0–7, HBMBASE_LO, HBMBASE_HI, SLOTS
  paths : List Nat := []
  first : Nat := 0
  count : Nat := 0
  acc : List (Nat × Cx) := []    -- by p·C + i
  weight : List (Nat × Nat) := []
  satKeys : List Nat := []       -- components that saturated: 2·key, +1 for Im
  flags : Nat := 0
  spectra : Nat := 0
  qclip : Bool := false
  late : Bool := false
  ended : Option Nat := none     -- end boundary r
  endAge : Nat := 0              -- boundaries since it ended, held at 2: the last spectrum arrives at 1
  final : Bool := false
  dumpBeat : Nat := 0
  time : Nat := 0
  tf : Nat := 0
deriving DecidableEq, Repr
/-- A jump of disciplined time accepted and waiting for its boundary (R415): kind 0 servo, 1 TIME_ADJUST, 2 TIME_STEP REL,
3 TIME_STEP ABS; its amount in 1/65,536 ns (ABS: the time itself). -/
structure Jump where
  kind : Nat
  by_ : Int
  tairef : Bool
deriving DecidableEq, Repr
/-- A sample of a time source on its way to the servo (R411): e and τ, and for a full-time source the reference time at
the sample's instant. -/
structure ServoIn where
  src : Nat
  e : Int                        -- 1/65,536 ns
  tau : Nat                      -- ns
  full : Bool
  tai : Bool                     -- the source's seconds are TAI
deriving DecidableEq, Repr
/-- The time base, the servo and grid alignment beside their registers. -/
structure TimeSt where
  o : Int := 0                   -- the offset O, 1/65,536 ns (R407)
  c : Nat := 0                   -- the base count C_b
  jumps : List Jump := []        -- in order of acceptance
  samples : List ServoIn := []   -- oldest first
  first : Bool := true           -- the next sample is the first of ACQUIRE
  close : Nat := 0               -- consecutive samples with |e| ≤ LOCKTHR
  far : Nat := 0                 -- consecutive discards in LOCKED
  held : Bool := false           -- HOLDOVER has lasted HOLDMAX
  rates : List Int := []         -- TIM_RATE after the last 16 servo samples, newest first (R440)
  gSum : Int := 0                -- grid errors of the open averaging window, 1/65,536 ns
  gCount : Nat := 0
  gDone : Option (Int × Nat × Nat) := none -- sum, count and first boundary of the window that has ended
  gStart : Nat := 0              -- first boundary of the open window
  gFrom : Nat := 0               -- boundary at which MEASURE or VERIFY was entered
  gPass : Nat := 0               -- passes through VERIFY
  gLost : Nat := 0               -- consecutive windows beyond GLOSS
  slew : Int := 0                -- native steps toward zero that the running SLEW has still to apply (R421)
  track : Int := 0               -- native steps that TRACK has still to apply in this window beside the feed-forward (R422)
  drift : Int := 0               -- feed-forward not yet a whole native step, 1/65,536 of one (R422)
  moved : Int := 0               -- native steps that alignment and tracking have applied, later counted positive (R419)
  loadDue : Bool := false        -- LOAD entered
  loadTo : Option Nat := none    -- the number that the coming boundary loads
  jumpNo : Nat := 0              -- jumps applied
  leapAt : Option Nat := none    -- TAI second of the inserted UTC second
  pps : Bool := false            -- PPSOUT is high
deriving DecidableEq, Repr
/-- The best master as its Announce messages describe it (R416). -/
structure PtpMaster where
  prio1 : Nat
  cls : Nat
  acc : Nat
  var : Nat
  prio2 : Nat
  gm : Nat
  steps : Nat
  src : Nat                      -- clock identity of the sender
  srcPort : Nat
  utc : Nat
  flags : Nat                    -- pflags of PTP_STATUS
deriving DecidableEq, Repr
/-- The PTP ordinary clock (R416, R417); times in 1/65,536 ns, port states as IEEE 1588-2019 numbers them. -/
structure PtpSt where
  on : Bool := false
  eth : Nat := 0                 -- 4·port + interface
  slaveOnly : Bool := false
  oneStep : Bool := false
  p2p : Bool := false
  transport : Nat := 0
  domain : Nat := 0
  prio1 : Nat := 128
  prio2 : Nat := 128
  logSync : Int := 0
  logAnn : Int := 1
  logDelay : Int := 0
  port : Nat := 3                -- DISABLED
  master : Option PtpMaster := none
  flags : Nat := 0               -- pflags in force
  utc : Nat := 0
  offset : Int := 0
  delay : Int := 0
  delays : List Int := []        -- the last 16 meanPathDelays, newest first
  sync : Option (Nat × Int × Int) := none -- a two-step Sync: sequence, receive time, correction
  lastSync : Option (Int × Int) := none  -- t2 and t1 with corrections of the newest Sync
  req : Option (Nat × Int) := none       -- sequence and departure of the delay request in flight
  resp : Option (Nat × Int × Int) := none -- a two-step Pdelay_Resp: sequence, t4, requestReceipt with corrections
  seqs : List Nat := []          -- next sequence numbers by message type
  foreign : List (Nat × Nat × Int) := [] -- clock, port and time of the newest Announce of each master heard, newest first
deriving DecidableEq, Repr
/-- A request that waits at an HBM controller, and how often younger ones of its class have passed it (R337). -/
structure HbmWait where
  req : HbmReq
  passed : Nat := 0
deriving DecidableEq, Repr
/-- One pseudo-channel's arbitration of a window: credit of the five classes, debt of CAPTURE and DISPLAY-URGENT (R339). -/
structure ArbSt where
  credit : List Nat := []        -- empty: the credits of the first window are not loaded yet
  debt : List Nat := [0, 0]
  wait : List HbmWait := []      -- requests not yet served, oldest first; of each class the 32 oldest are queued
  rows : List (Nat × Nat) := []  -- the open row of a bank, by bank and page
  turn : Nat := 0                -- the class that round robin comes to next
  write : Bool := false          -- the bus direction of the last slot
deriving DecidableEq, Repr
/-- A row that gave a corrected error: pseudo-channel, page, word, beat (R347). -/
structure CeSeen where
  chan : Nat
  page : Nat
  word : Nat
  beat : Int
deriving DecidableEq, Repr
/-- HBM beside its contents and registers. -/
structure MemSt where
  poison : List Nat := []               -- words (address / 8) that are uncorrectable (R345)
  excluded : List Nat := []             -- retired pages without a spare page (R348)
  redirects : List (Nat × Nat) := []    -- retired pages and the spare pages that accesses to them reach (R348)
  sizes : Nat × Nat := (524288, 65536)  -- usable pages of the two regions as they were set, before they shrank (R348)
  failing : List (Nat × Nat) := []      -- failing rows by pseudo-channel and page, oldest first (R347)
  ceSeen : List CeSeen := []            -- corrected errors of the last second
  arb : List (Nat × ArbSt) := []        -- by pseudo-channel
  retried : List Nat := []              -- pseudo-channels whose retraining is being repeated (R343)
deriving DecidableEq, Repr
/-- A stamp of a TDC channel (R432): its time in 1/65,536 ns. -/
structure Stamp where
  t : Nat
  rise : Bool
  lost : Bool
  dead : Bool
  byp : Bool
  step : Bool
  beat : Nat
deriving DecidableEq, Repr
/-- One TDC channel beside its registers. -/
structure TdcCh where
  queue : List Stamp := []       -- oldest first
  lost : Bool := false           -- the next stamp carries LOST
  jump : Nat := 0                -- jumps applied at its last stamp
  last : Option (Nat × Bool × Nat × Nat) := none -- the edge whose blind time runs: time, level left, FCLK cycle, beat
  table : List Nat := []         -- hits per code of the width table, 2^17 in all; empty: the factory table
deriving DecidableEq, Repr
/-- A gate's result that waits for its boundary (R435, R439), with what FREQ_START gave the gate. -/
structure FreqRes where
  due : Nat                      -- boundary end + 2
  fres : Nat
  frms : Nat
  fn : Nat
  start : Nat
  stop : Nat
  byp : Bool                     -- a stamp of the gate carries BYP
  record : Bool                  -- REC
  chan : Nat
  time : Nat                     -- of the start boundary, with its tflags
  tf : Nat
deriving DecidableEq, Repr
/-- A frequency unit beside its registers (R438, R439). Sums are over the kept stamps, times relative to the first. -/
structure FreqUnit where
  start : Nat := 0               -- the start boundary under the number it had
  since : Nat := 0               -- the same in the present numbering
  stop : Nat := 0                -- end boundary of the gate
  run : Bool := false            -- a gate is open or due
  opened : Bool := false         -- the gate is open
  abs : Bool := false            -- its start was given as a number
  startTime : Nat × Nat := (0, 0) -- of the start boundary, with its tflags
  k : Nat := 0                   -- edges counted
  n : Nat := 0
  t0 : Nat := 0
  sk : Int := 0
  skk : Int := 0
  st : Int := 0
  stt : Int := 0
  skt : Int := 0
  bad : Bool := false
  badSince : Bool := false       -- a DEAD, BYP or LOST stamp since the last kept one
  cap : Bool := false
  jump : Nat := 0                -- jumps applied when the gate opened
  endAt : Option Nat := none     -- STOP: the boundary that ends the unit
  byp : Bool := false            -- a stamp of the gate carries BYP
  result : Option FreqRes := none
  shown : Nat := 0               -- start of the gate whose result the registers show
deriving DecidableEq, Repr
/-- Edge time-stamping beside its registers. -/
structure TdcSt where
  chans : List (Nat × TdcCh) := []
  units : List (Nat × FreqUnit) := []
  next : Nat := 0                -- channel that RECAL takes next
  ocxo : Bool := false           -- the level that OCXO_WARM last held for 1 ms
deriving DecidableEq, Repr
/-- A CLK_PHASE_STEP that applies its steps (R463). -/
structure PhaseRun where
  req : Req
  quads : List Nat
  steps : Int
  at_ : Int                      -- FCLK cycle before its first step, counted with its beat
deriving DecidableEq, Repr
/-- Clock synthesis beside its registers: phase steps that run, and the settings of the last CLK_SCLK_SET (R462). -/
structure ClkSt where
  phases : List PhaseRun := []
  src : Nat := 0
  mhz : Nat := 10240
  refsel : List Nat := [0, 0, 0, 0]
  gaveUp : List Nat := []        -- sample MDLLs that tried every band entry in vain (R450)
deriving DecidableEq, Repr
/-- A registered display buffer (R479): address, size, FMT, W, H, stride, tag, and whether the host registered it. -/
structure DspBuf where
  addr : Nat
  size : Nat
  fmt : Nat
  w : Nat
  h : Nat
  stride : Nat
  tag : Word
  host : Bool
deriving DecidableEq, Repr
/-- Display scan-out beside its registers. -/
structure DspSt where
  mode : List Byte := []         -- parameters of the mode in force; none before the first DSP_MODE_SET
  modeReq : List Byte := []      -- a mode that waits for its copy point
  line : Nat := 0                -- the line scanned next
  vtot : Nat := 0                -- lines of the present frame, stretched or not (R478)
  copied : Bool := false         -- the present frame's copy point has passed
  black : Bool := false          -- the present frame is black
  fresh : Bool := false          -- the next frame is the first of a mode
  due : Bool := false            -- MODE_SWITCHED is still to be set
  retrain : Bool := false        -- HPD has risen: train at the next copy point
  async : Bool := false          -- the sink reports Adaptive-Sync
  still : Nat := 0               -- static frames in a row
  dirty : Bool := false          -- DIRTY written since the last copy point
  bufs : List (Nat × DspBuf) := [] -- by handle
  gone : List Nat := []          -- handles to be freed at the next copy point (R481)
  waiting : List Req := []       -- DSP_COMMITs that wait for the copy
  half : Nat := 0                -- the half of the L0 buffer shown
  rend : Option (Nat × Nat) := none -- density slot being rendered and its seq (R473)
  lastSeq : Option Nat := none   -- seq of the last frame rendered
  blankNow : List Nat := []      -- layers blanked in the present frame (R480)
  blankNext : List Nat := []     -- layers to blank in the next one
  torn : Bool := false           -- the frame is marked TORN
deriving DecidableEq, Repr
/-- One monitor core beside its registers (R489–R492). -/
structure MonCore where
  ctrl : Word := 0               -- MON_CTRL as the running pass took it
  pass : Option Nat := none      -- the regular entry of the running pass
  inj : Option Nat := none       -- the injected entry that runs
  held : Bool := false           -- one more injected sequence is due
  cur : Option (Nat × Word × Word) := none -- entry in conversion with its SEQ and CAL words
  flight : List (Nat × Word × Word) := []  -- entries whose last sample has been taken
  startAt : Option Nat := none   -- beat of the last BEAT start
deriving DecidableEq, Repr
/-- Badger monitor converters beside their registers: cores, requests on their way to a core, and the number of the next
fast-watch sample of each pair. -/
structure MonSt where
  cores : List (Nat × MonCore) := []
  req : List Nat := []
  fwIdx : List (Nat × Nat) := []
deriving DecidableEq, Repr
/-- Further units, grouped. -/
structure ExtSt where
  tdc : TdcSt := {}
  clk : ClkSt := {}
  dsp : DspSt := {}
  mon : MonSt := {}
  cfg : BitVec 256 := 0          -- SEC_CFGHASH as firmware last computed it (R554)
deriving DecidableEq, Repr

/-- Why the machine stops with a fault: no rule of the spec stops the block, so no meaning raises one. -/
inductive Fault where
  /-- Raised by no command: every error of the spec is a next state (a status, a fault report, a bus error). Safe. -/
  | none
deriving DecidableEq, Repr

/-- Why a command has no meaning. -/
inductive Refusal where
  /-- Raised by the dispatch for a command without a meaning yet. Safe: no claim can rest on it. -/
  | notModelled (mnemonic : String)
deriving DecidableEq, Repr

/-- The whole block. -/
structure State where
  pending : List Instr := []
  out : List Out := []
  free : Nat := 0                       -- the model's own counter of free values (log 3)
  regs : List (Nat × Word) := []        -- registers by BAR0 offset (what a read returns; shadows for shadowed ones)
  active : List (Nat × Word) := []      -- the values in force of the shadowed registers (R43)
  inBeat : List (Nat × Word) := []      -- the same as they were at the present beat's boundary: they govern its data (R54)
  latch : List (Nat × Word) := []       -- latched words by master and address (R585)
  latched : List Nat := []              -- keys of latches taken since reset
  locks : List (Nat × Nat) := []        -- lock number to owner id + 1 (R93)
  mbx : List (Nat × Byte) := []         -- the mailbox data window by BAR0 offset (R77)
  hbm : List (Nat × Byte) := []         -- HBM by device address
  sram : List (Nat × Byte) := []        -- DMA SRAM by offset (R354)
  msix : List (Nat × Word) := []        -- the MSI-X table words by offset (R376)
  pba : List Nat := []                  -- pending vectors (R379)
  fuses : Fuses
  store : Store := {}
  flash : List (Nat × Byte) := []       -- the two firmware slots of the boot flash (R542)
  devId : Nat := 0                      -- the device id in force for R67
  devIdRec : Nat := 0                   -- the id that records carry (R76)
  fwVersion : Nat := 0
  fwSvn : Nat := 0
  doorbells : List (Nat × Nat) := []    -- FULL command mailboxes with their LEN, in doorbell order (R79)
  inHand : List InHand := []            -- requests taken and not yet answered (R71)
  netQueue : List (Peer × List Byte) := [] -- Bisor packets from the network, oldest first (R71)
  -- The Beat
  tick : Nat := 0                       -- ticks since FCLK stopped (R22)
  tickets : List Ticket := []
  past : List Past := []                -- newest first, at most 64
  ticketNo : Nat := 0                   -- the last ticket number given
  locked : List Nat := []               -- locked commit groups
  profile : List Byte := []             -- bytes 0–15 of the running profile
  profileBeat : Nat := 0
  layoutDense : Bool := false
  coolMode : Bool := false
  restart : Option Restart := none
  running : Bool := false               -- the data path runs
  runBeat : Nat := 0                    -- first beat of the present run
  haltDue : Bool := false               -- a FATAL report stops the data path at the next boundary (R530)
  cfgBeat : Nat := 0                    -- effective beat of SEC_CFGHASH (R554)
  evtPend : List Nat := []              -- events due at the next boundary
  -- Converters
  cores : List (Nat × CoreSt) := []
  bypBeat : List Nat := []              -- quadrants on bypass at any time of the present beat (R457)
  fgStart : List (Nat × Nat) := []      -- quadrants in foreground calibration: start beat + 1
  -- Conditioning and slices
  paths : List (Nat × PathSt) := []
  lanes : List (Nat × LaneSt) := []     -- by 2·slice + lane
  winLoads : List (Nat × Option WinLoad) := [] -- by 2·slice + bank
  slcRam : List (Nat × Word) := []      -- slice SRAM words by slice·2^24 + offset (R192)
  prods : List Product := []
  specs : List Spec := []
  maskRes : List MaskRes := []
  gapNow : List Nat := []               -- groups that a GAP_OK ticket commits at the next boundary (R54)
  masks : List (Nat × Mask) := []
  traceClr : List (Nat × Nat) := []     -- TRACE_CLEAR masks, by lane; by 32 + lane those that the coming boundary restarts (R197)
  -- Streams and volumes
  beatTimes : List (Nat × Nat × Nat) := [] -- disciplined time and tflags of the 16 newest boundaries, newest first
  emits : List (Nat × Nat × List Byte) := [] -- engine, beat and bytes of EMITs sealed at the next boundary (R288)
  strShadow : List (Nat × List Byte) := []
  strActive : List (Nat × List Byte) := []
  streams : List (Nat × StreamSt) := []
  hconsLo : List (Nat × Word) := []     -- OC_HCONSh_LO as written, until _HI applies both (R323)
  volumes : List (Nat × Volume) := []
  -- Links
  pci : PciSt := {}
  drives : List (Nat × Drive) := []
  nvCmds : List NvCmd := []
  ifs : List (Nat × EthIf) := []        -- by 4·port + interface
  filters : List (Nat × EthFilter) := []
  hops : List Hop := []
  nbr : List (Nat × NbrSt) := []
  txCtx : List (Nat × List Byte) := []  -- transmit contexts by link address of their window (R402)
  txDue : List (Nat × Nat) := []        -- queue heads waiting for a launch time
  -- Safety Net
  log : List LogEntry := []             -- newest first
  lastCls : List (Nat × Nat) := []      -- raised class + 1 of each source's last log entry (R535)
  isolated : List Nat := []             -- isolated engines (R532)
  faultLow : Bool := false              -- FAULT_N is pulled low
  -- Power
  stepNo : Nat := 0                     -- next step of the staggered start
  wakeHeld : Nat := 0                   -- wake sources held during entry (R509)
  pwrReply : Option (Nat × Req × Nat) := none -- a PWR_STATE_SET or RESET answered later; its target state
  pwrAt : Option (Nat × Nat) := none    -- RUN–IDLE transition: target state, beat
  resetAt : Option Nat := none          -- RESET level due at the next boundary
  hibernated : Bool := false
  fromWarm : Bool := false
  firstRunAt : Option Nat := none       -- beat of the first run after a start
  -- Security
  sessions : List (Nat × Option Session) := []
  sessNo : Nat := 0
  update : Option Update := none
  challenge : Option (BitVec 256) := none
  identBad : Bool := false
  ownerRunning : Bool := false          -- the running firmware was verified with the owner key
  cyc : Nat := 0                        -- FCLK cycle of the last instant given (log 11)
  ppe : List (Nat × PpeSt) := []
  dma : List (Nat × DmaSt) := []
  wakeReq : List Nat := []              -- clusters that an event or a doorbell wakes (R295)
  units : List (Nat × UnitSt) := []
  conds : List Cond := []
  armReq : List (Nat × Nat) := []       -- masters to arm and the boundary that arms them
  disReq : List (Nat × Nat) := []
  forceReq : List (Nat × Nat) := []
  pulses : List (Nat × Nat) := []       -- TRIGIO pins to pull low and the boundary that does (R232)
  patWords : List PatWords := []
  patHist : List (List Nat) := []       -- the PATTERN words of the newest 16 beats by PCOND, newest first (R241)
  ppeTrig : List PpeTrig := []
  figures : List Figure := []
  cars : List (Nat × CarSt) := []
  carIn : List CarUnit := []
  timeJump : Int := 0                   -- how far the disciplined time stepped in the beat that ends, 1/65,536 ns (R243)
  denCells : List (Nat × Nat) := []     -- counts by 2^18·path + 256·column + row
  den : List (Nat × DenSt) := []        -- by path
  denWait : List Flush := []            -- flushes closed and not yet read out
  denRun : Option Flush := none         -- the readout in progress
  denMarks : List Nat := []             -- boundaries since the newest flush boundaries (R217)
  denF : List (Nat × Nat) := []         -- numbers of the next frames by histogram index h (R215)
  denSat : List Nat := []               -- numbers counted in DEN_SATCNT while a readout runs (R204)
  rgnPast : List RegionOld := []        -- region changes of the last boundaries, oldest first
  corr : Option CorrSt := none          -- integrating or closed
  corrNext : Option CorrSt := none      -- the next integration, until the banks swap (R224)
  corrDump : Option CorrSt := none      -- the bank being dumped
  corrF : Nat := 0
  time : TimeSt := {}
  vecPend : List Nat := []              -- vectors due at the next boundary
  ptp : PtpSt := {}
  mem : MemSt := {}
  tokens : List (Nat × Nat × List Byte) := [] -- received tokens: port, boundary that presents them, content
  echoes : List (Nat × Nat × Nat) := []       -- echo replies of each port in the present second: port, second, count (R390)
  pm : PpeMem := {}
  bt : BeatX := {}
  ext : ExtSt := {}
deriving DecidableEq, Repr

/-- The machine right after power-on reset (R512, R515): fuses of an OT-6432 at stepping 0 (log 1), every register at its
reset value (no entry listed), every memory empty, no firmware running. -/
def State.reset : State where
  fuses := ⟨0x00010000, 0x0004FF6F, 0x000F3830, 0, none, false, 0⟩

end Sys2Proof.Machine
end

