-- ==== Sys2Proof/Machine/Ops.lean ====
section
/-! DEFINITION. The named operations over registers, memories and tables, and what every unit shares: presence (R1, R2),
events and MSI-X vectors (R379, R587–R589), fault reports (R523–R535), locks and replies (R66, R78). -/
namespace Sys2Proof.Machine

/-- What a register reads as. -/
def State.rd (s : State) (a : Nat) : Word := Sparse.get Regs.dflt s.regs a
/-- Set a register. -/
def State.wr (s : State) (a : Nat) (v : Word) : State := { s with regs := Sparse.set Regs.dflt s.regs a v }
/-- The value in force of a shadowed register (R43). -/
def State.rdA (s : State) (a : Nat) : Word := Sparse.get Regs.dflt s.active a
def State.wrA (s : State) (a : Nat) (v : Word) : State := { s with active := Sparse.set Regs.dflt s.active a v }
/-- The value in force during the present beat (R54). -/
def State.rdB (s : State) (a : Nat) : Word := Sparse.get Regs.dflt s.inBeat a
def State.bf (s : State) (a hi lo : Nat) : Nat := fld (s.rdB a) hi lo
def State.bb (s : State) (a i : Nat) : Bool := bit (s.rdB a) i
/-- A register as a number, one of its fields, one of its bits. -/
def State.rdN (s : State) (a : Nat) : Nat := (s.rd a).toNat
def State.rf (s : State) (a hi lo : Nat) : Nat := fld (s.rd a) hi lo
def State.rb (s : State) (a i : Nat) : Bool := bit (s.rd a) i
/-- The same of the value in force. -/
def State.af (s : State) (a hi lo : Nat) : Nat := fld (s.rdA a) hi lo
def State.ab (s : State) (a i : Nat) : Bool := bit (s.rdA a) i
/-- Set a field; set a bit; set every bit of a mask; count up modulo 2^32. -/
def State.setF (s : State) (a hi lo x : Nat) : State := s.wr a (setFld (s.rd a) hi lo x)
def State.setB (s : State) (a i : Nat) (b : Bool) : State := s.wr a (putBit (s.rd a) i b)
def State.orR (s : State) (a m : Nat) : State := s.wr a (s.rd a ||| w32 m)
def State.addR (s : State) (a n : Nat) : State := s.wr a (s.rd a + w32 n)
/-- Count up, held at `m`. -/
def State.addSat (s : State) (a m n : Nat) : State := s.wr a (w32 (min m (s.rdN a + n)))
/-- Clear the bits of `v` that the mask `m` names (a W1C write, R17). -/
def State.w1c (s : State) (a : Nat) (m v : Word) : State := s.wr a (s.rd a &&& ~~~ (v &&& m))
/-- A 64-bit value in a _LO/_HI pair (R16). -/
def State.rd64 (s : State) (a : Nat) : Nat := s.rdN a + 2 ^ 32 * s.rdN (a + 4)
def State.wr64 (s : State) (a v : Nat) : State := (s.wr a (w32 v)).wr (a + 4) (w32 (v / 2 ^ 32))

/-- Apply `f` for each element in turn. -/
def forEach {α σ : Type} : List α → σ → (α → σ → σ) → σ
  | [], s, _ => s
  | a :: t, s, f => forEach t (f a s) f

/-- Byte memories read 0 where nothing has been written (log 2). -/
def byteDflt : Nat → Byte := fun _ => 0
def Mem.get (m : List (Nat × Byte)) (a : Nat) : Byte := Sparse.get byteDflt m a
def Mem.set (m : List (Nat × Byte)) (a : Nat) (b : Byte) : List (Nat × Byte) := Sparse.set byteDflt m a b
def Mem.read (m : List (Nat × Byte)) (a : Nat) : Nat → List Byte
  | 0 => []
  | n + 1 => Mem.get m a :: Mem.read m (a + 1) n
def Mem.write (m : List (Nat × Byte)) (a : Nat) : List Byte → List (Nat × Byte)
  | [] => m
  | b :: t => Mem.write (Mem.set m a b) (a + 1) t
def wordDflt : Nat → Word := fun _ => 0

def State.hbmRead (s : State) (a n : Nat) : List Byte := Mem.read s.hbm a n
/-- A page of HBM (R334). -/
def hbmPage (a : Nat) : Nat := (a - 0x1000000000) / 65536
/-- Writes to an excluded page are dropped (R348); a whole-word write ends a poison (R345). -/
def writeKept (ex : List Nat) (m : List (Nat × Byte)) (a : Nat) : List Byte → List (Nat × Byte)
  | [] => m
  | b :: t => writeKept ex (if ex.contains (hbmPage a) then m else Mem.set m a b) (a + 1) t
def State.hbmWrite (s : State) (a : Nat) (b : List Byte) : State := { s with
  hbm := (if s.mem.excluded = [] then Mem.write s.hbm a b else writeKept s.mem.excluded s.hbm a b),
  mem := { s.mem with poison := s.mem.poison.filter (fun w =>
    !(decide (a ≤ 8 * w) && decide (8 * w + 8 ≤ a + b.length)) || s.mem.excluded.contains (hbmPage (8 * w))) } }
def State.mbxRead (s : State) (a n : Nat) : List Byte := Mem.read s.mbx a n
def State.mbxWrite (s : State) (a : Nat) (b : List Byte) : State := { s with mbx := Mem.write s.mbx a b }
def State.slcRead (s : State) (k : Nat) : Word := Sparse.get wordDflt s.slcRam k
def State.slcWrite (s : State) (k : Nat) (v : Word) : State := { s with slcRam := Sparse.set wordDflt s.slcRam k v }

/-- Per-instance tables: an unlisted instance is in its initial state. -/
def State.core (s : State) (n : Nat) : CoreSt := Sparse.get (fun _ => {}) s.cores n
def State.setCore (s : State) (n : Nat) (c : CoreSt) : State := { s with cores := Sparse.set (fun _ => {}) s.cores n c }
def State.path (s : State) (n : Nat) : PathSt := Sparse.get (fun _ => {}) s.paths n
def State.setPath (s : State) (n : Nat) (p : PathSt) : State := { s with paths := Sparse.set (fun _ => {}) s.paths n p }
def State.lane (s : State) (n : Nat) : LaneSt := Sparse.get (fun _ => {}) s.lanes n
def State.setLane (s : State) (n : Nat) (l : LaneSt) : State := { s with lanes := Sparse.set (fun _ => {}) s.lanes n l }
def State.stream (s : State) (n : Nat) : StreamSt := Sparse.get (fun _ => {}) s.streams n
def State.setStream (s : State) (n : Nat) (t : StreamSt) : State := { s with streams := Sparse.set (fun _ => {}) s.streams n t }
def entryDflt : Nat → List Byte := fun _ => zeros 64
def State.entryShadow (s : State) (n : Nat) : List Byte := Sparse.get entryDflt s.strShadow n
def State.entry (s : State) (n : Nat) : List Byte := Sparse.get entryDflt s.strActive n
def State.volume (s : State) (n : Nat) : Volume := Sparse.get (fun _ => {}) s.volumes n
def State.setVolume (s : State) (n : Nat) (v : Volume) : State := { s with volumes := Sparse.set (fun _ => {}) s.volumes n v }
def State.drive (s : State) (n : Nat) : Drive := Sparse.get (fun _ => {}) s.drives n
def State.setDrive (s : State) (n : Nat) (d : Drive) : State := { s with drives := Sparse.set (fun _ => {}) s.drives n d }
def State.ethIf (s : State) (n : Nat) : EthIf := Sparse.get (fun _ => {}) s.ifs n
def State.setEthIf (s : State) (n : Nat) (i : EthIf) : State := { s with ifs := Sparse.set (fun _ => {}) s.ifs n i }
def State.filter (s : State) (n : Nat) : EthFilter := Sparse.get (fun _ => {}) s.filters n
def State.setFilter (s : State) (n : Nat) (i : EthFilter) : State := { s with filters := Sparse.set (fun _ => {}) s.filters n i }
def State.nbrPort (s : State) (n : Nat) : NbrSt := Sparse.get (fun _ => {}) s.nbr n
def State.setNbr (s : State) (n : Nat) (i : NbrSt) : State := { s with nbr := Sparse.set (fun _ => {}) s.nbr n i }
def State.session (s : State) (n : Nat) : Option Session := Sparse.get (fun _ => none) s.sessions n
def State.setSession (s : State) (n : Nat) (x : Option Session) : State :=
  { s with sessions := Sparse.set (fun _ => none) s.sessions n x }
def State.ppeEng (s : State) (n : Nat) : PpeSt := Sparse.get (fun _ => {}) s.ppe n
/-- Set an engine's state; PPE_IRQ copies IEN and IPEND (R299). -/
def State.setPpe (s : State) (n : Nat) (p : PpeSt) : State :=
  State.wr { s with ppe := Sparse.set (fun _ => {}) s.ppe n p } (PPE_IRQ n) (w32 (p.ien % 64 * 65536 + p.ipend % 64))
/-- A write of an engine register becomes visible: G0 and the RO and reserved specials ignore it (R268). -/
def ppeVisible (p : PpeSt) (w : PpeWr) : PpeSt :=
  if w.key % 128 = 0 ∧ w.key < 256 then p
  else if w.key < 256 ∨ (264 ≤ w.key ∧ w.key < 280) then { p with regs := Sparse.set (fun _ => 0) p.regs w.key w.val }
  else if w.key = 260 then { p with ien := w.val % 64 }
  else if 280 ≤ w.key ∧ w.key < 284 then
    { p with evsel := setNth ((p.evsel ++ [0, 0, 0, 0]).take 4) (w.key - 280) (w32 w.val) }
  else p
/-- Issued bundles complete: every write on its way becomes visible, earlier ones first (R284, R285). -/
def ppeDrainN : Nat → PpeSt → PpeSt
  | 0, p => { p with pipe := [] }
  | n + 1, p =>
    let due := p.pipe.filter (fun w => w.left == 1)
    let p := (due.filter (fun w => !w.slotB) ++ due.filter (fun w => w.slotB)).foldl ppeVisible p
    ppeDrainN n { p with pipe := (p.pipe.filter (fun w => w.left != 1)).map (fun w => { w with left := w.left - 1 }) }
def ppeDrain (p : PpeSt) : PpeSt := ppeDrainN 3 p
def ppeState (s : State) (e : Nat) : Nat := s.rf (PPE_STAT e) 31 29
/-- An engine is idle: in the background, and waiting or without a background (R290, R298). -/
def ppeIdle (p : PpeSt) : Bool := p.task.isNone && p.due == [] && (match p.ctx with | none => true | some c => c.waiting)
/-- The beats for which cluster `c` has met the gating conditions. -/
def setIdleBeats (s : State) (c n : Nat) : State :=
  { s with pm := { s.pm with idle := Sparse.set (fun _ => 0) s.pm.idle c n } }
/-- A READY engine that is not idle, or is about to take an interrupt, ends its cluster's idle beats (R294). -/
def idleBroken (s : State) (e : Nat) : State :=
  let p := s.ppeEng e
  if ppeState s e = 2 ∧ (!ppeIdle p ∨ (p.ipend % 64 &&& p.ien) ≠ 0) then setIdleBeats s (e / 8) 0 else s
/-- The fields of PPE_STAT and PPE_PC that show an engine's context (R299). -/
def ppeShow (s : State) (e : Nat) : State :=
  let p := s.ppeEng e
  let s := s.setF (PPE_STAT e) 23 16 (match p.task with | some t => t | none => 255)
  let s := s.setB (PPE_STAT e) 0 (ppeState s e != 2 || ppeIdle p)
  let s := s.setB (PPE_PC e) 31 (p.ctx.isSome && p.task.isNone)
  idleBroken (s.setB (PPE_PC e) 30 (match p.ctx with | some c => c.hnd | none => false)) e
/-- Nothing runs on an engine any more; its issued bundles complete. -/
def ppeQuiet (p : PpeSt) : PpeSt := { ppeDrain p with ctx := none, bg := none, task := none, due := [] }
/-- An engine becomes STOPPED (R263). -/
def engineStopped (s : State) (e : Nat) : State :=
  ppeShow ((s.setPpe e (ppeQuiet (s.ppeEng e))).setF (PPE_STAT e) 31 29 1) e
def State.dmaCh (s : State) (n : Nat) : DmaSt := Sparse.get (fun _ => {}) s.dma n
def State.setDma (s : State) (n : Nat) (d : DmaSt) : State := { s with dma := Sparse.set (fun _ => {}) s.dma n d }

/-- Record an output. -/
def State.put (s : State) (o : Out) : State := { s with out := o :: s.out }
/-- A flit: its type, 61 bytes of content, the CRC (R398). -/
def flitBytes (kind : Nat) (content : List Byte) : List Byte :=
  let b := BitVec.ofNat 8 kind :: (content.take 61 ++ zeros (61 - content.length))
  b ++ leBytes 2 (crc16 b).toNat
def sendFlit (s : State) (p kind : Nat) (content : List Byte) : State := s.put (.flit p (flitBytes kind content))
/-- A record leaves whole in REC flits of 60 bytes: first, middle and last, or only (R399). -/
def sendRecord (s : State) (p : Nat) (b : List Byte) : State :=
  let n := (b.length + 59) / 60
  forEach (List.range n) s (fun i s =>
    let d := (b.drop (60 * i)).take 60
    sendFlit s p (if n = 1 then 0x33 else if i = 0 then 0x30 else if i + 1 = n then 0x32 else 0x31) (BitVec.ofNat 8 d.length :: d))
/-- A fresh free value, for what the spec leaves open (log 3). -/
def State.fresh (s : State) : Nat := Config.freeValue s.free
def State.useFree (s : State) : State := { s with free := s.free + 1 }

-- Presence (R1, R2, R4)
def quadPresent (s : State) (q : Nat) : Bool := decide (q < 4) && bit s.fuses.cap0 q
def corePresent (s : State) (n : Nat) : Bool := quadPresent s (n / 8)
def slicePresent (s : State) (k : Nat) : Bool := quadPresent s (k / 4)
def clusterPresent (s : State) (c : Nat) : Bool := decide (c < 8) && bit s.fuses.cap0 (8 + c)
def enginePresent (s : State) (e : Nat) : Bool := clusterPresent s (e / 8)
def corrPresent (s : State) : Bool := bit s.fuses.cap0 5
def displayPresent (s : State) : Bool := bit s.fuses.cap0 6
def nvmePorts (s : State) : Nat := fld s.fuses.cap0 19 16
/-- A register of an absent unit (R2, R6). The doorbell MBX_CLDBc of an absent cluster is no register in this sense (R7). -/
def addrAbsent (s : State) (a : Nat) : Bool :=
  if 0x40400 ≤ a ∧ a < 0x40500 then !enginePresent s ((a - 0x40400) / 4)
  else if 0x40600 ≤ a ∧ a < 0x40680 then a % 16 != 0 && !clusterPresent s ((a - 0x40600) / 16)
  else if a = CLK_VCLK then !displayPresent s
  else if 0x100020 ≤ a ∧ a < 0x100040 then !quadPresent s ((a - 0x100020) / 4 % 4)
  else if 0x100400 ≤ a ∧ a < 0x100600 then !quadPresent s ((a - 0x100400) / 128)
  else if 0x1000000 ≤ a ∧ a < 0x1020000 then !corePresent s ((a - 0x1000000) / 0x1000)
  else if 0x1200000 ≤ a ∧ a < 0x1220000 then !corePresent s ((a - 0x1200000) / 0x1000)
  else if 0x1400000 ≤ a ∧ a < 0x1420000 then !slicePresent s ((a - 0x1400000) / 0x2000)
  else if 0x1600100 ≤ a ∧ a < 0x1600200 then !corePresent s ((a - 0x1600100) / 8)
  else if 0x1600400 ≤ a ∧ a < 0x1600800 then !corrPresent s
  else if 0x2000000 ≤ a ∧ a < 0x2400000 then !enginePresent s ((a - 0x2000000) / 0x10000)
  else if 0x2400000 ≤ a ∧ a < 0x2400200 then !clusterPresent s ((a - 0x2400000) / 0x40)
  else if 0x3200260 ≤ a ∧ a < 0x3200274 then nvmePorts s == 0
  else if 0x3300000 ≤ a ∧ a < 0x3310000 then !displayPresent s
  else false
/-- The register of an array that an address names. -/
def inArray (a base stride n : Nat) : Option Nat :=
  if base ≤ a ∧ (a - base) % stride = 0 ∧ (a - base) / stride < n then some ((a - base) / stride) else none

/-- The present beat, and whether FCLK runs (R21, R22). -/
def State.beat (s : State) : Nat := s.rd64 GLB_BEAT_LO
def fclkRuns (s : State) : Bool := s.rb GLB_BEATSTAT 2
/-- The beat number, or the tick number while FCLK is stopped (R22). -/
def beatOrTick (s : State) : Nat := if fclkRuns s then s.beat else s.tick
def gridOn (s : State) : Bool := s.rb GLB_BEATSTAT 0
/-- The core divisor R in force (R23). -/
def divR (s : State) : Nat := 2 ^ s.rf GLB_BEATSTAT 9 8
/-- Time is disciplined to TAI (R413). -/
def taiOn (s : State) : Bool := s.rb TIM_STAT 26
def pwrState (s : State) : Nat := s.rf PWR_STAT 31 29
/-- Firmware serves the host mailboxes; without it they are fenced (R85, R86). -/
def fwReady (s : State) : Bool := s.rb MBX_STAT 31
/-- The engine's mailbox and doorbell are fenced (R86): the engine is absent, isolated or held in reset (its power step is
not on), or the device is in STANDBY or HIBERNATE. -/
def engFenced (s : State) (e : Nat) : Bool :=
  !enginePresent s e || s.isolated.contains e || s.rf (PWR_STEP (34 + e / 16)) 31 30 != 1 ||
  decide (pwrState s ∈ [PS_STANDBY, PS_HIBERNATE])
/-- A FATAL report has halted the data path (R530). -/
def halted (s : State) : Bool := pwrState s == PS_HALTED

/-- The number of the coming beat: the one that a counter load gives it (R28), or the next. -/
def nextBeat (s : State) : Nat := s.time.loadTo.getD (s.beat + 1)

-- Time (R302, R409)
/-- The disciplined time at the last instant given, in 1/65,536 ns. -/
def timeNow (s : State) : Nat :=
  ((s.rdN TIM_NOW_HI + 2 ^ 32 * s.rf TIM_NOW_X 15 0) * 1000000000 + s.rdN TIM_NOW_LO) * 65536 + s.rf TIM_NOW_X 31 16
def timeBytes (t : Nat) : List Byte :=
  leBytes 6 (t / (65536 * 1000000000)) ++ b4 (t / 65536 % 1000000000) ++ b2 (t % 65536)
/-- One beat of 400 ns in 1/65,536 ns. -/
def beatLen : Nat := 400 * 65536
/-- `n / d` beats of the SCLK in force in 1/65,536 ns, rounded half up: a beat is 4,096 periods of SCLK (R20). -/
def beatsLong (s : State) (n d : Nat) : Nat := (rdiv (n * 4096 * 1000 * 65536 : Nat) (d * max 1 (s.rf CLK_STAT 29 16))).toNat
/-- The stamp of the boundary of beat `b` and its tflags; a boundary that is not on record, of a beat to come or from before
FCLK started, is reckoned from the newest. -/
def boundaryTime (s : State) (b : Nat) : Nat × Nat :=
  match s.beatTimes.find? (fun p => p.1 == b) with
  | some p => p.2
  | none =>
    match s.beatTimes.head? with
    | some p => (if b ≤ p.1 then p.2.1 - beatsLong s (p.1 - b) 1 else p.2.1 + beatsLong s (b - p.1) 1, p.2.2)
    | none => (timeNow s, (if gridOn s then 1 else 0) + (if taiOn s then 2 else 0))

/-- The tflags word at the present instant. -/
def tflagsNow (s : State) : Nat := (if gridOn s then 1 else 0) + (if taiOn s then 2 else 0)
-- Events and vectors
/-- An enabled EVSEL of the engine names the event. -/
def engineBound (e : Nat) (p : PpeSt) : Bool :=
  (List.range 4).any (fun n => bit (nth (0 : Word) p.evsel n) 31 && fld (nth (0 : Word) p.evsel n) 9 0 == e)
/-- An engine whose enabled EVSELn names the event sees its source 2+n fire (R279). -/
def engineSees (e : Nat) (p : PpeSt) : PpeSt :=
  { p with ipend := p.ipend ||| bitsSet ((List.range 4).filterMap (fun n =>
      let w := nth (0 : Word) p.evsel n
      if bit w 31 ∧ fld w 9 0 = e then some (2 + n) else none)) }
/-- A gated cluster is due to wake (R295). -/
def wakeCluster (s : State) (c : Nat) : State :=
  if s.rf (PPE_CLSTAT c) 1 0 = 1 ∧ !s.wakeReq.contains c then { s with wakeReq := c :: s.wakeReq } else s
/-- An event fires: every channel watching it counts it (R359), every engine bound to it sees it (R279), but for one that is
HALTED, whose registers are frozen (R263). -/
def fire (s : State) (e : Nat) : State :=
  let s := s.put (.event e)
  let s := forEach (s.dma.map Prod.fst) s (fun n s =>
    let d := s.dmaCh n
    if d.watching ∧ d.wev = e then s.setDma n { d with ecnt := min 65535 (d.ecnt + 1) } else s)
  forEach (s.ppe.map Prod.fst) s (fun n s =>
    let p := s.ppeEng n
    let p' := if ppeState s n = 3 then p else engineSees e p
    let s := if ppeState s n = 2 ∧ engineBound e p then wakeCluster s (n / 8) else s
    if p'.ipend = p.ipend then s else idleBroken (s.setPpe n p') n)
/-- Fire each of a set of events once (R587). -/
def fireAll (s : State) (l : List Nat) : State := forEach (uniq l) s (fun e s => fire s e)

/-- Word `w` of a vector's entry in the MSI-X table (R376). -/
def msixWord (s : State) (v w : Nat) : Word :=
  Sparse.get (fun a => if a % 16 = 12 then (1 : Word) else 0) s.msix (16 * v + 4 * w)
def vectorMasked (s : State) (v : Nat) : Bool := bit (msixWord s v 3) 0 || s.pci.fmask || !s.pci.msixEn
/-- Send the message of a vector. -/
def sendMsi (s : State) (v : Nat) : State :=
  s.put (.msi v ((msixWord s v 0).toNat + 2 ^ 32 * (msixWord s v 1).toNat) (msixWord s v 2))
/-- A vector fires: one message, or its pending bit while it is masked (R379). -/
def vector (s : State) (v : Nat) : State :=
  if vectorMasked s v then { s with pba := insN v (s.pba.filter (fun x => x != v)) } else sendMsi s v
def vectorIf (s : State) (en : Bool) (v : Nat) : State := if en then vector s v else s

-- Fault reports
/-- The sources of absent units (R590). -/
def srcAbsent (s : State) (n : Nat) : Bool :=
  (decide (n ∈ [129, 130, 131, 132]) && nvmePorts s == 0) || (decide (n ∈ [232, 233]) && !displayPresent s) ||
  (decide (32 ≤ n ∧ n < 40) && !quadPresent s (n % 4)) || (n == 81 && !corrPresent s)
def srcReserved (n : Nat) : Bool := (lookupN faultMin n).isNone
/-- A word of FLT_SRCCFG as it reads: the bytes of absent sources are 0 (R10, R524, R590). -/
def srcWord (s : State) (w : Nat) : Word :=
  [0, 1, 2, 3].foldl (fun v i => if srcAbsent s (4 * w + i) then setFld v (8 * i + 7) (8 * i) 0 else v) (s.rd (FLT_SRCCFG w))
/-- The steps that a phase run has applied by the present cycle: one per FCLK cycle (R453). -/
def phaseDone (s : State) (r : PhaseRun) : Int :=
  let n := min r.steps.natAbs ((s.beat * 512 + s.cyc : Nat) - r.at_).toNat
  if r.steps < 0 then -(n : Int) else n
/-- GLB_GPIOIN: a driven GPIO shows its own level, the level of another is the board's (R573). -/
def gpioShown (s : State) (w : Nat) : Word :=
  let oe := s.rd (GLB_GPIOOE w)
  ((oe &&& s.rd (GLB_GPIOOUT w)) ||| (~~~ oe &&& Config.gpioBall s.out.length w)) &&& (if w = 0 then 0xFFFFFFFF else 0xFFFF)
/-- CLK_PHOFF counts the steps of a run as they apply (R453); every other register reads as it is stored. -/
def phoffShown (s : State) (a : Nat) : Word :=
  match inArray a 0x100030 4 4 with
  | some q => i32 (((s.ext.clk.phases.filter (fun r => r.quads.contains q)).map (phaseDone s)).foldr (· + ·) (sext 32 (s.rdN a)))
  | none => s.rd a
/-- What the register at an address reads as: absent units read 0 and an absent engine's MBX_PESTAT its fence (R6, R7);
the mailbox states show a fence while it stands (R85, R86). -/
def regShown (s : State) (a : Nat) : Word :=
  match inArray a 0x40400 4 64, inArray a 0x20100 4 64 with
  | some e, _ => if !enginePresent s e then 0xA else if engFenced s e then setFld (s.rd a) 3 0 0xA else s.rd a
  | none, some w => srcWord s w
  | none, none =>
    if addrAbsent s a then 0
    else if ((inArray a 0x40104 0x10 8).isSome ∨ (inArray a 0x40200 0x10 8).isSome) ∧ !fwReady s then setFld (s.rd a) 1 0 2
    else match inArray a 0xA0 4 2 with
    | some w => gpioShown s w
    | none => phoffShown s a
/-- Byte of source `n` in FLT_SRCCFG (R540). -/
def srcCfg (s : State) (n : Nat) : Nat :=
  if srcAbsent s n then 0 else bitsOf (s.rdN (FLT_SRCCFG (n / 4))) (8 * (n % 4) + 7) (8 * (n % 4))
def sticky (s : State) (n : Nat) : Bool := s.rb (FLT_STICKY (n / 32)) (n % 32)
def anySticky (s : State) : Bool := (List.range 8).any (fun i => s.rd (FLT_STICKY i) != 0)
/-- The FATAL latch or its test copy, which injection sets and which acts as the latch does (R531, R538; log 96). -/
def latchSet (s : State) : Bool := s.rb FLT_FATALSRC 31 || s.rb FLT_FATALSRC 30
/-- FAULT_N is low from a report at SEVERE or FATAL until no such class is pending and no latch is set (R529). -/
def faultPin (s : State) : State :=
  let low := s.faultLow && (s.rb FLT_CLSPEND 2 || s.rb FLT_CLSPEND 3 || latchSet s)
  if low = s.faultLow then s else { s with faultLow := low }.put (.pin 0 true)
def assertFault (s : State) : State :=
  if s.faultLow then s else { s with faultLow := true }.put (.pin 0 false)
/-- The beat and cycle that a log entry carries (R534): with FCLK stopped TIM_RAW and NOBEAT, which R534 gives the field and
R22's held beat number does not override (DEDUCED, log 96). -/
def logStamp (s : State) : Nat × Nat × Bool :=
  if fclkRuns s then (s.beat, s.cyc, false) else (s.rd64 TIM_RAW_LO, 0, true)
/-- Write one entry, or count it lost or overwrite the oldest (R535); answers whether source 225 is due. -/
def logPut (s : State) (src code raised cfg : Nat) (esc inj : Bool) : State × Bool :=
  let n := s.rf FLT_LOGSTAT 12 0
  let full := decide (4096 ≤ n)
  if s.rb FLT_CTRL 0 && full then
    let first := !s.rb FLT_LOGSTAT 31
    (((s.addR FLT_LOGLOST 1).setB FLT_LOGSTAT 30 true).setB FLT_LOGSTAT 31 true, first)
  else
    let st := logStamp s
    let ser := s.rdN FLT_LOGSEQ
    let e : LogEntry := ⟨st.1, st.2.1, st.2.2, src, raised, esc, inj, cfg, code, ser⟩
    let old := if full then s.log.dropLast else s.log
    let s := { s with log := e :: old, lastCls := Sparse.set (fun _ => 0) s.lastCls src (raised + 1) }
    let s := s.addR FLT_LOGSEQ 1
    if full then
      let first := !s.rb FLT_LOGSTAT 31
      (s.setB FLT_LOGSTAT 31 true, first)
    else
      let s := s.setF FLT_LOGSTAT 12 0 (n + 1)
      let s := if s.rb FLT_CTRL 0 && n + 1 == 4096 then s.setB FLT_LOGSTAT 30 true else s
      (vectorIf s (n + 1 == s.rdN FLT_LOGWM && s.rb FLT_IRQEN 4) 308, false)
/-- A source of injected monitor sequences happens: every core whose MON_INJ names it gets a request (R491). -/
def monAsk (s : State) (kind sel : Nat) : State :=
  let l := [0, 1, 2, 3].filter (fun m => s.rf (MON_INJ m) 31 28 == kind &&
    (if kind = 4 then decide (s.rf (MON_INJ m) 23 16 ≤ sel) else s.rf (MON_INJ m) 23 16 == sel))
  if l = [] then s else { s with ext := { s.ext with mon := { s.ext.mon with req := s.ext.mon.req ++ l } } }
/-- Isolate the engine that a report names (R532). -/
def isolateEng (s : State) (e : Nat) : State :=
  { s with isolated := insN e (s.isolated.filter (fun x => x != e)) }
/-- One report arriving at a class (R524–R535): escalation, capture, log, vector, FAULT_N, isolation, FATAL latch. The
log's own source 225 is raised at most once beside it. -/
def raiseOnce (s : State) (src code cls : Nat) (inj : Bool) : State × Bool :=
  let wasSticky := sticky s src
  let none_ := !anySticky s
  let s := s.setB (FLT_STICKY (src / 32)) (src % 32) true
  if srcCfg s src / 128 = 0 then (s, false)
  else
    let esc := s.rb FLT_CLSPEND cls && decide (cls < 3)
    let r := if esc then cls + 1 else cls
    let s := if esc then s.addR FLT_ESCCNT 1 else s
    let s := monAsk (s.setB FLT_CLSPEND r true) 4 r
    let s := if none_ then s.wr FLT_FIRST (w32 (2 ^ 31 + r * 256 + src)) else s
    let rep := wasSticky && Sparse.get (fun _ => 0) s.lastCls src == r + 1
    let (s, due) := if rep then (s.addR FLT_LOGSUP 1, false) else logPut s src code r cls esc inj
    let s := vectorIf s (s.rb FLT_IRQEN r) (304 + r)
    let s := vectorIf s (src == 224 && s.rb FLT_IRQEN 5) 309
    let s := if 2 ≤ r then assertFault s else s
    let s := if 2 ≤ r ∧ 160 ≤ src ∧ src < 164 ∧ (srcCfg s src).testBit 6 then isolateEng s code else s
    let s := if r = 3 then
        let s := if inj then (s.setB FLT_FATALSRC 30 true)
          else if s.rb FLT_FATALSRC 31 then s else (s.setF FLT_FATALSRC 7 0 src).setB FLT_FATALSRC 31 true
        { (if inj then s else s.setB PWR_STAT 1 true) with haltDue := true }
      else s
    (s, due)
def raise (s : State) (src code cls : Nat) (inj : Bool) : State :=
  let (s, due) := raiseOnce s src code cls inj
  if due && !s.rb (FLT_RAILBAD 7) 1 then (raiseOnce s 225 0xFFFF (srcCfg s 225 % 4) false).1 else s
/-- A unit's own report, at the source's configured class; a reserved source, or one of an absent unit, never fires
(R10, R522), and a source whose rail pair has failed is ignored (R523). -/
def report (s : State) (src code : Nat) : State :=
  if srcReserved src ∨ srcAbsent s src ∨ s.rb (FLT_RAILBAD (src / 32)) (src % 32) then s
  else raise s src code (srcCfg s src % 4) false

-- Host accesses (R375, R380)
/-- In D3hot a host access to a BAR is completed with Unsupported Request and has no other effect (R375);
the endpoint logs the error, which it raises as every uncorrectable one (R380). -/
def unsupported (s : State) : State :=
  report { s.put (.busError .host) with pci := { s.pci with aerUnc := s.pci.aerUnc ||| 2 ^ 8 } } 137 0xFFFF
def onBar (s : State) (m : Master) (t : State) : State := if m = .host ∧ s.pci.d3 then unsupported s else t

-- Locks (R93–R97)
def lockOwner (s : State) (n : Nat) : Option Nat :=
  match Sparse.get (fun _ => 0) s.locks n with
  | 0 => none
  | k + 1 => some k
def setLock (s : State) (n : Nat) (o : Option Nat) : State :=
  { s with locks := Sparse.set (fun _ => 0) s.locks n (match o with | none => 0 | some k => k + 1) }
/-- Release every lock that master id `m` holds (R97). -/
def freeLocks (s : State) (m : Nat) : State := { s with locks := s.locks.filter (fun p => p.2 != m + 1) }
/-- The master id of R94. -/
def masterId : Master → Nat
  | .host => 0
  | .mgmt i => i
  | .ppe e => 16 + e
  | .other => 0x7F

-- Replies (R66, R78)
def hostEpoch (s : State) : Nat := s.rf MBX_EPOCH 15 0
def fwEpoch (s : State) : Nat := s.rf MBX_EPOCH 31 16
/-- The header of a reply (R66). -/
def replyHeader (s : State) (op : Nat) (q : Req) (auth trunc : Bool) (len : Nat) : List Byte :=
  b2 0xB150 ++ b1 1 ++ b1 (1 + (if auth then 2 else 0) + (if trunc then 8 else 0)) ++ b4 (s.devId % 2 ^ 20) ++ bw q.seq ++
  b2 op ++ b2 len ++ b2 q.session ++ zeros 6
/-- The largest Bisor packet that fits one frame of the peer's interface (R72). -/
def netRoom (s : State) (p : Peer) : Nat := (s.ethIf (4 * p.port + p.ifc)).mtu - (if p.v6 then 48 else 28)
/-- A digest as its 32 bytes, most significant first. -/
def digestBytes (d : BitVec 256) : List Byte := (leBytes 32 d.toNat).reverse
/-- Two requests of one source: one host mailbox pair, or one network session (R71). The session-0 packets of all peers
count as one source: the spec names none for them (log 84). -/
def sameSource (a b : Req) : Bool :=
  match a.src, b.src with
  | .mailbox n, .mailbox m => n == m
  | .net _, .net _ => a.session == b.session
  | _, _ => false
/-- The key for a reply's tag: of the session as it was when the request was taken, though it may have closed since. -/
def replyKey (s : State) (q : Req) : Option (BitVec 256) :=
  match s.inHand.find? (fun h => decide (h.req = q)) with
  | some h => h.key
  | none => (s.session q.session).map Session.key
/-- The whole reply packet: header, payload and, for an authenticated request, the tag under the session's key (R66,
R68); a network reply that does not fit a frame is cut to its 4-byte form (R72). A refusal of a packet with AUTH set whose
session is unknown keeps AUTH and has no tag, since there is no key (log 84). -/
def replyPacket (s : State) (op : Nat) (q : Req) (auth : Bool) (payload : List Byte) : List Byte :=
  let size := 24 + payload.length + (if auth then 32 else 0)
  let cut := match q.src with | .mailbox _ => false | .net p => decide (netRoom s p < size)
  let pl := if cut then payload.take 2 ++ zeros 2 else payload
  let body := replyHeader s op q auth cut pl.length ++ pl
  match replyKey s q with
  | some k => if auth then body ++ digestBytes (Config.hmac k body) else body
  | none => body
/-- The request of a source is no longer in hand. -/
def State.release (s : State) (q : Req) : State := { s with inHand := s.inHand.filter (fun h => !sameSource h.req q) }
/-- Post a reply: into the source's reply mailbox, unless the command was stamped with an older host epoch (R91), or as
a datagram to the requester. The bytes of a reply past the mailbox's 4,096 are not written (log 84). -/
def answerAs (s : State) (op : Nat) (q : Req) (auth : Bool) (payload : List Byte) : State :=
  let pk := replyPacket s op q auth payload
  let s := s.release q
  match q.src with
  | .mailbox n =>
    if q.epoch ≠ hostEpoch s then s
    else
      let s := s.mbxWrite (0x88000 + 0x1000 * n) (pk.take 4096)
      let s := s.wr (MBX_HRSTAT n) (w32 (pk.length * 65536 + 1))
      let s := s.wr (MBX_HRSEQ n) q.seq
      let s := s.wr (MBX_HREPOCH n) (w32 (fwEpoch s))
      vectorIf s (s.rb MBX_IRQEN n) n
  | .net p => s.put (.netReply p pk)
def answer (s : State) (op : Nat) (q : Req) (payload : List Byte) : State := answerAs s op q (decide (0 < q.session)) payload
/-- A reply with a status and what the command's table lays down after it. -/
def reply (s : State) (op : Nat) (q : Req) (st : Nat) (rest : List Byte) : State := answer s op q (b2 st ++ b2 0 ++ rest)
/-- The 4-byte form of a refusal (R66). -/
def deny (s : State) (op : Nat) (q : Req) (st : Nat) : State := reply s op q st []

-- DMA channels (R355, R367, R368)
def State.sramWrite (s : State) (o : Nat) (b : List Byte) : State := { s with sram := Mem.write s.sram o b }
def blockOf (n : Nat) : Nat := 0x7E000 + 0x40 * n
def chanState (s : State) (n : Nat) : Nat := s.rf (DMA_STAT n) 31 29
def chanRuns (s : State) (n : Nat) : Bool := chanState s n == 1 || chanState s n == 2
/-- A channel that has stopped no longer holds up a DMA_ABORT (R373). -/
def abortReplies (s : State) (n : Nat) : State :=
  let l := s.bt.aborts.map (fun r => (r.1, r.2.filter (fun c => c != n)))
  forEach (l.filter (fun r => r.2 == [])) { s with bt := { s.bt with aborts := l.filter (fun r => r.2 != []) } }
    (fun r s => reply s 0x0911 r.1 ST_OK [])
/-- A channel stops (R355, R367, R368): 3 DONE, 4 ABORTED, 5 ERR_HALT, with a cause and the bytes not delivered. -/
def dmaStop (s : State) (n st cause residue : Nat) : State :=
  let d := s.dmaCh n
  let s := ((s.setF (DMA_STAT n) 31 29 st).setF (DMA_STAT n) 28 25 cause).setB (DMA_STAT n) 24 false
  let s := s.sramWrite (blockOf n + 0x30)
    (b4 ((st - 2) * 2 ^ 28 + cause * 2 ^ 24 + d.retries * 2 ^ 16 + s.rf (DMA_STAT n) 15 0) ++ b4 (residue % 2 ^ 24) ++
      b4 (nth 0 d.cnt 1 * 65536 + nth 0 d.cnt 0) ++ b4 (s.beat % 2 ^ 32))
  let s := s.setDma n { d with mv := none, abort := false }
  let s := vectorIf (fire s (128 + n)) (s.rb (DMA_CTRL n) 2) (16 + n)
  abortReplies (if st = 5 then report s 168 n else s) n

/-- Status 3 and 4 of R8 and the operator's role: what decides before the parameters are read. -/
def netLocked : List Nat := [0x0002, 0x0811, 0x0812, 0x0814, 0x0818, 0x0F05, 0x0F08, 0x0F09, 0x0F0A]
def bootAllowed (op : Nat) : Bool := op / 256 == 0 || op == 0x0E01 || decide (0x0E10 ≤ op ∧ op ≤ 0x0E16)
def roleOk (s : State) (op : Nat) (q : Req) : Bool :=
  match s.session q.session with
  | some ss =>
    match Sparse.get (fun _ => none) (s.store.operators.map (fun p => (p.1, some p.2))) ss.op with
    | some o => o.role.testBit (op / 256)
    | none => false
  | none => true
def isNet : Src → Bool
  | .mailbox _ => false
  | .net _ => true
/-- The first of a list of (condition, status) whose condition holds (R8). -/
def firstFail : List (Bool × Nat) → Option Nat
  | [] => none
  | (c, st) :: t => if c then some st else firstFail t
/-- Steps 1, 3 and 4 of R8 for opcode `op`. -/
def gate (s : State) (op : Nat) (q : Req) (lenOk : Bool) : Option Nat :=
  firstFail [(!roleOk s op q, ST_LOCKED), (isNet q.src && decide (op ∈ netLocked), ST_LOCKED),
    (pwrState s == PS_BOOTING && !bootAllowed op, ST_STATE), (!lenOk, ST_BAD_LENGTH)]
/-- A command: the checks of R8 in their order, then its effect; the first failure is the reply and changes nothing. -/
def command (s : State) (op : Nat) (q : Req) (lenOk : Bool) (checks : List (Bool × Nat)) (effect : State) : State :=
  match gate s op q lenOk with
  | some st => deny s op q st
  | none =>
    match firstFail checks with
    | some st => deny s op q st
    | none => effect
/-- The conditions under which a command is executed rather than refused. -/
def accepted (s : State) (op : Nat) (q : Req) (lenOk : Bool) (checks : List (Bool × Nat)) : Bool :=
  (gate s op q lenOk).isNone && (firstFail checks).isNone
/-- R503: refused in STANDBY, while ENTERING or LEAVING, and while BOOTING; a unit halted by a FATAL report is not in RUN. -/
def r503 (s : State) : Bool := decide (pwrState s ∈ [PS_BOOTING, PS_STANDBY, PS_ENTERING, PS_LEAVING])

end Sys2Proof.Machine
end

