-- ==== Sys2Proof/Machine/SafetyNet.lean ====
section
/-! DEFINITION. Safety Net Fault Handling and Trouble Log (R522–R541): reports, acknowledgement, log, injection. -/
namespace Sys2Proof.Machine

/-- The outcome of a command's meaning. -/
abbrev Res := Host.Outcome State Fault Refusal

/-- Clear sticky bits; with all of them clear FLT_FIRST is free for the next first report (R533). -/
def clearSticky (s : State) (i : Nat) (v : Word) : State :=
  let s := s.w1c (FLT_STICKY i) 0xFFFFFFFF v
  if anySticky s then s else s.wr FLT_FIRST 0
/-- Acknowledge classes (R527); FAULT_N follows (R529). -/
def ackClasses (s : State) (v : Word) : State := faultPin (s.w1c FLT_CLSPEND 0xF v)
/-- A rail pair has failed: its bit, and source 224 naming it, once while the bit is set (R523);
a source of an absent unit never fires (R10). -/
def railFail (s : State) (src : Nat) : State :=
  if s.rb (FLT_RAILBAD (src / 32)) (src % 32) ∨ srcAbsent s src then s
  else report (s.setB (FLT_RAILBAD (src / 32)) (src % 32) true) 224 src
/-- An injected report or rail failure (R538). -/
def inject (s : State) (src cls code : Nat) (rail : Bool) : State :=
  if srcAbsent s src ∨ s.rb (FLT_RAILBAD (src / 32)) (src % 32) then s
  else if rail then railFail s src
  else if srcReserved src then s else raise s src code cls true

/-- The word of eight consecutive registers as bytes. -/
def regsBytes (s : State) (l : List Nat) : List Byte := l.flatMap (fun a => bw (s.rd a))

/-- FLT_STATUS (R539). -/
def execFltStatus (q : Req) (s : State) : Res :=
  .next (command s 0x0E10 q (q.params.length == 0) []
    (reply s 0x0E10 q ST_OK (regsBytes s ([FLT_CLSPEND, FLT_FIRST, FLT_LOGSTAT, FLT_LOGSEQ, FLT_ESCCNT, FLT_FATALSRC] ++
      (List.range 8).map FLT_STICKY ++ (List.range 8).map FLT_RAILBAD))))

/-- FLT_ACK (R526, R527, R539): the three masks in one KCLK cycle. -/
def ackEffect (s : State) (p : List Byte) : State :=
  let s := ackClasses s (w32 (u8 p 0))
  let s := forEach (List.range 8) s (fun i s => clearSticky s i (w32 (u32 p (4 + 4 * i))))
  forEach (List.range 8) s (fun i s => s.w1c (FLT_RAILBAD i) 0xFFFFFFFF (w32 (u32 p (36 + 4 * i))))
def execFltAck (q : Req) (s : State) : Res :=
  .next (command s 0x0E11 q (q.params.length == 68)
    [(decide (16 ≤ u8 q.params 0) || !zeroAt q.params 1 3, ST_BAD_PARAM)]
    (reply (ackEffect s q.params) 0x0E11 q ST_OK []))

/-- FLT_CONFIG (R524, R539). -/
def cfgByteBad (src v : Nat) : Bool :=
  match lookupN faultMin src with
  | none => true
  | some m => bitsOf v 3 2 != 0 || decide (v % 4 < m) || (!v.testBit 7 && m != 0)
def setSrcCfg (s : State) (src v : Nat) : State :=
  let m := match lookupN faultMin src with | some m => m | none => 0
  s.setF (FLT_SRCCFG (src / 4)) (8 * (src % 4) + 7) (8 * (src % 4)) (bitsOf v 7 6 * 64 + m * 16 + v % 4)
def execFltConfig (q : Req) (s : State) : Res :=
  let src := u8 q.params 0
  let v := u8 q.params 1
  .next (command s 0x0E12 q (q.params.length == 4)
    [(srcAbsent s src, ST_UNIT_ABSENT), (!zeroAt q.params 2 2 || cfgByteBad src v, ST_BAD_PARAM)]
    (reply (setSrcCfg s src v) 0x0E12 q ST_OK []))

/-- A log entry as its 16 bytes (R534). -/
def entryBytes (e : LogEntry) : List Byte :=
  b8 e.beat ++ b2 (e.cycle % 512 + (if e.noBeat then 0x8000 else 0)) ++ b1 e.source ++
  b1 (e.cls % 4 + (if e.esc then 4 else 0) + (if e.inj then 8 else 0) + 16 * (e.cfg % 4)) ++ b2 e.code ++ b2 e.serial
/-- LOG_READ (R539): entries held from a serial onwards, oldest first. -/
def logFrom (s : State) (start max : Nat) : Nat × List LogEntry :=
  let held := s.log.length
  let d := (s.rdN FLT_LOGSEQ + 2 ^ 32 - start) % 2 ^ 32
  if d = 0 ∨ 2 ^ 31 ≤ d then (start, [])
  else
    let n := min d held
    ((s.rdN FLT_LOGSEQ + 2 ^ 32 - n) % 2 ^ 32, ((s.log.take n).reverse).take max)
def execLogRead (q : Req) (s : State) : Res :=
  let mx := u16 q.params 4
  let r := logFrom s (u32 q.params 0) mx
  .next (command s 0x0E13 q (q.params.length == 8)
    [(decide (mx < 1 ∨ 253 < mx) || !zeroAt q.params 6 2, ST_BAD_PARAM)]
    (reply s 0x0E13 q ST_OK (b4 r.1 ++ b2 r.2.length ++ b2 0 ++ r.2.flatMap entryBytes)))

/-- LOG_CLEAR (R536): the log is empty; FLT_LOGSEQ runs on. -/
def clearLog (s : State) : State :=
  ({ s with log := [], lastCls := [] }.setF FLT_LOGSTAT 12 0 0).setB FLT_LOGSTAT 30 false
def execLogClear (q : Req) (s : State) : Res :=
  .next (command s 0x0E14 q (q.params.length == 0) [] (reply (clearLog s) 0x0E14 q ST_OK []))

/-- FLT_INJECT (R538). -/
def execFltInject (q : Req) (s : State) : Res :=
  let p := q.params
  .next (command s 0x0E15 q (p.length == 8)
    [(srcAbsent s (u8 p 0), ST_UNIT_ABSENT), (decide (3 < u8 p 1) || decide (1 < u32 p 4), ST_BAD_PARAM),
     (!s.rb FLT_TEST 0, ST_LOCKED)]
    (reply (inject s (u8 p 0) (u8 p 1) (u16 p 2) (u32 p 4 == 1)) 0x0E15 q ST_OK []))

/-- FLT_RELEASE (R532): the named isolated engines are left STOPPED. -/
def releaseEng (s : State) (e : Nat) : State :=
  if e ∈ s.isolated then
    engineStopped { s with isolated := s.isolated.filter (fun x => x != e) } e
  else s
def execFltRelease (q : Req) (s : State) : Res :=
  let l := bitList 64 (u64 q.params 0)
  .next (command s 0x0E16 q (q.params.length == 8)
    [(l.any (fun e => !enginePresent s e), ST_UNIT_ABSENT)]
    (reply (forEach l s (fun e s => releaseEng s e)) 0x0E16 q ST_OK []))

/-- A write of FLT_INJECT: in factory test mode it injects; otherwise it is ignored (R538). -/
def execFltInjectRegister (v : Word) (s : State) : Res :=
  .next (if s.rb FLT_TEST 0 then inject s (fld v 7 0) (fld v 9 8) (fld v 31 16) (bit v 10) else s)
/-- A write of FLT_CLSPEND (R527). -/
def execFltClspendWrite (v : Word) (s : State) : Res := .next (ackClasses s v)
/-- A write of FLT_STICKYi (R533). -/
def execFltStickyWrite (i : Nat) (v : Word) (s : State) : Res := .next (if i < 8 then clearSticky s i v else s)
/-- A write of FLT_RAILBADi: the collector watches the pairs again (R523). -/
def execFltRailbadWrite (i : Nat) (v : Word) (s : State) : Res :=
  .next (if i < 8 then s.w1c (FLT_RAILBAD i) 0xFFFFFFFF v else s)
/-- A source's report reaches the collector (R525, R528) with the instance of the reporting unit, in an FCLK cycle. -/
def execFaultReport (src : Nat) (code : Nat) (cyc : Nat) (s : State) : Res := .next (report { s with cyc := cyc % 512 } src code)
/-- A source's rail pair reads equal for 2 KCLK cycles (R523). -/
def execRailPairFail (src : Nat) (s : State) : Res := .next (if src < 256 then railFail s src else s)

end Sys2Proof.Machine
end

