-- ==== Sys2Proof/Machine/Ecc.lean ====
section
/-! DEFINITION. Errors of the capture memory (R345–R347): corrected and uncorrectable words, poisoned data. -/
namespace Sys2Proof.Machine

abbrev HBM0 : Nat := 0x1000000000
/-- The pseudo-channel of a device address (R334). -/
def pcOf (a : Nat) : Nat := bitsOf (a - HBM0) 13 8 ^^^ bitsOf (a - HBM0) 21 16
def setMem (s : State) (m : MemSt) : State := { s with mem := m }
def rowFail (s : State) (c p : Nat) : State := if s.mem.failing.contains (c, p) then s else setMem s { s.mem with failing := s.mem.failing ++ [(c, p)] }
/-- The page whose rows an access reaches: a retired page's accesses go to its spare page (R348). -/
def rowPage (s : State) (a : Nat) : Nat :=
  match s.mem.redirects.find? (fun r => r.1 == hbmPage a) with
  | some r => r.2
  | none => hbmPage a
/-- One corrected error at a word. -/
def eccCe (s : State) (a : Nat) : State :=
  let c := pcOf a
  let p := rowPage s a
  let s := ((s.addR MEM_CECNT 1).addR (MEM_PCCECNT c) 1).setB MEM_STAT 3 true
  let near := s.mem.ceSeen.filter (fun x => decide ((s.beat : Int) ≤ x.beat + 2500000))
  let two := near.any (fun x => x.chan == c && x.page == p && x.word != a / 8)
  let s := setMem s { s.mem with ceSeen := ⟨c, p, a / 8, s.beat⟩ :: near }
  if two then rowFail (report s 96 c) c p else s
/-- One uncorrectable error. -/
def eccUe (s : State) (a : Nat) : State :=
  let c := pcOf a
  let s := if s.rb MEM_STAT 4 then s else s.wr64 MEM_ERRADDR_LO a
  let s := ((s.addR MEM_UECNT 1).addR (MEM_PCUECNT c) 1).setB MEM_STAT 4 true
  let s := if s.mem.poison.contains (a / 8) then s else setMem s { s.mem with poison := a / 8 :: s.mem.poison }
  rowFail (report s 97 c) c (rowPage s a)
/-- Poisoned words among `n` bytes at `a`, as addresses. -/
def poisonIn (s : State) (a n : Nat) : List Nat :=
  (s.mem.poison.filter (fun w => decide (a < 8 * w + 8) && decide (8 * w < a + n))).map (fun w => 8 * w)
/-- A read of `n` bytes at `a` meets the errors found there: counts, and whether the data is poisoned. -/
def eccRead (s : State) (a n : Nat) (h : EccHits) : State × Bool :=
  let inside (x : Nat) : Bool := decide (a < x + 8) && decide (x < a + n)
  let ue := uniq (h.ue.filter inside ++ poisonIn s a n)
  let s := forEach (h.ce.filter inside) s (fun x s => eccCe s x)
  (forEach ue s (fun x s => eccUe s x), ue != [])
/-- A write by a unit other than firmware does not reach the firmware region (R336). -/
def State.unitWrite (s : State) (a : Nat) (b : List Byte) : State :=
  let lo := HBM0 + 16384 * 65536
  s.hbmWrite (max a lo) (b.drop (lo - a))

end Sys2Proof.Machine
end

