-- ==== Sys2Proof/Machine/Numeric.lean ====
section
/-! DEFINITION. The numeric formats of the Spectral Engine: power words (R179), LOG words (R180), windows and prototypes
(R175, R177) and the transform (R178), each from the spec's formula in fixed point (log 20). -/
namespace Sys2Proof.Machine

/-- Fixed point of 96 fraction bits, and π in it. -/
def FX : Int := 2 ^ 96
def piFX : Int := 248902613312231085230521944622
/-- Terms of the sine or cosine series from term `t`, of index `k`, for an argument of square `x2`. -/
def trigGo (x2 : Int) : Nat → Nat → Int → Int
  | 0, _, t => t
  | f + 1, k, t => t + trigGo x2 f (k + 2) (-(t * x2 / FX) / ((k + 1) * (k + 2) : Nat))
/-- cos and sin of 2πj/n. -/
def angle (j n : Nat) : Int :=
  let j := j % n
  2 * piFX * (if 2 * j ≤ n then (j : Int) else (j : Int) - n) / n
def cosT (j n : Nat) : Int := let x := angle j n; trigGo (x * x / FX) 30 0 FX
def sinT (j n : Nat) : Int := let x := angle j n; trigGo (x * x / FX) 30 1 x
/-- I0 of 2√z for z = num/den: Σ z^k/(k!)². -/
def besselGo (num den : Int) : Nat → Nat → Int → Int
  | 0, _, t => t
  | f + 1, k, t => t + besselGo num den f (k + 1) (t * num / (den * ((k + 1) * (k + 1) : Nat)))
def bessel (num den : Int) : Int := besselGo num den 90 0 FX
/-- β of KIDX, in tenths (R175). -/
def kaiserBeta (k : Nat) : Int :=
  nth (0 : Int) [20, 25, 30, 35, 40, 45, 50, 55, 60, 65, 70, 80, 90, 100, 120, 140] k

/-- The exact built-in window of length `m` at `n`, 96 fraction bits (R175). -/
def windowFX (win kidx m n : Nat) : Int :=
  let c (i : Nat) := cosT (i * n) m
  match win with
  | 0 => FX * 131071 / 131072
  | 1 => (FX - c 1) / 2
  | 2 => (35875 * FX - 48829 * c 1 + 14128 * c 2 - 1168 * c 3) / 100000
  | 3 => (215578950 * FX - 416631580 * c 1 + 277263158 * c 2 - 83578947 * c 3 + 6947368 * c 4) / 1000000000
  | _ =>
    let b := kaiserBeta kidx
    bessel (b * b * (n * (m - n) : Nat)) (100 * (m * m : Nat)) * FX / bessel (b * b) 400
/-- sinc of a/n for a signed `a`. -/
def sincFX (a : Int) (n : Nat) : Int :=
  if a = 0 then FX
  else
    let s := sinT (a.natAbs) (2 * n)
    s * FX * n / (piFX * a.natAbs)
/-- An 18-bit coefficient of 17 fraction bits, 1 held at 1 − 2^−17. -/
def coeff18 (v : Int) : Int := min 131071 (rdiv (v * 131072) FX.toNat)
/-- The coefficients in force for a built-in window: `taps` 1 for an FFT lane, P for a PFB lane of length `n`. -/
def builtin (win kidx n taps pfb : Nat) : List Int :=
  let m := n * taps
  (List.range m).map (fun i =>
    if pfb = 0 then coeff18 (windowFX win kidx m i)
    else coeff18 (windowFX win kidx m i * sincFX ((i : Int) - (m / 2 : Nat)) n / FX))

/-- Σ w. -/
def sumL (l : List Int) : Int := l.foldr (· + ·) 0
/-- ENBW in 1/256 bin, held at 0xFFF, and KAPPA (R177). -/
def enbw (w : List Int) : Nat :=
  let s := sumL w
  let q := sumL (w.map (fun x => x * x))
  if s = 0 then 0xFFF else min 0xFFF (rdiv (w.length * q * 256) (s * s).toNat).toNat
def kappaMet (w : List Int) (tot : Int) (k : Nat) : Bool :=
  let m := w.length
  let n := cdiv (k * m) 1024
  let sub := sumL ((w.drop ((m - n) / 2)).take n)
  decide (tot * tot ≤ 2 * sub * sub)
def kappa (w : List Int) : Nat :=
  let tot := sumL w
  match (List.range 1024).find? (fun i => kappaMet w tot (i + 1)) with
  | some i => i + 1
  | none => 1024

/-- Bit by bit square root: the largest r with r² ≤ v, r below 2^n. -/
def isqrtGo (v : Nat) : Nat → Nat → Nat
  | 0, r => r
  | n + 1, r => isqrtGo v n (if (r + 2 ^ n) * (r + 2 ^ n) ≤ v then r + 2 ^ n else r)
def isqrt (v : Nat) : Nat := isqrtGo v (Nat.log2 v / 2 + 1) 0

/-- A power word from a value of num/den units of 2^-119 (R179): mantissa rounded half up, less than 2^-95 is zero. -/
def powWord (num den : Nat) : Nat :=
  let q := num / den
  if q < 2 ^ 24 then 0
  else
    let e := Nat.log2 q - 24
    let m := (2 * num + den * 2 ^ e) / (2 * den * 2 ^ e)
    if m = 2 ^ 25 then (e + 2) * 2 ^ 25 + 2 ^ 24 else (e + 1) * 2 ^ 25 + m
/-- The same of the square root of a power of num/den units (R181, RMS). -/
def rootWord (num den : Nat) : Nat :=
  let u := isqrt (num * 2 ^ 119 / den)
  if u < 2 ^ 24 then 0
  else
    let e := Nat.log2 u - 24
    let m := (isqrt (4 * num * 2 ^ 119 / (den * 4 ^ e)) + 1) / 2
    if m = 2 ^ 25 then (e + 2) * 2 ^ 25 + 2 ^ 24 else (e + 1) * 2 ^ 25 + m
/-- A power word's value in units of 2^-119. -/
def powVal (p : Nat) : Nat := if p / 2 ^ 25 = 0 then 0 else p % 2 ^ 25 * 2 ^ (p / 2 ^ 25 - 1)

/-- log2(y/2^128)·2^n, truncated, for 1 ≤ y/2^128 < 2, by repeated squaring. -/
def log2Go : Nat → Nat → Nat → Nat
  | 0, _, acc => acc
  | n + 1, y, acc =>
    let z := y * y / 2 ^ 128
    if 2 ^ 129 ≤ z then log2Go n (z / 2) (2 * acc + 1) else log2Go n z (2 * acc)
/-- tab[i] of R180. -/
def logTab (i : Nat) : Nat := if 128 ≤ i then 2 ^ 20 else (log2Go 40 ((128 + i) * 2 ^ 121) 0 + 2 ^ 19) / 2 ^ 20
/-- The LOG word of a power word (R180). -/
def logWord (p : Nat) : Int :=
  let e : Nat := p / 2 ^ 25
  let f : Nat := p % 2 ^ 25 - 2 ^ 24
  if e = 0 then -32768
  else
    let i : Nat := f / 2 ^ 17
    let t : Nat := logTab i + (logTab (i + 1) - logTab i) * (f % 2 ^ 17) / 2 ^ 17
    let l2 : Int := ((e : Int) - 96) * 2 ^ 20 + (t : Int)
    max (asr (l2 * 25252226 + 2 ^ 35) 36) (-32767)

/-- One bin of the transform with 40 fraction bits of an LSB (R178): frequency `k` of length `n`, samples in 1/8 LSB. -/
def dftSum (k n : Nat) : List Int → List (Int × Int) → Nat → Int × Int
  | w :: ws, x :: xs, i =>
    let c := cosT (k * i) n
    let s := sinT (k * i) n
    let r := dftSum k n ws xs (i + 1)
    (w * (x.1 * c + x.2 * s) + r.1, w * (x.2 * c - x.1 * s) + r.2)
  | _, _, _ => (0, 0)
def dftBin (cplx : Bool) (n k : Nat) (w : List Int) (x : List (Int × Int)) : Int × Int :=
  let r := dftSum k n w x 0
  let d := (sumL w * 8 * FX).toNat
  let g : Int := (if cplx then 1 else 2) * 2 ^ 40
  if d = 0 then (0, 0) else (rdiv (r.1 * g) d, rdiv (r.2 * g) d)
/-- Clip to magnitude 8 × 2,048 LSB, the phase kept (R178). -/
def clipBin (v : Int × Int) : (Int × Int) × Bool :=
  let m := (v.1 * v.1 + v.2 * v.2).toNat
  let lim := 2 ^ 54
  if m ≤ lim * lim then (v, false)
  else
    let r := isqrt m
    ((rdiv (v.1 * lim) r, rdiv (v.2 * lim) r), true)
/-- The power word of a bin, |X|²/2,048². -/
def binPower (v : Int × Int) : Nat :=
  powWord (min ((v.1 * v.1 + v.2 * v.2).toNat) (2 ^ 108) * 2 ^ 17) 1

end Sys2Proof.Machine
end

