-- ==== Sys2Proof/Machine/Convert.lean ====
section
/-! DEFINITION. RF Sampling Converters (R98–R137): trims, foreground and background calibration, over-range, power-down. -/
namespace Sys2Proof.Machine

-- Trims in the registers that report them (R114, R136)
def trimReg (n i : Nat) : Nat × Nat × Nat :=
  if i < 4 then (CNV_THR12 n, 8 * (i % 4) + 5, 8 * (i % 4))
  else if i < 8 then (CNV_THR34 n, 8 * (i % 4) + 5, 8 * (i % 4))
  else if i < 12 then (CNV_THR56 n, 8 * (i % 4) + 5, 8 * (i % 4))
  else if i = 12 then (CNV_OFFSET n, 11, 0)
  else if i = 13 then (CNV_GAIN n, 11, 0)
  else if i = 14 then (CNV_SKEW n, 7, 0)
  else (CNV_SKEW n, 15, 8)
def trimRange (i : Nat) : Int × Int :=
  if i < 12 then (-32, 31) else if i < 14 then (-2048, 2047) else if i = 14 then (0, 255) else (-128, 127)
def trimGet (s : State) (n i : Nat) : Int :=
  let r := trimReg n i
  if i = 14 then (s.rf r.1 r.2.1 r.2.2 : Int) else sext (r.2.1 + 1 - r.2.2) (s.rf r.1 r.2.1 r.2.2)
def trimSet (s : State) (n i : Nat) (v : Int) : State :=
  let r := trimReg n i
  s.setF r.1 r.2.1 r.2.2 (lowBits (r.2.1 + 1 - r.2.2) v)
/-- The pair of the layout in force and the other pair change places (R115, R136). -/
def swapSkew (s : State) (n : Nat) : State :=
  let v := s.rd (CNV_SKEW n)
  s.wr (CNV_SKEW n) (w32 (fld v 7 0 * 2 ^ 24 + fld v 15 8 * 2 ^ 16 + fld v 23 16 * 2 ^ 8 + fld v 31 24))

def quadCores (q : Nat) : List Nat := (List.range 8).map (fun i => 8 * q + i)
def allCores (s : State) : List Nat := (List.range 32).filter (corePresent s)
/-- The path that core `n` feeds (R101). -/
def pathOfCore (s : State) (n : Nat) : Nat := if s.layoutDense then n else n / 2 * 2
def partner (n : Nat) : Nat := if n % 2 = 0 then n + 1 else n - 1
/-- The core feeds a path enabled in force. -/
def feedsEnabled (s : State) (n : Nat) : Bool := s.ab (PTH_CTRL (pathOfCore s n)) 0
/-- The quadrant's SCLK is on its bypass clock: synthesiser bit 1+q of CLK_BYP (R446). -/
def quadBypass (s : State) (q : Nat) : Bool := s.rb CLK_BYP (1 + q)
def fgRunning (s : State) (q : Nat) : Bool := decide (Sparse.get (fun _ => 0) s.fgStart q ≠ 0)
def anyFg (s : State) : Bool := (List.range 4).any (fgRunning s)
def setFg (s : State) (q v : Nat) : State := { s with fgStart := Sparse.set (fun _ => 0) s.fgStart q v }

/-- CNV_CALCNT, CNV_CALBEAT and CNV_CALTIME take a completed interval or calibration, with the time of the beat's
boundary (R125). -/
def calStamp (s : State) (n beat : Nat) : State :=
  let t := boundaryTime s beat
  let sec := t.1 / 65536 / 1000000000
  let s := s.addR (CNV_CALCNT n) 1
  let s := s.wr64 (CNV_CALBEAT_LO n) beat
  let s := s.wr (CNV_CALTIME_LO n) (w32 (t.1 / 65536 % 1000000000))
  let s := s.wr (CNV_CALTIME_HI n) (w32 sec)
  let s := s.wr (CNV_CALTIME_X n) (w32 (sec / 2 ^ 32 % 65536 + t.1 % 65536 * 65536))
  s.setB (CNV_STAT n) 6 (!t.2.testBit 1)
/-- CNV_BGSTAT.PEND and LANDING follow the pending steps. -/
def pendSum (l : List Int) : Nat := (l.map Int.natAbs).foldr (· + ·) 0
def showPend (s : State) (n : Nat) : State :=
  let c := s.core n
  let k := pendSum c.pend
  (s.setF (CNV_BGSTAT n) 7 0 k).setB (CNV_BGSTAT n) 8 (fld c.bg 1 0 == 1 && k != 0)

/-- After boot calibration the boot profile is committed by a next-beat commit (R512). -/
def bootProfile : List Byte := [0, 0, 0, 0, 0, 0, 0, 0, 0, 0, 0, 0, 0, 0, 0, 0]
def bootTicket (s : State) : Ticket :=
  ⟨0, 2 ^ 55 + (2 ^ 48 - 2 ^ 32), s.beat + 1, false, false, false, s.beat, s.cyc, none, some (bootProfile ++ zeros 8), false⟩
def bootFinish (s : State) : State :=
  if pwrState s = PS_BOOTING ∧ !anyFg s ∧ s.running then { s with tickets := s.tickets ++ [bootTicket s] } else s

/-- Start foreground calibration of a quadrant (R117). -/
def fgBegin (s : State) (q : Nat) : State :=
  let s := setFg s q (s.beat + 1)
  forEach ((quadCores q).filter (corePresent s)) s (fun n s => (s.setB (CNV_FGSTAT n) 2 true).setF (CNV_STAT n) 1 0 1)
def fgDone (s : State) (q : Nat) : State :=
  forEach (quadCores q) (setFg s q 0) (fun n s =>
    (s.setB (CNV_FGSTAT n) 2 false).setF (CNV_STAT n) 1 0 (if (s.core n).down then 0 else if quadBypass s q then 3 else 2))
/-- An interruption leaves the previous sets in force (R119). -/
def fgAbort (s : State) (q cause : Nat) : State :=
  if fgRunning s q then
    forEach (quadCores q) (fgDone s q) (fun n s => (s.setF (CNV_FGSTAT n) 1 0 2).setF (CNV_FGSTAT n) 15 8 cause)
  else s

/-- CAL_FOREGROUND (R131). -/
def calQuads (p : List Byte) : List Nat := bitList 4 (u8 p 0)
def calParamBad (p : List Byte) : Bool := decide (16 ≤ u8 p 0) || !zeroAt p 1 3
def quadFeeds (s : State) (q : Nat) : Bool := (quadCores q).any (fun n => corePresent s n && feedsEnabled s n)
def calFgChecks (s : State) (p : List Byte) : List (Bool × Nat) :=
  [((calQuads p).any (fun q => !quadPresent s q), ST_UNIT_ABSENT), (u8 p 0 == 0 || calParamBad p, ST_BAD_PARAM),
   (decide (pwrState s ∉ [PS_RUN, PS_IDLE]) || (calQuads p).any (quadBypass s), ST_STATE),
   ((calQuads p).any (fgRunning s), ST_BUSY), ((calQuads p).any (quadFeeds s), ST_IN_USE)]
def execCalForeground (q : Req) (s : State) : Res :=
  .next (command s 0x0201 q (q.params.length == 4) (calFgChecks s q.params)
    (reply (forEach (calQuads q.params) s (fun k s => fgBegin s k)) 0x0201 q ST_ACCEPTED []))

/-- The end of a quadrant's calibration (R118): the new sets all at once, or none of them. -/
def fgFind (r : List FgCore) (n : Nat) : FgCore :=
  match r.find? (fun c => c.core == n) with
  | some c => c
  | none => ⟨n, false, false, [], 0, 0⟩
def fgOk (s : State) (q : Nat) (r : List FgCore) : Bool :=
  ((quadCores q).filter (corePresent s)).all (fun n => let c := fgFind r n; c.converged && !c.atLimit)
def fgApply (s : State) (n : Nat) (c : FgCore) : State :=
  let s := forEach (List.range 16) s (fun i s =>
    trimSet s n i (if i = 15 ∧ s.layoutDense then 0 else nth (0 : Int) c.trims i))
  let s := (s.setF (CNV_SKEW n) 31 24 c.altC).setF (CNV_SKEW n) 23 16 (if s.layoutDense then lowBits 8 c.altF else 0)
  let s := s.setF (CNV_STAT n) 5 4 1
  let s := (s.setF (CNV_FGSTAT n) 1 0 1).setF (CNV_FGSTAT n) 15 8 0
  let s := s.setCore n { s.core n with pend := [], ivlOpen := false, ivlEnd := false }
  showPend (calStamp s n s.beat) n
def fgFail (s : State) (n : Nat) (c : FgCore) : State :=
  (s.setF (CNV_FGSTAT n) 1 0 3).setF (CNV_FGSTAT n) 15 8 (if c.atLimit then 5 else if !c.converged then 6 else 7)
def fgEnd (s : State) (q : Nat) (r : List FgCore) : State :=
  let ok := fgOk s q r
  let s := fgDone s q
  let s := forEach ((quadCores q).filter (corePresent s)) s (fun n s =>
    if ok then fgApply s n (fgFind r n) else fgFail s n (fgFind r n))
  bootFinish (if ok then s else report s (32 + q) q)
def execForegroundCalEnd (quad : Nat) (r : List FgCore) (s : State) : Res :=
  .next (if fgRunning s quad ∧ quad < 4 then fgEnd s quad r else s)

/-- CAL_STATUS (R133). -/
def fgProgress (s : State) (q : Nat) : Nat :=
  match Sparse.get (fun _ => 0) s.fgStart q with
  | 0 => 0
  | b + 1 => min 100 ((s.beat - b) * 100 / 450000)
def calStatusBytes (s : State) (q : Nat) : List Byte :=
  if quadPresent s q then
    let run := fgRunning s q
    let src := match (quadCores q).find? (fun n => decide (s.rf (CNV_FGSTAT n) 15 8 = 5 ∨ s.rf (CNV_FGSTAT n) 15 8 = 6)) with
      | some n => n
      | none => 8 * q
    b1 (if run then 4 else s.rf (CNV_FGSTAT (8 * q)) 1 0) ++ b1 (s.rf (CNV_FGSTAT src) 15 8) ++ b1 (fgProgress s q) ++
      b1 (s.rf (CNV_STAT (8 * q)) 5 4)
  else zeros 4
def execCalStatus (q : Req) (s : State) : Res :=
  .next (command s 0x0202 q (q.params.length == 0) []
    (reply s 0x0202 q ST_OK ((List.range 4).flatMap (calStatusBytes s))))

/-- CAL_ABORT (R132): cause 1. -/
def execCalAbort (q : Req) (s : State) : Res :=
  .next (command s 0x0203 q (q.params.length == 4)
    [((calQuads q.params).any (fun k => !quadPresent s k), ST_UNIT_ABSENT), (calParamBad q.params, ST_BAD_PARAM)]
    (reply (forEach (calQuads q.params) s (fun k s => fgAbort s k 1)) 0x0203 q ST_OK []))

/-- A write of CNV_BGCAL: ignored whole with IVL or MODE out of range (R136); in force from the next boundary (R126). -/
def bgcalBad (v : Word) : Bool := decide (fld v 7 3 < 12 ∨ 24 < fld v 7 3 ∨ fld v 1 0 = 3)
def bgcalWrite (s : State) (n : Nat) (v : Word) : State :=
  if bgcalBad v ∨ !corePresent s n then s else s.wr (CNV_BGCAL n) (v &&& 0xFFB)
def execCalBackground (q : Req) (s : State) : Res :=
  let v := w32 (u32 q.params 4)
  let l := bitList 32 (u32 q.params 0)
  .next (command s 0x0204 q (q.params.length == 8)
    [(l.any (fun n => !corePresent s n), ST_UNIT_ABSENT), (bgcalBad v || v &&& ~~~0xFFB#32 != 0, ST_BAD_PARAM)]
    (reply (forEach l s (fun n s => bgcalWrite s n v)) 0x0204 q ST_OK []))

/-- CNV_STATUS (R135). -/
def cnvStatusBytes (s : State) (n : Nat) : List Byte :=
  bw (s.rd (CNV_STAT n)) ++ bw (s.rd (CNV_CALCNT n)) ++ bw (s.rd (CNV_CALTIME_HI n)) ++ b2 (s.rf (CNV_CALTIME_X n) 15 0) ++
  bw (s.rd (CNV_CALTIME_LO n)) ++ b2 (s.rf (CNV_CALTIME_X n) 31 16) ++ b8 (s.rd64 (CNV_CALBEAT_LO n)) ++
  bw (s.rd (CNV_OVRCNT n)) ++ bw (s.rd (CNV_NBRCNT n)) ++ bw (s.rd (CNV_CLIPCNT n))
def execCnvStatus (q : Req) (s : State) : Res :=
  let n := u16 q.params 0
  .next (command s 0x0205 q (q.params.length == 4)
    [(decide (n < 32) && !corePresent s n, ST_UNIT_ABSENT), (decide (32 ≤ n) || !zeroAt q.params 2 2, ST_BAD_PARAM)]
    (reply s 0x0205 q ST_OK (cnvStatusBytes s n)))

/-- A master writes CNV_BGCAL of a core (R126). -/
def execCnvBgcalWrite (m : Master) (core : Nat) (v : Word) (s : State) : Res :=
  .next (onBar s m (if core < 32 then bgcalWrite s core v else s))

/-- The end of a background interval (R121–R123): confidence, targets, limits. -/
def classOfTrim (i : Nat) : Nat := if i < 12 then 0 else if i = 12 then 1 else if i = 13 then 2 else 3
def bgConf (s : State) (n : Nat) (e : BgEst) : Nat :=
  let en := fld (s.core n).bg 11 8
  let dith := s.rb (CNV_CTRL n) 1
  bitsSet ((List.range 4).filter (fun k => en.testBit k && e.conf.testBit k && (dith || (k != 0 && k != 2))))
def bgTarget (s : State) (n : Nat) (conf : Nat) (e : BgEst) (i : Nat) : Int × Bool :=
  let old := nth (0 : Int) (s.core n).pend i
  if i = 15 ∧ s.layoutDense then (0, false)
  else if conf.testBit (classOfTrim i) then
    let t := trimGet s n i + clampI (-8) 8 (nth (0 : Int) e.err i)
    let c := clampI (trimRange i).1 (trimRange i).2 t
    (c - trimGet s n i, decide (c ≠ t))
  else (old, false)
/-- Mean and rms of the codes of an interval in 1/16 LSB, rounded half up (R136; the rounding: log 90). -/
def codeMean (x : Nat × Int × Nat) : Int := rdiv (16 * x.2.1) x.1
def codeRms (x : Nat × Int × Nat) : Nat := (isqrt (1024 * x.2.2 / max 1 x.1) + 1) / 2
def bgIntervalEnd (s : State) (n : Nat) (e : BgEst) : State :=
  let c := s.core n
  let conf := bgConf s n e
  let ts := (List.range 16).map (bgTarget s n conf e)
  let clipped := bitsSet ((List.range 16).filter (fun i => (nth ((0 : Int), false) ts i).2))
  let s := s.setF (CNV_BGSTAT n) 15 12 conf
  let s := s.setCore n { c with pend := ts.map (fun t => t.1), ivlEnd := false, landed := true }
  let s := (s.wr (CNV_MEAN n) (w32 (lowBits 16 (codeMean c.ended)))).wr (CNV_RMS n) (w32 (codeRms c.ended % 65536))
  let s := showPend (s.orR (CNV_LIMSTAT n) clipped) n
  if clipped = 0 then s else report s (36 + n / 8) (n / 8)
def execBgCalIntervalEnd (core : Nat) (e : BgEst) (s : State) : Res :=
  .next (if corePresent s core ∧ core < 32 ∧ (s.core core).ivlEnd then bgIntervalEnd s core e else s)

/-- One landing boundary of a core in MODE RUN (R124, R125): one step of the pending trim with the lowest index, or
the completion of an interval that had no step due. Targets land from the boundary after the one at which they were
computed, one step a boundary. -/
def firstPend : List Int → Nat → Option (Nat × Int)
  | [], _ => none
  | v :: t, i => if v = 0 then firstPend t (i + 1) else some (i, v)
def landOne (s : State) (n : Nat) : State :=
  let c := s.core n
  if c.pend = [] ∨ c.landed ∨ fld c.bg 1 0 ≠ 1 ∨ quadBypass s (n / 8) then s
  else
    match firstPend c.pend 0 with
    | none => calStamp (showPend (s.setCore n { c with pend := [] }) n) n s.beat
    | some (i, v) =>
      let d : Int := if 0 < v then 1 else -1
      let pend := setNth c.pend i (v - d)
      let fin := pendSum pend == 0
      let s := trimSet s n i (trimGet s n i + d)
      let s := s.setCore n { c with pend := (if fin then [] else pend), cal := true, landed := true }
      let s := s.wr (CNV_LANDSTAT n) (w32 (s.beat % 65536 * 65536 + (if d = 1 then 0 else 32) + i))
      let s := showPend s n
      if fin then calStamp s n s.beat else s
def execBgStepLanding (s : State) : Res := .next (forEach (allCores s) s (fun n s => landOne s n))

/-- A write of CNV_CTRL (R130): PWRDN is ignored and reads 0 while the core feeds an enabled path. -/
def pwrdnWrite (s : State) (core : Nat) (v : Word) : State :=
  let s := s.setB (CNV_CTRL core) 1 (bit v 1)
  if bit v 0 ∧ feedsEnabled s core then s.setB (CNV_CTRL core) 0 false else s.setB (CNV_CTRL core) 0 (bit v 0)
def execCnvPwrdnWrite (m : Master) (core : Nat) (v : Word) (s : State) : Res :=
  .next (onBar s m (if core < 32 ∧ corePresent s core then pwrdnWrite s core v else s))
/-- A core powering up reaches RUN (R130). -/
def execCoreReady (core : Nat) (s : State) : Res :=
  let c := s.core core
  .next (if c.waking ∧ !s.rb (CNV_CTRL core) 0 ∧ !fgRunning s (core / 8) then
    (s.setCore core { c with waking := false, down := false }).setF (CNV_STAT core) 1 0 2
  else s)

/-- Steps pending for the skew pair of the layout that goes out of force are discarded (R115; log 86). -/
def dropSkew (s : State) (n : Nat) : State :=
  let c := s.core n
  let pend := setNth (setNth c.pend 14 0) 15 0
  if c.pend = [] then s else showPend (s.setCore n { c with pend := if pendSum pend = 0 then [] else pend }) n

-- The back end (R104, R110, R114)
/-- OFFSET subtracted and GAIN multiplied, in 2^-18 LSB (in this order and without rounding between: log 90). -/
def trimmed (s : State) (n : Nat) (w : Int) : Int := (w - trimGet s n 12) * (16384 + trimGet s n 13)
/-- The code of a sample: a clip code beyond full scale; else the trims apply, the fine-skew filter where FSKEW is not 0,
and the sum rounds half up to 12 bits and saturates. -/
def codeOf (w v : Int) : Int :=
  if 32768 ≤ w then 2047 else if w < -32768 then -2048 else satI 12 (rhu v 18)
def coreCodes (s : State) (i : BeatInput) (n : Nat) : List Int :=
  match i.samples.find? (fun p => p.1 == n) with
  | some p =>
    let f := trimGet s n 15
    let vs := p.2.map (trimmed s n)
    let old := (s.core n).line
    if f = 0 then (p.2.zip vs).map (fun x => codeOf x.1 x.2)
    else (List.range vs.length).map (fun j => codeOf (nth 0 p.2 j) (Config.fracDelay f (old ++ vs) (old.length + j)))
  | none => []
/-- The codes that left a core in the beat that ends are counted (R113, R136). -/
def coreBeat (s : State) (i : BeatInput) (n : Nat) : State :=
  let l := coreCodes s i n
  let c := s.core n
  if l = [] ∨ c.down then s
  else
    let vs := match i.samples.find? (fun p => p.1 == n) with | some p => p.2.map (trimmed s n) | none => []
    let line := c.line ++ vs
    let s := s.setCore n { c with
      line := line.drop (line.length - 63),
      sums := (c.sums.1 + l.length, l.foldr (· + ·) c.sums.2.1, l.foldr (fun x a => x.natAbs * x.natAbs + a) c.sums.2.2) }
    s.addR (CNV_CLIPCNT n) ((l.filter (fun x => x == 2047 || x == -2048)).length)

-- Over-range (R109–R113)
/-- The present beat of a core carries OVR: counted once a beat. -/
def markOvr (s : State) (n : Nat) : State :=
  let c := s.core n
  let s := s.setB (CNV_OVRSTAT n) 0 true
  if c.ovr then s else (s.setCore n { c with ovr := true }).addR (CNV_OVRCNT n) 1
def markNbr (s : State) (n : Nat) : State :=
  let c := s.core n
  let s := s.setB (CNV_OVRSTAT n) 2 true
  if c.nbr then s else (s.setCore n { c with nbr := true }).addR (CNV_NBRCNT n) 1
/-- The cores that record an episode of core `n`, and those that it disturbs (R111, R112). -/
def ovrCores (s : State) (n : Nat) : List Nat := if s.layoutDense then [n] else [n / 2 * 2, n / 2 * 2 + 1]
def nbrCores (s : State) (n : Nat) : List Nat := (quadCores (n / 8)).filter (fun m => corePresent s m && !(ovrCores s n).contains m)
def markBeat (s : State) (n : Nat) : State :=
  let s := forEach (ovrCores s n) s (fun m s => markOvr s m)
  forEach (nbrCores s n) s (fun m s => markNbr s m)
/-- A sample beyond full scale (R109); `ovd`: beyond the OVD6 threshold as well. -/
def overRange (s : State) (n cyc : Nat) (ovd : Bool) : State :=
  let start := !(s.core n).ep
  let s := markBeat { s with cyc := cyc % 512 } n
  let s := if start then monAsk s 1 n else s
  let s := if ovd then monAsk s 2 n else s
  let s := forEach (ovrCores s n) s (fun m s =>
    let s := if start then s.wr64 (CNV_OVRBEAT_LO m) s.beat else s
    if ovd then s.setB (CNV_OVRSTAT m) 1 true else s)
  let c := s.core n
  s.setCore n { c with
    ep := true, epOvd := c.epOvd || ovd, ovds := (if ovd then (cyc % 512) :: c.ovds else c.ovds),
    epFrom := (if start then cyc % 512 else c.epFrom) }
/-- The samplers of a quadrant in foreground calibration are isolated from RFIN: no detector fires (R117). -/
def execOverRangeEpisode (core : Nat) (cyc : Nat) (ovd : Bool) (s : State) : Res :=
  .next (if corePresent s core ∧ core < 32 ∧ !(s.core core).down ∧ !fgRunning s (core / 8) then overRange s core cyc ovd else s)
/-- The last FCLK cycle of the tail after sample `s1` of the present beat (R109, R111). -/
def tailEndCycle (s : State) (c : CoreSt) (s1 : Int) : Nat :=
  ((s1 + ((if c.epOvd then 64 else 16) / divR s : Nat)) * (divR s : Nat) / 8).toNat
/-- The episode ends; the NBR window lasts 64 SCLK after sample `s1` whatever the tail (R112). -/
def overRangeEnd (s : State) (n : Nat) (s1 : Int) : State :=
  let c := s.core n
  let past := decide (4096 ≤ s1 * (divR s : Nat) + 64)
  let s := s.setCore n { c with ep := false, epOvd := false, spans := c.spans ++ [(c.epFrom, min 511 (tailEndCycle s c s1))] }
  if past then forEach (nbrCores s n) s (fun m s => s.setCore m { s.core m with nbrNext := true }) else s
def execOverRangeTailEnd (core : Nat) (s1 : Int) (s : State) : Res :=
  .next (if (s.core core).ep then overRangeEnd s core s1 else s)

/-- What a beat boundary does to a core: the flags of the beat that ends are dropped, a running episode or NBR window
goes on in the new beat, writes of CNV_BGCAL and PWRDN take effect (R113, R126, R130), and intervals end and begin: one
that was cut, or that holds a beat with BYP, is not judged (R121, R127). -/
def coreBoundary (s : State) (n : Nat) : State :=
  let c := s.core n
  let bgNew := s.rd (CNV_BGCAL n)
  let off := fld bgNew 1 0 == 0
  let ends := c.ivlOpen && s.beat % 2 ^ fld c.bg 7 3 == 0
  let aligned := s.beat % 2 ^ fld bgNew 7 3 == 0
  let pd := s.rb (CNV_CTRL n) 0
  let goDown := pd && !c.down
  let goUp := !pd && c.down && !fgRunning s (n / 8)
  let idle := off || c.down || goDown
  let bad := c.ivlBad || s.bypBeat.contains (n / 8)
  let s := s.setCore n { c with
    spans := [], ovds := [], ovr := false, nbr := false, nbrNext := false, cal := false, epFrom := 0, bg := bgNew,
    pend := (if off || goDown then [] else c.pend), landed := false, down := c.down || goDown, waking := c.waking || goUp,
    ivlOpen := !idle && (aligned || (c.ivlOpen && fld bgNew 7 3 == fld c.bg 7 3)),
    ivlEnd := ends && !bad && !idle,
    ivlBad := (if aligned then quadBypass s (n / 8) else bad),
    ended := (if ends then c.sums else c.ended), sums := (if aligned then (0, 0, 0) else c.sums) }
  let s := if goDown then s.setF (CNV_STAT n) 1 0 0 else s
  let s := if goDown || decide (bgNew ≠ c.bg) then showPend s n else s
  if c.nbrNext then markNbr s n else s
def coresBoundary (s : State) : State :=
  let s := forEach (allCores s) s (fun n s => coreBoundary s n)
  forEach (allCores s) s (fun n s => if (s.core n).ep then markBeat s n else s)

end Sys2Proof.Machine
end

