-- ==== Sys2Proof/Machine/Path.lean ====
section
/-! DEFINITION. Path Conditioning and Down-Conversion (R138–R168): the sample chain exactly where the spec fixes its
arithmetic, bank swaps and fades, the coarse path, flags, and group 0x03. -/
namespace Sys2Proof.Machine

/-- The eight shadow registers of a path in the order of PTH_CONFIG (R165). -/
def pathRegs (n : Nat) : List Nat :=
  [PTH_CTRL n, PTH_DCB n, PTH_BLK n, PTH_NCOFTW_LO n, PTH_NCOFTW_HI n, PTH_NCOPH n, PTH_DEC n, PTH_FIR n]
def pathRegMasks : List Nat := [0xFD, 0x1F03, 0x7FFFF13, 0xFFFFFFFF, 0xFFFF, 0x3FFFF, 0x10F, 0xFF01]
/-- The path's settings as they govern the present beat's samples, and as they are in force from the next beat. -/
def pathCfg (s : State) (n : Nat) : List Word := (pathRegs n).map s.rdB
def pathNext (s : State) (n : Nat) : List Word := (pathRegs n).map s.rdA
def cfCtrl (c : List Word) : Word := nth 0 c 0
def cfDcb (c : List Word) : Word := nth 0 c 1
def cfBlk (c : List Word) : Word := nth 0 c 2
def cfFtw (c : List Word) : Nat := (nth 0 c 3).toNat + 2 ^ 32 * fld (nth 0 c 4) 15 0
def cfPh (c : List Word) : Word := nth 0 c 5
def cfDec (c : List Word) : Word := nth 0 c 6
def cfFir (c : List Word) : Word := nth 0 c 7
def cfEn (c : List Word) : Bool := bit (cfCtrl c) 0
def cfFirEn (c : List Word) : Bool := bit (cfCtrl c) 4
def cfNco (c : List Word) : Bool := bit (cfCtrl c) 5
def cfD (c : List Word) : Nat := fld (cfDec c) 3 0

/-- m of R19, and the input samples per beat S_in (R138). -/
def layoutM (s : State) : Nat := if s.layoutDense then 1 else 2
def sIn (s : State) : Nat := 4096 * layoutM s / divR s
/-- A path unit that can deliver samples in the layout in force. -/
def pathUsable (s : State) (n : Nat) : Bool := decide (n < 32) && corePresent s n && (s.layoutDense || n % 2 == 0)

/-- Group delay in 1/256 input sample (R154) with the given τ_F. -/
def halfBandDelay (c : List Word) : Nat := (if bit (cfDec c) 8 then 5 else 23) * (2 ^ cfD c - 1)
def tauOf (s : State) (n bank : Nat) : Nat := s.rf (if bank = 0 then PTH_FIRINFO_A n else PTH_FIRINFO_B n) 15 0
def grpDly (s : State) (n bank : Nat) (c : List Word) : Nat :=
  256 * (7 + halfBandDelay c) + (if cfFirEn c then tauOf s n bank * 2 ^ cfD c else 0)

-- One input sample through the stages
/-- What the chain gathers over a beat: the unit's state, the path words so far (newest first), saturation (PTH_STAT
bits, and whether an output sample took one in), blanked slots, and whether a coarse sample left. -/
structure Chain where
  p : PathSt
  outs : List Cx
  stat : Nat
  sat : Bool
  blanked : List Nat
  crs : Bool
  i : Nat
deriving DecidableEq, Repr

/-- DC block (R142, R143): the DC word of 4 fraction bits, saturation, the new estimate. -/
def dcStep (c : List Word) (frz : Bool) (m x : Int) : Int × Bool × Int :=
  let e := x * 2 ^ 24 - m
  let y := if bit (cfCtrl c) 2 then rhu e 20 else x * 16
  (satI 16 y, bit (cfCtrl c) 2 && ovfI 16 y, if frz then m else m + rhu e (fld (cfDcb c) 12 8))
/-- Insertion sort of magnitudes. -/
def insI (x : Nat) : List Nat → List Nat
  | [] => [x]
  | a :: t => if x ≤ a then x :: a :: t else a :: insI x t
/-- Impulse blanker (R144): the sample 7 back, in a window of the 15 newest DC words (newest first). -/
def blankStep (c : List Word) (w : List Int) : Int × Bool :=
  let b := cfBlk c
  let h := match fld b 1 0 with | 0 => 2 | 1 => 4 | _ => 7
  let y := nth (0 : Int) w 7
  let mags := ((List.range (2 * h + 1)).map (fun k => (nth (0 : Int) w (7 - h + k)).natAbs)).foldr insI []
  let med := nth 0 mags h
  let hit := bit (cfCtrl c) 3 && decide (max (fld b 15 8 * med) (fld b 26 16 * 64) < 4 * y.natAbs)
  if hit then ((if bit b 4 then (if y < 0 then -(med : Int) else med) else 0), true) else (y, false)
/-- Zone inversion and NCO (R146, R147): the filter word of the sample at slot `j`, whose input position is 7 less. -/
def mixStep (c : List Word) (phase j : Nat) (y : Int) : Cx × Nat :=
  let y := if bit (cfCtrl c) 6 ∧ (j + 1) % 2 = 1 then -y else y
  if cfNco c then
    let i := phase / 2 ^ 32
    ((rhu (y * (Config.ncoCos i).toInt) 12, rhu (-(y * (Config.ncoSin i).toInt)) 12), (phase + cfFtw c) % 2 ^ 48)
  else ((y * 4, 0), (phase + cfFtw c) % 2 ^ 48)
/-- Σ of two lists' products. -/
def dot : List Int → List Int → Int
  | a :: t, b :: u => a * b + dot t u
  | _, _ => 0
/-- A half-band stage's output from its delay line, newest first (R150): linear phase is symmetric about tap 23. -/
def hbTaps (minph : Bool) : List Int :=
  (List.range 47).map (fun k => if minph then Config.hbMinTap k else Config.hbTap (min k (46 - k)))
def hbOut (minph : Bool) (line : List Int) : Int := rhu (dot (hbTaps minph) line) 40
/-- Half-band stages (R149): a stage takes every sample of its input and answers one for each even index; and whether one
of them saturated. -/
def hbRun (minph cplx : Bool) : Nat → List (List Cx) → Nat → Cx → List (List Cx) × Option Cx × Bool
  | 0, l, _, v => (l, some v, false)
  | d + 1, l, j, v =>
    let line := (v :: l.headD []).take 47
    if j % 2 = 1 then (line :: l.tail, none, false)
    else
      let re := hbOut minph (line.map (fun x => x.1))
      let im := if cplx then hbOut minph (line.map (fun x => x.2)) else 0
      let (t, r, so) := hbRun minph cplx d l.tail (j / 2) (satI 20 re, satI 20 im)
      (line :: t, r, so || ovfI 20 re || ovfI 20 im)
/-- The final FIR (R151): Σ h_k·v[i−k], 17 fraction bits, rounded half up. -/
def firOut (h : List Int) (line : List Cx) : Cx := (rhu (dot h (line.map (fun x => x.1))) 17, rhu (dot h (line.map (fun x => x.2))) 17)
def satCx (n : Nat) (v : Cx) : Cx := (satI n v.1, satI n v.2)
def ovfCx (n : Nat) (v : Cx) : Bool := ovfI n v.1 || ovfI n v.2
/-- The cross-fade mix (R156), weight in 1/65,536. -/
def mixCx (w : Int) (a b : Cx) : Cx := (rhu ((65536 - w) * a.1 + w * b.1) 16, rhu ((65536 - w) * a.2 + w * b.2) 16)
/-- Final FIR and running fade for output sample `i` of the beat of `n` outputs: value and PTH_STAT bits. -/
def firStage (c : List Word) (p : PathSt) (nOut i : Nat) (v : Cx) : Cx × Nat :=
  if cfFirEn c then
    let bank (b : Nat) := firOut (if b = 0 then p.bankA else p.bankB) p.fir
    match p.fade with
    | some f =>
      if f.left = 0 then let y := bank f.tgt; (satCx 20 y, if ovfCx 20 y then 0x80 else 0)
      else
        let w := rdiv (((f.x - f.left) * nOut + i + 1 : Nat) * 65536) (max 1 (f.x * nOut))
        let a := bank f.src
        let b := bank f.tgt
        let y := mixCx w (satCx 20 a) (satCx 20 b)
        (satCx 20 y, (if ovfCx 20 a || ovfCx 20 b then 0x80 else 0) + (if ovfCx 20 y then 0x100 else 0))
    | none => let y := bank p.bankNow; (satCx 20 y, if ovfCx 20 y then 0x80 else 0)
  else (v, 0)
/-- Output select and conversion to the path word (R140, R161). Every saturation that this output sample takes in, of the
fine path too while coarse samples leave, is its own (R141). -/
def selectStage (c : List Word) (ch : Chain) (coarse fine : Cx) (bits : Nat) : Chain :=
  let crs := bit (cfCtrl c) 7 && decide (0 < ch.p.cleft)
  let v := if crs then coarse else fine
  let y : Cx := (rhu v.1 3, rhu v.2 3)
  let bits := bits ||| (if ovfCx 16 y then 0x200 else 0)
  let first := ch.p.fineWait && ch.p.cleft == 0
  { ch with
    outs := satCx 16 y :: ch.outs, stat := ch.stat ||| bits, sat := ch.sat || ch.p.satNext || bits != 0,
    crs := ch.crs || crs, i := ch.i + 1,
    p := { ch.p with cleft := ch.p.cleft - 1, fineDue := ch.p.fineDue || first, fineWait := ch.p.fineWait && !first, satNext := false } }
def sumCx (l : List Cx) : Cx := l.foldr (fun a b => (a.1 + b.1, a.2 + b.2)) (0, 0)
/-- One slot of the beat: input sample `x` enters, the sample 7 back leaves the blanker; its own beat's settings are
`old` for the first seven slots (R54). -/
def slotStep (c old : List Word) (frz : Bool) (nOut : Nat) (setPhase : Option Nat) (ch : Chain) (j : Nat) (x : Int) : Chain :=
  let p := ch.p
  let dc := dcStep c frz p.m x
  let w := dc.1 :: p.blk
  let cs := if j < 7 then old else c
  let bl := blankStep cs w
  let ph := if j = 7 then setPhase.getD p.phase else p.phase
  let mx := mixStep cs ph j bl.1
  let coarseLine := (mx.1 :: p.coarse).take 16
  let hb := hbRun (bit (cfDec c) 8) (cfNco c) (cfD c) p.hb j mx.1
  let ages := p.satIn.map (· + 1)
  let p := { p with
    m := dc.2.2, blk := w.take 14, phase := mx.2, coarse := coarseLine, hb := hb.1,
    satIn := ages.filter (fun a => decide (a < 7)) ++ (if dc.2.1 then [0] else []), satNext := p.satNext || ages.contains 7 || hb.2.2 }
  let ch := { ch with
    p := p, stat := ch.stat ||| (if dc.2.1 then 0x20 else 0) ||| (if hb.2.2 then 0x40 else 0),
    blanked := if bl.2 then j :: ch.blanked else ch.blanked }
  match hb.2.1 with
  | none => ch
  | some v =>
    let ch := { ch with p := { ch.p with fir := (v :: ch.p.fir).take 256 } }
    let cm := sumCx coarseLine
    let fo := firStage c ch.p nOut ch.i v
    selectStage c ch (rhu cm.1 4, rhu cm.2 4) fo.1 fo.2
/-- A whole beat of input samples. -/
def chainRun (c old : List Word) (frz : Bool) (nOut : Nat) (setPhase : Option Nat) : Chain → Nat → List Int → Chain
  | ch, _, [] => ch
  | ch, j, x :: t => chainRun c old frz nOut setPhase (slotStep c old frz nOut setPhase ch j x) (j + 1) t

/-- The samples that enter path `n` in a beat: its core's, or its pair's interleaved (R101). -/
def interleave : List Int → List Int → List Int
  | a :: t, b :: u => a :: b :: interleave t u
  | _, _ => []
def pathInput (s : State) (i : BeatInput) (n : Nat) : List Int :=
  if s.layoutDense then coreCodes s i n else interleave (coreCodes s i n) (coreCodes s i (n + 1))
def pathCores (s : State) (n : Nat) : List Nat := if s.layoutDense then [n] else [n, n + 1]

-- Flags (R163)
/-- A flag at input positions `a … b` of the beat reaches these output beats, as beats still to come. -/
def flagBeats (g sin flag a b : Nat) : List (Nat × Nat) :=
  (List.range ((b + g) / sin + 1 - (a + g) / sin)).map (fun k => ((a + g) / sin + k, flag))
def pathFlags (s : State) (n g : Nat) (blanked : List Nat) : List (Nat × Nat) :=
  let sin := sIn s
  let cs := (pathCores s n).map (fun c => (c, s.core c))
  let whole (b : Bool) (f : Nat) := if b then flagBeats g sin f 0 (sin - 1) else []
  whole (cs.any (fun c => c.2.nbr)) F_NBR ++ whole (cs.any (fun c => c.2.cal)) F_CAL ++
  whole (s.bypBeat.contains (n / 8)) F_BYP ++
  cs.flatMap (fun c => (c.2.spans ++ (if c.2.ep then [(c.2.epFrom, 511)] else [])).flatMap (fun (sp : Nat × Nat) =>
    flagBeats g sin F_OVR (sp.1 * sin / 512) ((sp.2 + 1) * sin / 512 - 1))) ++
  cs.flatMap (fun c => c.2.ovds.flatMap (fun cy => flagBeats g sin F_OVD6 (cy * sin / 512) ((cy + 1) * sin / 512 - 1))) ++
  blanked.map (fun j => ((j + (g - 7)) / sin, F_BLANK))
def orFlags (l : List (Nat × Nat)) : Nat := l.foldr (fun p a => p.2 ||| a) 0
/-- The flags due now, and those still to come one beat nearer. -/
def dueFlags (l : List (Nat × Nat)) : Nat := orFlags (l.filter (fun p => p.1 == 0))
def laterFlags (l : List (Nat × Nat)) : List (Nat × Nat) := (l.filter (fun p => p.1 != 0)).map (fun p => (p.1 - 1, p.2))

/-- The phase that PHMODE sets at sample 0 of a retune's effective beat; CONT sets none (R148). -/
def phaseAt (c : List Word) (beat sin : Nat) : Option Nat :=
  match fld (cfPh c) 17 16 with
  | 1 => some (fld (cfPh c) 15 0 * 2 ^ 32)
  | 2 => some ((fld (cfPh c) 15 0 * 2 ^ 32 + cfFtw c * (beat * sin)) % 2 ^ 48)
  | _ => none

/-- PTH_XFSTAT follows the fade and the queued request. -/
def showXf (s : State) (n : Nat) : State :=
  let p := s.path n
  let v := s.rd (PTH_XFSTAT n)
  let v := setFld v 28 19 (match p.queued with | some (b, x) => 512 + 256 * b + (x - 1) | none => 0)
  let v := setFld v 18 16 (match p.fade with | some f => 4 + 2 * f.src + f.tgt | none => p.bankNow)
  let v := setFld v 8 0 (match p.fade with | some f => f.left | none => 0)
  s.wr (PTH_XFSTAT n) v
/-- The bank whose τ_F PTH_GRPDLY uses: the source of a running fade, else the bank in force (R154). -/
def delayBank (p : PathSt) : Nat := match p.fade with | some f => if f.left = 0 then f.tgt else f.src | none => p.bankNow

/-- The samples blanked among the last seven of a beat of `len` input samples, whose test takes in the first ones of the next beat
(R144, R145). -/
def blankAhead (s : State) (i : BeatInput) (n len : Nat) (p : PathSt) : Nat :=
  let more (c : Nat) : List Int := match i.ahead.find? (fun x => x.1 == c) with | some x => x.2 | none => []
  let x := pathInput s { i with samples := i.samples.map (fun (y : Nat × List Int) => (y.1, y.2 ++ more y.1)) } n
  let c := pathNext s n
  (chainRun c c (bit (cfDcb c) 0) 1 none ⟨p, [], 0, false, [], false, 0⟩ 0 ((x.drop len).take 7)).blanked.length

/-- The samples of the beat that ends pass path `n` (R139): path words, flags, counts. -/
def pathBeat (s : State) (i : BeatInput) (n : Nat) : State :=
  let p := s.path n
  if !p.run then s
  else
    let c := pathCfg s n
    let x := pathInput s i n
    let held := (pathCores s n).any (fun k => (s.core k).nbr || (s.core k).ovr)
    let frz := bit (cfDcb c) 0 || (bit (cfDcb c) 1 && held)
    let old := if p.prev = [] then c else p.prev
    let nOut := max 1 (x.length / 2 ^ cfD c)
    let setPh := if cfFtw c ≠ cfFtw old ∨ cfPh c ≠ cfPh old ∨ p.pos = 0 ∨ p.rephase then phaseAt c s.beat (sIn s) else none
    let ch := chainRun c old frz nOut setPh ⟨p, [], 0, false, [], false, 0⟩ 0 x
    let g := grpDly s n (delayBank p) c / 256
    let fl := p.flagsAt ++ pathFlags s n g ch.blanked
    let ends := (cfEn c && !bit (s.rdA (PTH_CTRL n)) 0) || s.bt.lastRun
    let due := dueFlags fl
    let out := due % 4096 ||| (if ch.sat then F_SAT else 0) ||| (if ch.crs then F_COARSE else 0) ||| (if ends then F_END else 0)
    let tested := (ch.blanked.filter (fun j => 7 ≤ j)).length + (if ends then 0 else blankAhead s i n x.length ch.p)
    let p' := { ch.p with
      out := ch.outs.reverse, outFlags := out, outOvd := due.testBit 12, flagsAt := laterFlags fl, prev := c, pos := ch.p.pos + x.length,
      rephase := false, fade := ch.p.fade.map (fun f => { f with left := f.left - 1 }) }
    let s := s.setPath n p'
    let s := s.wr (PTH_BLKCNT n) (w32 (tested % 2 ^ 14))
    let s := s.addR (PTH_BLKTOT n) ch.blanked.length
    let s := s.orR (PTH_STAT n) ch.stat
    let s := if ch.sat then s.addR (PTH_SATCNT n) 1 else s
    showXf (s.wr (PTH_DCEST n) (i32 (rhu ch.p.m 16))) n

/-- After X beats the target bank alone is in force (R156). -/
def fadeEnd (s : State) (n : Nat) : State :=
  let p := s.path n
  match p.fade with
  | some f =>
    if f.left = 0 then
      let s := s.setPath n { p with fade := none, bankNow := f.tgt }
      let s := (s.setF (PTH_XFSTAT n) 31 30 1).setB (PTH_STAT n) 3 true
      let s := s.wr (PTH_GRPDLY n) (w32 (grpDly s n f.tgt (pathNext s n)))
      fire (showXf s n) (288 + n)
    else s
  | none => s
/-- A path switch (R158, R160): a fade that has run out ends first; delay lines cleared, any fade cut, the committed bank
alone in force. -/
def pathSwitch (s : State) (n : Nat) (c : List Word) (first : Bool) : State :=
  let s := fadeEnd s n
  let p := s.path n
  let cut := p.fade.isSome || p.queued.isSome || p.cutDue
  let p := { p with hb := [], fir := [], fade := none, queued := none, cutDue := false, bankNow := fld (cfFir c) 0 0 }
  let p := if first then { p with m := 0, blk := [], pos := 0, flagsAt := [], prev := [], coarse := [], satIn := [], satNext := false } else p
  let s := s.setPath n p
  let s := if first then s.wr (PTH_DCEST n) 0 else s
  if cut then s.setF (PTH_XFSTAT n) 31 30 3 else s
/-- The coarse count starts again: F = ⌈GRPDLY/D⌉ output samples (R161). -/
def coarseStart (s : State) (n : Nat) (c : List Word) : State :=
  let g := grpDly s n (delayBank (s.path n)) c
  s.setPath n { s.path n with cleft := cdiv g (256 * 2 ^ cfD c), fineWait := true }
/-- The path delivers nothing; its bank is the one in force, and a fade or request that stops here is remembered (R158). -/
def pathStop (s : State) (n : Nat) : State :=
  let s := fadeEnd s n
  let p := s.path n
  let s := s.setPath n { p with
    run := false, out := [], outFlags := 0, flagsAt := [], fade := none, queued := none, fineWait := false,
    cutDue := p.cutDue || p.fade.isSome || p.queued.isSome }
  showXf (s.setF (PTH_STAT n) 1 0 0) n
def pathIdle (s : State) (n : Nat) (c : List Word) : State :=
  let s := if (s.path n).run then pathStop s n else s
  let bank := fld (cfFir c) 0 0
  let p := s.path n
  let s := if p.bankLast = bank ∧ p.bankNow = bank then s else showXf (s.setPath n { p with bankLast := bank, bankNow := bank }) n
  let g := w32 (grpDly s n bank c)
  if s.rd (PTH_GRPDLY n) = g then s else s.wr (PTH_GRPDLY n) g
/-- The settings that change at this boundary take effect on path `n` (R148, R154, R155, R160): `first`, the first beat of
a run; `rephase`, a counter load (R148). Enabling a path starts a run of its own (log 87). -/
def pathEnter (s : State) (n : Nat) (first rephase : Bool) : State :=
  let old := pathCfg s n
  let c := pathNext s n
  let start := first || (cfEn c && !cfEn old)
  if !(cfEn c && s.running && pathUsable s n) then pathIdle s n c
  else
    let sw := start || fld (cfDec old) 8 0 != fld (cfDec c) 8 0 || cfNco old != cfNco c ||
      bit (cfCtrl old) 6 != bit (cfCtrl c) 6 || cfFirEn old != cfFirEn c
    let again := rephase && fld (cfPh c) 17 16 == 2
    let retune := cfFtw old != cfFtw c || cfPh old != cfPh c || again
    let p := s.path n
    let bank := fld (cfFir c) 0 0
    let s := s.setPath n { p with run := true, bankLast := bank, rephase := again }
    let s := s.setB (PTH_STAT n) 0 true
    let s := if sw then pathSwitch s n c start
      else if bank ≠ p.bankLast then
        let s := if p.queued.isSome then s.setB (PTH_XFSTAT n) 29 true else s
        s.setPath n { s.path n with queued := some (bank, fld (cfFir c) 15 8 + 1) }
      else s
    let s := if sw || retune then coarseStart s n c else s
    let s := s.setB (PTH_STAT n) 1 (bit (cfCtrl c) 7 && decide (0 < (s.path n).cleft))
    let s := s.wr (PTH_GRPDLY n) (w32 (grpDly s n (delayBank (s.path n)) c))
    showXf s n

-- Rows of fades and of the coarse path
/-- A queued swap request starts its fade when none runs (R155–R157). -/
def fadeStart (s : State) (n : Nat) : State :=
  let p := s.path n
  match p.fade, p.queued with
  | none, some (b, x) =>
    let s := if b = p.bankNow then (s.setPath n { p with queued := none }).setF (PTH_XFSTAT n) 31 30 2
      else s.setPath n { p with queued := none, fade := some ⟨p.bankNow, b, x, x⟩ }
    showXf s n
  | _, _ => s
def execFadeStart (path : Nat) (s : State) : Res := .next (if path < 32 then fadeStart s path else s)
def execFadeEnd (path : Nat) (s : State) : Res := .next (if path < 32 then fadeEnd s path else s)
/-- Event 288+n at the first boundary after the first fine sample (R161, R162). -/
def execCoarseToFine (path : Nat) (s : State) : Res :=
  let p := s.path path
  .next (if p.fineDue then
    fire ((s.setPath path { p with fineDue := false }).setB (PTH_STAT path) 4 true) (288 + path)
  else s)

-- Commands
def groupLocked (s : State) (g : Nat) : Bool := s.locked.contains g
/-- Some value sets a bit outside the defined ones of its register (R15). -/
def reservedSet (p : List Byte) (o : Nat) : List Nat → Bool
  | [] => false
  | m :: t => (u32 p o &&& (2 ^ 32 - 1 - m)) != 0 || reservedSet p (o + 4) t
/-- Write a list of registers from consecutive packet words. -/
def writeRegs (s : State) (p : List Byte) : Nat → List Nat → State
  | _, [] => s
  | o, a :: t => writeRegs (s.wr a (w32 (u32 p o))) p (o + 4) t
/-- PTH_CONFIG (R165). -/
def pthConfigChecks (s : State) (p : List Byte) : List (Bool × Nat) :=
  let n := u16 p 0
  [(decide (n < 32) && !corePresent s n, ST_UNIT_ABSENT),
   (decide (32 ≤ n) || !zeroAt p 2 2 || reservedSet p 4 pathRegMasks, ST_BAD_PARAM), (groupLocked s n, ST_BUSY)]
def execPthConfig (q : Req) (s : State) : Res :=
  .next (command s 0x0300 q (q.params.length == 36) (pthConfigChecks s q.params)
    (reply (writeRegs s q.params 4 (pathRegs (u16 q.params 0))) 0x0300 q ST_OK []))

/-- FIR_LOAD (R153, R159, R166). -/
def coeffs (p : List Byte) (o n : Nat) : List Int := (List.range n).map (fun k => sext 32 (u32 p (o + 4 * k)))
def coeffBad (v : Int) : Bool := decide (v < -131072 ∨ 131071 < v)
def sumI (l : List Int) : Int := l.foldr (· + ·) 0
def weighted : List Int → Nat → Int
  | [], _ => 0
  | h :: t, k => (k : Int) * h + weighted t (k + 1)
/-- The DC delay of a bank in 1/256 output sample, and DLYEST (R153). -/
def dcDelay (h : List Int) : Nat × Bool :=
  let L := h.length
  let sm := sumI h
  let ab := (h.map Int.natAbs).foldr (· + ·) 0
  let num := if sm < 0 then -(weighted h 0) else weighted h 0
  let t := rdiv (num * 256) sm.natAbs
  if sm.natAbs * 256 < ab ∨ sm = 0 ∨ num < 0 ∨ ((L : Int) - 1) * sm.natAbs < num then (128 * (L - 1), true) else (t.toNat, false)
def bankInUse (s : State) (n b : Nat) : Bool :=
  let p := s.path n
  (p.bankNow == b && s.ab (PTH_CTRL n) 4) ||
  (match p.fade with | some f => f.src == b || f.tgt == b | none => false) ||
  (match p.queued with | some (t, _) => t == b | none => false)
def firChecks (s : State) (p : List Byte) : List (Bool × Nat) :=
  let n := u16 p 0
  let L := u16 p 4
  [(decide (n < 32) && !corePresent s n, ST_UNIT_ABSENT),
   (decide (32 ≤ n) || decide (L < 1 ∨ 256 < L) || decide (1 < u8 p 2) || !zeroAt p 3 1 || !zeroAt p 6 2 ||
      (coeffs p 8 L).any coeffBad, ST_BAD_PARAM),
   (bankInUse s n (u8 p 2), ST_IN_USE)]
def firInfo (h : List Int) : Nat := (if (dcDelay h).2 then 2 ^ 31 else 0) + h.length * 65536 + (dcDelay h).1 % 65536
def firLoad (s : State) (n b : Nat) (h : List Int) : State :=
  let p := s.path n
  if b = 0 then (s.setPath n { p with bankA := h }).wr (PTH_FIRINFO_A n) (w32 (firInfo h))
  else (s.setPath n { p with bankB := h }).wr (PTH_FIRINFO_B n) (w32 (firInfo h))
def execFirLoad (q : Req) (s : State) : Res :=
  let p := q.params
  let h := coeffs p 8 (u16 p 4)
  .next (command s 0x0301 q (p.length == 8 + 4 * u16 p 4) (firChecks s p)
    (reply (firLoad s (u16 p 0) (u8 p 2) h) 0x0301 q ST_OK (b4 (firInfo h))))

/-- PTH_STATUS (R167). -/
def execPthStatus (q : Req) (s : State) : Res :=
  let n := u16 q.params 0
  .next (command s 0x0302 q (q.params.length == 4)
    [(decide (n < 32) && !corePresent s n, ST_UNIT_ABSENT), (decide (32 ≤ n) || !zeroAt q.params 2 2, ST_BAD_PARAM)]
    (reply s 0x0302 q ST_OK (regsBytes s [PTH_STAT n, PTH_GRPDLY n, PTH_XFSTAT n, PTH_DCEST n, PTH_BLKTOT n, PTH_SATCNT n])))

end Sys2Proof.Machine
end

