-- ==== Sys2Proof/Machine/Spectral.lean ====
section
/-! DEFINITION. Spectral Engine (R169–R200): frames, transform, rank filter and excision, traces, peaks, merge, spectral
mask test, readiness, slice SRAM, and group 0x04. -/
namespace Sys2Proof.Machine

/-- The twelve shadow registers of a lane in the order of SLC_CONFIG (R195), and their defined bits. -/
def laneRegs (k j : Nat) : List Nat :=
  [SLC_LCTRL k j, SLC_LFFT k j, SLC_LRANK k j, SLC_LPEAK k j, SLC_LPKRANGE k j, SLC_LMERGE k j, SLC_LMRANGE k j,
   SLC_LMASK k j, SLC_LTRACE k j 0, SLC_LTRACE k j 1, SLC_LTRACE k j 2, SLC_LTRACE k j 3]
def laneRegMasks : List Nat :=
  [0x1F0F, 0x0F173CFF, 0x00FF011F, 0xFFFF707F, 0xFFFFFFFF, 0x717F07FF, 0xFFFF, 0x0007BFBF,
   0xFFE0FFFF, 0xFFE0FFFF, 0xFFE0FFFF, 0xFFE0FFFF]
def laneCfg (s : State) (k j : Nat) : List Word := (laneRegs k j).map s.rdB
def laneNext (s : State) (k j : Nat) : List Word := (laneRegs k j).map s.rdA
def lcCtrl (c : List Word) : Word := nth 0 c 0
def lcFft (c : List Word) : Word := nth 0 c 1
def lcRank (c : List Word) : Word := nth 0 c 2
def lcPeak (c : List Word) : Word := nth 0 c 3
def lcPkRange (c : List Word) : Word := nth 0 c 4
def lcMerge (c : List Word) : Word := nth 0 c 5
def lcMRange (c : List Word) : Word := nth 0 c 6
def lcMask (c : List Word) : Word := nth 0 c 7
def lcTrace (c : List Word) (t : Nat) : Word := nth 0 c (8 + t)
def lcEn (c : List Word) : Bool := bit (lcCtrl c) 0

/-- The frame settings of SLC_LFFT (R171). NLOG has 4 bits for 9–16: code 0 stands for 16 (log 89). -/
def fftN (f : Word) : Nat := if fld f 3 0 = 0 then 65536 else 2 ^ fld f 3 0
def fftPfb (f : Word) : Nat := fld f 13 12
def fftTaps (f : Word) : Nat := 4 * 2 ^ fld f 11 10
def fftM (f : Word) : Nat := if fftPfb f = 0 then fftN f else fftTaps f * fftN f
def fftOvl (f : Word) : Int := sext 4 (fld f 7 4)
def fftH (f : Word) : Nat :=
  if fftPfb f = 1 then fftN f
  else if fftPfb f = 2 then fftN f / 2
  else if fftOvl f < 0 then fftN f * 2 ^ (-fftOvl f).toNat
  else fftN f / 2 ^ (fftOvl f).toNat
def fftWin (f : Word) : Nat := fld f 18 16
def fftBank (f : Word) : Nat := fld f 20 20
/-- Bins per spectrum (R174). -/
def binsOf (f : Word) (cplx : Bool) : Nat := if cplx then fftN f else fftN f / 2
/-- Delivered bin i as an FFT bin (R174). -/
def fftBin (f : Word) (cplx : Bool) (i : Nat) : Nat := if cplx then (i + fftN f / 2) % fftN f else i
/-- What moves the anchor of both lanes (R172); a PFB lane ignores OVL (R171). -/
def frameKey (f : Word) : Nat × Int × Nat × Nat := (fld f 3 0, (if fftPfb f = 0 then fftOvl f else 0), fftPfb f, fftBank f)

/-- Slice SRAM: words by slice and byte offset; the user banks (R192). -/
def slcKey (k off : Nat) : Nat := k * 2 ^ 24 + off
def bankWords (s : State) (k b m : Nat) : List Int :=
  (List.range m).map (fun i => sext 18 (s.slcRead (slcKey k (0x40000 * b + 4 * i))).toNat)
/-- The window or prototype that SLC_LFFT selects. -/
def laneWindow (s : State) (k : Nat) (f : Word) : List Int :=
  if fftWin f = 5 then bankWords s k (fftBank f) (fftM f)
  else builtin (fftWin f) (fld f 27 24) (fftN f) (if fftPfb f = 0 then 1 else fftTaps f) (fftPfb f)
/-- SLC_WININFO and SLC_LWINFO (R177). -/
def winInfo (w : List Int) : Nat :=
  2 ^ 31 + Nat.log2 w.length * 2 ^ 25 + min 1023 (kappa w) * 2 ^ 12 + enbw w

-- Frames
/-- Samples `b … e−1` of a lane as counted from its first run; what is not held, or precedes `zero`, reads 0 (R172). -/
def laneSamples (l : LaneSt) (zero : Nat) (b e : Int) : List Cx :=
  let base : Int := l.total - l.buf.length
  let lo := max b (max base zero)
  zeroPad (lo - b).toNat ++ ((l.buf.drop (lo - base).toNat).take (e - lo).toNat)
where zeroPad (n : Nat) : List Cx := List.replicate n (0, 0)
/-- The flags of the beats that samples `b … e−1` touch (R62). -/
def laneFlags (l : LaneSt) (b e : Int) : Nat :=
  l.bflags.foldr (fun x a => if b < (x.1 + x.2.1 : Nat) ∧ (x.1 : Int) < e then x.2.2 % F_END ||| a else a) 0
/-- The sample that decides a frame's settings and its blocks (R54, R183): the first of its span, but none before the
anchor of its grid. -/
def keySample (l : LaneSt) (f : Word) (at_ : Nat) : Nat := max (at_ + fftN f - fftM f) l.anchorAt
/-- The lane's settings that were in force at a sample. -/
def cfgAt (l : LaneSt) (c : List Word) (i : Nat) : List Word :=
  match l.cfgs.find? (fun x => decide (x.1 ≤ i)) with
  | some x => x.2
  | none => c
/-- Each trace's restart generation at a sample. -/
def tgenAt (l : LaneSt) (i : Nat) : List Nat :=
  [0, 1, 2, 3].map (fun t => nth 0 l.tgen t - (l.cuts.filter (fun x => x.1 == t && decide (i < x.2))).length)
/-- The frames whose first sample arrives in this beat: `old` samples before it, `n` in it. A PFB span takes 0 for what
precedes both its anchor and the path's last switch (R172). -/
def newFlights (l : LaneSt) (cfg : List Word) (cplx : Bool) (win : List Word → List Int) (beat old n : Nat) : Nat → Nat → List Flight
  | 0, _ => []
  | fuel + 1, at_ =>
    if old + n ≤ at_ then []
    else
      let f := lcFft cfg
      let i := keySample l f at_
      let c := cfgAt l cfg i
      let first : Int := (at_ : Int) + fftN f - fftM f - old
      let q : Int := first / (max 1 n : Nat)
      let off : Int := first % (max 1 n : Nat)
      ⟨at_, l.gen, tgenAt l i, c, cplx, win c, (beat + q).toNat, (off * 2 ^ 24 / (max 1 n : Nat)).toNat,
        if fftPfb f = 0 then 0 else min l.anchorAt l.switchAt⟩ ::
        newFlights l cfg cplx win beat old n fuel (at_ + fftH f)

-- Rank filter (R184)
/-- Insertion sort of signed numbers. -/
def insZ (x : Int) : List Int → List Int
  | [] => [x]
  | a :: t => if x ≤ a then x :: a :: t else a :: insZ x t
def sortZ (l : List Int) : List Int := l.foldr insZ []
/-- The lower middle of a window. -/
def median (w : List Int) : Int := nth 0 (sortZ w) ((w.length - 1) / 2)
/-- Bin i's median over bins, and the bin that supplies it: the nearest holder, the lower of two. -/
def rankBins (lg : List Int) (h i : Nat) : Int × Nat :=
  let lo := i - h
  let hi := min (lg.length - 1) (i + h)
  let m := median ((lg.drop lo).take (hi + 1 - lo))
  match (List.range (h + 1)).find? (fun d => (d ≤ i && decide (nth 0 lg (i - d) = m)) ||
      (decide (i + d < lg.length) && decide (nth 0 lg (i + d) = m))) with
  | some d => (m, if d ≤ i ∧ nth 0 lg (i - d) = m then i - d else i + d)
  | none => (m, i)
/-- Over frames: the column of bin i, newest first, and the index of the frame that supplies the median. -/
def rankFrames (col : List Int) : Int × Nat :=
  let m := median col
  match (List.range col.length).find? (fun d => decide (nth 0 col d = m)) with
  | some d => (m, d)
  | none => (m, 0)
/-- The RFI mask of a frame, and the LOG and power word that replaces each bin. -/
def rankFrame (c : List Word) (hist : List (List Int × List Nat)) (lg : List Int) (pw : List Nat) : List (Bool × Int × Nat) :=
  let r := lcRank c
  let w := fld r 4 0
  let thr : Int := 16 * fld r 23 16
  (List.range lg.length).map (fun i =>
    let l := nth 0 lg i
    if !bit (lcCtrl c) 1 then (false, l, nth 0 pw i)
    else if !bit r 8 then
      let m := rankBins lg (w / 2) i
      (decide (l ≠ -32768 ∧ thr < l - m.1), nth 0 lg m.2, nth 0 pw m.2)
    else
      let fr := (lg, pw) :: hist.take (w - 1)
      let m := rankFrames (fr.map (fun f => nth 0 f.1 i))
      let src := nth (lg, pw) fr m.2
      (decide (l ≠ -32768 ∧ thr < l - m.1), nth 0 src.1 i, nth 0 src.2 i))

-- Traces (R181–R183)
def trMode (w : Word) : Nat := fld w 31 28
/-- Exponential averaging; POW and LOG deliver the frame itself, so EXP has no effect there (log 89). -/
def trExp (w : Word) : Bool := bit w 27 && !decide (trMode w ∈ [1, 2])
def trHold (w : Word) : Bool := bit w 21
def trK (w : Word) : Nat := fld w 15 0 + 1
def trLog (w : Word) : Bool := trMode w == 2 || trMode w == 4 || trMode w == 6 || trMode w == 7
/-- Combine per bin. -/
def zipW (f : Int → Int → Int) : List Int → List Int → List Int
  | a :: t, b :: u => f a b :: zipW f t u
  | _, _ => []
def orBools : List Bool → List Bool → List Bool
  | a :: t, b :: u => (a || b) :: orBools t u
  | [], u => u
  | t, [] => t
/-- One frame enters a trace. -/
def traceTake (x : TraceSt) (v : List Int) : List Int × Nat :=
  let w := x.cfg
  if !x.live then (v, 0)
  else if trExp w then
    let a := fld w 26 22
    (zipW (fun y z => y * 2 ^ a + z * 2 ^ x.sh - y) x.acc v, x.sh + a)
  else
    match trMode w with
    | 6 => (zipW max x.acc v, 0)
    | 7 => (zipW min x.acc v, 0)
    | 3 | 4 | 5 => (zipW (· + ·) x.acc v, 0)
    | _ => (v, 0)
/-- The words a trace emits. -/
def traceWords (x : TraceSt) : List Nat :=
  let w := x.cfg
  let n := max 1 x.n
  x.acc.map (fun y =>
    match trMode w with
    | 4 => lowBits 16 (if trExp w then rhu y x.sh else rdiv y n)
    | 2 | 6 | 7 => lowBits 16 y
    | 5 => if trExp w then rootWord y.toNat (2 ^ x.sh) else rootWord y.toNat n
    | 3 => if trExp w then powWord y.toNat (2 ^ x.sh) else powWord y.toNat n
    | _ => powWord y.toNat 1)
/-- After an output: the block is open again, and a kept value stays. -/
def traceNext (x : TraceSt) : TraceSt :=
  let keep := trExp x.cfg || trHold x.cfg
  { x with n := 0, flags := 0, rfi := [], live := keep, acc := (if keep then x.acc else []), sh := (if keep then x.sh else 0) }

-- Consumers of one output (R185–R190): its words, whether they are LOG words, the excised bins, flags and numbers
structure SrcOut where
  words : List Nat
  log : Bool
  rfi : List Bool
  flags : Nat
  frames : Nat
  beat : Nat
  posBeat : Nat
  posOff : Nat
  first : Nat                    -- the earliest beat whose data it holds
  pw : List Nat                  -- a frame's power words
deriving DecidableEq, Repr
def outLog (o : SrcOut) : List Int := o.words.map (fun w => if o.log then sext 16 w else logWord w)
/-- Peak candidates and entries (R186, R187). -/
def peakLevel (c : List Word) (o : SrcOut) (lg : List Int) (i : Int) : Int × Bool :=
  let r := lcPkRange c
  if i < fld r 15 0 ∨ fld r 31 16 < i ∨ (bit (lcCtrl c) 9 ∧ nth false o.rfi i.toNat) then (-32768, true) else (nth 0 lg i.toNat, false)
def peakEntry (c : List Word) (o : SrcOut) (lg : List Int) (i : Nat) : Nat :=
  let l := nth 0 lg i
  let a := peakLevel c o lg ((i : Int) - 1)
  let b := peakLevel c o lg ((i : Int) + 1)
  let edge := a.2 || b.2
  let den := 2 * (a.1 - 2 * l + b.1)
  let num := 256 * (a.1 - b.1)
  let d : Int := if edge ∨ den = 0 then 0
    else clampI (-128) 127 (if den < 0 then rdiv (-num) den.natAbs else rdiv num den.natAbs)
  i + lowBits 16 l * 2 ^ 16 + lowBits 8 d * 2 ^ 32 + (if edge then 2 ^ 40 else 0)
def isPeak (c : List Word) (o : SrcOut) (lg : List Int) (i : Nat) : Bool :=
  let l := peakLevel c o lg i
  !l.2 && decide (sext 16 (fld (lcPeak c) 31 16) ≤ l.1 ∧ (peakLevel c o lg ((i : Int) - 1)).1 < l.1 ∧ (peakLevel c o lg ((i : Int) + 1)).1 ≤ l.1)
/-- Candidates in descending level, equal levels by ascending bin. -/
def insPeak (lg : List Int) (i : Nat) : List Nat → List Nat
  | [] => [i]
  | a :: t => if nth 0 lg i ≥ nth 0 lg a then i :: a :: t else a :: insPeak lg i t
/-- Bin merge (R188), over a frame's power words or a trace's. Columns of a LOG trace are not laid down: free values
(log 21). -/
def mergeCol (mean log : Bool) (w : List Nat) : Nat :=
  if log then Config.mergeLog mean w % 2 ^ 32
  else if mean then powWord ((w.map powVal).foldr (· + ·) 0) w.length
  else w.foldr (fun a b => if powVal b ≤ powVal a then a else b) 0
def mergeCols (c : List Word) (o : SrcOut) : List Nat :=
  let m := lcMerge c
  let g := fld m 22 16
  let ws := if o.pw = [] then o.words else o.pw
  (List.range (fld m 10 0)).map (fun i =>
    mergeCol (bit m 24) (o.log && o.pw == []) ((ws.drop (fld (lcMRange c) 15 0 + i * g)).take g))
/-- The limit of a mask at bin i in 1/64 dB, when the mask tests it (R189). -/
def maskLimit : List (Nat × Int) → Nat → Option Int
  | (k, l) :: (k', l') :: t, i =>
    if i = k then some l
    else if k < i ∧ i ≤ k' then some (l + rdiv ((l' - l) * (i - k : Nat)) (k' - k))
    else maskLimit ((k', l') :: t) i
  | [(k, l)], i => if i = k then some l else none
  | [], _ => none
/-- The excess of a bin over (upper) or under (lower) the mask in 1/128 dB; positive violates. LOG_ZERO is below every
limit. -/
def maskExcess (dir : Nat) (lim l : Int) : Int :=
  if l = -32768 then (if dir = 0 then -65536 else max 1 (2 * lim - l)) else if dir = 0 then l - 2 * lim else 2 * lim - l
/-- The version of mask `m` for a spectrum whose first input sample lies in beat `b` (R239). -/
def maskOf (s : State) (m : Nat) : Mask := Sparse.get (fun _ => {}) s.masks m
def maskAt (s : State) (m b : Nat) : Nat × List (Nat × Int) :=
  let x := maskOf s m
  if x.fromBeat ≤ b then (x.dir, x.verts) else (x.oldDir, x.old)
def maskTest (s : State) (c : List Word) (k j slot : Nat) (o : SrcOut) (ready : Nat) : MaskRes :=
  let mk := maskAt s (fld (lcMask c) (8 * slot + 5) (8 * slot)) o.posBeat
  let lg := outLog o
  let ex := (List.range lg.length).filterMap (fun i =>
    if bit (lcCtrl c) 11 ∧ nth false o.rfi i then none
    else match maskLimit mk.2 i with
      | some l => let e := maskExcess mk.1 l (nth 0 lg i); if 0 < e then some (i, e) else none
      | none => none)
  ⟨ready, k, j, slot, !ex.isEmpty, ex.length, (match ex.head? with | some p => p.1 | none => 0),
    (ex.map (fun (p : Nat × Int) => p.2)).foldr max 0, o.beat, o.posBeat, o.posOff, o.flags % F_END⟩

def putProd (s : State) (p : Product) : State := { s with prods := s.prods ++ [p] }
/-- Every consumer that takes this source examines the output. -/
def consume (s : State) (c : List Word) (k j src : Nat) (o : SrcOut) (ready : Nat) : State :=
  let lg := outLog o
  let s := if bit (lcCtrl c) 3 ∧ fld (lcPeak c) 14 12 = src then
      let r := lcPkRange c
      let cand := (List.range (fld r 31 16 + 1 - fld r 15 0)).filterMap (fun d =>
        let i := fld r 15 0 + d
        if isPeak c o lg i then some i else none)
      let best := (cand.foldr (fun i l => insPeak lg i l) []).take (fld (lcPeak c) 6 0)
      putProd s ⟨ready, k, j, 6, o.beat, o.frames, o.flags, true, best.map (fun i => peakEntry c o lg i), best.length, false, o.first,
        cand.length⟩
    else s
  let s := if bit (lcCtrl c) 2 ∧ fld (lcMerge c) 30 28 = src then
      let v := mergeCols c o
      putProd s ⟨ready, k, j, 7, o.beat, o.frames, o.flags, false, v, v.length, false, o.first, 0⟩
    else s
  forEach [0, 1] s (fun slot s =>
    if bit (lcMask c) (8 * slot + 7) ∧ fld (lcMask c) 18 16 = src then
      { s with maskRes := s.maskRes ++ [maskTest s c k j slot o ready] }
    else s)
/-- The results of the outputs of a lane, of one slot or of both for each output (R190). -/
def maskOutputs : List MaskRes → List (List MaskRes)
  | [] => []
  | [r] => [[r]]
  | a :: b :: t => if a.slot = 0 ∧ b.slot = 1 ∧ a.beat = b.beat ∧ a.posBeat = b.posBeat ∧ a.posOff = b.posOff then [a, b] :: maskOutputs t else [a] :: maskOutputs (b :: t)
/-- An output is tested: SLC_LMSKSTAT shows its results, its lowest violating bin only when a slot is violated, and it counts
once when either slot is (R190). -/
def maskShow (s : State) (k j : Nat) (l : List MaskRes) : State :=
  let s := s.setF (SLC_LMSKSTAT k j) 1 0 (bitsSet ((l.filter (fun r => r.viol)).map (fun r => r.slot)))
  match l.filter (fun r => r.viol) with
  | [] => s
  | r :: t => (s.addR (SLC_LMSKCNT k j) 1).setF (SLC_LMSKSTAT k j) 31 16 (t.foldr (fun r a => min r.lowest a) r.lowest)

/-- A trace's block is emitted. -/
def traceEmit (s : State) (k j : Nat) (x : TraceSt) (ending : Bool) (ready : Nat) : State :=
  let w := traceWords x
  let fl := x.flags ||| (if ending then F_END else 0)
  let s := putProd s ⟨ready, k, j, 2 + x.t, x.lastBeat, x.n, fl, trLog x.cfg, w, w.length, trMode x.cfg == 5, x.first, 0⟩
  consume s x.lane k j (1 + x.t) ⟨w, trLog x.cfg, x.rfi, fl, x.n, x.lastBeat, x.posBeat, x.posOff, x.first, []⟩ ready

/-- The trace state that a frame belongs to. -/
def findTrace (l : List TraceSt) (t gen : Nat) (w : Word) : TraceSt :=
  match l.find? (fun x => x.t == t && x.gen == gen) with
  | some x => x
  | none => { t := t, gen := gen, cfg := w }
def putTrace (l : List TraceSt) (x : TraceSt) : List TraceSt :=
  x :: l.filter (fun y => !(y.t == x.t && y.gen == x.gen))
def laneKey (k j : Nat) : Nat := 2 * k + j
/-- No frame in flight or still to come belongs to restart `gen` of trace `t` (R183). -/
def blockOver (l : LaneSt) (t gen : Nat) : Bool :=
  let c := match l.cfgs.head? with | some x => x.2 | none => []
  (!l.on || decide (gen < nth 0 (tgenAt l (keySample l (lcFft c) l.nextAt)) t)) && l.flights.all (fun f => nth 0 f.tgen t != gen)
/-- A frame reaches trace `t`; the output that the last frame of an earlier restart fills carries END. -/
def traceFrame (s : State) (k j t : Nat) (f : Flight) (pw : List Nat) (lg : List Int) (rfi : List Bool) (flags beat : Nat) : State :=
  let w := lcTrace f.cfg t
  if trMode w = 0 then s
  else
    let l := s.lane (laneKey k j)
    let x := findTrace l.traces t (nth 0 f.tgen t) w
    let v := if trLog w then lg else pw.map (fun p => (powVal p : Int))
    let r := traceTake x v
    let x := { x with n := x.n + 1, first := (if x.n = 0 then f.posBeat else x.first), acc := r.1, sh := r.2, live := true, flags := x.flags ||| flags,
                      rfi := orBools x.rfi rfi, lastBeat := beat, lane := f.cfg, posBeat := f.posBeat, posOff := f.posOff }
    let full := decide (trK w ≤ x.n)
    let s := s.setLane (laneKey k j) { l with traces := putTrace l.traces (if full then traceNext x else x) }
    if full then traceEmit s k j x (blockOver l t x.gen) (beat + 3) else s
/-- Blocks of an earlier restart that no frame in flight or still to come belongs to are closed with END (R183), ready at
the normal latency, but not before boundary `soon`. -/
def closeBlocks (s : State) (k j soon : Nat) : State :=
  let l := s.lane (laneKey k j)
  let dead (x : TraceSt) : Bool := blockOver l x.t x.gen
  let s := s.setLane (laneKey k j) { l with traces := l.traces.filter (fun x => !dead x) }
  forEach (l.traces.filter (fun x => dead x && decide (0 < x.n))) s (fun x s =>
    traceEmit s k j x true (max (min (x.lastBeat + 3) (s.beat + 3)) soon))

/-- One complete frame through steps 1–7 (R170). -/
def frameDone (s : State) (k j : Nat) (f : Flight) : State :=
  let l := s.lane (laneKey k j)
  let w := lcFft f.cfg
  let e : Int := f.start + fftN w
  let b : Int := e - fftM w
  let smp := laneSamples l f.zero b e
  let bins := (List.range (binsOf w f.cplx)).map (fun i => clipBin (dftBin f.cplx (fftN w) (fftBin w f.cplx i) f.win smp))
  let clipped := bins.any (fun x => x.2)
  let pw := bins.map (fun x => binPower x.1)
  let lg := pw.map logWord
  let hist := Sparse.get (fun _ => []) l.hists f.gen
  let rk := rankFrame f.cfg hist lg pw
  let rfi := rk.map (fun x => x.1)
  let nrfi := (rfi.filter (fun x => x)).length
  let flags := laneFlags l b e ||| (if clipped then F_SAT else 0) ||| (if nrfi = 0 then 0 else F_RFI)
  let beat := s.beat
  let s := s.setLane (laneKey k j) { l with
    hists := Sparse.set (fun _ => []) (l.hists.filter (fun x => x.1 == l.gen || l.flights.any (fun g => g.gen == x.1))) f.gen
      (((lg, pw) :: hist).take 15) }
  let s := if clipped then s.setB (SLC_STAT k) 8 true else s
  let ap := fld (lcCtrl f.cfg) 12 8
  let s := { s with specs := s.specs ++ [⟨beat + 3, 2 * k + j, beat, flags, pw, lg, rfi, ap, f.cplx,
    bins.map (fun x => x.1), f.posBeat, f.posOff⟩] }
  let s := if bit (lcCtrl f.cfg) 1 then
      putProd s ⟨beat + 3, k, j, 8, beat, 1, flags, false,
        (List.range ((rfi.length + 7) / 8)).map (fun n => bitsSet ((List.range 8).filter (fun i => nth false rfi (8 * n + i)))), rfi.length, false, f.posBeat, 0⟩
    else s
  let exc := ap.testBit 0
  let pwt := if exc then rk.map (fun x => if x.1 then x.2.2 else 0) else pw
  let pwt := if exc then (List.range pw.length).map (fun i => if nth false rfi i then nth 0 pwt i else nth 0 pw i) else pw
  let lgt := if exc then (List.range lg.length).map (fun i =>
    let r := nth (false, (0 : Int), 0) rk i
    if r.1 then r.2.1 else nth 0 lg i) else lg
  let s := forEach [0, 1, 2, 3] s (fun t s => traceFrame s k j t f pwt lgt rfi flags beat)
  consume s f.cfg k j 0 ⟨lg.map (lowBits 16), true, rfi, flags, 1, beat, f.posBeat, f.posOff, f.posBeat, pw⟩ (beat + 3)

/-- A frame is complete: it is no longer in flight. -/
def flightEnd (s : State) (k j : Nat) (f : Flight) : State :=
  let l := s.lane (laneKey k j)
  s.setLane (laneKey k j) { l with flights := l.flights.filter (fun g => g.start != f.start || g.gen != f.gen) }
/-- The path words of the beat that ends enter a lane: frames begin, and those that are complete are transformed. -/
def laneBeat (s : State) (k j : Nat) : State :=
  let l := s.lane (laneKey k j)
  let p := s.path (2 * k + j)
  if !l.on ∨ p.out = [] then s
  else
    let c := laneCfg s k j
    let n := p.out.length
    let news := newFlights l c (cfNco (pathCfg s (2 * k + j))) (fun c => laneWindow s k (lcFft c)) s.beat l.total n (n + 1) l.nextAt
    let buf := (l.buf ++ p.out)
    let l := { l with
      buf := buf.drop (buf.length - 2 ^ 21), total := l.total + n, flights := l.flights ++ news,
      bflags := (l.bflags ++ [(l.total, n, p.outFlags)]).filter (fun x => decide (l.total + n < x.1 + x.2.1 + 2 ^ 21)),
      nextAt := l.nextAt + news.length * fftH (lcFft c), cuts := l.cuts.filter (fun x => decide (l.total < x.2 + 2 ^ 21)) }
    let done (f : Flight) : Bool := decide (f.start + fftN (lcFft f.cfg) ≤ l.total)
    let s := s.setLane (laneKey k j) l
    let s := forEach (l.flights.filter done) s (fun f s => frameDone (flightEnd s k j f) k j f)
    closeBlocks s k j (s.beat + 1)
/-- A slice's work on the beat that ends: a clip in either lane counts once for the beat (R178). -/
def sliceBeat (s : State) (k : Nat) : State :=
  let was := s.rb (SLC_STAT k) 8
  let s := s.setB (SLC_STAT k) 8 false
  let s := laneBeat (laneBeat s k 0) k 1
  if s.rb (SLC_STAT k) 8 then s.addR (SLC_SATCNT k) 1 else s.setB (SLC_STAT k) 8 was

/-- END on the newest output of each kind that a lane still holds back (R54, R518). -/
def endNewest {α : Type} (p : α → Bool) (f : α → α) : List α → List α
  | [] => []
  | a :: t => if p a && !t.any p then f a :: t else a :: endNewest p f t
def markEnd (s : State) (k j : Nat) : State :=
  let s := { s with specs := endNewest (fun x => x.path == 2 * k + j) (fun x => { x with flags := x.flags ||| F_END }) s.specs }
  { s with prods := [0, 1, 2, 3, 4, 5, 6, 7, 8].foldr (fun c l =>
      endNewest (fun x => x.slice == k && x.lane == j && x.product == c) (fun x => { x with flags := x.flags ||| F_END }) l) s.prods }

/-- What the registers of a lane report of the settings in force (R174, R177, R194). -/
def laneInfo (s : State) (k j : Nat) : State :=
  let c := laneNext s k j
  let f := lcFft c
  let cplx := cfNco (pathNext s (2 * k + j))
  let w := laneWindow s k f
  let s := s.wr (SLC_LBINS k j) (w32 ((if cplx then 2 ^ 31 else 0) + binsOf f cplx))
  let s := s.wr (SLC_LPOI k j) (w32 (cdiv (kappa w * fftM f) 1024 + fftH f - 1))
  s.wr (SLC_LWINFO k j) (w32 (winInfo w))
/-- The settings that change at this boundary take effect on the lanes of slice `k` (R54, R172, R183). -/
def laneOnNext (s : State) (k j : Nat) : Bool :=
  lcEn (laneNext s k j) && (s.path (2 * k + j)).run && (s.layoutDense || j == 0)
def anchorMoves (s : State) (k : Nat) : Bool :=
  [0, 1].any (fun j => decide (frameKey (lcFft (laneCfg s k j)) ≠ frameKey (lcFft (laneNext s k j))) ||
    cfD (pathCfg s (2 * k + j)) != cfD (pathNext s (2 * k + j)))
/-- A GAP_OK commit changes the frames at this boundary: of the slice, or of a path of it (R54). -/
def gapHere (s : State) (k : Nat) : Bool := [32 + k, 2 * k, 2 * k + 1].any s.gapNow.contains
/-- A lane leaves its run: old frames are dropped, its last outputs carry END. -/
def laneStop (s : State) (k j : Nat) : State :=
  let s := s.setLane (laneKey k j) { s.lane (laneKey k j) with on := false, flights := [], hists := [] }
  let s := markEnd (closeBlocks s k j s.beat) k j
  let s := s.setLane (laneKey k j) {}
  ((s.setB (SLC_LWINFO k j) 31 false).setB (SLC_STAT k) j false).setB (SLC_STAT k) (4 + j) false
def laneEnter (s : State) (k j : Nat) (move : Bool) : State :=
  let l := s.lane (laneKey k j)
  let c := laneNext s k j
  let old := laneCfg s k j
  let due := Sparse.get (fun _ => 0) s.traceClr (32 + laneKey k j)
  if !laneOnNext s k j then (if l.on then laneStop s k j else s)
  else
    let first := !l.on
    let sw := (s.path (2 * k + j)).fir = []
    let mv := first || move
    let gap := mv && !first && gapHere s k
    let cut := [0, 1, 2, 3].filter (fun t => mv || lcTrace old t != lcTrace c t || due.testBit t)
    let tgen := [0, 1, 2, 3].map (fun t => nth 0 l.tgen t + (if cut.contains t then 1 else 0))
    let cfgs := (l.total, c) :: l.cfgs.filter (fun x => x.1 != l.total)
    let l' : LaneSt := if first then { on := true, anchor := s.beat, cfgs := [(0, c)] }
      else { l with
        anchor := (if mv then s.beat else l.anchor), anchorAt := (if mv then l.total else l.anchorAt),
        gen := l.gen + (if mv then 1 else 0), tgen := tgen, nextAt := (if mv then l.total else l.nextAt),
        switchAt := (if sw then l.total else l.switchAt), cfgs := (if c = old then l.cfgs else cfgs).take 32,
        cuts := cut.map (fun t => (t, l.total)) ++ l.cuts, flights := (if gap then [] else l.flights) }
    let s := s.setLane (laneKey k j) l'
    let s := if mv then s.wr64 (SLC_ANCHOR_LO k) s.beat else s
    let s := s.setB (SLC_STAT k) j true
    let s := s.setB (SLC_STAT k) (4 + j) (l'.flights.any (fun f => f.gen != l'.gen))
    let s := closeBlocks s k j s.beat
    let s := if gap then markEnd s k j else s
    if first || decide (c ≠ old) || cfNco (pathCfg s (2 * k + j)) != cfNco (pathNext s (2 * k + j)) then laneInfo s k j else s
/-- The restarts that TRACE_CLEAR asked for have been taken. -/
def tracesTaken (s : State) : State := { s with traceClr := s.traceClr.filter (fun x => decide (x.1 < 32)) }

-- Readiness (R191–R193)
def wordsAt (s : State) (key : Nat) : List Nat → State
  | [] => s
  | w :: t => wordsAt (s.slcWrite key (w32 w)) (key + 4) t
/-- Bytes as little-endian words. -/
def packWords : List Nat → List Nat
  | a :: b :: c :: d :: t => (a + 256 * b + 65536 * c + 16777216 * d) :: packWords t
  | [] => []
  | l => [l.foldr (fun x y => x + 256 * y) 0]
/-- Slot, place and words of a product in slice SRAM (R192): none for the per-frame spectra. -/
def sramSlot (p : Product) (β : Nat) : Option (Nat × Nat × List Nat) :=
  if 2 ≤ p.product ∧ p.product ≤ 5 then
    some (p.product - 2, 0x080000 + 0x200000 * p.lane + 0x80000 * (p.product - 2) + 0x40000 * β,
      p.values.map (fun v => if p.log then (i32 (sext 16 v)).toNat else v))
  else if p.product = 6 then
    some (4, 0x480000 + 0x400 * (2 * p.lane + β), p.values.flatMap (fun v => [v % 2 ^ 32, v / 2 ^ 32]))
  else if p.product = 8 then some (5, 0x490000 + 0x2000 * (2 * p.lane + β), packWords p.values)
  else if p.product = 7 then some (6, 0x4A0000 + 0x1000 * (2 * p.lane + β), p.values)
  else none
def descKey (k j slot β : Nat) : Nat := slcKey k (0x4B0000 + 0x20 * (16 * j + 2 * slot + β))
/-- Every buffer of parity β starts the boundary without an output. -/
def clearDescs (s : State) (k β : Nat) : State :=
  forEach [0, 1] s (fun j s => forEach [0, 1, 2, 3, 4, 5, 6] s (fun t s => s.slcWrite (descKey k j t β + 20) 0))
def sramPut (s : State) (p : Product) (β : Nat) : State :=
  match sramSlot p β with
  | none => s
  | some (slot, off, ws) =>
    let s := wordsAt s (slcKey p.slice off) ws
    wordsAt s (descKey p.slice p.lane slot β) [p.beat % 2 ^ 32, p.beat / 2 ^ 32, p.frames, p.flags, p.count, 1]
def laneOfPath (p : Nat) : Nat × Nat := (p / 2, p % 2)
def causeBit (p : Product) : Option Nat :=
  if 2 ≤ p.product ∧ p.product ≤ 5 then some (4 * p.lane + (p.product - 2))
  else if p.product = 6 then some (8 + p.lane) else none
/-- The outputs of slice `k` that become ready at the present boundary. What was found in them (flagged bins, candidates,
violations) counts and shows then, as the spectra do (R184, R186, R190; log 97). -/
def sliceReady (s : State) (k : Nat) : State :=
  let now := s.beat
  let β := now % 2
  let ps := s.prods.filter (fun p => p.readyAt == now && p.slice == k)
  let mr := s.maskRes.filter (fun r => r.readyAt == now && r.slice == k)
  let causes := ps.filterMap causeBit ++ (mr.filter (fun r => r.viol)).map (fun r => 12 + r.lane)
  let s := forEach ps (clearDescs s k β) (fun p s => sramPut s p β)
  let s := forEach [0, 1] s (fun j s =>
    let sp := s.specs.filter (fun x => x.readyAt == now && x.path == 2 * k + j)
    let n := sp.length
    let nrfi := ((sp.map (fun x => (x.rfi.filter (fun f => f)).length)).foldr (· + ·) 0) % 2 ^ 17
    let s := (s.wr (SLC_LRFICNT k j) (w32 nrfi)).addR (SLC_LRFITOT k j) nrfi
    let s := forEach (maskOutputs (mr.filter (fun r => r.lane == j))) s (fun l s => maskShow s k j l)
    let s := forEach (ps.filter (fun p => p.product == 6 && p.lane == j)) s (fun p s => s.wr (SLC_LPKCNT k j) (w32 (p.cands % 2 ^ 17)))
    if n = 0 then s
    else
      let last := match s.specs.find? (fun x => x.readyAt == now && x.path == 2 * k + j) with | some x => x.beat | none => now - 3
      let s := s.wr64 (SLC_LLAST_LO k j) last
      fire (s.wr64 (SLC_LSPECCNT_LO k j) ((s.rd64 (SLC_LSPECCNT_LO k j) + n) % 2 ^ 64)) (256 + 2 * k + j))
  let s := s.orR (SLC_EVTSTAT k) (bitsSet causes)
  vectorIf s (causes.any (fun b => s.rb (SLC_IRQEN k) b)) (256 + k)
def presentSlices (s : State) : List Nat := (List.range 16).filter (slicePresent s)

-- Rows
/-- TRACE_RESTART: at the coming boundary the named traces of a TRACE_CLEAR restart (R183, R197); the row comes just before
that boundary (log 8). -/
def execTraceRestart (slice : Nat) (lane : Nat) (traces : Nat) (s : State) : Res :=
  let key := laneKey slice lane
  let get := fun (k : Nat) => Sparse.get (fun _ => 0) s.traceClr k
  let put := fun (l : List (Nat × Nat)) (k v : Nat) => Sparse.set (fun _ => 0) l k v
  let due := get key &&& traces
  .next (if due = 0 ∨ 16 ≤ slice ∨ 2 ≤ lane then s
    else { s with traceClr := put (put s.traceClr key (get key ^^^ due)) (32 + key) (get (32 + key) ||| due) })

def laneParams (p : List Byte) : Nat × Nat := (u16 p 0, u8 p 2)
def execSlcConfig (q : Req) (s : State) : Res :=
  let p := q.params
  let k := u16 p 0
  .next (command s 0x0400 q (p.length == 52)
    [(decide (k < 16) && !slicePresent s k, ST_UNIT_ABSENT),
     (decide (16 ≤ k) || decide (2 ≤ u8 p 2) || !zeroAt p 3 1 || reservedSet p 4 laneRegMasks, ST_BAD_PARAM),
     (groupLocked s (32 + k), ST_BUSY)]
    (reply (writeRegs s p 4 (laneRegs k (u8 p 2))) 0x0400 q ST_OK []))

/-- The bank is in use (R196): selected in the state in force, in a pending ticket's shadows, or by a frame in flight. -/
def bankSel (f : Word) (b : Nat) : Bool := fftWin f == 5 && fftBank f == b
def winBankInUse (s : State) (k b : Nat) : Bool :=
  [0, 1].any (fun j =>
    bankSel (s.rdA (SLC_LFFT k j)) b || (groupLocked s (32 + k) && bankSel (s.rd (SLC_LFFT k j)) b) ||
    (s.lane (laneKey k j)).flights.any (fun f => bankSel (lcFft f.cfg) b))
def winInfoReg (k b : Nat) : Nat := if b = 0 then SLC_WININFO_A k else SLC_WININFO_B k
def winLoad (s : State) (k b : Nat) : Option WinLoad := Sparse.get (fun _ => none) s.winLoads (2 * k + b)
def setWinLoad (s : State) (k b : Nat) (x : Option WinLoad) : State :=
  { s with winLoads := Sparse.set (fun _ => none) s.winLoads (2 * k + b) x }
def winCovered (w : List (Nat × Nat)) (i : Nat) : Bool := w.any (fun r => decide (r.1 ≤ i ∧ i < r.1 + r.2))
def winCoeffBad (p : List Byte) (n : Nat) : Bool :=
  (List.range n).any (fun i => let v := sext 32 (u32 p (16 + 4 * i)); decide (v < -131072 ∨ 131071 < v))
def winWrite (s : State) (k b : Nat) (p : List Byte) : State :=
  let start := u32 p 8
  forEach (List.range (u16 p 12)) s (fun i s => s.slcWrite (slcKey k (0x40000 * b + 4 * (start + i))) (w32 (u32 p (16 + 4 * i))))
/-- The bank after this part is complete and Σw > 0. -/
def winFinish (s : State) (k b llog : Nat) (w : List (Nat × Nat)) : Bool :=
  (List.range (2 ^ llog)).all (winCovered w) && decide (0 < sumL (bankWords s k b (2 ^ llog)))
/-- The indices written once this part is in. -/
def winWritten (s : State) (p : List Byte) : List (Nat × Nat) :=
  let w0 := if (u8 p 3).testBit 0 then [] else match winLoad s (u16 p 0) (u8 p 2) with | some w => w.written | none => []
  if u16 p 12 = 0 then w0 else (u32 p 8, u16 p 12) :: w0
/-- LAST with an unwritten index, or with Σw ≤ 0. -/
def winLastBad (s : State) (p : List Byte) : Bool :=
  (u8 p 3).testBit 1 && !winFinish (winWrite s (u16 p 0) (u8 p 2) p) (u16 p 0) (u8 p 2) (u8 p 4) (winWritten s p)
def winPartBad (s : State) (p : List Byte) : Bool :=
  let k := u16 p 0
  let b := u8 p 2
  decide (16 ≤ k ∨ 2 ≤ b ∨ 4 ≤ u8 p 3 ∨ u8 p 4 < 9 ∨ 16 < u8 p 4) || !zeroAt p 5 3 || !zeroAt p 14 2 ||
  decide (2 ^ u8 p 4 < u32 p 8 + u16 p 12 ∨ 1014 < u16 p 12) || winCoeffBad p (u16 p 12) ||
  (!(u8 p 3).testBit 0 && (match winLoad s k b with | some w => w.llog != u8 p 4 | none => false))
def windowLater (s : State) (q : Req) : List (Bool × Nat) :=
  let p := q.params
  let k := u16 p 0
  let b := u8 p 2
  let first := (u8 p 3).testBit 0
  [(!first && (winLoad s k b).isNone, ST_STATE),
   ((match winLoad s k b with | some w => !sameSource ⟨w.src, w.session, 0, 0, []⟩ q | none => false), ST_BUSY),
   (first && winBankInUse s k b, ST_IN_USE)]
def windowChecks (s : State) (q : Req) : List (Bool × Nat) :=
  let k := u16 q.params 0
  [(decide (k < 16) && !slicePresent s k, ST_UNIT_ABSENT), (winPartBad s q.params || winLastBad s q.params, ST_BAD_PARAM)] ++
  windowLater s q
def windowLoad (s : State) (q : Req) : State :=
  let p := q.params
  let k := u16 p 0
  let b := u8 p 2
  let s1 := winWrite s k b p
  if (u8 p 3).testBit 1 then
    let s1 := (setWinLoad s1 k b none).wr (winInfoReg k b) (w32 (winInfo (bankWords s1 k b (2 ^ u8 p 4))))
    reply s1 0x0401 q ST_OK (bw (s1.rd (winInfoReg k b)))
  else
    let s1 := (setWinLoad s1 k b (some ⟨q.src, q.session, u8 p 4, winWritten s p⟩)).wr (winInfoReg k b) (w32 (2 ^ 30 + u8 p 4 * 2 ^ 25))
    reply s1 0x0401 q ST_OK (bw (s1.rd (winInfoReg k b)))
/-- A refused part writes nothing; but a part with FIRST and LAST that only LAST's check refuses leaves its bank not VALID
(R196; log 89). -/
def winInvalid (s : State) (q : Req) : State :=
  let p := q.params
  let k := u16 p 0
  if (gate s 0x0401 q true).isNone && slicePresent s k && !winPartBad s p && winLastBad s p && (u8 p 3).testBit 0 &&
      (firstFail (windowLater s q)).isNone then
    (setWinLoad s k (u8 p 2) none).setF (winInfoReg k (u8 p 2)) 31 30 0
  else s
def execWindowLoad (q : Req) (s : State) : Res :=
  let ok := decide (16 ≤ q.params.length) && q.params.length == 16 + 4 * u16 q.params 12
  .next (command (if ok then winInvalid s q else s) 0x0401 q ok (windowChecks s q) (windowLoad s q))
/-- A LOADING bank without a part for 1 s is abandoned (R196). -/
def execWindowLoadAbandon (slice : Nat) (bank : Nat) (s : State) : Res :=
  .next (match winLoad s slice bank with
    | some _ => if slice < 16 ∧ bank < 2 then (setWinLoad s slice bank none).setF (winInfoReg slice bank) 31 30 0 else s
    | none => s)

def execTraceClear (q : Req) (s : State) : Res :=
  let p := q.params
  let k := u16 p 0
  let key := laneKey k (u8 p 2)
  .next (command s 0x0402 q (p.length == 4)
    [(decide (k < 16) && !slicePresent s k, ST_UNIT_ABSENT),
     (decide (16 ≤ k ∨ 2 ≤ u8 p 2 ∨ 16 ≤ u8 p 3), ST_BAD_PARAM)]
    (reply { s with traceClr := Sparse.set (fun _ => 0) s.traceClr key (Sparse.get (fun _ => 0) s.traceClr key ||| u8 p 3) }
      0x0402 q ST_OK []))
def execSlcStatus (q : Req) (s : State) : Res :=
  let k := u16 q.params 0
  .next (command s 0x0403 q (q.params.length == 4)
    [(decide (k < 16) && !slicePresent s k, ST_UNIT_ABSENT), (decide (16 ≤ k) || !zeroAt q.params 2 2, ST_BAD_PARAM)]
    (reply s 0x0403 q ST_OK (regsBytes s [SLC_STAT k, SLC_SATCNT k, SLC_ANCHOR_LO k, SLC_ANCHOR_HI k, SLC_LLAST_LO k 0,
      SLC_LLAST_HI k 0, SLC_LLAST_LO k 1, SLC_LLAST_HI k 1, SLC_LRFITOT k 0, SLC_LRFITOT k 1, SLC_LMSKCNT k 0, SLC_LMSKCNT k 1])))

end Sys2Proof.Machine
end

