-- ==== Sys2Proof/Machine/Coder.lean ====
section
/-! DEFINITION. Output Coding and Noviebel Streams (R300–R321): records, parts, codings, staging queues, grouping. -/
namespace Sys2Proof.Machine

-- Stream entries (R311)
def enEn (e : List Byte) : Bool := (u8 e 0).testBit 0
def enIrq (e : List Byte) : Bool := (u8 e 0).testBit 1
def enLaunch (e : List Byte) : Bool := (u8 e 0).testBit 2
def enDith (e : List Byte) : Bool := (u8 e 0).testBit 3
def enType (e : List Byte) : Nat := u8 e 1
def enDest (e : List Byte) : Nat := u8 e 2
def enCoding (e : List Byte) : Nat := u8 e 3
def enSource (e : List Byte) : Nat := u32 e 4
def enSelect (e : List Byte) : Nat := u32 e 8
def enMaxrec (e : List Byte) : Nat := 2 ^ u8 e 12
def enQueue (e : List Byte) : Nat := 2 ^ u8 e 13 * 1024
def enChan (e : List Byte) : Nat := u8 e 14
def enEvery (e : List Byte) : Nat := max 1 (u16 e 16)
/-- The streams in force that are enabled with a record type. -/
def liveStreams (s : State) (ty : Nat) : List Nat :=
  (s.strActive.filter (fun p => enEn p.2 && enType p.2 == ty)).map Prod.fst

-- Records (R300–R303)
structure Header where
  rtype : Nat
  flags : Nat
  coding : Nat
  beat : Nat
  time : Nat
  tf : Nat
  p0 : Nat
  p1 : Nat
deriving DecidableEq, Repr
/-- One record as its bytes, padded to 8 (R300). -/
def recordBytes (s : State) (stream seq part : Nat) (h : Header) (payload : List Byte) : List Byte :=
  b4 0x4E564C52 ++ b1 1 ++ b1 h.rtype ++ b2 stream ++ b4 (s.devIdRec % 2 ^ 20) ++ b4 h.flags ++ leBytes 6 seq ++ b1 h.coding ++
  b1 h.tf ++ b8 h.beat ++ timeBytes h.time ++ b4 payload.length ++
  b4 (if payload = [] then 0 else (crc32c payload).toNat) ++ b4 part ++ b4 h.p0 ++ b4 h.p1 ++
  payload ++ zeros ((8 - payload.length % 8) % 8)

/-- Units packed into parts, each the largest whole number of units within `mx` bytes: offset and bytes (R307). -/
def packParts (mx : Nat) : List (List Byte) → Nat → List Byte → List (Nat × List Byte)
  | [], o, cur => [(o, cur)]
  | u :: t, o, cur =>
    if cur.length + u.length ≤ mx ∨ cur = [] then packParts mx t o (cur ++ u)
    else (o, cur) :: packParts mx t (o + cur.length) u
def pad4 (b : List Byte) : List Byte := b ++ zeros ((4 - b.length % 4) % 4)

def queueFill (t : StreamSt) : Nat := (t.queue.map (fun r => r.bytes.length)).foldr (· + ·) 0
/-- Delivery to this stream's destination has ended for want of a working volume (R327). -/
def volumeOf (e : List Byte) : Nat := u8 e 32
def volBlocked (s : State) (e : List Byte) : Bool :=
  enDest e == 1 && decide ((s.volume (volumeOf e)).state ∈ [3, 4])
/-- A dropped record (R309, R333). -/
def dropRecord (s : State) (n : Nat) : State :=
  let t := s.stream n
  let first := !s.rb OC_STAT 0
  let s := s.setStream n { t with nextSeq := (t.nextSeq + 1) % 2 ^ 48, sealed := t.sealed + 1, dropped := t.dropped + 1, loss := true }
  let s := (s.setB OC_STAT 0 true).addR OC_DROPCNT 1
  if first then report s 128 (n % 65536) else s
/-- The fill of queue `n` has risen: a MOVE in OFF whose FILL threshold it reaches enters ON (R365). -/
def fillRise (s : State) (n : Nat) : State :=
  forEach (s.dma.map Prod.fst) s (fun k s =>
    let d := s.dmaCh k
    match d.mv with
    | some m =>
      if bitsOf d.instr 123 122 = 1 ∧ d.qid = n ∧ !m.on ∧ d.high ≤ queueFill (s.stream n) then
        (s.setDma k { d with mv := some { m with on := true } }).setB (DMA_STAT k) 24 false
      else s
    | none => s)
/-- A sealed record enters the staging queue. -/
def admitRecord (s : State) (n part : Nat) (h : Header) (payload : List Byte) : State :=
  let t := s.stream n
  let h := { h with flags := h.flags ||| (if t.loss then F_LOSS else 0) }
  let b := recordBytes s n t.nextSeq part h payload
  fillRise (s.setStream n { t with
    nextSeq := (t.nextSeq + 1) % 2 ^ 48, sealed := t.sealed + 1, bytes := t.bytes + b.length, lastBeat := h.beat, loss := false,
    queue := t.queue ++ [⟨b, h.beat, s.beat, h.time, timeNow s⟩] }) n
/-- The flags of a part: all but the last carry MORE, and only the last END (R62, R307). -/
def partFlags (f : Nat) (last : Bool) : Nat := if last then f else (if f.testBit 11 then f - F_END else f) ||| F_MORE
/-- Admit or drop the parts of an object, each with its header by offset and bytes; `whole`: all or none (R309). -/
def putParts (s : State) (n : Nat) (e : List Byte) (h : Nat → List Byte → Header) (whole : Bool) : List (Nat × List Byte) → State
  | [] => s
  | (o, b) :: t =>
    let h' := h o b
    let h' := { h' with flags := partFlags h'.flags (t == []) }
    let size := 64 + (b.length + 7) / 8 * 8
    if (!whole && decide (enQueue e < queueFill (s.stream n) + size)) || volBlocked s e then
      forEach ((o, b) :: t) s (fun _ s => dropRecord s n)
    else putParts (admitRecord s n o h' b) n e h whole t
def partsSize (l : List (Nat × List Byte)) : Nat := (l.map (fun p => 64 + (p.2.length + 7) / 8 * 8)).foldr (· + ·) 0
/-- Seal an object's parts for stream `n`: whole or not at all, but for one that lies in HBM (R309). -/
def sealParts (s : State) (n : Nat) (e : List Byte) (h : Nat → List Byte → Header) (hbmObj : Bool) (parts : List (Nat × List Byte)) : State :=
  if !hbmObj && decide (enQueue e < queueFill (s.stream n) + partsSize parts) then forEach parts s (fun _ s => dropRecord s n)
  else putParts s n e h (!hbmObj) parts
/-- Seal an object from its coded units for stream `n` (R307, R309). -/
def sealUnits (s : State) (n : Nat) (e : List Byte) (h : Header) (units : List (List Byte)) (padded hbmObj : Bool) : State :=
  sealParts s n e (fun _ _ => h) hbmObj ((packParts (enMaxrec e) units 0 []).map (fun p => (p.1, if padded then pad4 p.2 else p.2)))

-- Codings (R315–R320)
/-- round_half_up(A·2^−k) for the amplitude A = √(v·2^−119), or A = v·2^−119 for a word that is an amplitude (R316). -/
def bfpMant (amp : Bool) (v : Nat) (k : Int) : Nat :=
  if amp then (let e := 119 + k; if e ≤ 0 then v * 2 ^ (-e).toNat else (rhu v e.toNat).toNat)
  else
    let e := 119 + 2 * k - 2
    let x := if e ≤ 0 then v * 2 ^ (-e).toNat else v / 2 ^ e.toNat
    (isqrt x + 1) / 2
def bfpScale (amp : Bool) (mx b : Nat) : Int :=
  match (List.range 140).find? (fun (i : Nat) => decide (bfpMant amp mx ((i : Int) - 64) ≤ 2 ^ b - 1)) with
  | some i => (i : Int) - 64
  | none => 64
def pack12 : List Nat → List Byte
  | a :: b :: t => leBytes 3 (a % 4096 + b % 4096 * 4096) ++ pack12 t
  | [a] => leBytes 3 (a % 4096)
  | [] => []
def bfpGroup (amp : Bool) (b : Nat) (g : List Nat) : List Byte :=
  let mx := g.foldr max 0
  let k := bfpScale amp mx b
  let ms := (List.range 16).map (fun i => if mx = 0 then 0 else bfpMant amp (nth 0 g i) k)
  b2 (if mx = 0 then 0 else (k + 64).toNat) ++ (if b = 12 then pack12 ms else ms.flatMap b1)
/-- Chunks of `n`. -/
def chunksOf (n : Nat) : Nat → List Nat → List (List Nat)
  | 0, _ => []
  | f + 1, l => if l = [] then [] else l.take n :: chunksOf n f (l.drop n)
def log8 (floor l : Int) : Nat × Bool :=
  if l = -32768 then (255, false)
  else
    let c := rhu (l - floor) 6
    ((clampI 0 254 c).toNat, decide (c < 0 ∨ 254 < c))
/-- The units of a SPEC object and whether a value clipped: words, LOG words?, RMS amplitude? -/
def specUnits (coding product : Nat) (floor : Int) (log amp : Bool) (w : List Nat) : List (List Byte) × Bool :=
  let lg := w.map (fun x => if log then sext 16 x else logWord x)
  if product = 6 then (w.map b8, false)
  else if product = 8 then (w.map b1, false)
  else
    match coding with
    | 1 => ((chunksOf 16 w.length (w.map powVal)).map (bfpGroup amp 12), false)
    | 2 => ((chunksOf 16 w.length (w.map powVal)).map (bfpGroup amp 8), false)
    | 3 => (lg.map (fun l => b2 (lowBits 16 l)), false)
    | 4 => (lg.map (fun l => b1 (log8 floor l).1), lg.any (fun l => (log8 floor l).2))
    | _ => (w.map (fun x => if log then b2 x else b4 x), false)

/-- 16 Galois steps of the dither LFSR (R319). -/
def lfsrGo : Nat → BitVec 32 → BitVec 32
  | 0, x => x
  | n + 1, x => lfsrGo n (if x.getLsbD 0 then (x >>> 1) ^^^ 0x80200003#32 else x >>> 1)
def lfsrNext (x : Nat) : Nat := (lfsrGo 16 (BitVec.ofNat 32 x)).toNat
/-- The state after `n` components. -/
def lfsrAfter : Nat → Nat → Nat
  | 0, x => x
  | n + 1, x => lfsrAfter n (lfsrNext x)
/-- d of R319 in 1/65,536. -/
def ditherOf (x : Nat) : Int := (x % 65536 : Nat) - 32768
/-- A component's code in IQ8 or IQ4: value, clipped, next LFSR state (R318). -/
def iqCode (lim : Int) (gain sh : Nat) (dith : Bool) (l : Nat) (x : Int) : Int × Bool × Nat :=
  let l' := if dith then lfsrNext l else l
  let num := x * gain * 65536 + (if dith then ditherOf l' * 2 ^ sh else 0)
  let q := rhu num (16 + sh)
  (clampI (-lim) lim q, decide (q < -lim ∨ lim < q), l')
/-- Codes of a run of components, with whether any clipped and the LFSR state after them. -/
def iqCodes (lim : Int) (gain sh : Nat) (dith : Bool) : List Int → Nat → List Int × Bool × Nat
  | [], l => ([], false, l)
  | x :: t, l =>
    let c := iqCode lim gain sh dith l x
    let r := iqCodes lim gain sh dith t c.2.2
    (c.1 :: r.1, c.2.1 || r.2.1, r.2.2)
def iq2Code (gain sh : Nat) (thr x : Int) : Nat :=
  let u := x * gain
  let t := thr * 2 ^ sh
  if u < -t then 0 else if u < 0 then 1 else if u < t then 2 else 3
/-- Fields of `w` bits packed from bit 0 of each byte. -/
def packBits (w : Nat) : Nat → List Nat → List Byte
  | 0, _ => []
  | f + 1, l => if l = [] then []
    else BitVec.ofNat 8 ((l.take (8 / w)).foldr (fun v a => v % 2 ^ w + 2 ^ w * a) 0) :: packBits w f (l.drop (8 / w))
/-- The components of path words in payload order: I before Q. -/
def components (cplx : Bool) (w : List Cx) : List Int := w.flatMap (fun v => if cplx then [v.1, v.2] else [v.1])
/-- The units of an IQ object (R307, R318), whether a value clipped, the LFSR state after it. -/
def iqUnits (e : List Byte) (cplx : Bool) (w : List Cx) (l : Nat) : List (List Byte) × Bool × Nat :=
  let c := components cplx w
  let gain := u16 e 20
  let sh := u8 e 18
  let per := if cplx then 2 else 1
  match enCoding e with
  | 5 =>
    let r := iqCodes 127 gain sh (enDith e) c l
    ((chunksOf per c.length (r.1.map (lowBits 8))).map (fun g => g.flatMap b1), r.2.1, r.2.2)
  | 6 =>
    let r := iqCodes 7 gain sh (enDith e) c l
    ((packBits 4 c.length (r.1.map (lowBits 4))).map (fun b => [b]), r.2.1, r.2.2)
  | 7 => ((packBits 2 c.length (c.map (iq2Code gain sh (sext 16 (u16 e 22))))).map (fun b => [b]), false, l)
  | _ => ((chunksOf per c.length (c.map (lowBits 16))).map (fun g => g.flatMap b2), false, l)

/-- The bits of one count in a Rice column (R320), least significant first. -/
def bitsLsb : Nat → Nat → List Bool
  | 0, _ => []
  | n + 1, v => v.testBit 0 :: bitsLsb n (v / 2)
def riceBits (w k v : Nat) : List Bool :=
  if 32 ≤ v / 2 ^ k then List.replicate 32 true ++ bitsLsb (8 * w) v
  else List.replicate (v / 2 ^ k) true ++ [false] ++ bitsLsb k v
def riceLen (w k : Nat) (col : List Nat) : Nat := 1 + ((col.map (fun v => (riceBits w k v).length)).foldr (· + ·) 0 + 7) / 8
def bitsBytes : Nat → List Bool → List Byte
  | 0, _ => []
  | f + 1, l => if l = [] then []
    else BitVec.ofNat 8 (bitsSet ((List.range 8).filter (fun i => nth false l i))) :: bitsBytes f (l.drop 8)
def riceColumn (w : Nat) (col : List Nat) : List Byte :=
  let best := (List.range 32).foldr (fun k b => if riceLen w k col ≤ riceLen w b col then k else b) 31
  if 1 + col.length * w ≤ riceLen w best col then b1 0xFF ++ col.flatMap (leBytes w)
  else
    let bits := col.flatMap (riceBits w best)
    b1 best ++ bitsBytes bits.length bits

-- Objects
/-- `n` bits of a mask from bit `first` on, as bytes (R305). -/
def maskCut (bytes : List Nat) (first n : Nat) : List Nat :=
  let l := (bytes.drop (first / 8)).map (BitVec.ofNat 8)
  (List.range ((n + 7) / 8)).map (fun b => bitsSet ((List.range 8).filter (fun i =>
    let x := 8 * b + i + first % 8
    decide (8 * b + i < n) && (nth 0 l (x / 8)).getLsbD (x % 8))))
/-- A slice output reaches the SPEC streams of its path and product, from bin, column, entry or mask bit `first` on (R305,
R311, R313; log 55). -/
def specObject (s : State) (k j product beat flags : Nat) (log : Bool) (values : List Nat) (count : Nat) (amp : Bool) : State :=
  forEach (liveStreams s 1) s (fun n s =>
    let e := s.entry n
    let t := s.stream n
    if enSource e % 32 ≠ 2 * k + j ∨ enSelect e % 16 ≠ product ∨ beat < t.since then s
    else
      let s := s.setStream n { t with count := t.count + 1 }
      if t.count % enEvery e ≠ 0 then s
      else
        let first := enSelect e / 65536
        let want := bitsOf (enSource e) 24 8
        let m := if want = 0 then count - first else min want (count - first)
        let v := if product = 8 then maskCut values first m else (values.drop first).take m
        let fl := if enCoding e = 4 then sext 16 (u16 e 22) else 0
        let u := specUnits (enCoding e) product fl log amp v
        let tm := boundaryTime s beat
        sealUnits s n e ⟨1, flags ||| (if u.2 then F_QCLIP else 0), enCoding e, beat, tm.1, tm.2,
          k * 2 ^ 28 + j * 2 ^ 27 + product * 2 ^ 20 + m % 2 ^ 17,
          first * 65536 + lowBits 16 fl⟩ u.1 (product != 8) false)
/-- Seal the IQ beats a stream has gathered; p1 of each part is the LFSR state before its first component (R319). -/
def iqSeal (s : State) (n : Nat) (extra : Nat) : State :=
  let e := s.entry n
  let t := s.stream n
  match t.iq with
  | [] => s
  | g :: _ =>
    let cplx := g.2.2
    let u := iqUnits e cplx (t.iq.flatMap (fun x => x.1)) t.lfsr
    let flags := t.iq.foldr (fun x a => x.2.1 ||| a) 0
    let s := s.setStream n { t with iq := [], lfsr := u.2.2 }
    let h (o : Nat) (_ : List Byte) : Header :=
      ⟨2, flags ||| extra ||| (if u.2.1 then F_QCLIP else 0) ||| (if enDith e then F_DITH else 0), enCoding e,
      t.iqBeat, t.iqTime.1, t.iqTime.2,
      enSource e % 32 * 2 ^ 24 + t.iq.length * 2 ^ 15 + (if cplx then 2 ^ 14 else 0) + g.1.length % 2 ^ 14,
      if enDith e then lfsrAfter (if enCoding e = 6 then 2 * o else o) t.lfsr else 0⟩
    sealParts s n e h false (packParts (enMaxrec e) u.1 0 [])
/-- The path words of the beat that ends reach the IQ streams; a group closes with its last beat, words or not (R313). -/
def iqBeat (s : State) (p : Nat) : State :=
  let pt := s.path p
  forEach (liveStreams s 2) s (fun n s =>
    let e := s.entry n
    let t := s.stream n
    if enSource e % 32 ≠ p ∨ s.beat < t.since then s
    else
      let s := if pt.out = [] then s else s.setStream n { t with
        iq := t.iq ++ [(pt.out, pt.outFlags, cfNco (pathCfg s p))],
        iqBeat := (if t.iq = [] then s.beat else t.iqBeat), iqTime := (if t.iq = [] then boundaryTime s s.beat else t.iqTime) }
      if (s.beat + 1 - t.grp) % enEvery e = 0 then iqSeal s n 0 else s)
/-- The parts of an object before the one that lacks its bytes are admitted, the last of them with TRUNC in place of MORE; with
none of them the next record carries LOSS (R309). -/
def putCut (s : State) (n : Nat) (h : Header) : List (Nat × List Byte) → State
  | [] => let t := s.stream n; s.setStream n { t with loss := true, segLost := t.segLost + 1 }
  | [p] =>
    let s := admitRecord s n p.1 { h with flags := h.flags ||| F_TRUNC } p.2
    s.setStream n { s.stream n with segLost := (s.stream n).segLost + 1 }
  | p :: t => putCut (admitRecord s n p.1 { h with flags := partFlags h.flags false } p.2) n h t
/-- The object is cut short at its poisoned unit `i` (R309, R345): the part that holds the unit is discarded, OC_STAT.SEGLOST
is set. A part that finds no room is dropped before its bytes are read. -/
def objectCut (s : State) (n : Nat) (h : Header) (units : List (List Byte)) (src : List (Nat × Nat)) (i : Nat) : State :=
  let e := s.entry n
  let parts := packParts (enMaxrec e) units 0 []
  let at_ := ((units.take i).map List.length).foldr (· + ·) 0
  let good := parts.filter (fun p => decide (p.1 + p.2.length ≤ at_))
  if volBlocked s e || decide (enQueue e < queueFill (s.stream n) + partsSize (parts.take (good.length + 1))) then
    putParts s n e (fun _ _ => h) false parts
  else
    let s := (putCut s n h good).setB OC_STAT 5 true
    forEach (src.flatMap (fun r => poisonIn s r.1 r.2)) s (fun a s => eccUe s a)
/-- An object that lies in HBM (DENS, XSPEC, SEG) is copied part by part (R309); `src` gives the bytes, by address and length,
that each unit is read from. -/
def hbmObject (s : State) (n : Nat) (h : Header) (units : List (List Byte)) (src : List (List (Nat × Nat))) : State :=
  let h := { h with coding := enCoding (s.entry n) }
  if h.beat < (s.stream n).since then s
  else match src.findIdx? (fun u => u.any (fun r => poisonIn s r.1 r.2 != [])) with
  | some i => objectCut s n h units (nth [] src i) i
  | none => sealUnits s n (s.entry n) h units false true
/-- Where the 64-byte units of an object of `n` bytes at `a` lie. -/
def src64 (a n : Nat) : List (List (Nat × Nat)) := (List.range ((n + 63) / 64)).map (fun i => [(a + 64 * i, min 64 (n - 64 * i))])
def units64 (b : List Byte) : List (List Byte) := (List.range ((b.length + 63) / 64)).map (fun i => slice b (64 * i) 64)
/-- An EVT record (R308); made while FCLK was on bypass it carries BYP (R457). -/
def evtRecord (s : State) (master chan : Option Nat) (flags beat time tf : Nat) (payload : List Byte) : State :=
  let flags := flags ||| (if s.bypBeat.contains 0 then F_BYP else 0)
  forEach (liveStreams s 5) s (fun n s =>
    let e := s.entry n
    let mine := (match master with | some u => (enSource e).testBit u | none => false) ||
      (match chan with | some c => (enSelect e).testBit c | none => false)
    if mine ∧ (s.stream n).since ≤ beat then sealUnits s n e ⟨5, flags, 0, beat, time, tf, 0, 0⟩ [payload] false false else s)

-- Grouped items: MON (R496), TDC (R434), LOG (R537)
def addItem (s : State) (n : Nat) (i : Item) : State :=
  let t := s.stream n
  s.setStream n { t with items := t.items ++ [i] }
def groupLen (e : List Byte) : Nat := max 1 (enSelect e % 65536)
/-- First beat of the group that a beat lies in. -/
def groupStart (t : StreamSt) (e : List Byte) (b : Nat) : Nat := t.grp + (b - t.grp) / groupLen e * groupLen e
/-- Seal the stamps of one group: its first beat, each part with its own count (R434). -/
def tdcGroup (s : State) (n b extra : Nat) (l : List Item) : State :=
  let e := s.entry n
  let ch := enSource e % 32
  match l with
  | [] => s
  | i :: _ =>
    let b := if fclkRuns s then b else i.beat
    let tm := if b = i.beat then (i.time, i.tf) else boundaryTime s b
    let fl := (l.foldr (fun x a => x.flags ||| a) 0 &&& F_BYP) ||| extra
    sealParts s n e (fun _ p => ⟨8, fl, 0, b, tm.1, tm.2, ch + p.length / 16 * 65536, s.rdN (TDC_CHLOSTCNT ch)⟩) false
      (packParts (enMaxrec e) (l.map (fun x => x.bytes)) 0 [])
/-- The groups of stamps that a list of items falls into, by first beat, in order. -/
def tdcGroups (s : State) (n : Nat) (l : List Item) : List Nat := uniq (l.map (fun i => groupStart (s.stream n) (s.entry n) i.beat))
/-- Seal stamps group by group; `extra` goes with the last. -/
def tdcSeal (s : State) (n : Nat) (l : List Item) (extra : Nat) : State :=
  if !fclkRuns s then tdcGroup s n 0 extra l
  else
    let gs := tdcGroups s n l
    forEach gs s (fun g s =>
      tdcGroup s n g (if gs.getLast? = some g then extra else 0) (l.filter (fun i => groupStart (s.stream n) (s.entry n) i.beat == g)))
/-- Seal the items of a stream's closing group. -/
def itemSeal (s : State) (n : Nat) (extra : Nat) : State :=
  let e := s.entry n
  let t := s.stream n
  match t.items with
  | [] => s
  | i :: _ =>
    let flags := t.items.foldr (fun x a => x.flags ||| a) 0 ||| extra
    let s := s.setStream n { t with items := [] }
    let us := t.items.map (fun x => x.bytes)
    match enType e with
    | 7 =>
      let fast := decide (256 ≤ enSource e)
      sealUnits s n e ⟨7, flags, 0, i.beat, i.time, i.tf, (enSource e % 1024) + (if fast then 2 ^ 16 else 0),
        if fast then i.num % 2 ^ 32 else 0⟩ us false false
    | 8 => tdcSeal s n t.items extra
    | _ => sealUnits s n e ⟨9, flags, 0, i.beat, i.time, i.tf, i.num % 2 ^ 32, t.logGone % 2 ^ 32⟩ us false false
/-- At the end of the present beat, the groups that close are sealed. -/
def groupsClose (s : State) : State :=
  forEach (liveStreams s 7 ++ liveStreams s 9) s (fun n s =>
    let t := s.stream n
    if (beatOrTick s + 1 - (if fclkRuns s then t.grp else 0)) % groupLen (s.entry n) = 0 then itemSeal s n 0 else s)
/-- The LOG stream takes every entry logged since its last look, in serial order (R537); a record of entries
made while FCLK is stopped carries the held beat number (R22). -/
def logItems (s : State) : State :=
  forEach (liveStreams s 9) s (fun n s =>
    let t := s.stream n
    let seq := s.rdN FLT_LOGSEQ
    let due := (seq + 2 ^ 32 - t.logNext) % 2 ^ 32
    let new := (s.log.take due).reverse
    let gone := due - new.length
    let s := s.setStream n { t with logNext := seq, logGone := t.logGone + gone }
    forEach new s (fun e s =>
      let tm := if e.noBeat then (timeNow s, tflagsNow s) else boundaryTime s e.beat
      addItem s n ⟨entryBytes e, if e.noBeat then s.beat else e.beat, tm.1, tm.2, e.serial, 0⟩))

-- EMIT (R288, R314)
/-- An engine's payload divides at words of 4 bytes (log 91). -/
def emitUnits : Nat → List Byte → List (List Byte)
  | 0, _ => []
  | f + 1, b => if b = [] then [] else b.take 4 :: emitUnits f (b.drop 4)
/-- A record that an engine handed over, sealed at the end of its beat; `fl` adds OVRUN, and DCLK or FCLK on bypass BYP
(R457). -/
def emitSeal (s : State) (eng beat : Nat) (b : List Byte) (fl : Nat) : State :=
  let n := u16 b 0
  let e := s.entry n
  let tm := boundaryTime s beat
  sealUnits s n e ⟨10, (u32 b 4 &&& 0xC0FFF) ||| fl ||| (if s.bypBeat.contains 4 then F_BYP else 0), 0, beat, tm.1, tm.2, eng, 0⟩
    (emitUnits b.length (b.drop 16)) false false
/-- The coder admits an engine's record (R314). -/
def emitAdmitted (s : State) (eng : Nat) (b : List Byte) : Bool :=
  let n := u16 b 0
  let e := s.entry n
  decide (n < 256) && enEn e && enType e == 10 && u8 b 2 == 10 &&
    (if eng < 32 then (enSource e).testBit eng else (enSelect e).testBit (eng - 32))

-- Enable, disable, END (R310, R313, R518)
def streamFresh (s : State) (n : Nat) : State :=
  let e := s.entry n
  let s := s.setStream n { on := true, since := s.beat, grp := s.beat, lfsr := u32 e 24, logNext := s.rdN FLT_LOGSEQ, queue := (s.stream n).queue, via := e, carrying := true }
  if enDest e = 0 ∧ u8 e 32 < 32 then s.wr64 (OC_HCONS_LO (u8 e 32)) 0 else s
/-- END on the last record sealed in the beat before, a short group, or an empty END record of the type. -/
def setEndFlag (b : List Byte) : List Byte := b.take 12 ++ b4 (u32 b 12 ||| F_END) ++ b.drop 16
def endLast : List QRec → List QRec
  | [] => []
  | [r] => [{ r with bytes := setEndFlag r.bytes }]
  | r :: t => r :: endLast t
/-- The END record of a stream without an object in its last beat: length 0 (R313). -/
def endRecord (s : State) (n : Nat) : State :=
  let e := s.entry n
  let tm := boundaryTime s (s.beat - 1)
  sealParts s n e (fun _ _ => ⟨enType e, F_END, enCoding e, s.beat - 1, tm.1, tm.2, 0, 0⟩) false [(0, [])]
def streamEnd (s : State) (n : Nat) : State :=
  let t := s.stream n
  let e := s.entry n
  if enType e = 0xFF then s
  else if t.iq ≠ [] then iqSeal s n F_END
  else if t.items ≠ [] then itemSeal s n F_END
  else
    match t.queue.getLast? with
    | some r => if r.sealedAt + 1 = s.beat then s.setStream n { t with queue := endLast t.queue } else endRecord s n
    | none => endRecord s n
/-- RESET at DATAPATH or above: objects not yet sealed are discarded (R313). -/
def streamDiscard (s : State) (n : Nat) : State := s.setStream n { s.stream n with iq := [], items := [] }

end Sys2Proof.Machine
end

