-- ==== Sys2Proof/Machine/Carousel.lean ====
section
/-! DEFINITION. Carousel capture (R247–R256): channels, units, segments, overflow. -/
namespace Sys2Proof.Machine

def State.car (s : State) (c : Nat) : CarSt := Sparse.get (fun _ => {}) s.cars c
def State.setCar (s : State) (c : Nat) (x : CarSt) : State := { s with cars := Sparse.set (fun _ => {}) s.cars c x }

-- A channel's settings, read through a table of register values (in force, or as a commit would leave them)
def carRegs (c : Nat) : List Nat :=
  [CAR_CHCTRL c, CAR_CHSRC c, CAR_CHPATHS c, CAR_CHBASE_LO c, CAR_CHBASE_HI c, CAR_CHSEG c, CAR_CHPOST c, CAR_CHNSEG c]
def carKind (v : Nat → Word) (c : Nat) : Nat := fld (v (CAR_CHSRC c)) 31 28
def carSel (v : Nat → Word) (c : Nat) : Nat := fld (v (CAR_CHSRC c)) 27 24
def carPath (v : Nat → Word) (c : Nat) : Nat := fld (v (CAR_CHSRC c)) 20 16
def carPathsOf (v : Nat → Word) (c : Nat) : Nat := (v (CAR_CHPATHS c)).toNat
def carEn (v : Nat → Word) (c : Nat) : Bool := bit (v (CAR_CHCTRL c)) 31
def carRing (v : Nat → Word) (c : Nat) : Bool := bit (v (CAR_CHCTRL c)) 30
def carTrig (v : Nat → Word) (c : Nat) : Nat := fld (v (CAR_CHCTRL c)) 28 24
def carBase (v : Nat → Word) (c : Nat) : Nat := fld (v (CAR_CHBASE_LO c)) 31 12 * 4096 + 2 ^ 32 * fld (v (CAR_CHBASE_HI c)) 7 0
def carSegBytes (v : Nat → Word) (c : Nat) : Nat := fld (v (CAR_CHSEG c)) 20 0 * 1024
def carPost (v : Nat → Word) (c : Nat) : Nat := fld (v (CAR_CHPOST c)) 23 0
def carNseg (v : Nat → Word) (c : Nat) : Nat := fld (v (CAR_CHNSEG c)) 16 0
/-- Output samples of a path per beat: S of R19. -/
def pathS (s : State) (v : Nat → Word) (p : Nat) : Nat := sIn s / 2 ^ fld (v (PTH_DEC p)) 3 0
def denCols (v : Nat → Word) (p : Nat) : Nat := fld (v (DEN_PMAP p)) 25 16 + 1
def denW (s : State) : Nat := if s.layoutDense then 2 else 4
/-- The words of a SPEC unit are LOG words (R247). -/
def carLog (v : Nat → Word) (c : Nat) : Bool :=
  let p := carPath v c
  match carSel v c with
  | 0 => true
  | 1 => false
  | n => trLog (v (SLC_LTRACE (p / 2) (p % 2) (n - 2)))
/-- Unit bytes (R247). -/
def carUnitBytes (s : State) (v : Nat → Word) (c : Nat) : Nat :=
  let ps := bitList 32 (carPathsOf v c)
  let p := carPath v c
  match carKind v c with
  | 0 => (ps.map (fun _ => sIn s * 3 / 2)).foldr (· + ·) 0
  | 1 => (ps.map (fun p => pathS s v p * (if bit (v (PTH_CTRL p)) 5 then 4 else 2))).foldr (· + ·) 0
  | 2 => 16 + binsOf (v (SLC_LFFT (p / 2) (p % 2))) (bit (v (PTH_CTRL p)) 5) * (if carLog v c then 2 else 4)
  | _ => 64 + denCols v p * 256 * denW s
/-- C of R248. -/
def carCap (s : State) (v : Nat → Word) (c : Nat) : Nat := (carSegBytes v c - 128) / max 1 (carUnitBytes s v c)
def carActive (x : CarSt) : Bool := x.st != 0 && x.st != 4

/-- The address of the slot that a channel writes. -/
def slotAddr (s : State) (c : Nat) : Nat := carBase s.rdA c + (s.car c).slot * carSegBytes s.rdA c
def showCar (s : State) (c : Nat) : State :=
  let x := s.car c
  ((s.setF (CAR_CHSTAT c) 31 29 x.st).setF (CAR_CHSTAT c) 15 0 x.slot).wr (CAR_CHFILL c) (w32 x.fill)
def carCause (s : State) (c n : Nat) : State := s.setF (CAR_CHSTAT c) 28 26 n
/-- Event k of channel c: CAR_STAT and vector 176+4c+k (R260). -/
def carEvent (s : State) (c k : Nat) : State :=
  vectorIf (s.setB CAR_STAT (4 * c + k) true) (s.rb CAR_IRQEN (4 * c + k)) (176 + 4 * c + k)
/-- A segment begins: seq is written as all ones (R249). Units numbered below `low` precede it. -/
def segBegin (s : State) (c s0 low : Nat) : State :=
  let x := s.car c
  let s := s.setCar c { x with
    st := 1, s0 := s0, low := low, count := 0, nums := [], gone := none, flags := [], fire := none, cut := none, src := carKind s.rdA c,
    unit := carUnitBytes s s.rdA c, cap := carCap s s.rdA c,
    paths := (if carKind s.rdA c < 2 then carPathsOf s.rdA c else carPath s.rdA c) }
  showCar (s.hbmWrite (slotAddr s c) (leBytes 8 (2 ^ 64 - 1))) c
/-- First unit number of a segment whose units enter from boundary `r` on. -/
def firstUnit (kind r : Nat) : Nat := if kind < 2 then r - 2 else if kind = 2 then r - 3 else r
/-- After a gap or an overflow the next segment begins with the units that enter at the coming boundary (R251, R254): of the
kinds that pass one unit a beat their number tells them, of the others their entry. -/
def segAgain (s : State) (c : Nat) : State :=
  let k := carKind s.rdA c
  let b := firstUnit k (s.beat + 1)
  segBegin s c b (if k < 2 then b else 0)
/-- With RING = 0 the channel has filled its NSEG segments since CAR_ARM (R252). -/
def carFull (s : State) (c : Nat) : Bool := !carRing s.rdA c && decide (carNseg s.rdA c ≤ (s.car c).segs)

/-- Flags without END, which only the last record carries (R62). -/
def notEnd (f : Nat) : Nat := if f.testBit 11 then f - F_END else f
/-- The header of a segment (R253). -/
def segHeader (s : State) (c : Nat) (fin : Bool) : List Byte :=
  let x := s.car c
  let n := min x.cap x.count
  let f := s.rd64 (CAR_CHSEGCNT_LO c)
  let oldest := x.count - n
  let trig : Option Nat := match x.fire with
    | some fr => (match fr.index with | some i => if oldest ≤ i ∧ i < x.count then some (i - oldest) else none | none => none)
    | none => none
  let ev := x.fire
  let z (g : Fire → Nat) : Nat := match ev with | some fr => g fr | none => 0
  let flags := ((x.flags.take n).map notEnd).foldr (· ||| ·) 0 ||| (if fin then F_END else 0) ||| (if x.cut.isSome then F_OVERFLOW else 0)
  let sfl := match ev with
    | some fr => (if trig.isNone then 1 else 0) + (if fr.tdc then 2 else 0) + (if fr.stopv then 4 else 0) +
        (if fr.forced then 8 else 0) + (if fr.free then 32 else 0)
    | none => 16
  b8 f ++ b8 (z (fun r => r.pos)) ++ b8 (nth 0 x.nums (n - 1)) ++ b8 (nth 0 x.nums 0) ++ timeBytes (z (fun r => r.time)) ++
  b4 (z (fun r => r.off)) ++ b4 n ++ b4 (if x.cap = 0 then 0 else oldest % x.cap) ++
  b4 (match ev with | some _ => (match trig with | some t => t | none => 2 ^ 32 - 1) | none => 0) ++
  b4 (match x.cut with | some v => v | none => 2 ^ 32 - 1) ++ b4 flags ++ b2 sfl ++
  b1 (match ev with | some fr => fr.cause | none => 0xFF) ++ b1 c ++ b1 x.src ++ zeros 3 ++ b4 x.paths ++ b4 x.unit ++ zeros 4 ++
  b8 (z (fun r => r.d)) ++ b8 x.s0 ++ zeros 24
/-- A segment leaves as a SEG record (R305). -/
def segRecord (s : State) (c : Nat) (hd : List Byte) : State :=
  let x := s.car c
  let bytes := hd ++ s.hbmRead (slotAddr s c + 128) (min x.cap x.count * x.unit)
  let beat := if x.fire.isSome then u64 hd 8 else x.s0
  let tm := u32 hd 38 * 65536 + u16 hd 42 + leAt hd 32 6 * 1000000000 * 65536
  forEach (liveStreams s 6) s (fun n s =>
    if enSource (s.entry n) % 4 = c then
      hbmObject s n ⟨6, u32 hd 64, 0, beat, tm, (boundaryTime s beat).2, c, u32 hd 0⟩ (units64 bytes) (src64 (slotAddr s c) bytes.length)
    else s)
/-- A segment is closed: header with seq last, the count, vector 176+4c, the SEG record (R251). -/
def segClose (s : State) (c : Nat) (fin : Bool) : State :=
  let hd := segHeader s c fin
  let s := s.hbmWrite (slotAddr s c) hd
  let s := segRecord s c hd
  let s := s.wr64 (CAR_CHSEGCNT_LO c) ((s.rd64 (CAR_CHSEGCNT_LO c) + 1) % 2 ^ 64)
  let x := s.car c
  let s := s.setCar c { x with segs := x.segs + 1, slot := (x.slot + 1) % max 1 (carNseg s.rdA c), gapAt := s.beat }
  carEvent s c 0
/-- Stop a channel for a cause: the segment in progress is closed with END (R256). -/
def carStopNow (s : State) (c cause : Nat) (fin : Bool) : State :=
  let x := s.car c
  let s := if x.st = 1 ∨ x.st = 2 then segClose s c fin else s
  let s := s.setCar c { s.car c with st := 4, armAt := none, stopAt := none, fire := none, resume := false }
  carEvent (showCar (carCause s c cause) c) c 2

/-- The last index a triggered segment takes (R251), once the event unit is known. -/
def segLast (s : State) (c : Nat) : Option Nat :=
  let x := s.car c
  match x.fire with
  | some fr => (match fr.index with
    | some e => some (max (e + carPost s.rdA c - 1) (x.atD - 1))
    | none => none)
  | none => none
def segFull (s : State) (c : Nat) : Bool :=
  match segLast s c with
  | some l => decide (l < (s.car c).count)
  | none => false
/-- A unit enters a channel in ARMED, or in POST before L (R247, R249); one that does not fit overflows (R254). -/
def overflow (s : State) (c num : Nat) : State :=
  let x := s.car c
  let f := s.rd64 (CAR_CHSEGCNT_LO c)
  let perUnit := if x.src = 0 then sIn s else if x.src = 1 then pathS s s.rdA (nth 0 (bitList 32 x.paths) 0) else 1
  let lv := (min x.cap x.count * perUnit + 2 ^ 32 - 1) % 2 ^ 32
  let s := s.setCar c { x with cut := some lv }
  let s := segClose s c false
  let s := s.setCar c { s.car c with st := 4, fire := none, cut := none, resume := bit (s.rdA (CAR_CHCTRL c)) 29 && !carFull s c }
  let s := (showCar (carCause s c 4) c).addR CAR_OVFCNT 1
  let s := carEvent s c 1
  let tm := boundaryTime s num
  let s := evtRecord s none (some c) F_OVERFLOW num tm.1 tm.2
    (b1 2 ++ b1 0xFF ++ b1 0xFF ++ b1 c ++ b4 0 ++ b8 num ++ b4 0 ++ b4 lv ++ b8 f)
  report s 82 c
def bufferBytes : Nat := 4 * 1024 * 1024
def carEnter (s : State) (u : CarUnit) : State :=
  let c := u.chan
  let x := s.car c
  if (x.st ≠ 1 ∧ x.st ≠ 2) ∨ u.num < x.low ∨ s.beat < u.num ∨ (x.st = 2 ∧ segFull s c) then s
  else if bufferBytes < x.fill + u.bytes.length then overflow s c u.num
  else
    let a := slotAddr s c + 128 + x.count % max 1 x.cap * x.unit
    let fire := x.fire.map (fun f => match f.index with
      | none => if f.pos ≤ u.num then { f with index := some x.count } else f
      | some _ => f)
    let s := (s.hbmWrite a u.bytes).setCar c { x with
      count := x.count + 1, nums := (u.num :: x.nums).take (max 1 x.cap),
      gone := (if x.nums.length < max 1 x.cap then x.gone else x.nums.getLast?), flags := (u.flags :: x.flags).take (max 1 x.cap),
      fill := x.fill + u.bytes.length, fire := fire }
    showCar s c
/-- A channel in ARMED accepts the first fire of its group at or after s0 (R250); any other fire is counted. -/
def fireAccept (s : State) (master : Nat) (f : Fire) : State :=
  forEach [0, 1, 2, 3] s (fun c s =>
    let x := s.car c
    if !carEn s.rdA c ∨ carTrig s.rdA c ≠ master ∨ x.st = 0 then s
    else if x.st = 1 ∧ x.s0 ≤ f.pos ∧ f.pos ≤ f.d then
      -- the event unit: the first of the ring at or after the event's beat, if it has entered
      let held := x.nums.length
      let k := (x.nums.filter (fun n => decide (f.pos ≤ n))).length
      let lost := match x.gone with | some n => decide (f.pos ≤ n) | none => false
      let idx := if x.src < 2 then some (f.pos - x.s0) else if k = 0 then none else if lost then some (x.count - held - 1) else some (x.count - k)
      showCar (s.setCar c { x with st := 2, fire := some { f with index := idx }, atD := x.count }) c
    else s.addR (CAR_CHMISS c) 1)

/-- 12-bit samples packed two to three bytes (R247). -/
def packRaw : List Int → List Byte
  | a :: b :: t => leBytes 3 (lowBits 12 a + lowBits 12 b * 4096) ++ packRaw t
  | [a] => leBytes 3 (lowBits 12 a)
  | [] => []
/-- The RAW and COND units of the beat that ends; they enter at boundary b+2. -/
def carBeat (s : State) (i : BeatInput) : State :=
  forEach [0, 1, 2, 3] s (fun c s =>
    let k := carKind s.rdA c
    if !carEn s.rdA c ∨ !(carActive (s.car c) || (s.car c).resume) ∨ 2 ≤ k then s
    else
      let ps := bitList 32 (carPathsOf s.rdA c)
      let fl := (ps.map (fun p => (if k = 0 then dueFlags (pathFlags s p 0 []) else (s.path p).outFlags) % F_END)).foldr (· ||| ·) 0
      let bytes := ps.flatMap (fun p =>
        if k = 0 then packRaw (pathInput s i p)
        else (s.path p).out.flatMap (fun v =>
          if cfNco (pathCfg s p) then b2 (lowBits 16 v.1) ++ b2 (lowBits 16 v.2) else b2 (lowBits 16 v.1)))
      { s with carIn := s.carIn ++ [⟨c, s.beat + 2, s.beat, fl, bytes⟩] })
/-- Units due at the present boundary enter. -/
def carDue (s : State) : State :=
  let due := s.carIn.filter (fun u => u.at_ ≤ s.beat)
  let s := { s with carIn := s.carIn.filter (fun u => !decide (u.at_ ≤ s.beat)) }
  forEach due s (fun u s => carEnter s u)
/-- A spectrum or trace output of a path becomes ready: SPEC units (R247); for three boundaries after a counter load these are
of the old numbering and precede the new segment (R256). -/
def carSpec (s : State) (p sel beat flags : Nat) (log : Bool) (values : List Nat) : State :=
  if s.bt.loadAge < 3 then s
  else forEach [0, 1, 2, 3] s (fun c s =>
    if carEn s.rdA c ∧ carKind s.rdA c = 2 ∧ carPath s.rdA c = p ∧ carSel s.rdA c = sel then
      carEnter s ⟨c, s.beat, beat, flags, b8 beat ++ b4 flags ++ b4 values.length ++
        values.flatMap (fun v => if log then b2 v else b4 v)⟩
    else s)
/-- Requests of CAR_ARM due at this boundary (R249). -/
def carArmDue (s : State) : State :=
  forEach [0, 1, 2, 3] s (fun c s =>
    let x := s.car c
    match x.armAt with
    | some a => if a ≤ s.beat then
        segBegin (s.setCar c { x with
          armAt := none, segs := 0, resume := false,
          slot := (if carRing s.rdA c then s.rd64 (CAR_CHSEGCNT_LO c) % max 1 (carNseg s.rdA c) else 0) }) c s.beat s.beat
      else s
    | none => s)
/-- Bytes of each channel's buffer that reached HBM in the beat that ends. -/
def carDrain (s : State) (g : List (Nat × Nat)) : State :=
  forEach g s (fun p s => if p.1 < 4 then
    let x := s.car p.1
    showCar (s.setCar p.1 { x with fill := x.fill - p.2 }) p.1 else s)

-- Rows
/-- L has entered: the segment ends (R251, R252). -/
def execSegmentEnd (c : Nat) (s : State) : Res :=
  let x := s.car c
  .next (if 4 ≤ c ∨ x.st ≠ 2 ∨ !segFull s c then s
    else
      let stopv : Bool := match x.fire with | some f => f.stopv | none => false
      let s := segClose s c false
      let x := s.car c
      let full := carFull s c
      if stopv ∨ full then
        carEvent (showCar (carCause (s.setCar c { x with st := 4, fire := none }) c (if stopv then 3 else 2)) c) c 2
      else showCar (s.setCar c { x with st := 3, fire := none }) c)
/-- After one boundary's worth of units the channel is ARMED again (R249, R251). -/
def execSegmentGapEnd (c : Nat) (s : State) : Res :=
  let x := s.car c
  .next (if c < 4 ∧ x.st = 3 ∧ x.gapAt < s.beat then segAgain s c else s)
/-- With OVFRESUME the channel re-arms once its buffer is empty (R254). -/
def execOverflowResume (c : Nat) (s : State) : Res :=
  let x := s.car c
  .next (if c < 4 ∧ x.st = 4 ∧ x.resume ∧ x.fill = 0 then
    segAgain (s.setCar c { x with resume := false }) c else s)
/-- CAR_STOP takes effect at the next boundary: the segment is closed with END (R256). -/
def execSegmentStopClose (c : Nat) (s : State) : Res :=
  let x := s.car c
  .next (match x.stopAt with
    | some b => if c < 4 ∧ b ≤ s.beat then carStopNow s c 1 true else s
    | none => s)

def carConfigMasks : List Nat := [0xFF000000, 0xFF1F0000, 0xFFFFFFFF, 0xFFFFF000, 0xFF, 0x1FFFFF, 0xFFFFFF, 0x1FFFF]
def execCarConfig (q : Req) (s : State) : Res :=
  let c := u16 q.params 0
  .next (command s 0x0605 q (q.params.length == 36)
    [(decide (4 ≤ c) || !zeroAt q.params 2 2 || reservedSet q.params 4 carConfigMasks, ST_BAD_PARAM), (groupLocked s 51, ST_BUSY)]
    (reply (writeRegs s q.params 4 (carRegs c)) 0x0605 q ST_OK []))
def chMask (p : List Byte) : List Nat := bitList 4 (u32 p 0)
def execCarArm (q : Req) (s : State) : Res :=
  let l := chMask q.params
  .next (command s 0x0606 q (q.params.length == 4)
    [(decide (16 ≤ u32 q.params 0), ST_BAD_PARAM), (r503 s || l.any (fun c => !carEn s.rdA c), ST_STATE)]
    (reply (forEach l s (fun c s =>
      let x := s.car c
      if x.st = 1 ∨ x.st = 2 ∨ x.st = 3 ∨ x.armAt.isSome then s else s.setCar c { x with armAt := some (s.beat + 1) }))
      0x0606 q ST_OK (b8 (s.beat + 1))))
def execCarStop (q : Req) (s : State) : Res :=
  .next (command s 0x0607 q (q.params.length == 4)
    [(decide (16 ≤ u32 q.params 0), ST_BAD_PARAM)]
    (reply (forEach (chMask q.params) s (fun c s =>
      let x := s.car c
      if carActive x || x.armAt.isSome || x.resume then s.setCar c { x with stopAt := some (s.beat + 1) } else s)) 0x0607 q ST_OK (b8 (s.beat + 1))))
def execCarStatus (q : Req) (s : State) : Res :=
  let c := u16 q.params 0
  .next (command s 0x0608 q (q.params.length == 4)
    [(decide (4 ≤ c) || !zeroAt q.params 2 2, ST_BAD_PARAM)]
    (reply s 0x0608 q ST_OK (regsBytes s [CAR_CHSTAT c, CAR_CHSEGCNT_LO c, CAR_CHSEGCNT_HI c, CAR_CHCAP c, CAR_CHMISS c, CAR_CHFILL c, CAR_STAT])))

end Sys2Proof.Machine
end

