-- ==== Sys2Proof/Machine/Time.lean ====
section
/-! DEFINITION. Disciplined Time (R406–R427, R572): the time base, the servo, jumps, grid alignment, UTC and PPSOUT. -/
namespace Sys2Proof.Machine

-- The time base
def setTime (s : State) (t : TimeSt) : State := { s with time := t }
/-- The seconds of R408 have 48 bits: times are held modulo 2^48 s. -/
def timeWrap : Int := (2 ^ 48 * 1000000000 * 65536 : Nat)
/-- T(C) of R407 in 1/65,536 ns: one TCLK cycle is 102,400 of them. -/
def timeAt (s : State) (c : Nat) : Nat :=
  let d : Int := ((c : Int) - (s.time.c : Int)) * 102400 * (2 ^ 40 + sext 32 (s.rdN TIM_RATE))
  ((s.time.o + rhu d 40) % timeWrap).toNat
/-- The counts and the time of an instant: TIM_RAW and TIM_NOW show them (R406, R409); the count never runs back. -/
def setClock (s : State) (c : Nat) : State :=
  let c := max c (s.rd64 TIM_RAW_LO)
  let t := timeAt s c
  let s := s.wr64 TIM_RAW_LO c
  let s := s.wr TIM_NOW_LO (w32 (t / 65536 % 1000000000))
  let s := s.wr TIM_NOW_HI (w32 (t / 65536000000000))
  s.wr TIM_NOW_X (w32 (t % 65536 * 65536 + t / 65536000000000 / 2 ^ 32 % 65536))
/-- The time base takes its present time as its new offset (R407). -/
def rebase (s : State) : State :=
  setTime s { s.time with o := (timeNow s : Int), c := s.rd64 TIM_RAW_LO }
/-- ρ changes without a jump (R407). -/
def setRate (s : State) (r : Int) : State := (rebase s).wr TIM_RATE (i32 r)
/-- The time moves to `t` (R415). -/
def moveTime (s : State) (t : Int) : State :=
  let s := { s with timeJump := s.timeJump + (t - timeNow s) }
  let s := setTime s { s.time with o := t, c := s.rd64 TIM_RAW_LO, jumpNo := s.time.jumpNo + 1 }
  setClock s (s.rd64 TIM_RAW_LO)
/-- Cause `i` of TIM_EVTSTAT: its bit, event 320+i, and vector 272 at the first boundary after it (R426). -/
def timCause (s : State) (i : Nat) : State :=
  let s := fire (s.setB TIM_EVTSTAT i true) (320 + i)
  if s.rb TIM_IRQEN i then { s with vecPend := 272 :: s.vecPend } else s

-- Grid mode
abbrev G_OFF : Nat := 0
abbrev G_MEASURE : Nat := 1
abbrev G_SLEW : Nat := 2
abbrev G_VERIFY : Nat := 3
abbrev G_TRACK : Nat := 4
def gridState (s : State) : Nat := s.rf TIM_GRID 31 29
def setGrid (s : State) (x : Nat) : State := s.setF TIM_GRID 31 29 x
def aligning (s : State) : Bool := decide (gridState s ∈ [G_MEASURE, G_SLEW, G_VERIFY])
/-- R27: grid mode ends; events 0–31 do not fire while FCLK is stopped (R22). -/
def gridEnd (s : State) : State :=
  let s := if gridState s = G_TRACK then setGrid (setTime s { s.time with track := 0, drift := 0 }) G_OFF else s
  if gridOn s then
    let s := (s.setB GLB_BEATSTAT 0 false).setB GLB_BEATSTAT 1 false
    if fclkRuns s then fire s 3 else s
  else s
/-- An abort of GRID_ALIGN (R423). -/
def gridAbort (s : State) : State :=
  if aligning s then
    timCause (setGrid (setTime s { s.time with loadDue := false, loadTo := none, slew := 0, drift := 0 }) G_OFF) 8
  else s
/-- Grid lost in TRACK (R422). -/
def trackLoss (s : State) : State :=
  if gridState s = G_TRACK then report (timCause (gridEnd s) 9) 18 0xFFFF else s
/-- Every happening that ends grid mode or an alignment without a track loss. -/
def gridBreak (s : State) : State := gridEnd (gridAbort s)

-- The servo
abbrev SV_FREE : Nat := 0
abbrev SV_ACQUIRE : Nat := 1
abbrev SV_STEPWAIT : Nat := 2
abbrev SV_LOCKED : Nat := 3
abbrev SV_HOLDOVER : Nat := 4
def servo (s : State) : Nat := s.rf TIM_STAT 31 29
def timeIsSet (s : State) : Bool := s.rb TIM_STAT 28
def servoSrc (s : State) : Nat := s.rf TIM_SERVO 31 29
/-- TIM_STAT.TAI follows R413; its fall ends tracking and alignment and raises source 17. -/
def taiUpdate (s : State) : State :=
  let tai := timeIsSet s && s.rb TIM_STAT 27 && (servo s == SV_LOCKED || (servo s == SV_HOLDOVER && !s.time.held))
  let was := taiOn s
  let s := s.setB TIM_STAT 26 tai
  if was && !tai then report (gridBreak (trackLoss s)) 17 0xFFFF else s
def rateMax (s : State) : Int := (s.rdN TIM_RATEMAX : Int) * 65536
/-- TIM_RATE for a rate in 1/65,536 ppb (R412). -/
def rateWord (r : Int) : Int := rdiv (r * 2 ^ 24) 1000000000
/-- ρ becomes integ, clamped (R413, R424). -/
def integRate (s : State) : State := setRate s (rateWord (clampI (-(rateMax s)) (rateMax s) (sext 32 (s.rdN TIM_INTEG))))
/-- Enter a servo state with what R413 ties to it. -/
def servoGo (s : State) (x : Nat) : State :=
  let was := servo s
  let s := setTime (s.setF TIM_STAT 31 29 x) { s.time with first := true, close := 0, far := 0, held := false }
  let s := if was = SV_LOCKED ∧ x ≠ SV_LOCKED then timCause s 2 else s
  let s := if x = SV_LOCKED ∧ was ≠ SV_LOCKED then timCause s 1 else s
  let s := if x = SV_HOLDOVER then timCause (integRate s) 5 else s
  taiUpdate s
/-- SRC changes: the state machine starts again (R413, R425). -/
def servoRestart (s : State) : State :=
  servoGo (setTime s { s.time with samples := [] }) (if servoSrc s = 0 then SV_FREE else SV_ACQUIRE)

/-- A refused jump (R414). -/
def jumpRefused (s : State) : State :=
  let s := s.setF TIM_CNT 31 16 (min 65535 (s.rf TIM_CNT 31 16 + 1))
  report (timCause s 3) 16 0xFFFF
/-- TIM_STEPMAX and TIM_SERVO.LOCKTHR in 1/65,536 ns. -/
def stepMax (s : State) : Nat := s.rdN TIM_STEPMAX * 65536
def lockThr (s : State) : Nat := s.rf TIM_SERVO 15 0 * 65536
def pushJump (s : State) (j : Jump) : State := setTime s { s.time with jumps := s.time.jumps ++ [j] }

/-- The control law of R412. -/
def servoLaw (s : State) (x : ServoIn) : State :=
  let de := x.e * 1000000000
  let i := satI 32 (sext 32 (s.rdN TIM_INTEG) + rdiv de (x.tau * 2 ^ s.rf TIM_SERVO 19 16))
  let r := -(rdiv de (x.tau * 2 ^ s.rf TIM_SERVO 23 20) + i)
  let s := if r.natAbs ≤ (rateMax s).natAbs then s.wr TIM_INTEG (i32 i) else s
  timCause (setRate s (rateWord (clampI (-(rateMax s)) (rateMax s) r))) 0
/-- After a sample in ACQUIRE: 16 close ones in a row and a warm reference lock the servo. -/
def acquireCount (s : State) (x : ServoIn) : State :=
  let n := if x.e.natAbs ≤ lockThr s then s.time.close + 1 else 0
  let s := setTime s { s.time with close := n, first := false }
  if 16 ≤ n ∧ s.rb TIM_STAT 25 then servoGo s SV_LOCKED else s
/-- ACQUIRE (R413): what lies off by more than STEPMAX is a refused jump once the time is set (R414), and STEPWAIT either way. -/
def servoAcquire (s : State) (x : ServoIn) : State :=
  if !timeIsSet s && x.full then
    let s := moveTime s ((timeNow s : Int) - x.e)
    let s := s.setB TIM_STAT 28 true
    acquireCount (taiUpdate (timCause s 0)) x
  else if stepMax s < x.e.natAbs then servoGo (if timeIsSet s then jumpRefused s else s) SV_STEPWAIT
  else if timeIsSet s && s.time.first then acquireCount (timCause (pushJump s ⟨0, -x.e, false⟩) 0) x
  else acquireCount (servoLaw s x) x
def servoLocked (s : State) (x : ServoIn) : State :=
  if 8 * lockThr s < x.e.natAbs then
    let s := setTime s { s.time with far := s.time.far + 1 }
    if 4 ≤ s.time.far then servoGo s SV_ACQUIRE else s
  else servoLaw (setTime s { s.time with far := 0 }) x
/-- The seconds come from this sample's source (R410): full time that is taken, not refused or discarded. -/
def givesTime (s : State) (x : ServoIn) : Bool :=
  x.full && (!timeIsSet s || (decide (x.e.natAbs ≤ stepMax s) && !(servo s == SV_LOCKED && decide (8 * lockThr s < x.e.natAbs))))
/-- What each state does with a sample (R413). -/
def servoTake (s : State) (x : ServoIn) : State :=
  if servo s = SV_ACQUIRE then servoAcquire s x
  else if servo s = SV_LOCKED then servoLocked s x
  else if servo s = SV_STEPWAIT then (if x.e.natAbs ≤ stepMax s then servoGo s SV_ACQUIRE else s)
  else if servo s = SV_HOLDOVER then servoGo s (if x.e.natAbs ≤ lockThr s then SV_LOCKED else SV_ACQUIRE)
  else s
/-- TIM_RATE as a servo sample left it (R440). -/
def rateNote (s : State) : State := setTime s { s.time with rates := (sext 32 (s.rdN TIM_RATE) :: s.time.rates).take 16 }
/-- A sample of the selected source (R411–R413). -/
def servoSample (s : State) (x : ServoIn) : State :=
  let s := s.setF TIM_STAT 15 8 0
  let s := s.wr TIM_LASTERR (i32 (clampI (-(2 ^ 31 - 1)) (2 ^ 31 - 1) (rhu x.e 12)))
  rateNote (servoTake (if givesTime s x then taiUpdate (s.setB TIM_STAT 27 x.tai) else s) x)
/-- The oldest waiting sample is taken; one of a source that is not selected is dropped. -/
def execServoSample (tclk : Nat) (s : State) : Res :=
  .next (match s.time.samples with
  | [] => s
  | x :: t =>
    let s := setClock (setTime s { s.time with samples := t }) tclk
    if x.src = servoSrc s ∧ 0 < x.tau then servoSample s x else s)
/-- A missing sample (R411, R413). -/
def sampleMissing (s : State) : State :=
  let n := s.rf TIM_STAT 15 8 + 1
  let s := s.setF TIM_STAT 15 8 (min 255 n)
  let s := s.setF TIM_CNT 15 0 (min 65535 (s.rf TIM_CNT 15 0 + 1))
  let s := if servoSrc s = 2 then timCause s 6 else s
  if servo s = SV_LOCKED ∧ 3 ≤ n then servoGo s SV_HOLDOVER else s
def execSampleMissing (tclk : Nat) (s : State) : Res :=
  .next (if servoSrc s = 0 then s else sampleMissing (setClock s tclk))
/-- HOLDOVER has lasted HOLDMAX seconds (R413). -/
def execHoldmaxExpiry (s : State) : Res :=
  .next (if servo s = SV_HOLDOVER then taiUpdate (setTime s { s.time with held := true }) else s)

/-- The jumps of one boundary together (R415): the summed servo and TIME_ADJUST part is tested against STEPMAX; a
TIME_STEP discards a servo jump of the same boundary. -/
def jumpsAdd (j : List Jump) : Int := (j.filter (fun x => decide (x.kind < 2))).foldr (fun x a => x.by_ + a) 0
/-- The time after the jumps in order of acceptance; those of a refused sum are left out. -/
def jumpsTo (bad : Bool) (t : Int) : List Jump → Int
  | [] => t
  | j :: r => jumpsTo bad (if j.kind = 3 then j.by_ else if j.kind < 2 ∧ bad then t else t + j.by_) r
def applyStep (s : State) (t : Int) (j : List Jump) : State :=
  let s := moveTime s t
  let s := forEach (j.filter (fun x => x.kind == 3)) s (fun x s => (s.setB TIM_STAT 28 true).setB TIM_STAT 27 x.tairef)
  let s := timCause s 4
  if servo s ∈ [SV_STEPWAIT, SV_LOCKED, SV_HOLDOVER] then servoGo s SV_ACQUIRE
  else taiUpdate (setTime s { s.time with first := true })
def applyJumps (s : State) : State :=
  let all := s.time.jumps
  let step := all.any (fun x => decide (2 ≤ x.kind))
  let j := if step then all.filter (fun x => x.kind != 0) else all
  let s := setTime s { s.time with jumps := [] }
  let bad := timeIsSet s && decide (stepMax s < (jumpsAdd j).natAbs)
  let s := if bad then jumpRefused s else s
  let t := jumpsTo bad (timeNow s) j
  if step then gridBreak (applyStep s t j)
  else if bad then (if servo s = SV_ACQUIRE then servoGo s SV_STEPWAIT else s)
  else gridBreak (moveTime s t)
/-- Accepted jumps take effect at the boundary whose TCLK count is given (R415). -/
def execJumpApply (tclk : Nat) (s : State) : Res :=
  .next (if s.time.jumps = [] then s else applyJumps (setClock s tclk))

-- Commands
/-- The first boundary after acceptance; with FCLK stopped beats resume from 0 (R21). -/
def nextBoundary (s : State) : Nat := if fclkRuns s then s.beat + 1 else 0
/-- The count of the offset that UTC stands behind TAI (R418). -/
def utcOff (s : State) : Int := sext 16 (s.rf TIM_UTCOFF 15 0)
def inLeap (s : State) : Bool := s.time.leapAt == some (timeNow s / 65536000000000)
def timeGetBytes (s : State) (utc : Bool) (cyc : Nat) : List Byte :=
  let t := if utc then (((timeNow s : Int) - utcOff s * 65536000000000) % timeWrap).toNat else timeNow s
  let tf := bitsSet ((if timeIsSet s then [0] else []) ++ (if s.rb TIM_STAT 27 then [1] else []) ++ (if taiOn s then [2] else []) ++
    (if gridOn s then [3] else []) ++ (if utc && inLeap s then [4] else []) ++ (if utc then [5] else []))
  timeBytes t ++ b8 s.beat ++ b2 cyc ++ b1 (servo s) ++ b1 tf ++ b2 (lowBits 16 (utcOff s)) ++ b1 (gridState s) ++ b1 0 ++
    bw (s.rd TIM_GRIDERR) ++ bw (s.rd TIM_LASTERR)
/-- TIME_GET (R425): beat, cycle and time are one instant. -/
def execTimeGet (q : Req) (w : At) (s : State) : Res :=
  let s := setClock { s with cyc := w.cyc % 512 } w.tclk
  .next (command s 0x0A00 q (q.params.length == 4) [(decide (2 ≤ u32 q.params 0), ST_BAD_PARAM)]
    (reply s 0x0A00 q ST_OK (timeGetBytes s (u32 q.params 0 == 1) s.cyc)))

/-- A 96-bit time with signed seconds, in 1/65,536 ns. -/
def time96 (p : List Byte) (o : Nat) : Int :=
  sext 48 (leAt p o 6) * 65536000000000 + (u32 p (o + 6) * 65536 + u16 p (o + 10) : Nat)
/-- TIME_STEP (R415, R425). -/
def timeStepChecks (p : List Byte) : List (Bool × Nat) :=
  [(decide (1 < u8 p 0) || decide (1 < u8 p 1) || !zeroAt p 2 2 || decide (999999999 < u32 p 10) ||
    (u8 p 0 == 1 && decide (time96 p 4 < 0)), ST_BAD_PARAM)]
def timeStepJump (p : List Byte) : Jump := ⟨2 + u8 p 0, time96 p 4, u8 p 1 == 1⟩
def execTimeStep (q : Req) (s : State) : Res :=
  .next (command s 0x0A01 q (q.params.length == 16) (timeStepChecks q.params)
    (reply (pushJump s (timeStepJump q.params)) 0x0A01 q ST_OK (b8 (nextBoundary s))))

/-- TIME_ADJUST (R414, R425): a delta above STEPMAX is a refused jump. -/
def adjustBy (p : List Byte) : Int := sext 32 (u32 p 0) * 4096
def adjustBig (s : State) (p : List Byte) : Bool := decide (stepMax s < (adjustBy p).natAbs)
def execTimeAdjust (q : Req) (s : State) : Res :=
  let len := q.params.length == 4
  let s' := if (gate s 0x0A02 q len).isNone && adjustBig s q.params then jumpRefused s else s
  .next (command s' 0x0A02 q len
    [(adjustBig s' q.params, ST_BAD_PARAM), (servo s' != SV_FREE || gridOn s', ST_STATE)]
    (reply (pushJump s' ⟨1, adjustBy q.params, false⟩) 0x0A02 q ST_OK (b8 (nextBoundary s'))))

/-- SERVO_SET (R425): six registers at once. -/
def servoRegs : List Nat := [TIM_CTRL, TIM_SERVO, TIM_STEPMAX, TIM_RATEMAX, TIM_PPSDLY, TIM_NBRDLY]
def servoMasks : List Nat := [0xFFFF0001, 0xE0FFFFFF, 0xFFFFFFFF, 0xFFFFFFFF, 0xFFFFFFFF, 0xFFFFFFFF]
def servoChecks (p : List Byte) : List (Bool × Nat) :=
  [(reservedSet p 0 servoMasks || u16 p 2 == 0 || decide (4 < u8 p 7 / 32) || u16 p 4 == 0 || decide (1000000 < u32 p 8) ||
    decide (u32 p 12 < 1 ∨ 30000 < u32 p 12), ST_BAD_PARAM)]
def servoWrite (s : State) (p : List Byte) : State :=
  let was := servoSrc s
  let s := writeRegs s p 0 servoRegs
  if servoSrc s = was then s else servoRestart s
def execServoSet (q : Req) (tclk : Nat) (s : State) : Res :=
  let s := setClock s tclk
  .next (command s 0x0A03 q (q.params.length == 24) (servoChecks q.params)
    (reply (servoWrite s q.params) 0x0A03 q ST_OK []))

/-- The conditions of R25 but for alignment. -/
def gridFit (s : State) : Bool :=
  s.rf CLK_STAT 31 30 == 0 && s.rf CLK_STAT 29 16 == 10240 && s.rf CLK_BYP 4 0 == 0 && taiOn s
/-- GRID_ALIGN starts with MEASURE (R421); one that runs goes on. -/
def gridStart (s : State) : State :=
  if aligning s then s
  else setGrid (setTime s { s.time with gFrom := s.beat + 1, gPass := 0, loadDue := false, loadTo := none }) G_MEASURE
def gridAlignChecks (s : State) (p : List Byte) : List (Bool × Nat) :=
  let go := u32 p 0 == 0
  [(decide (1 < u32 p 0), ST_BAD_PARAM), (r503 s || (go && !gridOn s && (!fclkRuns s || !gridFit s)), ST_STATE),
   (go && (s.tickets.any (fun t => t.abs) || s.restart.isSome), ST_BUSY)]
def execGridAlign (q : Req) (s : State) : Res :=
  .next (command s 0x0A06 q (q.params.length == 4) (gridAlignChecks s q.params)
    (if u32 q.params 0 = 1 then reply (gridAbort s) 0x0A06 q ST_OK []
     else if gridOn s then reply s 0x0A06 q ST_OK []
     else reply (gridStart s) 0x0A06 q ST_ACCEPTED []))
def execGridAlignAbort (s : State) : Res := .next (gridAbort s)

/-- UTC_SET (R425). -/
def execUtcSet (q : Req) (s : State) : Res :=
  let p := q.params
  .next (command s 0x0A07 q (p.length == 4)
    [(decide (3 < u16 p 2), ST_BAD_PARAM), (s.ptp.port == 9 && s.ptp.flags.testBit 0, ST_STATE)]
    (reply (s.wr TIM_UTCOFF (w32 (u16 p 0 + u16 p 2 * 65536))) 0x0A07 q ST_OK []))

-- Grid measurement
/-- Native steps in an error of `g` fs (R419): one is 390,625/16,384 fs. -/
def nativeSteps (g : Int) : Int := rdiv (g * 16384) 390625
/-- g_b of R420 in 1/65,536 ns. -/
def gridError (t : Nat) : Int :=
  let r := t % beatLen
  if r ≤ beatLen / 2 then (r : Int) else (r : Int) - beatLen
/-- A boundary's stamp enters the averaging windows; one that misses boundaries has no average (R420). -/
def gridMeasure (s : State) (b t : Nat) : State :=
  let m := s.time
  let size := 2 ^ s.rf TIM_GCTRL 11 8
  let m := if b % size = 0 then
      { m with gDone := (if m.gCount = size ∧ b = m.gStart + size then some (m.gSum, size, m.gStart) else none)
               gSum := 0, gCount := 0, gStart := b }
    else m
  setTime s { m with gSum := m.gSum + gridError t, gCount := m.gCount + 1 }
/-- The feed-forward of R422 over one beat with what earlier beats left, in 1/65,536 native step, against the drift:
ρ·4.194304·10^13 steps per second are 2^24·ρ steps in 400 ns. -/
def driftDue (s : State) : Int := s.time.drift - sext 32 (s.rdN TIM_RATE)
/-- One native step per FCLK cycle is 512 in a beat; the feed-forward takes its cycles first (R419, R422). -/
def stepRoom (s : State) : Nat := 512 - (driftDue s / 65536).natAbs
/-- The native steps of one beat: the feed-forward and `x` of the steps that are owed (R421, R422). -/
def stepsApply (s : State) (x : Int) : State :=
  let ff := driftDue s / 65536
  setTime s { s.time with drift := driftDue s - ff * 65536, moved := s.time.moved + ff + x }
/-- A beat of SLEW or TRACK has passed. -/
def gridSteps (s : State) : State :=
  let room : Int := stepRoom s
  if gridState s = G_SLEW then
    let x := clampI (-room) room s.time.slew
    stepsApply (setTime s { s.time with slew := s.time.slew - x }) x
  else if gridState s = G_TRACK then
    let x := clampI (-room) room s.time.track
    stepsApply (setTime s { s.time with track := s.time.track - x }) x
  else s
/-- What MEASURE, VERIFY and TRACK make of a window's average (R421, R422). -/
def slewFrom (s : State) (g : Int) : State := setGrid (setTime s { s.time with slew := -(nativeSteps g), drift := 0 }) G_SLEW
def gridWindow (s : State) (g : Int) (since : Bool) : State :=
  let x := gridState s
  if x = G_TRACK then
    let n := if (s.rf TIM_GCTRL 23 16 : Int) * 1000 < g.natAbs then s.time.gLost + 1 else 0
    let s := setTime s { s.time with gLost := n, track := -(rdiv (g * 16384) (390625 * 2 ^ s.rf TIM_GCTRL 15 12)) }
    if 4 ≤ n then trackLoss s else s
  else if !since ∨ s.time.loadDue then s
  else if x = G_MEASURE then slewFrom s g
  else if x = G_VERIFY then
    if g.natAbs * 16384 ≤ s.rf TIM_GCTRL 7 0 * 390625 then setTime s { s.time with loadDue := true }
    else if 8 ≤ s.time.gPass then gridAbort s
    else slewFrom s g
  else s
def execGridAvgWindowEnd (s : State) : Res :=
  .next (match s.time.gDone with
  | none => s
  | some (sum, n, b) =>
    let g := rdiv (sum * 15625) (1024 * n)
    let s := setTime s { s.time with gDone := none }
    gridWindow (s.wr TIM_GRIDERR (i32 (satI 32 g))) g (decide (s.time.gFrom ≤ b)))
/-- SLEW has applied its last steps, which the present beat has room for: VERIFY (R421). -/
def slewEnd (s : State) : State :=
  let s := stepsApply s s.time.slew
  setGrid (setTime s { s.time with gPass := s.time.gPass + 1, gFrom := s.beat + 1, slew := 0 }) G_VERIFY
def execGridSlewEnd (s : State) : Res :=
  .next (if gridState s = G_SLEW ∧ s.time.slew.natAbs ≤ stepRoom s then slewEnd s else s)
/-- LOAD: the coming boundary, whose TCLK count and stamp are given, takes its TAI number (R25, R421); event 2 fires with
the first beat of the new numbering (R28). -/
def gridNumber (t : Nat) : Nat := (t + beatLen / 2) / beatLen % 2 ^ 64
def execGridLoad (tclk : Nat) (stamp : Int) (s : State) : Res :=
  .next (if s.time.loadDue ∧ gridState s = G_VERIFY ∧ s.resetAt = none ∧ pwrState s ≠ PS_ENTERING then
    let s := setClock s tclk
    let k := gridNumber ((timeNow s : Int) + stamp).toNat
    let s := setTime s { s.time with loadDue := false, loadTo := some k, gLost := 0, track := 0, drift := 0 }
    let s := setGrid ((s.setB GLB_BEATSTAT 0 true).setB GLB_BEATSTAT 1 true) G_TRACK
    timCause { s with evtPend := 2 :: s.evtPend } 7
  else s)

/-- The second of the UTC day that the present time lies in. -/
def utcSecond (s : State) : Int := ((timeNow s / 65536000000000 : Nat) - utcOff s) % 86400
/-- The end of a UTC day with LEAP61, or its last second with LEAP59 (R418). -/
def execLeapSecond (tclk : Nat) (s : State) : Res :=
  let s := setClock s tclk
  .next (if s.rb TIM_UTCOFF 16 then
    if utcSecond s = 0 then
      let s := (s.setF TIM_UTCOFF 15 0 (lowBits 16 (utcOff s + 1))).setB TIM_UTCOFF 16 false
      setTime s { s.time with leapAt := some (timeNow s / 65536000000000) }
    else s
  else if s.rb TIM_UTCOFF 17 ∧ utcSecond s = 86399 then (s.setF TIM_UTCOFF 15 0 (lowBits 16 (utcOff s - 1))).setB TIM_UTCOFF 17 false
  else s)

/-- PPSOUT (R572); in HIBERNATE the ball is high-impedance (R581). -/
def execPpsoutRise (s : State) : Res :=
  .next (if s.rb GLB_PINCTRL 30 ∧ timeIsSet s ∧ pwrState s ≠ PS_HIBERNATE then setTime (s.put (.pin 1 true)) { s.time with pps := true } else s)
def execPpsoutFall (s : State) : Res :=
  .next (if s.time.pps then setTime (s.put (.pin 1 false)) { s.time with pps := false } else s)

end Sys2Proof.Machine
end

