-- ==== Sys2Proof/Machine/Trigger.lean ====
section
/-! DEFINITION. Ringmaster triggers (R230–R246, R257–R259): sources, groups, firing, tokens, masks. -/
namespace Sys2Proof.Machine

def State.unit (s : State) (u : Nat) : UnitSt := Sparse.get (fun _ => {}) s.units u
def State.setUnit (s : State) (u : Nat) (x : UnitSt) : State := { s with units := Sparse.set (fun _ => {}) s.units u x }

-- A unit's settings through a table of register values
def tuEn (v : Nat → Word) (u : Nat) : Bool := bit (v (TRG_CTRL u)) 31
def tuMaster (v : Nat → Word) (u : Nat) : Nat := fld (v (TRG_CTRL u)) 28 24
def tuKind (v : Nat → Word) (u : Nat) : Nat := fld (v (TRG_SRC u)) 31 28
def tuA (v : Nat → Word) (u : Nat) : Nat := fld (v (TRG_SRC u)) 23 16
def tuB (v : Nat → Word) (u : Nat) : Nat := fld (v (TRG_SRC u)) 15 8
def tuC (v : Nat → Word) (u : Nat) : Nat := fld (v (TRG_SRC u)) 7 0
def allUnits : List Nat := List.range 32
/-- A group: a master with every enabled unit that names it (R230). -/
def isMaster (v : Nat → Word) (m : Nat) : Bool := decide (m < 32) && tuEn v m && tuMaster v m == m
def groupOfUnit (v : Nat → Word) (m : Nat) : List Nat := allUnits.filter (fun u => tuEn v u && tuMaster v u == m)
def masters (v : Nat → Word) : List Nat := allUnits.filter (isMaster v)
/-- Every member shows the group's state, and TRG_ARMSTAT follows (R231, R259). -/
def showGroup (s : State) (m : Nat) : State :=
  let x := s.unit m
  let ev := bit (s.rdA (TRG_HOLD m)) 31
  let rem := if x.st = 2 then (if ev then x.holdLeft else x.holdTo - s.beat) else 0
  forEach (groupOfUnit s.rdA m) s (fun u s =>
    (s.wr (TRG_STAT u) (w32 (x.st * 2 ^ 30 + rem % 2 ^ 25))).setB TRG_ARMSTAT u (x.st == 1))

def addCond (s : State) (c : Cond) : State := { s with conds := s.conds ++ [c] }
/-- Units of a kind that are enabled in the beat whose data are looked at. -/
def unitsOf (s : State) (kind : Nat) : List Nat := allUnits.filter (fun u => tuEn s.rdB u && tuKind s.rdB u == kind)

-- EDGE and LEVEL (R236, R237)
/-- The quantity compared: a component, or |x|² for MAG; the threshold moved by `d` in the same measure. -/
def quantity (comp : Nat) (v : Cx) : Int := if comp = 0 then v.1 else if comp = 1 then v.2 else v.1 * v.1 + v.2 * v.2
def threshold (comp : Nat) (thr : Word) (d : Int) : Option Int :=
  let t : Int := (if comp = 2 then (thr.toNat : Int) else sext 16 thr.toNat) + d
  if comp = 2 then (if t < 0 then none else some (t * t)) else some t
def belowT (x : Int) : Option Int → Bool
  | some t => decide (x < t)
  | none => false
/-- Offset of a sample position in sixteenths of a sample, in 2^-24 beat of a beat of `n` samples; it may be negative. -/
def sampleOff (pos16 : Int) (n : Nat) : Int := pos16 * 2 ^ 24 / (16 * max 1 n : Nat)
def edgeSample (slope comp : Nat) (thr : Word) (hyst : Nat) (n : Nat) (x : UnitSt) (j : Nat) (v : Cx) : UnitSt × Option Int :=
  let q := quantity comp v
  let t := threshold comp thr 0
  let lo := threshold comp thr (-(hyst : Int))
  let hi := threshold comp thr hyst
  match x.prev with
  | none => ({ x with prev := some q }, none)
  | some p =>
    let rise := belowT p t && !belowT q t
    let fall := !belowT p t && belowT q t
    let metR := x.ready && rise && slope != 1
    let metF := x.readyF && fall && slope != 0
    let met := metR || metF
    let x' := { x with prev := some q, ready := (!metR && (x.ready || belowT q lo)), readyF := (!metF && (x.readyF || !belowT q hi)) }
    if met then
      let num := 16 * (t.getD 0 - p)
      let den := q - p
      let f := if den < 0 then rdiv (-num) den.natAbs else rdiv num den.natAbs
      (x', some (sampleOff (16 * ((j : Int) - 1) + f) n))
    else (x', none)
def edgeRun (slope comp : Nat) (thr : Word) (hyst n : Nat) : UnitSt → Nat → List Cx → UnitSt × Option Int
  | x, _, [] => (x, none)
  | x, j, v :: t =>
    let r := edgeSample slope comp thr hyst n x j v
    let rest := edgeRun slope comp thr hyst n r.1 (j + 1) t
    (rest.1, match r.2 with | some o => some o | none => rest.2)
def levelSample (pol comp : Nat) (thr : Word) (wid n b : Nat) (x : UnitSt) (j : Nat) (v : Cx) : UnitSt × Option (Nat × Nat) :=
  let q := quantity comp v
  let t := (threshold comp thr 0).getD 0
  if (pol = 0 ∧ t < q) ∨ (pol ≠ 0 ∧ q < t) then
    let x := if x.run = 0 then { x with runBeat := b, runOff := (sampleOff (16 * j) n).toNat } else x
    let x := { x with run := x.run + 1 }
    if wid ≤ x.run ∧ !x.runMet then ({ x with runMet := true }, some (x.runBeat, x.runOff)) else (x, none)
  else ({ x with run := 0, runMet := false }, none)
def levelRun (pol comp : Nat) (thr : Word) (wid n b : Nat) : UnitSt → Nat → List Cx → UnitSt × Option (Nat × Nat)
  | x, _, [] => (x, none)
  | x, j, v :: t =>
    let r := levelSample pol comp thr wid n b x j v
    let rest := levelRun pol comp thr wid n b r.1 (j + 1) t
    (rest.1, match r.2 with | some o => some o | none => rest.2)
/-- An offset that may lie before the beat, as beat and offset. -/
def normPos (b : Nat) (o : Int) : Nat × Nat := ((b + o / 2 ^ 24 : Int).toNat, (o % 2 ^ 24).toNat)
/-- The path words of the beat that ends meet EDGE and LEVEL. -/
def trigSamples (s : State) : State :=
  let s := forEach (unitsOf s 1) s (fun u s =>
    let p := s.path (tuA s.rdB u)
    if p.out = [] then s.setUnit u { s.unit u with prev := none, ready := true, readyF := true }
    else
      let r := edgeRun (tuC s.rdB u) (tuB s.rdB u) (s.rdB (TRG_THR u)) (s.bf (TRG_PARAM u) 15 0) p.out.length (s.unit u) 0 p.out
      let s := s.setUnit u r.1
      match r.2 with
      | some o =>
        let np := normPos s.beat o
        addCond s ⟨u, s.beat + 2, 2, np.1, np.2, none, false, p.outFlags ||| (if o < 0 then (s.unit u).prevFlags else 0)⟩
      | none => s)
  let s := forEach (unitsOf s 1) s (fun u s => s.setUnit u { s.unit u with prevFlags := (s.path (tuA s.rdB u)).outFlags })
  forEach (unitsOf s 2) s (fun u s =>
    let p := s.path (tuA s.rdB u)
    if p.out = [] then s.setUnit u { s.unit u with run := 0, runMet := false, runFlags := 0 }
    else
      let held := (if (s.unit u).run = 0 then 0 else (s.unit u).runFlags) ||| p.outFlags
      let r := levelRun (tuC s.rdB u) (tuB s.rdB u) (s.rdB (TRG_THR u)) (s.bf (TRG_PARAM u) 15 0) p.out.length s.beat (s.unit u) 0 p.out
      let s := s.setUnit u { r.1 with runFlags := (if p.out.length ≤ r.1.run then held else p.outFlags) }
      match r.2 with
      | some o => addCond s ⟨u, s.beat + 2, 2, o.1, o.2, none, false, if o.1 = s.beat then p.outFlags else held⟩
      | none => s)
/-- The path flags of the beat that ends, for PATTERN (R241). -/
def patternGather (s : State) : State :=
  let on (f : PathSt → Bool) : Nat := bitsSet ((List.range 32).filter (fun p => let x := s.path p; x.out != [] && f x))
  let fl (m : Nat) : Nat := on (fun x => x.outFlags &&& m != 0)
  { s with patWords := s.patWords ++ [⟨s.beat, fl F_OVR, on (fun x => x.outOvd), fl F_NBR, fl F_BLANK, fl F_SAT,
    (List.range 32).map (fun p => if (s.path p).out = [] then 0 else (s.path p).outFlags)⟩] }

-- At a boundary
/-- MASK conditions of the results that become ready (R238). -/
def trigMask (s : State) : State :=
  let now := s.beat
  forEach (unitsOf s 3) s (fun u s =>
    forEach (s.maskRes.filter (fun r => r.readyAt == now && r.slice == tuA s.rdB u && r.lane == tuB s.rdB u && r.slot == tuC s.rdB u)) s
      (fun r s => if r.viol ∧ max 1 (s.bf (TRG_PARAM u) 15 0) ≤ r.count then addCond s ⟨u, now + 1, 4, r.posBeat, r.posOff, none, false, r.flags⟩ else s))
/-- DENSITY conditions of the figures presented now (R240). -/
def trigDensity (s : State) : State :=
  let s := forEach (unitsOf s 4) s (fun u s =>
    forEach (s.figures.filter (fun f => f.region == tuA s.rdB u)) s (fun f s =>
      let v := if tuB s.rdB u = 0 then f.hits else f.acc
      let fl := if tuB s.rdB u = 0 then f.flags else f.accFlags
      if max 1 (s.rdB (TRG_THR u)).toNat ≤ v then addCond s ⟨u, s.beat + 1, 3, f.pos, f.off, none, false, fl⟩ else s))
  { s with figures := [] }
/-- The PATTERN word of beat b, presented at boundary b+3. -/
def patternWord (s : State) (w : PatWords) (cond : Nat) : Nat :=
  let paths (f : Spec → Bool) : Nat := bitsSet ((s.specs.filter (fun x => x.beat == w.beat && f x)).map (fun x => x.path))
  let viol (slot : Nat) : Nat := bitsSet ((s.maskRes.filter (fun r => r.beat == w.beat && r.slot == slot && r.viol)).map (fun r => 2 * r.slice + r.lane))
  match cond with
  | 0 => w.ovr
  | 1 => w.ovd
  | 2 => w.nbr
  | 3 => w.blank
  | 4 => w.sat
  | 5 => paths (fun x => x.flags &&& F_RFI != 0)
  | 6 => viol 0
  | _ => viol 1
def patternMatch (pat care : Nat) (ws : List Nat) : Bool :=
  let any := ws.foldr (· ||| ·) 0
  (any &&& (care &&& pat)) == (care &&& pat) && (any &&& (care &&& (pat ^^^ (2 ^ 32 - 1)))) == 0
/-- The flags of what a PATTERN word of beat b shows of each path: of its output beat, and of its spectra numbered b (R62). -/
def patternFlags (s : State) (w : PatWords) : List Nat :=
  (List.range 32).map (fun p => (s.specs.filter (fun x => x.beat == w.beat && x.path == p)).foldr (fun x a => x.flags % F_END ||| a)
    (nth 0 w.flags p))
/-- The words of the newest 16 beats, whatever the units look at, answer the windows (R241). -/
def trigPattern (s : State) : State :=
  let due := s.patWords.take (s.patWords.length - 2)
  let s := { s with patWords := s.patWords.drop (s.patWords.length - 2) }
  forEach due s (fun w s =>
    let s := { s with patHist := (((List.range 8).map (fun k => patternWord s w k % 2 ^ 32) ++ patternFlags s w) :: s.patHist).take 16 }
    forEach (unitsOf s 5) s (fun u s =>
      let ws := (s.patHist.take (tuB s.rdB u)).map (fun l => nth 0 l (tuA s.rdB u))
      if patternMatch (s.rdB (TRG_PAT u)).toNat (s.rdB (TRG_CARE u)).toNat ws then
        let care := bitList 32 (s.rdB (TRG_CARE u)).toNat
        let fl := (s.patHist.take (tuB s.rdB u)).foldr (fun l a => care.foldr (fun p a => nth 0 l (8 + p) ||| a) a) 0
        addCond s ⟨u, s.beat + 1, 4, w.beat, 0, none, false, fl⟩
      else s))
/-- PPE signals raised in the beat before (R243, R287): the earliest of each engine. -/
def earlier (a b : Nat × Nat) : Bool := decide (a.1 < b.1 ∨ (a.1 = b.1 ∧ a.2 < b.2))
def bestTrig : List PpeTrig → Option PpeTrig
  | [] => none
  | t :: r =>
    match bestTrig r with
    | some b => if earlier (b.pos, b.off) (t.pos, t.off) then some b else some t
    | none => some t
def trigPpe (s : State) : State :=
  let l := s.ppeTrig
  let s := forEach (unitsOf s 7) s (fun u s =>
    match bestTrig (l.filter (fun t => t.eng == tuA s.rdB u)) with
    | some t => addCond s ⟨u, s.beat, 1, t.pos, t.off, none, false, 0⟩
    | none => s)
  { s with ppeTrig := [] }
/-- The number of the beat `k` before the present one, as it was numbered (R28). -/
def beatBack (s : State) (k : Nat) : Nat := match s.beatTimes[k]? with | some p => p.1 | none => s.beat - k
/-- TIME (R243): the beat before the present boundary holds T, which it reached before a step at its end passed over it. -/
def trigTimeOf (s : State) (u : Nat) : Nat :=
  (((s.rdB (TRG_TIME_SLO u)).toNat + 2 ^ 32 * s.bf (TRG_TIME_SHI u) 15 0) * 1000000000 + (s.rdB (TRG_TIME_NS u)).toNat) * 65536
def trigTime (s : State) : State :=
  let b := beatBack s 1
  let t0 := (boundaryTime s b).1
  let t1 := (((boundaryTime s s.beat).1 : Int) - s.timeJump).toNat
  if s.beatTimes.length < 2 then s
  else forEach (unitsOf s 8) s (fun u s =>
    let t := trigTimeOf s u
    if t0 ≤ t ∧ t < t1 ∧ !(s.unit u).timeMet then
      addCond (s.setUnit u { s.unit u with timeMet := true })
        ⟨u, s.beat, 1, b, min (2 ^ 24 - 1) ((t - t0) * 2 ^ 24 / max 1 (t1 - t0)), none, false, 0⟩
    else s)

-- Firing (R232, R233)
def eventTime (s : State) (c : Cond) : Nat :=
  match c.tdc with
  | some t => t
  | none => (boundaryTime s c.pos).1 + beatsLong s c.off (2 ^ 24)
/-- The condition with the earliest event position; equal positions go to the lowest unit. -/
def firstCond : List Cond → Option Cond
  | [] => none
  | c :: t =>
    match firstCond t with
    | some b => if earlier (b.pos, b.off) (c.pos, c.off) ∨ (b.pos = c.pos ∧ b.off = c.off ∧ b.unit < c.unit) then some b else some c
    | none => some c
/-- A token leaves on the ports that TOKPORT names (R245); not while a port is down (R400). -/
def tokenContent (kind txid hops : Nat) (grid : Bool) (dev pos off : Nat) : List Byte :=
  b1 kind ++ b1 txid ++ b1 hops ++ b1 (if grid then 1 else 0) ++ b4 dev ++ b8 pos ++ b4 off
def nbrUp (s : State) (p : Nat) : Bool := s.rf (LNK_NBSTAT p) 31 30 == 2
def tokenOut (s : State) (p : Nat) (content : List Byte) : State :=
  if halted s then s
  else if nbrUp s p then (sendFlit s p 0x10 content).addR TRG_TOKTXCNT 1 else s.addR TRG_TOKERRCNT 1
def tokenSend (s : State) (u kind pos off : Nat) : State :=
  let k := s.rdA (TRG_TOK u)
  let c := tokenContent kind (fld k 7 0) (fld k 11 8) (gridOn s) (s.devId % 2 ^ 20) pos off
  forEach (match fld k 13 12 with | 0 => [0] | 1 => [1] | _ => [0, 1]) s (fun p s => tokenOut s p c)
def holdCount (s : State) (m : Nat) : Nat := s.af (TRG_HOLD m) 24 0
/-- After a firing: IDLE, or HOLDOFF in MODE AUTO. -/
def afterFire (s : State) (m : Nat) : State :=
  let x := s.unit m
  let auto := bit (s.rdA (TRG_CTRL m)) 30
  showGroup (s.setUnit m { x with st := (if auto then 2 else 0), holdTo := s.beat + holdCount s m, holdLeft := holdCount s m }) m
/-- Group `m` fires at the present boundary on `cs`; `cause` 0xFF is a forced fire. -/
def groupFire (s : State) (m cause : Nat) (cs : List Cond) (c : Cond) (ovrun : Bool) : State :=
  let us := sortN (uniq (cs.map (fun x => x.unit)))
  let tm := eventTime s c
  let forced := cause == 0xFF
  let s := afterFire s m
  let s := forEach us s (fun u s =>
    let s := monAsk (fire ((s.setB TRG_FIRESTAT u true).addR (TRG_FIRECNT u) 1) (32 + u)) 3 u
    vectorIf s (s.rb TRG_IRQEN u) (144 + u))
  let s := s.wr64 (TRG_LASTBEAT_LO m) c.pos
  let s := s.wr (TRG_LASTPOS m) (w32 ((if forced then 2 ^ 31 else cause * 2 ^ 24) + c.off % 2 ^ 24))
  let fl := cs.foldr (fun x a => x.flags ||| a) (if ovrun then F_OVRUN else 0)
  let s := evtRecord s (some m) none fl c.pos tm (boundaryTime s c.pos).2
    (b1 1 ++ b1 cause ++ b1 m ++ b1 0xFF ++ b4 (bitsSet us) ++ b8 s.beat ++ b4 (c.off % 2 ^ 24) ++ b4 (2 ^ 32 - 1) ++ b8 0)
  let pin := s.af (TRG_CTRL m) 20 16
  let s := if bit (s.rdA (TRG_CTRL m)) 23 ∧ s.rb TRG_IODIR pin then { s with pulses := (pin, s.beat + 1) :: s.pulses } else s
  let s := forEach us s (fun u s => if bit (s.rdA (TRG_TOK u)) 15 then tokenSend s u 0 c.pos c.off else s)
  let stopv := us.any (fun u => tuKind s.rdA u == 3 && bit (s.rdA (TRG_CTRL u)) 29)
  fireAccept s m ⟨c.pos, c.off, tm, cause, s.beat, c.tdc.isSome, stopv, forced, c.free, none⟩
/-- The decisions of the present boundary (R232, R244). -/
def decideGroup (s : State) (m : Nat) (ovrun : Bool) : State :=
  let x := s.unit m
  let mine := s.conds.filter (fun c => c.due ≤ s.beat && (groupOfUnit s.rdA m).contains c.unit)
  let leaving := s.disReq.any (fun r => r.1 == m && decide (r.2 ≤ s.beat))
  if x.st = 1 then
    let ok := mine.filter (fun c => decide (x.armBeat + c.lag ≤ s.beat))
    match firstCond ok with
    | some c => if leaving then s else groupFire s m c.unit ok c ovrun
    | none => s
  else if x.st = 2 ∧ bit (s.rdA (TRG_HOLD m)) 31 ∧ mine ≠ [] then
    showGroup (s.setUnit m { x with holdLeft := x.holdLeft - 1, holdTo := (if x.holdLeft = 1 then s.beat + 1 else x.holdTo) }) m
  else s
def decideAll (s : State) (ovrun : Bool) : State :=
  let s := forEach (masters s.rdA) s (fun m s => decideGroup s m ovrun)
  let s := { s with conds := s.conds.filter (fun c => !decide (c.due ≤ s.beat)) }
  -- a running TIME hold-off shows what is left of it
  let s := forEach (masters s.rdA) s (fun m s => if (s.unit m).st = 2 then showGroup s m else s)
  -- output pulses begin
  forEach (s.pulses.filter (fun p => p.2 == s.beat)) s (fun p s => s.put (.pin (16 + p.1) false))

/-- A group becomes ARMED at the present boundary (R231). -/
def armGroup (s : State) (m : Nat) : State :=
  let x := s.unit m
  let s := showGroup (s.setUnit m { x with st := 1, armBeat := s.beat }) m
  let s := forEach (groupOfUnit s.rdA m) s (fun u s => s.setUnit u { s.unit u with timeMet := false })
  forEach (groupOfUnit s.rdA m) s (fun u s => if bit (s.rdA (TRG_TOK u)) 14 then tokenSend s u 1 s.beat 0 else s)
def dropReq (l : List (Nat × Nat)) (m : Nat) : List (Nat × Nat) := l.filter (fun r => r.1 != m)
def dueReq (s : State) (l : List (Nat × Nat)) (m : Nat) : Bool := l.any (fun r => r.1 == m && decide (r.2 ≤ s.beat))
/-- The requests of a group that are not due yet stay. -/
def laterReq (s : State) (l : List (Nat × Nat)) (m : Nat) : List (Nat × Nat) := l.filter (fun r => !(r.1 == m && decide (r.2 ≤ s.beat)))
/-- Every group to IDLE without a trace of requests (R256). -/
def groupsIdle (s : State) : State :=
  let s := { s with armReq := [], disReq := [], forceReq := [], conds := [] }
  forEach (masters s.rdA) s (fun m s => showGroup (s.setUnit m { s.unit m with st := 0 }) m)

-- Rows
/-- A group is armed at its arm boundary: by TRG_ARM, or by an ARM token (R231, R258). -/
def execGroupArm (m : Nat) (s : State) : Res :=
  .next (if isMaster s.rdA m ∧ dueReq s s.armReq m then
    let s := { s with armReq := laterReq s s.armReq m }
    if (s.unit m).st = 1 then s else armGroup s m
  else s)
def execGroupDisarm (m : Nat) (s : State) : Res :=
  .next (if m < 32 ∧ dueReq s s.disReq m then
    showGroup ({ s with disReq := dropReq s.disReq m }.setUnit m { s.unit m with st := 0 }) m
  else s)
/-- TRG_FORCE fires at the boundary after arrival, at sample 0 of that beat (R258); not a group disarmed there (R232). -/
def execForcedFire (m : Nat) (s : State) : Res :=
  .next (if isMaster s.rdA m ∧ dueReq s s.forceReq m then
    let s := { s with forceReq := dropReq s.forceReq m }
    if (s.unit m).st = 1 ∧ !dueReq s s.disReq m then groupFire s m 0xFF [] ⟨m, s.beat, 0, s.beat, 0, none, false, 0⟩ false else s
  else s)
/-- The hold-off ends and the group is armed again (R233). -/
def execHoldoffEnd (m : Nat) (s : State) : Res :=
  let x := s.unit m
  let due := if bit (s.rdA (TRG_HOLD m)) 31 then x.holdLeft == 0 && decide (x.holdTo ≤ s.beat) else decide (x.holdTo ≤ s.beat)
  .next (if isMaster s.rdA m ∧ x.st = 2 ∧ due then armGroup s m else s)
/-- An output pulse ends one beat after it began; the pin is released unless another one holds it. -/
def execTrigioPulseEnd (pin : Nat) (s : State) : Res :=
  let past (p : Nat × Nat) : Bool := p.1 == pin && decide (p.2 + 1 ≤ s.beat)
  .next (if s.pulses.any past then
    let s := { s with pulses := s.pulses.filter (fun p => !past p) }
    if s.pulses.any (fun p => p.1 == pin && decide (p.2 ≤ s.beat)) then s else s.put (.pin (16 + pin) true)
  else s)
/-- A trace block whose newest frame began before beat `b` is open, and a slot of its lane tests mask `m` on that trace. -/
def blockHeld (l : LaneSt) (m b : Nat) : Bool :=
  l.traces.any (fun x => decide (0 < x.n) && decide (x.posBeat < b) && fld (lcMask x.lane) 18 16 == 1 + x.t &&
    [0, 1].any (fun i => bit (lcMask x.lane) (8 * i + 7) && fld (lcMask x.lane) (8 * i + 5) (8 * i) == m))
/-- No spectrum of a lane whose first input sample lies before beat `b` is still to be tested with mask `m`. -/
def laneTested (s : State) (m b p : Nat) : Bool :=
  let l := s.lane p
  let f := s.rdA (SLC_LFFT (p / 2) (p % 2))
  let ahead : Int := ((l.nextAt : Int) + fftN f - fftM f - l.total) / (max 1 (pathS s s.rdA p) : Nat)
  !blockHeld l m b && l.flights.all (fun f => decide (b ≤ f.posBeat)) && (!l.on || decide ((b : Int) ≤ s.beat + ahead))
/-- The spectra of the old version have been tested: it is released (R239). -/
def busyReg (m : Nat) : Nat := if m < 32 then TRG_MSKBUSY_LO else TRG_MSKBUSY_HI
def execMaskVersionRelease (m : Nat) (s : State) : Res :=
  .next (if m < 64 ∧ (maskOf s m).fromBeat ≤ s.beat ∧ (List.range 32).all (laneTested s m (maskOf s m).fromBeat) ∧
      s.maskRes.all (fun r => decide ((maskOf s m).fromBeat ≤ r.posBeat)) then
    let x := maskOf s m
    { s with masks := Sparse.set (fun _ => {}) s.masks m { x with oldDir := x.dir, old := x.verts } }.setB (busyReg m) (m % 32) false
  else s)

-- Commands (R257, R258)
def trgRegs (u : Nat) : List Nat :=
  [TRG_CTRL u, TRG_SRC u, TRG_THR u, TRG_PARAM u, TRG_PAT u, TRG_CARE u, TRG_HOLD u, TRG_TOK u, TRG_TIME_NS u, TRG_TIME_SLO u, TRG_TIME_SHI u]
def trgMasks : List Nat :=
  [0xFF9F0000, 0xF0FFFFFF, 0xFFFFFFFF, 0xFFFF, 0xFFFFFFFF, 0xFFFFFFFF, 0x81FFFFFF, 0xB0FFFFFF, 0xFFFFFFFF, 0xFFFFFFFF, 0xFFFF]
def execTrgConfig (q : Req) (s : State) : Res :=
  let u := u16 q.params 0
  .next (command s 0x0600 q (q.params.length == 48)
    [(decide (32 ≤ u) || !zeroAt q.params 2 2 || reservedSet q.params 4 trgMasks, ST_BAD_PARAM), (groupLocked s 50, ST_BUSY)]
    (reply (writeRegs s q.params 4 (trgRegs u)) 0x0600 q ST_OK []))
def masterList (p : List Byte) : List Nat := bitList 32 (u32 p 0)
def notMaster (s : State) (p : List Byte) : Bool := (masterList p).any (fun m => !isMaster s.rdA m)
/-- TRG_ARM on a group in HOLDOFF ends the hold-off: it is armed at the given boundary and not before (R233, R258). -/
def armLater (s : State) (m target : Nat) : State :=
  let s := if (s.unit m).st = 2 then showGroup (s.setUnit m { s.unit m with st := 0 }) m else s
  { s with armReq := s.armReq ++ [(m, target)] }
/-- The arm beat a reply gives: of a group already ARMED its own. -/
def armBeatOf (s : State) (l : List Nat) (target : Nat) : Nat :=
  match l with
  | [m] => if (s.unit m).st = 1 then (s.unit m).armBeat else target
  | _ => target
def execTrgArm (q : Req) (s : State) : Res :=
  let p := q.params
  let l := masterList p
  let abs := u32 p 4 == 1
  let target := if abs then u64 p 8 else s.beat + 1
  .next (command s 0x0601 q (p.length == 16)
    [(decide (2 ≤ u32 p 4) || notMaster s p, ST_BAD_PARAM), (r503 s || (abs && decide (target ≤ s.beat)), ST_STATE)]
    (reply (forEach l s (fun m s => if (s.unit m).st = 1 then s else armLater s m target))
      0x0601 q ST_OK (b8 (armBeatOf s l target))))
def execTrgDisarm (q : Req) (s : State) : Res :=
  let p := q.params
  .next (command s 0x0602 q (p.length == 8) [(!zeroAt p 4 4 || notMaster s p, ST_BAD_PARAM)]
    (reply (forEach (masterList p) s (fun m s =>
      if (s.unit m).st = 0 then s else { s with disReq := dropReq s.disReq m ++ [(m, s.beat + 1)] })) 0x0602 q ST_OK (b8 (s.beat + 1))))
def execTrgForce (q : Req) (s : State) : Res :=
  let p := q.params
  .next (command s 0x0603 q (p.length == 8)
    [(!zeroAt p 4 4 || notMaster s p, ST_BAD_PARAM), (r503 s || (masterList p).any (fun m => (s.unit m).st != 1), ST_STATE)]
    (reply (forEach (masterList p) s (fun m s => { s with forceReq := dropReq s.forceReq m ++ [(m, s.beat + 1)] }))
      0x0603 q ST_OK (b8 (s.beat + 1))))
/-- MASK_LOAD (R239): a new version for spectra that begin in the next beat or later. -/
def maskVerts (p : List Byte) : List (Nat × Int) :=
  (List.range (u16 p 2)).map (fun i => (u16 p (4 + 4 * i), sext 16 (u16 p (6 + 4 * i))))
def ascending : List (Nat × Int) → Bool
  | a :: b :: t => decide (a.1 < b.1) && ascending (b :: t)
  | _ => true
def maskBusy (s : State) (m : Nat) : Bool := s.rb (busyReg m) (m % 32)
def maskLoad (s : State) (m dir : Nat) (v : List (Nat × Int)) : State :=
  let x := maskOf s m
  { s with masks := Sparse.set (fun _ => {}) s.masks m ⟨dir, v, x.dir, x.verts, s.beat + 1⟩ }.setB (busyReg m) (m % 32) true
def execMaskLoad (q : Req) (s : State) : Res :=
  let p := q.params
  .next (command s 0x0604 q (decide (4 ≤ p.length) && p.length == 4 + 4 * u16 p 2)
    [(decide (63 < u8 p 0 ∨ 1 < u8 p 1 ∨ 256 < u16 p 2) || !ascending (maskVerts p), ST_BAD_PARAM), (maskBusy s (u8 p 0), ST_BUSY)]
    (reply (maskLoad s (u8 p 0) (u8 p 1) (maskVerts p)) 0x0604 q ST_OK (b8 (s.beat + 1))))

-- Tokens (R245, R246)
/-- A token presented at the next boundary meets TOKEN units and arms groups. -/
def tokenPresent (s : State) (port : Nat) (c : List Byte) : State :=
  let at_ := s.beat + 1
  let both := u8 c 3 == 1 && gridOn s
  let pos := if both then u64 c 8 else at_
  let off := if both then u32 c 16 % 2 ^ 24 else 0
  if u8 c 0 = 0 then
    forEach (allUnits.filter (fun u => tuEn s.rdA u && tuKind s.rdA u == 9 && tuA s.rdA u == u8 c 1 && (tuB s.rdA u == port || tuB s.rdA u == 2))) s
      (fun u s => addCond s ⟨u, at_, 0, pos, off, none, !both, 0⟩)
  else
    forEach ((masters s.rdA).filter (fun m =>
      let k := s.rdA (TRG_TOK m)
      bit k 31 && fld k 23 16 == u8 c 1 && (fld k 29 28 == port || fld k 29 28 == 2))) s
      (fun m s => { s with armReq := s.armReq ++ [(m, at_)] })

end Sys2Proof.Machine
end

