-- ==== Sys2Proof/Machine/Tdc.lean ====
section
/-! DEFINITION. Edge Time-Stamping and Frequency Measurement (R428–R444). -/
namespace Sys2Proof.Machine

def setTdc (s : State) (t : TdcSt) : State := { s with ext := { s.ext with tdc := t } }
def tdcCh (s : State) (c : Nat) : TdcCh := Sparse.get (fun _ => {}) s.ext.tdc.chans c
def setTdcCh (s : State) (c : Nat) (x : TdcCh) : State := setTdc s { s.ext.tdc with chans := Sparse.set (fun _ => {}) s.ext.tdc.chans c x }
def freqUnit (s : State) (f : Nat) : FreqUnit := Sparse.get (fun _ => {}) s.ext.tdc.units f
def setFreq (s : State) (f : Nat) (x : FreqUnit) : State := setTdc s { s.ext.tdc with units := Sparse.set (fun _ => {}) s.ext.tdc.units f x }
/-- Cause `i` of TDC_EVTSTAT: vector 280 at the first boundary after it (R442). -/
def tdcCause (s : State) (i : Nat) : State :=
  let s := s.setB TDC_EVTSTAT i true
  if s.rb TDC_IRQEN i then { s with vecPend := 280 :: s.vecPend } else s
def calibrating (s : State) (c : Nat) : Bool := s.rb (TDC_CHSTAT c) 1

-- Stamping (R428)
/-- The disciplined time of ICLK edge `2·tclk + half` (R407). -/
def iclkTime (s : State) (tclk : Nat) (half : Bool) : Nat :=
  let d : Int := (2 * ((tclk : Int) - (s.time.c : Int)) + (if half then 1 else 0)) * 51200 * (2 ^ 40 + sext 32 (s.rdN TIM_RATE))
  ((s.time.o + rhu d 40) % timeWrap).toNat
def widthHits (s : State) (c i : Nat) : Nat :=
  let t := (tdcCh s c).table
  if t = [] then Config.tdcWidth c i else nth 0 t i
/-- The time of an edge from its ICLK edge and code: Δ(c) is exact, and the time rounds half up. -/
def stampTime (s : State) (c tclk : Nat) (half : Bool) (code : Nat) : Nat :=
  let below := ((List.range code).map (widthHits s c)).foldr (· + ·) 0
  let d : Int := -(51200 * (2 * below + widthHits s c code) : Nat)
  (((iclkTime s tclk half : Nat) : Int) + rdiv d (2 * 131072)).toNat
/-- The beat that contains a time, and the offset in it (2^-24 beat). -/
def beatOf (s : State) (t : Nat) : Nat × Nat :=
  match s.beatTimes.find? (fun p => decide (p.2.1 ≤ t)) with
  | some p => (p.1, min (2 ^ 24 - 1) ((t - p.2.1) * 2 ^ 24 / max 1 (beatsLong s 1 1)))
  | none => (s.beat, 0)
def stampBytes (c : Nat) (x : Stamp) : List Byte :=
  timeBytes x.t ++ b4 (c * 2 ^ 27 + (if x.rise then 0 else 2 ^ 26) + (if x.lost then 2 ^ 25 else 0) + (if x.dead then 2 ^ 24 else 0) +
    (if x.byp then 2 ^ 23 else 0) + (if x.step then 2 ^ 22 else 0) + x.beat % 2 ^ 22)
/-- The stream that takes a channel's queue, or a unit's results (R433, R435). -/
def takerOf (s : State) (c : Nat) : Option Nat :=
  (liveStreams s 8).find? (fun n => !(enSelect (s.entry n)).testBit 31 && enSource (s.entry n) % 32 == c)
def resultStream (s : State) (f : Nat) : Option Nat :=
  (liveStreams s 8).find? (fun n => (enSelect (s.entry n)).testBit 31 && enSource (s.entry n) % 4 == f)
/-- The Ringmaster's TRIGIO units see an edge (R242, R244). -/
def trigioEdge (s : State) (pin : Nat) (rise : Bool) (src pos off fl : Nat) (tdc : Option Nat) : State :=
  forEach (unitsOf s 6) s (fun u s =>
    if tuA s.rdB u = pin ∧ (tuB s.rdB u = 2 ∨ tuB s.rdB u = (if rise then 0 else 1)) then
      addCond s ⟨u, src + 2, 2, pos, off, tdc, false, fl⟩
    else s)
def trigioCycle (s : State) (pin : Nat) (rise : Bool) (b cyc : Nat) : State := trigioEdge s pin rise b b (cyc * 2 ^ 15) 0 none
def showQueue (s : State) (c : Nat) : State :=
  let n := (tdcCh s c).queue.length
  (s.wr (TDC_CHQFILL c) (w32 n)).setB (TDC_CHSTAT c) 0 (decide (4096 ≤ n))
/-- The queue takes a stamp, or loses it (R430, R431). -/
def queuePut (s : State) (c : Nat) (x : Stamp) : State :=
  let h := tdcCh s c
  if 4096 ≤ h.queue.length then (setTdcCh s c { h with lost := true }).addR (TDC_CHLOSTCNT c) 1
  else
    let s := showQueue ((setTdcCh s c { h with queue := h.queue ++ [x], lost := false }).addR (TDC_CHSTAMPCNT c) 1) c
    if (tdcCh s c).queue.length = s.rf (TDC_CHCTRL c) 11 0 then fire (tdcCause (s.addR (TDC_CHWMCNT c) 1) c) (336 + c) else s
/-- A stream takes a stamp; one of a beat before its enable lies in no group of it (R313, R434; log 93). -/
def stampItem (c n : Nat) (x : Stamp) (s : State) : State :=
  if fclkRuns s ∧ x.beat < (s.stream n).grp then s
  else
    let tm := boundaryTime s x.beat
    addItem s n ⟨stampBytes c x, x.beat, tm.1, tm.2, 0, if x.byp then F_BYP else 0⟩
/-- A beat's drain of a queue that a stream takes: 50 M stamps/s are 20 in 400 ns (R431, R433). -/
def tdcDrain (s : State) (c : Nat) : State :=
  match takerOf s c with
  | some n =>
    let h := tdcCh s c
    if h.queue = [] then s
    else forEach (h.queue.take 20) (showQueue (setTdcCh s c { h with queue := h.queue.drop 20 }) c) (fun x s => stampItem c n x s)
  | none => s
/-- At the end of a beat the queues that streams take are drained, and the groups that have ended are sealed once the queue
holds no more of them (R434). -/
def tdcEnded (s : State) (n c : Nat) (i : Item) : Bool :=
  let e := s.entry n
  let t := s.stream n
  let g := groupStart t e i.beat
  decide (g + groupLen e ≤ s.beat + 1) && (match (tdcCh s c).queue with | x :: _ => decide (g + groupLen e ≤ x.beat) | [] => true)
def tdcClose (s : State) (n c : Nat) : State :=
  let t := s.stream n
  if fclkRuns s then
    let l := t.items.filter (tdcEnded s n c)
    if l = [] then s else tdcSeal (s.setStream n { t with items := t.items.filter (fun i => !tdcEnded s n c i) }) n l 0
  else if (s.tick + 1) % groupLen (s.entry n) = 0 then itemSeal s n 0 else s
def tdcStreams (s : State) : State :=
  let l := (liveStreams s 8).filter (fun n => !(enSelect (s.entry n)).testBit 31)
  let s := forEach (List.range 17) s (fun c s => tdcDrain s c)
  forEach l s (fun n s => tdcClose s n (enSource (s.entry n) % 32))
def wants (s : State) (c : Nat) (rise : Bool) : Bool :=
  s.rb (TDC_CHCTRL c) 31 && (s.rf (TDC_CHCTRL c) 30 29 == 2 || s.rf (TDC_CHCTRL c) 30 29 == (if rise then 0 else 1))

-- Frequency units (R438)
/-- A unit takes a stamp of its channel; `edge`: it is of the unit's polarity. -/
def freqStamp (u : FreqUnit) (dlog : Nat) (x : Stamp) (edge : Bool) : FreqUnit :=
  let odd := x.dead || x.byp || x.lost
  let u := { u with byp := u.byp || x.byp }
  if !edge then { u with badSince := u.badSince || odd }
  else
    let keep := u.k % 2 ^ dlog == 0
    let u' := { u with k := u.k + 1 }
    if !keep then { u' with badSince := u.badSince || odd }
    else if 2 ^ 20 ≤ u.n then { u' with cap := true }
    else
      let t0 := if u.n = 0 then x.t else u.t0
      let t : Int := (x.t : Int) - (t0 : Int)
      let k : Int := (u.k : Nat)
      let bad := u.bad || odd || (u.badSince && u.n != 0)
      { u' with
        n := u.n + 1, t0 := t0, sk := u.sk + k, skk := u.skk + k * k, st := u.st + t, stt := u.stt + t * t, skt := u.skt + k * t,
        bad := bad, badSince := false }
/-- The beat or tick by which gates count a stamp (R22, R439). -/
def gateBeat (s : State) (x : Stamp) : Nat := if fclkRuns s then x.beat else s.tick
def freqTake (s : State) (c : Nat) (x : Stamp) : State :=
  forEach [0, 1, 2, 3] s (fun f s =>
    let u := freqUnit s f
    if u.run ∧ s.rf (TDC_FCTRL f) 4 0 = c ∧ u.since ≤ gateBeat s x ∧ gateBeat s x < u.stop then
      setFreq s f (freqStamp u (s.rf (TDC_FCTRL f) 24 20) x (x.rise == (s.rf (TDC_FCTRL f) 28 27 == 0)))
    else s)

-- Edges (R428–R431)
/-- A stamp of channel `c` goes to its consumers; `cyc` is the FCLK cycle of the edge in beat `b`. -/
def stampOut (s : State) (c t : Nat) (rise dead : Bool) (b cyc : Nat) : State :=
  let h := tdcCh s c
  let q := wants s c rise
  let pos := beatOf s t
  let byp := s.rb CLK_BYP 9 || s.rb CLK_BYP 10
  let full := decide (4096 ≤ h.queue.length)
  let x : Stamp := ⟨t, rise, h.lost && q && !full, dead, byp, decide (h.jump ≠ s.time.jumpNo), pos.1⟩
  let s := setTdcCh s c { h with jump := s.time.jumpNo }
  let s := if dead then s.addR (TDC_CHDEADCNT c) 1 else s
  let s := freqTake s c x
  let s := if q then queuePut s c x else s
  if c < 16 then (if full then trigioCycle s c rise b cyc else trigioEdge s c rise pos.1 pos.1 pos.2 (if byp then F_BYP else 0) (some t))
  else if rise ∧ !byp then
    let half : Int := 32768000000000
    let e := ((t : Int) - sext 32 (s.rdN TIM_PPSDLY) * 4096 + half) % 65536000000000 - half
    setTime s { s.time with samples := s.time.samples ++ [⟨2, e, 1000000000, false, false⟩] }
  else s
/-- The TDC is powered (R500, R504). -/
def tdcOn (s : State) : Bool :=
  !s.bt.porst && !s.bt.off && pwrState s != PS_HIBERNATE && !(s.hibernated && decide (s.stepNo ≤ 2))
def blind (s : State) (c t : Nat) : Bool := match (tdcCh s c).last with | some (t0, _) => decide (t < t0 + 4 * 65536) | none => false
/-- An edge at the pin of channel `c`: the ICLK edge after it, the interpolator's code, and the FCLK cycle in which the
level is first seen. An edge within 4 ns of the one before it, or of a calibrating channel, is not detected. -/
def execTdcEdge (c : Nat) (rise : Bool) (tclk : Nat) (half : Bool) (code : Nat) (cyc : Nat) (s : State) : Res :=
  let s' := setClock { s with cyc := cyc % 512 } tclk
  let t := stampTime s' c tclk half (code % 1024)
  .next (if 17 ≤ c ∨ !tdcOn s ∨ calibrating s c ∨ blind s' c t then s
  else
    let s' := stampOut s' c t rise false s.beat (cyc % 512)
    setTdcCh s' c { tdcCh s' c with last := some (t, rise, cyc % 512, s.beat) })
/-- 4 ns after a detected edge: a level that differs from the one it left is stamped as DEAD (R429). -/
def execBlindTimeEnd (c : Nat) (level : Bool) (s : State) : Res :=
  .next (match (tdcCh s c).last with
  | some (t, rise, _, _) =>
    let s := setTdcCh s c { tdcCh s c with last := none }
    let p := beatOf s (t + 4 * 65536)
    if level = rise ∨ !tdcOn s ∨ calibrating s c then s else stampOut s c (t + 4 * 65536) level true p.1 (p.2 / 2 ^ 15)
  | none => s)

-- The queue (R433)
/-- Pop up to `n` stamps of a channel that no stream takes. -/
def tdcPop (s : State) (c n : Nat) : List Stamp × State :=
  if (takerOf s c).isSome then ([], s)
  else
    let h := tdcCh s c
    (h.queue.take n, showQueue (setTdcCh s c { h with queue := h.queue.drop n }) c)

-- Width calibration (R436, R437)
def calStart (s : State) (c : Nat) : State := (setTdcCh s c { tdcCh s c with last := none }).setB (TDC_CHSTAT c) 1 true
def calFail (s : State) (c res : Nat) : State :=
  report ((s.setB (TDC_CHSTAT c) 1 false).setF (TDC_CHCALSTAT c) 1 0 res) 20 c
/-- Every running calibration fails: ICLK has switched to bypass. -/
def calLost (s : State) : State := forEach (List.range 17) s (fun c s => if calibrating s c then calFail s c 2 else s)
/-- A hit count that R436 does not accept: a hole below the highest code hit, or a width above 8 ps. -/
def histBad (h : List Nat) : Bool :=
  let top := (List.range 1024).foldr (fun i m => if m = 0 ∧ nth 0 h i ≠ 0 then i else m) 0
  (List.range top).any (fun i => nth 0 h i == 0) || h.any (fun n => decide (8 * 131072 * 100 < n * 78125))
/-- The hits of a calibration run are in. -/
def execWidthCalEnd (c : Nat) (hits : List Nat) (s : State) : Res :=
  .next (if 17 ≤ c ∨ !calibrating s c then s
  else if histBad hits then calFail s c 2
  else
    let s := setTdcCh s c { tdcCh s c with table := hits.take 1024 }
    let s := (s.setB (TDC_CHSTAT c) 1 false).wr (TDC_CHCALSTAT c) (w32 (s.beat % 2 ^ 30 * 4 + 1))
    fire (tdcCause s 21) 357)
def ppsInUse (s : State) : Bool := servoSrc s == 2
/-- RECAL minutes have passed: firmware calibrates the next channel in turn. -/
def execTdcRecal (s : State) : Res :=
  .next (if s.rf TDC_CTRL 15 0 = 0 then s
  else
    let c := if s.ext.tdc.next % 17 = 16 ∧ ppsInUse s then 0 else s.ext.tdc.next % 17
    let s := setTdc s { s.ext.tdc with next := (c + 1) % 17 }
    if calibrating s c then s else calStart s c)

-- Group 0x0A, TDC (R441)
def chctrlBad (v : Word) : Bool := fld v 28 12 != 0 || fld v 30 29 == 3 || fld v 11 0 == 0
def execTdcChanSet (q : Req) (s : State) : Res :=
  let p := q.params
  let v := w32 (u32 p 4)
  .next (command s 0x0A10 q (p.length == 8)
    [(decide (16 < u16 p 0) || !zeroAt p 2 2 || chctrlBad v, ST_BAD_PARAM)]
    (reply (s.wr (TDC_CHCTRL (u16 p 0)) v) 0x0A10 q ST_OK []))
/-- TDC_CAL: with ABORT the named channels that calibrate stop and keep their tables. -/
def tdcCal (q : Req) (s : State) : State :=
  let p := q.params
  let l := bitList 17 (u32 p 0)
  let abort := u32 p 4 == 1
  command s 0x0A11 q (p.length == 8)
    [(decide (2 ^ 17 ≤ u32 p 0) || decide (1 < u32 p 4), ST_BAD_PARAM),
     (!abort && l.any (calibrating s), ST_BUSY), (!abort && l.contains 16 && ppsInUse s, ST_IN_USE)]
    (if abort then reply (forEach l s (fun c s => if calibrating s c then calFail s c 3 else s)) 0x0A11 q ST_OK []
    else reply (forEach l s (fun c s => calStart s c)) 0x0A11 q ST_ACCEPTED [])
def execTdcCal (q : Req) (s : State) : Res := .next (tdcCal q s)
def execTdcCalAbort (q : Req) (s : State) : Res := .next (tdcCal q s)
def execTdcRead (q : Req) (s : State) : Res :=
  let p := q.params
  let c := u16 p 0
  let r := tdcPop s c (u16 p 2)
  .next (command s 0x0A12 q (p.length == 4)
    [(decide (16 < c) || decide (u16 p 2 < 1 ∨ 254 < u16 p 2), ST_BAD_PARAM), ((takerOf s c).isSome, ST_IN_USE)]
    (reply r.2 0x0A12 q ST_OK (b2 r.1.length ++ b2 0 ++ r.1.flatMap (stampBytes c))))
/-- FREQ_START, or with STOP the end of a unit (R439, R441). -/
def freqBad (p : List Byte) : Bool :=
  decide (3 < u8 p 0) || decide (15 < u8 p 1) || decide (1 < u8 p 2) || decide (20 < u8 p 3) || decide (16 < u16 p 4) ||
  !zeroAt p 6 2 || decide (u32 p 8 < 1 ∨ 1000000 < u32 p 8)
def freqGo (s : State) (p : List Byte) (start : Nat) : State :=
  let f := u8 p 0
  let fl := u8 p 1
  let s := s.wr (TDC_FCTRL f) (w32 ((if fl.testBit 0 then 2 ^ 30 else 0) + (if fl.testBit 2 then 2 ^ 29 else 0) + u8 p 2 * 2 ^ 27 +
    u8 p 3 * 2 ^ 20 + u16 p 4))
  let s := s.wr (TDC_FGATE f) (w32 (u32 p 8))
  let u : FreqUnit := { start := start, since := start, stop := start + 2500 * u32 p 8, run := true, abs := fl.testBit 1, result := (freqUnit s f).result, shown := (freqUnit s f).shown }
  setFreq s f u
def freqCmd (q : Req) (s : State) : State :=
  let p := q.params
  let stop := (u8 p 1).testBit 3
  let abs := (u8 p 1).testBit 1
  let start := if abs && !stop then u64 p 12 else beatOrTick s + 1
  command s 0x0A13 q (p.length == 20)
    [(freqBad p, ST_BAD_PARAM),
     (abs && !stop && decide (u64 p 12 ≤ beatOrTick s), ST_STATE)]
    (if stop then
      let u := freqUnit s (u8 p 0)
      reply (setFreq s (u8 p 0) { u with endAt := some (beatOrTick s + 1), stop := min u.stop (beatOrTick s + 1) }) 0x0A13 q ST_OK (b8 start)
    else reply (freqGo s p start) 0x0A13 q ST_OK (b8 start))
def execFreqStart (q : Req) (s : State) : Res := .next (freqCmd q s)
def execFreqStop (q : Req) (s : State) : Res := .next (freqCmd q s)
/-- At a boundary: gates that start open and show RUN, stopped units end. -/
def tdcBoundary (s : State) : State :=
  forEach (s.ext.tdc.units.map Prod.fst) s (fun f s =>
    let u := freqUnit s f
    match u.endAt with
    | some b => if b ≤ beatOrTick s then (setFreq s f { u with run := false, opened := false, endAt := none }).setB (TDC_FCTRL f) 31 false else s
    | none =>
      if u.run ∧ !u.opened ∧ u.since ≤ beatOrTick s then
        (setFreq s f { u with opened := true, jump := s.time.jumpNo, startTime := boundaryTime s s.beat }).setB (TDC_FCTRL f) 31 true
      else s)

/-- The fit of R438: FRES in 2^-32 Hz, and FRMS in fs. -/
def freqDen (u : FreqUnit) : Int := u.n * u.skk - u.sk * u.sk
def freqNum (u : FreqUnit) : Int := u.n * u.skt - u.sk * u.st
def fres (u : FreqUnit) : Nat := (rdiv (freqDen u * 65536000000000 * 2 ^ 32) (freqNum u).toNat).toNat % 2 ^ 64
def frms (u : FreqUnit) : Nat :=
  let d := freqDen u
  let m := freqNum u
  let rss := (u.n * u.stt - u.st * u.st) * d - m * m
  let den := (u.n * d).toNat * (u.n - 2) * 65536 * 65536
  min 0xFFFFFFFF ((isqrt (rss.toNat * 10 ^ 12 * 4 / max 1 den) + 1) / 2)
/-- The gate's result; with fewer than 3 samples no rule gives FRES and FRMS. -/
def gateResult (s : State) (f : Nat) (u : FreqUnit) : State × FreqRes :=
  let few := decide (u.n < 3) || decide (freqNum u ≤ 0) || decide (freqDen u ≤ 0)
  let st := if few || u.bad then 2 else if u.jump ≠ s.time.jumpNo then 3 else 1
  let fn := st * 2 ^ 30 + (if u.cap then 2 ^ 29 else 0) + u.n
  let r : FreqRes := ⟨u.stop + 2, fres u, frms u, fn, u.start, u.stop, u.byp, s.rb (TDC_FCTRL f) 29, s.rf (TDC_FCTRL f) 4 0, u.startTime.1, u.startTime.2⟩
  if few then (s.useFree, { r with fres := s.fresh % 2 ^ 64, frms := s.fresh / 2 ^ 64 % 2 ^ 32 }) else (s, r)
/-- The end boundary of a unit's gate (R438, R439). -/
def execFreqGateEnd (f : Nat) (s : State) : Res :=
  let u := freqUnit s f
  .next (if 4 ≤ f ∨ !u.run ∨ u.endAt.isSome ∨ beatOrTick s < u.stop then s
  else
    let r := gateResult s f u
    let s := r.1
    if s.rb (TDC_FCTRL f) 30 then
      let v : FreqUnit := { start := u.stop, since := u.stop, stop := u.stop + 2500 * s.rf (TDC_FGATE f) 19 0, run := true, opened := true, jump := s.time.jumpNo, startTime := boundaryTime s s.beat, result := some r.2, shown := u.shown }
      setFreq s f v
    else
      let v : FreqUnit := { result := some r.2, shown := u.shown }
      (setFreq s f v).setB (TDC_FCTRL f) 31 false)
/-- The result at boundary end + 2 (R435, R439). -/
def execFreqResultWrite (f : Nat) (s : State) : Res :=
  .next (match (freqUnit s f).result with
  | some r =>
    if 4 ≤ f ∨ beatOrTick s < r.due then s
    else
      let s := setFreq s f { freqUnit s f with result := none, shown := r.start }
      let s := ((s.wr64 (TDC_FRES_LO f) r.fres).wr (TDC_FRMS f) (w32 r.frms)).wr (TDC_FN f) (w32 r.fn)
      let s := fire (tdcCause s (17 + f)) (353 + f)
      if !r.record then s
      else
        match resultStream s f with
        | some n =>
          if r.start < (s.stream n).since then s
          else sealUnits s n (s.entry n) ⟨8, (if r.byp then F_BYP else 0), 0, r.start, r.time, r.tf, r.chan + 256, s.rdN (TDC_CHLOSTCNT r.chan)⟩
            [b8 r.fres ++ b4 r.frms ++ b4 r.fn ++ b8 r.start ++ b8 r.stop] false false
        | none => s
  | none => s)
def execFreqResult (q : Req) (s : State) : Res :=
  let f := u8 q.params 0
  .next (command s 0x0A14 q (q.params.length == 4)
    [(decide (3 < f) || !zeroAt q.params 1 3, ST_BAD_PARAM)]
    (reply s 0x0A14 q ST_OK (b8 (s.rd64 (TDC_FRES_LO f)) ++ bw (s.rd (TDC_FRMS f)) ++ bw (s.rd (TDC_FN f)) ++ b8 (freqUnit s f).shown)))
def execTdcStatus (q : Req) (s : State) : Res :=
  let c := u16 q.params 0
  .next (command s 0x0A15 q (q.params.length == 4)
    [(decide (16 < c) || !zeroAt q.params 2 2, ST_BAD_PARAM)]
    (reply s 0x0A15 q ST_OK ([TDC_CHSTAT c, TDC_CHQFILL c, TDC_CHSTAMPCNT c, TDC_CHLOSTCNT c, TDC_CHDEADCNT c, TDC_CHCALSTAT c, TDC_WARM].flatMap
      (fun a => bw (s.rd a)))))

-- Reference warm-up (R440)
def rpllLocked (s : State) : Bool := s.rb CLK_LOCK 0
def setWarm (s : State) (w : Bool) : State :=
  if s.rb TDC_WARM 31 = w then s
  else
    let s := fire (tdcCause ((s.setB TDC_WARM 31 w).setB TIM_STAT 25 w) 22) 358
    if w then s else report s 21 0xFFFF
/-- With WSRC 0, TB_WARM follows the pin (R440). -/
def warmFollow (s : State) : State :=
  if s.rb TDC_WARM 30 then s else setWarm s (rpllLocked s && s.ext.tdc.ocxo == s.rb TDC_WARM 29)
/-- OCXO_WARM has held a level for 1 ms. -/
def execOcxoWarmChange (level : Bool) (s : State) : Res := .next (warmFollow (setTdc s { s.ext.tdc with ocxo := level }))
def rateSpread (l : List Int) : Int := l.foldr max (l.headD 0) - l.foldr min (l.headD 0)
/-- Firmware looks at the criterion, the RPLL having been locked for `secs` seconds. -/
def execTbWarmCriterion (secs : Nat) (s : State) : Res :=
  let steady := decide (16 ≤ s.time.rates.length) && decide (rateSpread s.time.rates * 1000000000 ≤ (s.rf TDC_WARM 15 0 : Int) * 2 ^ 40)
  .next (if s.rb TDC_WARM 30 && rpllLocked s && decide (s.rf TDC_WARM 28 16 ≤ secs) && (servoSrc s == 0 || steady) then setWarm s true
  else s)
/-- TRIGIO_LEVEL_CHANGE (R242, R491, R589): the FCLK cycle `cyc` of the present beat is the first to see the new level of a
pin. The Ringmaster takes TRIGIO16–31 from here, and the pin of a channel that calibrates (R437); the other edges of
TRIGIO0–15 reach it as TDC stamps (TDC_EDGE). -/
def trigioLevel (s : State) (pin : Nat) (level : Bool) (cyc : Nat) : State :=
  let s := fire { s with cyc := cyc } (if level then 384 + pin else 416 + pin)
  let s := if level then s else monAsk s 5 pin
  if 16 ≤ pin || calibrating s pin then trigioCycle s pin level s.beat cyc else s
def execTrigioLevelChange (pin : Nat) (level : Bool) (cyc : Nat) (s : State) : Res :=
  .next (if pin < 32 ∧ fclkRuns s then trigioLevel s pin level (cyc % 512) else s)
/-- PORST_N, WARM_RST_N (R444). -/
def tdcClear (s : State) : State := setTdc s { ocxo := s.ext.tdc.ocxo }
/-- Firmware calibrates every channel at boot (R436). -/
def tdcBoot (s : State) : State := forEach (List.range 17) s (fun c s => calStart s c)
/-- ICLK or TCLK has switched to bypass: stamps of this beat and the one before carry BYP (R457). -/
def bypStamp (b : Nat) (x : Stamp) : Stamp := if b ≤ x.beat + 1 then { x with byp := true } else x
def bypItem (b : Nat) (i : Item) : Item :=
  if b ≤ i.beat + 1 then { i with flags := i.flags ||| F_BYP, bytes := setNth i.bytes 14 (nth 0 i.bytes 14 ||| 0x80) } else i
def markStamps (s : State) : State :=
  let b := s.beat
  let s := setTdc s { s.ext.tdc with chans := s.ext.tdc.chans.map (fun (p : Nat × TdcCh) =>
    (p.1, { p.2 with queue := p.2.queue.map (bypStamp b) })) }
  forEach (liveStreams s 8) s (fun n s => s.setStream n { s.stream n with items := (s.stream n).items.map (bypItem b) })

end Sys2Proof.Machine
end

