-- ==== Sys2Proof/Machine/Clock.lean ====
section
/-! DEFINITION. Clock Synthesis and Clock Domains (R445–R465): bypass and relock, phase steps, SYNCIN arming, group 0x0B. -/
namespace Sys2Proof.Machine

def setClk (s : State) (c : ClkSt) : State := { s with ext := { s.ext with clk := c } }
def onBypass (s : State) (n : Nat) : Bool := s.rb CLK_BYP n
def locked (s : State) (n : Nat) : Bool := s.rb CLK_LOCK n
def clkSrc (s : State) : Nat := s.rf CLK_STAT 31 30
def sclkMhz (s : State) : Nat := s.rf CLK_STAT 29 16
/-- The synthesisers present (R446). -/
def synthPresent (s : State) (n : Nat) : Bool :=
  if n = 0 then true
  else if n ≤ 4 then quadPresent s (n - 1)
  else if n = 8 then nvmePorts s != 0
  else if n = 11 then displayPresent s
  else decide (n < 16)
/-- A synthesiser and those whose reference it provides: the RPLL feeds all of the MDLLs and VCLK (R452, R455). -/
def dependants (s : State) (n : Nat) : List Nat :=
  (if n = 0 then (List.range 12) else [n]).filter (fun k => synthPresent s k && !(clkSrc s == 1 && decide (1 ≤ k ∧ k ≤ 4) && n == 0))
/-- Data of the quadrants on bypass in this beat, and of the beat before, carry BYP (R457); SCLK_A clocks FCLK and so every
unit. Number 4 stands for what the engines make, which DCLK clocks too. -/
def bypQuads (s : State) : List Nat :=
  let fclk := quadBypass s 0
  (List.range 4).filter (fun q => fclk || quadBypass s q) ++ (if fclk || onBypass s 5 then [4] else [])
/-- OR a flag into the entry that is the `n`th from the end. -/
def flagBack (f n : Nat) : List (Nat × Nat × Nat) → List (Nat × Nat × Nat)
  | [] => []
  | x :: t => (if t.length + 1 = n then (x.1, x.2.1, x.2.2 ||| f) else x) :: flagBack f n t
def flagIq (f n : Nat) : List (List Cx × Nat × Bool) → List (List Cx × Nat × Bool)
  | [] => []
  | x :: t => (if t.length + 1 = n then (x.1, x.2.1 ||| f, x.2.2) else x) :: flagIq f n t
def orFlagBytes (m : Nat) (b : List Byte) : List Byte := b.take 12 ++ b4 (u32 b 12 ||| m) ++ b.drop 16
/-- Flag the records of a stream that satisfy `p`. -/
def flagQueue (s : State) (n f : Nat) (p : QRec → Bool) : State :=
  s.setStream n { s.stream n with
    queue := (s.stream n).queue.map (fun (r : QRec) => if p r then { r with bytes := orFlagBytes f r.bytes } else r) }
/-- A flag on everything that lanes hold or have handed on and that contains data of beat `b`, which ended `k` beats ago,
of the paths `inP` (R62): frames in flight, spectra, open blocks, outputs on their way. -/
def markLanes (s : State) (inP : Nat → Bool) (b k f : Nat) : State :=
  let held (x y : Nat) : Bool := decide (x ≤ b ∧ b ≤ y)
  { s with
    specs := s.specs.map (fun (x : Spec) => if inP x.path && held x.posBeat x.beat then { x with flags := x.flags ||| f } else x),
    prods := s.prods.map (fun (x : Product) =>
      if inP (2 * x.slice + x.lane) && held x.first x.beat then { x with flags := x.flags ||| f } else x),
    lanes := s.lanes.map (fun (p : Nat × LaneSt) => if inP p.1 then
      (p.1, { p.2 with
        bflags := flagBack f k p.2.bflags,
        traces := p.2.traces.map (fun (x : TraceSt) =>
          if decide (0 < x.n) && held x.first x.lastBeat then { x with flags := x.flags ||| f } else x) })
      else p) }
/-- The same for what the paths deliver beside: IQ records, open or sealed, and units on their way to the Carousel. -/
def markPaths (s : State) (inP : Nat → Bool) (b k f : Nat) : State :=
  let s := { s with carIn := s.carIn.map (fun (u : CarUnit) =>
    if u.num = b ∧ (bitList 32 (carPathsOf s.rdA u.chan)).any inP then { u with flags := u.flags ||| f } else u) }
  let s := forEach (liveStreams s 2) s (fun n s =>
    if inP (enSource (s.entry n) % 32) then
      let s := flagQueue s n f (fun r => decide (r.beat ≤ b ∧ b ≤ r.sealedAt))
      s.setStream n { s.stream n with iq := flagIq f k (s.stream n).iq }
    else s)
  markLanes s inP b k f
/-- BYP attached to the input samples of the beat before reaches the output beats still to come too (R163). -/
def bypLater (s : State) (n : Nat) : State :=
  let p := s.path n
  if !p.run ∨ p.prev = [] then s
  else
    let sin := sIn s
    let l := (flagBeats (grpDly s n (delayBank p) p.prev / 256) sin F_BYP 0 (sin - 1)).filter (fun x => x.1 != 0)
    s.setPath n { p with flagsAt := p.flagsAt ++ l.map (fun x => (x.1 - 1, x.2)) }
/-- BYP on what was made in the beat before, of the quadrants `qs` (R457). -/
def markByp (s : State) (qs : List Nat) : State :=
  let b := s.beat - 1
  let s := forEach ((List.range 32).filter (fun n => qs.contains (n / 8))) s (fun n s => bypLater s n)
  let s := if qs.contains 0 then forEach (liveStreams s 5) s (fun n s => flagQueue s n F_BYP (fun r => r.sealedAt + 1 == s.beat)) else s
  let s := if qs.contains 4 then forEach (liveStreams s 10) s (fun n s => flagQueue s n F_BYP (fun r => r.beat == b)) else s
  let s := forEach ((allCores s).filter (fun n => qs.contains (n / 8))) s (fun n s => s.setCore n { s.core n with ivlEnd := false })
  markPaths s (fun p => qs.contains (p / 8)) b 1 F_BYP
/-- SCLK of quadrants runs on its bypass clock: calibration stops, converters show BYPASS, alignment and grid mode end
(R119, R423, R457). -/
def quadsBypass (s : State) (qs : List Nat) : State :=
  if qs = [] then s
  else
    let s := forEach qs { s with bypBeat := uniq (s.bypBeat ++ bypQuads s) } (fun q s => fgAbort s q 4)
    let s := forEach qs s (fun q s =>
      let s := s.setF (CLK_SMDLL q) 2 1 (if clkSrc s = 1 then 3 else 2)
      forEach (quadCores q) s (fun n s => if corePresent s n ∧ !(s.core n).down then s.setF (CNV_STAT n) 1 0 3 else s))
    let s := gridAbort s
    if qs.contains 0 then gridEnd s else s
/-- Synthesisers switch to bypass at a loss of lock. -/
def toBypass (s : State) (l : List Nat) : State :=
  let new := l.filter (fun k => decide (k < 12) && !onBypass s k)
  let s := forEach new s (fun k s => (s.setB CLK_BYP k true).addR CLK_BYPCNT 1)
  let s := forEach l s (fun k s => s.setB CLK_LOCK k false)
  let s := if new.contains 10 then calLost s else s
  let s := if new.contains 9 || new.contains 10 then markStamps s else s
  let qs := (List.range 4).filter (fun q => new.contains (1 + q))
  let s := if qs = [] ∧ !new.contains 5 then s
    else
      let all := bypQuads s
      markByp { s with bypBeat := uniq (s.bypBeat ++ all) } all
  quadsBypass s qs
def phoffAdd (s : State) (qs : List Nat) (n : Int) : State :=
  forEach qs s (fun q s => s.wr (CLK_PHOFF q) (i32 (sext 32 (s.rdN (CLK_PHOFF q)) + n)))
/-- Loss of lock while CLK_PHASE_STEP runs: the remaining steps are discarded (R459). -/
def phasesLost (s : State) (qs : List Nat) : State :=
  let hit (r : PhaseRun) : Bool := r.quads.any (fun q => qs.contains q)
  let lost := s.ext.clk.phases.filter hit
  let s := setClk s { s.ext.clk with phases := s.ext.clk.phases.filter (fun r => !hit r) }
  forEach lost s (fun r s => deny (phoffAdd s r.quads (phaseDone s r)) 0x0B02 r.req ST_HW_ERROR)
def bandWord (s : State) (q i : Nat) : Word := s.rd (CLK_BAND q i)
/-- A VALID entry whose range holds the target. -/
def bandFits (s : State) (q mhz i : Nat) : Bool :=
  bit (bandWord s q i) 31 && decide (fld (bandWord s q i) 11 0 * 5 ≤ mhz) && decide (mhz ≤ fld (bandWord s q i) 23 12 * 5)
def nextBand (s : State) (q from_ : Nat) : Option Nat := (List.range 32).find? (fun i => decide (from_ ≤ i) && bandFits s q (sclkMhz s) i)
/-- Sample MDLL `q` tries the next band entry, or gives up. -/
def tryBand (s : State) (q from_ : Nat) : State :=
  match nextBand s q from_ with
  | some i => ((s.setF (CLK_SMDLL q) 2 1 1).setF (CLK_SMDLL q) 12 8 i).setF (CLK_SMDLL q) 21 16 (fld (bandWord s q i) 29 24)
  | none =>
    let s := setClk s { s.ext.clk with gaveUp := q :: s.ext.clk.gaveUp.filter (fun k => k != q) }
    report ((s.setF (CLK_SMDLL q) 2 1 2).setB (CLK_SMDLL q) 0 true) 3 q
/-- Sample MDLL `q` may try its table again; it starts to lock afresh. -/
def mayTry (s : State) (q : Nat) : State := setClk s { s.ext.clk with gaveUp := s.ext.clk.gaveUp.filter (fun k => k != q) }
def tryFirst (s : State) (q : Nat) : State := tryBand (mayTry s q) q 0
/-- The step of a start that powers synthesiser `n`, which is off before it (R504). -/
def synthStep (n : Nat) : Nat :=
  match n with
  | 0 => 1 | 1 => 16 | 2 => 16 | 3 => 17 | 4 => 17 | 5 => 34 | 6 => 2 | 7 => 4 | 8 => 5 | 9 => 2 | 10 => 2 | 11 => 38
  | 14 => 7 | 15 => 8 | _ => 0
/-- The RPLL is back: the sample MDLLs that are powered start to lock, but for those that have tried every entry in vain (R450). -/
def mdllsTry (s : State) : State :=
  if clkSrc s = 1 then s
  else forEach (List.range 4) s (fun q s => if quadPresent s q && decide (synthStep (1 + q) < s.stepNo) && onBypass s (1 + q) &&
    !locked s (1 + q) && !s.ext.clk.gaveUp.contains q then tryFirst s q else s)
/-- A power-state change or a reset: the sample MDLLs that gave up try their tables again (R450). -/
def mdllsRetry (s : State) : State :=
  if clkSrc s = 1 ∨ onBypass s 0 then setClk s { s.ext.clk with gaveUp := [] }
  else forEach s.ext.clk.gaveUp s (fun q s => tryFirst s q)
/-- Loss of lock of synthesiser `n` (R448, R455, R465). -/
def lossOfLock (s : State) (n : Nat) : State :=
  let l := dependants s n
  let s := phasesLost s ((List.range 4).filter (fun q => l.contains (1 + q)))
  let s := toBypass (s.setB CLK_LOL n true) l
  let s := if n = 0 then setWarm s false else s
  let s := if 1 ≤ n ∧ n ≤ 4 ∧ !onBypass s 0 ∧ clkSrc s = 0 then tryFirst s (n - 1) else s
  if n = 0 then report s 0 0 else if n ≤ 4 then report s 1 (n - 1) else report s 2 n
def execRefinLoss (cyc : Nat) (s : State) : Res :=
  let s := { s with cyc := cyc % 512 }
  .next (if s.rb CLK_STAT 7 then
    let s := s.setB CLK_STAT 7 false
    if locked s 0 then lossOfLock s 0 else report s 0 0
  else s)
def execRefinReturn (s : State) : Res := .next (s.setB CLK_STAT 7 true)
def execSynthLossOfLock (n : Nat) (cyc : Nat) (s : State) : Res :=
  .next (if n < 12 ∧ synthPresent s n ∧ locked s n then lossOfLock { s with cyc := cyc % 512 } n else s)

-- Locking (R449, R450, R456)
/-- The reference of synthesiser `n` has left bypass; SCLKIN clocks the quadrants without the RPLL (R451). -/
def refGood (s : State) (n : Nat) : Bool :=
  if n = 0 then s.rb CLK_STAT 7 else decide (12 ≤ n) || (clkSrc s == 1 && decide (n ≤ 4)) || !onBypass s 0
/-- Synthesiser `n` can lock: it is powered, its reference is good, and a sample MDLL is at a band entry that fits (R450). -/
def mayLock (s : State) (n : Nat) : Bool :=
  decide (synthStep n < s.stepNo) && refGood s n && (decide (12 ≤ n) || onBypass s n) &&
  (!decide (1 ≤ n ∧ n ≤ 4) || s.rf (CLK_SMDLL (n - 1)) 2 1 == 1)
/-- A synthesiser, or the monitor of an SCLKIN pin, detects lock. -/
def execSynthLock (n : Nat) (s : State) : Res :=
  .next (if n < 16 ∧ synthPresent s n ∧ !locked s n ∧ mayLock s n then
    let s := s.setB CLK_LOCK n true
    let s := if n = 0 then warmFollow s else s
    if 1 ≤ n ∧ n ≤ 4 then s.wr (CLK_PHOFF (n - 1)) 0 else s
  else s)
/-- What must be locked for synthesiser `n` to leave bypass: with SCLKIN the pin's monitor stands for the quadrant's MDLL. -/
def lockOf (s : State) (n : Nat) : Nat := if clkSrc s = 1 ∧ 1 ≤ n ∧ n ≤ 4 then 12 + (n - 1) / 2 else n
/-- A restart change calibrates every present quadrant once its SCLK has left bypass (R57, R129, R462). -/
def restartCal (s : State) : Bool := match s.restart with | some r => r.stopped && r.cal | none => false
def execBypassReturn (n : Nat) (s : State) : Res :=
  .next (if n < 12 ∧ onBypass s n ∧ locked s (lockOf s n) ∧ refGood s n then
    let s := s.setB CLK_BYP n false
    if n = 0 then mdllsTry s
    else if n ≤ 4 then
      let q := n - 1
      let s := s.setF (CLK_SMDLL q) 2 1 (if clkSrc s = 1 then 3 else 0)
      let s := forEach (quadCores q) s (fun k s => if s.rf (CNV_STAT k) 1 0 = 3 then s.setF (CNV_STAT k) 1 0 2 else s)
      if restartCal s then fgBegin s q else s
    else s
  else s)
/-- An attempt of sample MDLL `q` has not locked within 100 µs (R450). -/
def execBandAttemptTimeout (q : Nat) (s : State) : Res :=
  .next (if q < 4 ∧ s.rf (CLK_SMDLL q) 2 1 = 1 ∧ !locked s (1 + q) then tryBand s q (s.rf (CLK_SMDLL q) 12 8 + 1) else s)
def execHbmPllLossOfLock (n : Nat) (s : State) : Res :=
  .next (if n < 2 ∧ locked s (14 + n) then report ((s.setB CLK_LOCK (14 + n) false).setB CLK_LOL (14 + n) true) 4 n else s)
/-- SCLKIN0 clocks QA and QB, SCLKIN1 QC and QD (R451). -/
def execSclkinLoss (pin : Nat) (cyc : Nat) (s : State) : Res :=
  .next (if pin < 2 ∧ locked s (12 + pin) then
    let s := { s with cyc := cyc % 512 }
    let s := (s.setB CLK_LOCK (12 + pin) false).setB CLK_LOL (12 + pin) true
    let s := if clkSrc s = 1 then toBypass s ([1 + 2 * pin, 2 + 2 * pin].filter (synthPresent s)) else s
    report s 5 pin
  else s)

-- SYNCIN (R454, R464)
/-- A write of CLK_SYNC. -/
def syncWrite (s : State) (v : Word) : State :=
  let s := s.setB CLK_SYNC 29 (bit v 29)
  let s := s.w1c CLK_SYNC 0x30000 v
  let s := if bit v 31 then s.setB CLK_SYNC 31 true else s
  if bit v 30 then s.setB CLK_SYNC 31 false else s
def execClkSyncArm (v : Word) (s : State) : Res := .next (syncWrite s (putBit v 31 true))
def execClkSyncCancel (v : Word) (s : State) : Res := .next (syncWrite s (putBit v 30 true))

-- Restart changes (R57, R462)
/-- f_r of a REFSEL (R449). -/
def refMhz (r : Nat) : Nat := 320 * 2 ^ r
/-- SRC, SCLK and REFSEL for every present quadrant: synthesisers whose setting changes relock from bypass (R456). -/
def setSclk (s : State) (src mhz : Nat) (refsel : List Nat) : State :=
  let ref (q : Nat) : Nat := if src = 1 then 0 else nth 0 refsel q
  let all := src != clkSrc s || mhz != sclkMhz s
  let qs := (List.range 4).filter (fun q => quadPresent s q && (all || ref q != s.rf (CLK_SMDLL q) 31 30))
  let new := qs.filter (fun q => !onBypass s (1 + q))
  let s := (s.setF CLK_STAT 31 30 src).setF CLK_STAT 29 16 mhz
  let s := forEach new s (fun q s => (s.setB CLK_BYP (1 + q) true).addR CLK_BYPCNT 1)
  let s := quadsBypass s new
  forEach qs s (fun q s =>
    let s := (s.setF (CLK_SMDLL q) 31 30 (ref q)).setF (CLK_SMDLL q) 29 24 (mhz / refMhz (ref q))
    let s := s.setB CLK_LOCK (1 + q) false
    if src = 1 then s.setF (CLK_SMDLL q) 2 1 3 else if onBypass s 0 then (mayTry s q).setF (CLK_SMDLL q) 2 1 2 else tryFirst s q)
def sclkRefsel (p : List Byte) : List Nat := [u8 p 4, u8 p 5, u8 p 6, u8 p 7]
def sclkBad (s : State) (p : List Byte) : Bool :=
  let src := u8 p 0
  let mhz := u16 p 2
  let qs := (List.range 4).filter (quadPresent s)
  decide (1 < src) || !zeroAt p 1 1 || decide (mhz < 8000 ∨ 10240 < mhz) ||
  qs.any (fun q =>
    let r := nth 0 (sclkRefsel p) q
    if src = 1 then r != 0
    else decide (2 < r) || mhz % refMhz r != 0 || !(List.range 32).any (bandFits s q mhz))
/-- Accept a restart change: the data path stops after `last` (R57). -/
def restartBegin (s : State) (kind op : Nat) (q : Req) (ticket last runAt : Nat) : State :=
  { s with restart := some ⟨kind, op, q, ticket, last, runAt, false, false⟩ }
def restarting (s : State) : Bool := s.restart.isSome
def execClkSclkSet (q : Req) (s : State) : Res :=
  let p := q.params
  let t := u64 p 8
  .next (command s 0x0B00 q (p.length == 16)
    [(sclkBad s p, ST_BAD_PARAM), (r503 s || s.coolMode || restarting s || (t != 0 && decide (t ≤ s.beat)), ST_STATE),
     (anyFg s || aligning s, ST_BUSY)]
    (restartBegin s 3 0x0B00 q 0 (if t = 0 then s.beat else t - 1) 0))

-- Group 0x0B (R461, R463)
/-- CLK_BAND_SET. A quadrant number of 4 or more names a quadrant that does not exist: ST_UNIT_ABSENT (log 81). -/
def execClkBandSet (q : Req) (s : State) : Res :=
  let p := q.params
  let v := w32 (u32 p 4)
  .next (command s 0x0B01 q (p.length == 8)
    [(!quadPresent s (u8 p 0), ST_UNIT_ABSENT),
     (decide (31 < u8 p 1) || !zeroAt p 2 2 || bit v 30 || decide (fld v 23 12 < fld v 11 0), ST_BAD_PARAM)]
    (reply (s.wr (CLK_BAND (u8 p 0) (u8 p 1)) v) 0x0B01 q ST_OK []))
/-- An MDLL applies one step per FCLK cycle: steps of a quadrant that has some to apply follow them (R453). -/
def phaseFrom (s : State) (qs : List Nat) : Int :=
  ((s.ext.clk.phases.filter (fun r => r.quads.any (fun q => qs.contains q))).map (fun (r : PhaseRun) => r.at_ + r.steps.natAbs)).foldr max
    (s.beat * 512 + s.cyc : Nat)
def execClkPhaseStep (q : Req) (s : State) : Res :=
  let p := q.params
  let qs := bitList 4 (u8 p 0)
  .next (command s 0x0B02 q (p.length == 4)
    [(qs.any (fun k => !quadPresent s k), ST_UNIT_ABSENT),
     (decide (16 ≤ u8 p 0) || !zeroAt p 1 1 || u16 p 2 == 0x8000, ST_BAD_PARAM),
     (clkSrc s == 1 || qs.any (quadBypass s), ST_STATE), (gridState s != G_OFF || s.rb CLK_SYNC 31, ST_BUSY)]
    (setClk s { s.ext.clk with phases := s.ext.clk.phases ++ [⟨q, qs, sext 16 (u16 p 2), phaseFrom s qs⟩] }))
/-- The last step of a running CLK_PHASE_STEP applies in the present beat: of the oldest whose steps end with it. -/
def phaseEnding (s : State) : Option PhaseRun :=
  s.ext.clk.phases.find? (fun r => decide (r.at_ + r.steps.natAbs ≤ ((s.beat + 1) * 512 : Nat)))
def execClkPhaseStepEnd (s : State) : Res :=
  .next (match phaseEnding s with
  | some r => reply (phoffAdd (setClk s { s.ext.clk with phases := s.ext.clk.phases.erase r }) r.quads r.steps) 0x0B02 r.req ST_OK (b8 s.beat)
  | none => s)
def execClkStatus (q : Req) (s : State) : Res :=
  .next (command s 0x0B03 q (q.params.length == 0) []
    (reply s 0x0B03 q ST_OK (([CLK_STAT, CLK_LOCK, CLK_BYP, CLK_LOL, CLK_RPLL] ++ (List.range 4).map CLK_SMDLL ++
      (List.range 4).map CLK_PHOFF ++ [CLK_SYNC, CLK_VCLK]).flatMap (fun a => bw (regShown s a)))))
/-- PORST_N, WARM_RST_N: every synthesiser present on bypass (R460). -/
def clkReset (s : State) : State :=
  (setClk s {}).wr CLK_BYP (w32 (bitsSet ((List.range 12).filter (synthPresent s))))

end Sys2Proof.Machine
end

