-- ==== Sys2Proof/Machine/Density.lean ====
section
/-! DEFINITION. Density Histograms and Cross-Spectra (R201–R229). -/
namespace Sys2Proof.Machine

-- The profile in force (R56, R59)
/-- Bytes 0–15 that a named profile stands for. -/
def namedProfile (id : Nat) : List Byte :=
  match id with
  | 1 => [1, 0, 1, 0, 0, 40, 3, 0] ++ zeros 8
  | 2 => [2, 0, 0, 0, 1, 30, 2, 0] ++ b4 0x55555555 ++ b2 0 ++ b2 4096
  | 3 => [3, 1, 1, 0, 0, 40, 1, 0] ++ zeros 8
  | 4 => [4, 1, 0, 0, 1, 30, 2, 0] ++ b4 0xFFFF ++ b2 0 ++ b2 4096
  | 5 => [5, 0, 1, 1, 0, 40, 1, 0] ++ zeros 8
  | 6 => [6, 1, 0, 0, 0, 20, 0, 0] ++ zeros 8
  | _ => zeros 16
def effProfile (p : List Byte) : List Byte := if u8 p 0 = 0 then slice p 0 16 else namedProfile (u8 p 0)
def profile (s : State) : List Byte := effProfile s.profile
def prCorr (p : List Byte) : Bool := u8 p 4 == 1
def prPaths (p : List Byte) : List Nat := bitList 32 (u32 p 8)
def prFirst (p : List Byte) : Nat := u16 p 12
def prCount (p : List Byte) : Nat := u16 p 14

-- Density
def State.denOf (s : State) (p : Nat) : DenSt := Sparse.get (fun _ => {}) s.den p
def State.setDen (s : State) (p : Nat) (x : DenSt) : State := { s with den := Sparse.set (fun _ => {}) s.den p x }
def cellKey (p c r : Nat) : Nat := 2 ^ 18 * p + 256 * c + r
def cell (s : State) (k : Nat) : Nat := Sparse.get (fun _ => 0) s.denCells k
def setCell (s : State) (k v : Nat) : State := { s with denCells := Sparse.set (fun _ => 0) s.denCells k v }
def cellMax (s : State) : Nat := 2 ^ (8 * denW s) - 1
def dpG (m : Word) : Nat := fld m 31 26 + 1
def dpCols (m : Word) : Nat := fld m 25 16 + 1
def dpFirst (m : Word) : Nat := fld m 15 0
def denEn (v : Nat → Word) (p : Nat) : Bool := bit (v (DEN_PCFG p)) 0
/-- The row of a level (R206). -/
def rowOf (c : Word) (l : Int) : Option Nat :=
  let r := (l - sext 16 (fld c 31 16)) / (16 * (fld c 15 12 + 1) : Nat)
  if r < 0 then (if bit c 5 then some 0 else none)
  else if 255 < r then (if bit c 5 then some 255 else none)
  else some r.toNat
/-- The hits of a spectrum: column and row (R205). -/
def specHits (c m : Word) (x : Spec) : List (Nat × Nat) :=
  (List.range (dpCols m)).flatMap (fun col =>
    let bins := (List.range (dpG m)).filterMap (fun i =>
      let b := dpFirst m + col * dpG m + i
      let l := nth (-32768 : Int) x.lg b
      if l = -32768 ∨ (x.apply.testBit 2 ∧ nth false x.rfi b) then none else some l)
    let levels := if bit c 4 then (match bins with | [] => [] | a :: t => [t.foldr max a]) else bins
    levels.filterMap (fun l => (rowOf c l).map (fun r => (col, r))))
/-- One hit: the count, held at its maximum; answers whether the cell is saturated (R204). -/
def hitCell (s : State) (p : Nat) (h : Nat × Nat) : State × Bool :=
  let k := cellKey p h.1 h.2
  let v := cell s k
  if cellMax s ≤ v then (s, true) else (setCell s k (v + 1), decide (cellMax s ≤ v + 1))
def hitAll (s : State) (p : Nat) : List (Nat × Nat) → State × Bool
  | [] => (s, false)
  | h :: t =>
    let r := hitCell s p h
    let q := hitAll r.1 p t
    (q.1, r.2 || q.2)
/-- The spectra arriving now are counted: those numbered from the beat that enables, up to the beat that disables (R213). -/
def countsRun (d : DenSt) : Bool :=
  decide (2 ≤ d.age) && (d.on || (match d.off with | some k => decide (k < 2) | none => false))
/-- An earlier run that the spectra arriving now still belong to: its place among those whose final frames wait. -/
def earlierRun (d : DenSt) : Option Nat := d.fin.findIdx? (fun f => decide (f.off < 2))
def countsSpec (d : DenSt) : Bool := (earlierRun d).isSome || countsRun d
/-- DEN_PCFG and DEN_PMAP for the spectra arriving now, and how many final frames come before them. -/
def arriving (d : DenSt) : Word × Word × Nat :=
  match earlierRun d with
  | some i => (match d.fin[i]? with | some f => (f.pcfg, f.pmap, i) | none => (d.pcfg, d.pmap, i))
  | none => (d.pcfg, d.pmap, d.fin.length)
/-- The readout of the path's histogram runs. -/
def denReading (s : State) (p : Nat) : Bool := match s.denRun with | some f => f.paths.contains p | none => false
/-- The hits of a spectrum reach the cells; DEN_SATCNT counts a beat in which a cell saturated once (R204). -/
def hitSpec (p : Nat) (x : HeldSpec) (s : State) : State :=
  let q := hitAll s p x.hits
  let d := q.1.denOf p
  let fl := if x.hits = [] then 0 else x.flags &&& 0x7FF
  let s := q.1.setDen p (match d.fin with
    | f :: t => { d with fin := { f with flags := f.flags ||| fl, csat := f.csat || q.2 } :: t }
    | [] => { d with flags := d.flags ||| fl, csat := d.csat || q.2 })
  if q.2 ∧ !s.denSat.contains x.num then ({ s with denSat := x.num :: s.denSat }.setB DEN_STAT 0 true).addR DEN_SATCNT 1 else s
def specHold (d : DenSt) (b : Nat) (x : Spec) : HeldSpec :=
  let a := arriving d
  ⟨b, x.flags, specHits a.1 a.2.1 x, a.2.2⟩
/-- A region's figures for the spectra numbered b (R217). -/
def regionHits (a b : Word) (hs : List (Nat × Nat)) : Nat :=
  (hs.filter (fun h => decide (fld a 9 0 ≤ h.1 ∧ h.1 ≤ fld a 19 10 ∧ fld b 7 0 ≤ h.2 ∧ h.2 ≤ fld b 15 8))).length
/-- A region's settings in force in the beat two before the present one, whose spectra are presented now. -/
def regionAt (s : State) (n : Nat) : Word × Word :=
  match s.rgnPast.find? (fun c => c.n == n && decide (c.age < 2)) with
  | some c => (c.a, c.b)
  | none => (s.rdA (DEN_RGNA n), s.rdA (DEN_RGNB n))
/-- ACC restarts with the spectra presented now: they are the first from a flush boundary, or from a change of the region. -/
def regionRestart (s : State) (n : Nat) : Bool := s.denMarks.contains 2 || s.rgnPast.any (fun c => c.n == n && c.age == 2)
def regionFlags (s : State) (n fl : Nat) : State := { s with bt := { s.bt with rgnFlags := Sparse.set (fun _ => 0) s.bt.rgnFlags n fl } }
def regionShow (s : State) (b n : Nat) (mine : List (Spec × List (Nat × Nat))) : State :=
  let g := regionAt s n
  let again := regionRestart s n || !bit g.1 31
  let base := if again then 0 else s.rdN (DEN_RGNACC n)
  let held := if again then 0 else Sparse.get (fun _ => 0) s.bt.rgnFlags n
  if !bit g.1 31 then (if base = s.rdN (DEN_RGNACC n) then s else s.wr (DEN_RGNACC n) 0)
  else
    let of := mine.filter (fun x => x.1.path == fld g.1 28 24)
    let n0 := regionHits g.1 g.2 (of.flatMap Prod.snd)
    let acc := min (2 ^ 32 - 1) (base + n0)
    let pos := match of.head? with | some x => (x.1.posBeat, x.1.posOff) | none => (b, 0)
    let fl := (of.filter (fun x => regionHits g.1 g.2 x.2 != 0)).foldr (fun x a => (x.1.flags &&& 0x7FF) ||| a) 0
    let s := regionFlags s n (held ||| fl)
    { s.wr (DEN_RGNACC n) (w32 acc) with figures := s.figures ++ [⟨n, b, n0, acc, pos.1, pos.2, fl, held ||| fl⟩] }
/-- The spectra numbered b enter the histograms, complete at boundary b+2 (R201). -/
def denBeat (s : State) (b : Nat) : State :=
  let s := if s.denRun.isNone ∧ s.denSat ≠ [] then { s with denSat := [] } else s
  let mine := (s.specs.filter (fun x => x.beat == b && countsSpec (s.denOf x.path))).map (fun x =>
    (x, (specHold (s.denOf x.path) b x).hits))
  let s := forEach mine s (fun x s =>
    let d := s.denOf x.1.path
    let h : HeldSpec := ⟨b, x.1.flags, x.2, (arriving d).2.2⟩
    if denReading s x.1.path ∨ h.after ≠ 0 then s.setDen x.1.path { d with held := d.held ++ [h] } else hitSpec x.1.path h s)
  forEach (List.range 16) s (fun n s => regionShow s b n mine)
/-- DEN_STAT follows what waits and runs. -/
def showDen (s : State) : State :=
  ((s.setB DEN_STAT 3 (!s.denWait.isEmpty)).setB DEN_STAT 2 s.denRun.isSome).setB DEN_STAT 4 (!s.layoutDense)
/-- The paths of a flush whose frames a flush boundary closes. -/
def flushed (f : Flush) : List Nat := f.paths.filter (fun p => !f.finals.contains p)
/-- A flush whose readout cannot start at boundary r+1, the present one, is late (R212): a readout runs, or one waits before
it. -/
def lateList (busy : Bool) : List Flush → List Flush
  | [] => []
  | f :: t => { f with due := true, late := f.late || (busy && !f.due && !(flushed f).isEmpty) } :: lateList true t
def denLate (s : State) : State :=
  let busy := s.denRun.isSome
  let old := s.denWait
  let hit := (old.zip (busy :: old.map (fun _ => true))).any (fun (x : Flush × Bool) => x.2 && !x.1.due && !(flushed x.1).isEmpty)
  let s := { s with denWait := lateList busy old }
  if hit then report ((s.setB DEN_STAT 1 true).addR DEN_LATECNT 1) 80 0xFFFF else s
def upTo2 (n : Nat) : Nat := if n < 2 then n + 1 else 2
/-- The array counts the boundaries since its integrations started and ended. -/
def corrAge (c : CorrSt) : CorrSt :=
  { c with age := upTo2 c.age, endAge := (if c.ended.isSome then upTo2 c.endAge else 0) }
def denOlder (d : DenSt) : DenSt :=
  { d with age := upTo2 d.age, off := d.off.map upTo2, fin := d.fin.map (fun (f : DenFin) => { f with off := upTo2 f.off }) }
/-- A beat boundary, before anything else of it reaches the two units (R201, R209, R212, R217, R224). -/
def denAge (s : State) : State :=
  let s := denLate s
  { s with
    den := s.den.map (fun (p : Nat × DenSt) => (p.1, denOlder p.2)),
    denMarks := (s.denMarks.map (· + 1)).filter (fun n => decide (n ≤ 2)),
    rgnPast := (s.rgnPast.map (fun (c : RegionOld) => { c with age := c.age + 1 })).filter (fun c => decide (c.age ≤ 2)),
    corr := s.corr.map corrAge, corrNext := s.corrNext.map corrAge }
def enabledPaths (s : State) : List Nat := (List.range 32).filter (fun p => (s.denOf p).on)
/-- R_D of a set of histograms (R211). -/
def readBeats (w : Nat) (cols : List Nat) : Nat := cdiv ((cols.map (fun c => 64 + 256 * w * c)).foldr (· + ·) 0) 32768
/-- A flush still waiting becomes the flush of the present boundary; a final frame with it stays as it is (R212). -/
def flushAgain (f : Flush) : List Flush :=
  if flushed f = [] then [f] else if f.finals = [] then [] else [{ f with paths := f.finals }]
/-- A flush boundary (R208): every enabled histogram closes a frame. Final frames closed at the same boundary are read out
with them, in ascending h (R209). -/
def flushNow (s : State) : State :=
  let tm := boundaryTime s s.beat
  let waited := s.denWait.any (fun f => flushed f != [])
  let mates := s.denWait.filter (fun f => flushed f == [] && !f.due)
  let rest := (s.denWait.filter (fun f => flushed f != [] || f.due)).flatMap flushAgain
  let fins := mates.flatMap (fun f => f.finals)
  let ps := (List.range 32).filter (fun p => (s.denOf p).on || fins.contains p)
  showDen { s with denWait := rest ++ [⟨s.beat, ps, fins, waited, false, tm.1, tm.2, s.af DEN_CTRL 15 0, [], 0, [], false⟩] }
def execDensityFlush (s : State) : Res :=
  let fp := s.af DEN_CTRL 15 0
  .next (if fclkRuns s ∧ fp ≠ 0 ∧ s.beat % fp = 0 ∧ !s.denMarks.contains 0 then
    let s := { s with denMarks := 0 :: s.denMarks }
    if s.running ∧ enabledPaths s ≠ [] then flushNow s else s
  else s)
/-- Every histogram owns a ring of slots (R215). -/
def denStride (s : State) : Nat := if s.layoutDense then 0x81000 else 0x101000
def denIndex (s : State) (p : Nat) : Nat := if s.layoutDense then p else p / 2
def baseOf (v : Nat → Word) (lo hi : Nat) : Nat := fld (v lo) 31 12 * 4096 + 2 ^ 32 * fld (v hi) 7 0
def denFrame (s : State) (p : Nat) : Nat := Sparse.get (fun _ => 0) s.denF (denIndex s p)
def denSlot (s : State) (p : Nat) : Nat :=
  let n := max 1 (fld (s.rdA DEN_SLOTS) 8 0)
  baseOf s.rdA DEN_HBMBASE_LO DEN_HBMBASE_HI + (denIndex s p * n + denFrame s p % n) * denStride s
/-- The readout of the frames closed at r starts at boundary r+1, or when the one before it ends (R209). -/
def execDensityReadoutStart (s : State) : Res :=
  .next (match s.denRun, s.denWait with
    | none, f :: t =>
      if f.due then
        let f := { f with
          modes := f.paths.map (fun p => (p, s.rdA (DEN_PCFG p))), slots := f.paths.map (fun p => (p, denSlot s p)), start := s.beat }
        let s := forEach f.slots { s with denRun := some f, denWait := t } (fun x s => s.unitWrite x.2 (leBytes 8 (2 ^ 64 - 1)))
        showDen s
      else s
    | _, _ => s)
/-- What a readout leaves in a cell (R209). -/
def cellAfter (mode dk v : Nat) : Nat := match mode with | 0 => 0 | 1 => v | _ => v * (2 ^ dk - 1) / 2 ^ dk
def frameCols (s : State) (p cols : Nat) : List (List Nat) :=
  (List.range cols).map (fun c => (List.range 256).map (fun r => cell s (cellKey p c r)))
/-- A held spectrum's hits that were in their cells when the readout reached them (R210): all of one numbered up to
rd_first − 2, none of one from rd_last on; of the others those of the cells it reached first, which the spec leaves open. -/
def heldBefore (free first last n i : Nat) (p : Nat) (x : HeldSpec) (h : Nat × Nat) : Bool :=
  decide (x.num + 2 ≤ first) || (decide (x.num < last) && decide (i < Config.splitCut free (cellKey p h.1 h.2) % (n + 1)))
/-- The held spectra divided between this frame and the next; a final frame takes all of its run. -/
def heldParts (final : Bool) (free first last n p : Nat) : Nat → List HeldSpec → List (HeldSpec × HeldSpec)
  | _, [] => []
  | i, x :: t =>
    let q := x.hits.partition (fun h => final || heldBefore free first last n i p x h)
    ({ x with hits := q.1 }, { x with hits := q.2 }) :: heldParts final free first last n p (i + 1) t
/-- DEN_PCFG in force as the readout began: its DMODE and DK apply (R207). -/
def flushMode (f : Flush) (p : Nat) : Word := ((f.modes.find? (fun m => m.1 == p)).map Prod.snd).getD 0
/-- The run that a path's next frame belongs to. -/
def frontRun (d : DenSt) : DenFin := match d.fin with | f :: _ => f | [] => ⟨d.pcfg, d.pmap, d.flags, d.csat, d.retained, 2⟩
/-- The path's frame is read: after a final one the run behind it has the cells, and its held spectra come next. -/
def frameRead (d : DenSt) (final : Bool) : DenSt :=
  match d.fin with
  | _ :: t => if final then { d with fin := t, held := d.held.map (fun x => { x with after := x.after - 1 }) } else d
  | [] => { d with flags := 0, csat := false, retained := false, off := (if final then none else d.off) }
/-- The held spectra that nothing more comes before reach the cells. -/
def releaseHeld (s : State) (p : Nat) : State :=
  let d := s.denOf p
  forEach (d.held.filter (fun x => x.after == 0)) (s.setDen p { d with held := d.held.filter (fun x => x.after != 0) }) (fun x s => hitSpec p x s)
/-- The slot that the readout took for the path's frame. -/
def slotOf (s : State) (f : Flush) (p : Nat) : Nat := ((f.slots.find? (fun x => x.1 == p)).map Prod.snd).getD (denSlot s p)
/-- The descriptor of a path's frame (R216). -/
def denDesc (s : State) (f : Flush) (p first last hits flags : Nat) : List Byte :=
  let d := frontRun (s.denOf p)
  let c := d.pcfg
  let m := d.pmap
  let mo := flushMode f p
  b8 (denFrame s p) ++ b8 f.r ++ b8 first ++ b8 last ++ b8 hits ++ b4 flags ++
    b2 ((if d.csat then 1 else 0) + (if f.late && !f.finals.contains p then 2 else 0) + (if denW s = 4 then 4 else 0) +
      (if d.retained then 8 else 0) + (if fld mo 7 6 = 0 then 0 else 16)) ++
    b1 p ++ b1 (fld mo 7 6 + (if bit c 4 then 4 else 0) + (if bit c 5 then 8 else 0) + 16 * fld mo 11 8) ++
    b2 (dpFirst m) ++ b2 (dpCols m) ++ b1 (dpG m) ++ b1 (fld c 15 12) ++ b2 (fld c 31 16) ++ b4 f.fp ++ zeros 4
/-- One histogram's frame (R209, R215, R216): counts and descriptor to HBM, cells written back, the DENS record, the
Carousel's DENS unit. -/
def readFrame (s : State) (f : Flush) (p first last : Nat) : State :=
  let d := s.denOf p
  let m := (frontRun d).pmap
  let w := denW s
  let mo := flushMode f p
  let final := f.finals.contains p
  let now := d.held.filter (fun x => x.after == 0)
  let parts := heldParts final s.free first last now.length p 0 now
  let s := if now = [] then s else s.useFree.setDen p { d with held := d.held.filter (fun x => x.after != 0) }
  let s := forEach parts s (fun x s => hitSpec p x.1 s)
  let d := s.denOf p
  let cols := frameCols s p (dpCols m)
  let hits := (cols.map (fun l => l.foldr (· + ·) 0)).foldr (· + ·) 0
  let flags := (frontRun d).flags ||| (if final then F_END else 0)
  let desc := denDesc s f p first last hits flags
  let a := slotOf s f p
  let colBytes := cols.map (fun l => l.flatMap (leBytes w))
  let s := forEach (List.range colBytes.length) s (fun i s => s.unitWrite (a + 0x1000 + i * 256 * w) (nth [] colBytes i))
  let s := s.unitWrite a desc
  let mode := if final then 0 else fld mo 7 6
  let s := forEach (List.range cols.length) s (fun i s =>
    forEach (List.range 256) s (fun r s => let k := cellKey p i r; setCell s k (cellAfter mode (fld mo 11 8) (cell s k))))
  let s := { s with denF := Sparse.set (fun _ => 0) s.denF (denIndex s p) (denFrame s p + 1) }
  let s := s.setDen p (frameRead d final)
  let s := releaseHeld (forEach parts s (fun x s => hitSpec p x.2 s)) p
  let s := forEach (liveStreams s 3) s (fun n s =>
    if enSource (s.entry n) % 32 = p then
      let coded := if enCoding (s.entry n) = 8 then cols.map (riceColumn w) else colBytes
      let units := match coded with | [] => [desc] | u :: t => (desc ++ u) :: t
      hbmObject s n ⟨3, flags, 0, f.r, f.time, f.tf, p + (if w = 4 then 256 else 0), 64 + dpCols m * 256 * w⟩ units
        (match (List.range colBytes.length).map (fun i => [(a + 0x1000 + i * 256 * w, 256 * w)]) with
          | [] => [[(a, 64)]]
          | u :: t => ((a, 64) :: u) :: t)
    else s)
  forEach [0, 1, 2, 3] s (fun n s =>
    if carEn s.rdA n ∧ carKind s.rdA n = 3 ∧ carPath s.rdA n = p ∧ !f.old then
      carEnter s ⟨n, s.beat, f.r, flags, desc ++ colBytes.flatMap (fun x => x)⟩
    else s)
/-- The readout ends; `spans` gives rd_first and rd_last of each histogram in ascending order (R210). -/
def readAll (f : Flush) : List Nat → List (Nat × Nat) → State → State
  | [], _, s => s
  | p :: t, sp, s =>
    let x := match sp with | a :: _ => a | [] => (f.start, s.beat)
    readAll f t sp.tail (readFrame s f p x.1 x.2)
def execDensityReadoutEnd (spans : List (Nat × Nat)) (s : State) : Res :=
  .next (match s.denRun with
    | some f =>
      let s := readAll f f.paths spans { s with denRun := none }
      showDen (s.wr64 DEN_LASTFLUSH_LO f.r)
    | none => s)
/-- A commit that changes EN at the present boundary (R213). -/
def denFinal (s : State) (ps : List Nat) : State :=
  if ps = [] then s
  else
    let tm := boundaryTime s s.beat
    let s := forEach ps s (fun p s =>
      let d := s.denOf p
      s.setDen p { d with on := false, keep := false, off := (if d.on then some 0 else d.off), retained := d.retained || (d.keep && pwrState s != PS_ENTERING) })
    showDen { s with denWait := s.denWait ++ [⟨s.beat, ps, ps, false, false, tm.1, tm.2, s.af DEN_CTRL 15 0, [], 0, [], false⟩] }
def denClear (s : State) (p : Nat) : State := { s with denCells := s.denCells.filter (fun x => x.1 / 2 ^ 18 != p) }
/-- How many final frames of the path wait or are being read. -/
def finalsDue (s : State) (p : Nat) : Nat := ((s.denRun.toList ++ s.denWait).filter (fun f => f.finals.contains p)).length
/-- EN of a path in force; an odd path of BROAD has none (R203, R228). -/
def denOnIn (s : State) (v : Nat → Word) (p : Nat) : Bool := denEn v p && (s.layoutDense || p % 2 == 0)
/-- The region settings that a copy replaced (R217). -/
def regionsEnter (s : State) : State :=
  let moved := (List.range 16).filter (fun n => s.rdB (DEN_RGNA n) != s.rdA (DEN_RGNA n) || s.rdB (DEN_RGNB n) != s.rdA (DEN_RGNB n))
  if moved = [] then s
  else { s with rgnPast := s.rgnPast ++ moved.map (fun n => ⟨n, 0, s.rdB (DEN_RGNA n), s.rdB (DEN_RGNB n)⟩) }
def denEnter (s : State) : State :=
  let held (p : Nat) : Bool := (s.denOf p).on || (s.denOf p).keep
  let off := (List.range 32).filter (fun p => held p && !denOnIn s s.rdA p)
  let new := (List.range 32).filter (fun p => !(s.denOf p).on && denOnIn s s.rdA p && s.running)
  let s := denFinal s off
  let s := forEach new s (fun p s =>
    let d := s.denOf p
    if d.keep then s.setDen p { d with on := true, age := 0, off := none, keep := false, retained := true }
    else if d.fin.length < finalsDue s p then
      s.setDen p { d with on := true, age := 0, off := none, flags := 0, csat := false, retained := false,
                          fin := d.fin ++ [⟨d.pcfg, d.pmap, d.flags, d.csat, d.retained, d.off.getD 2⟩] }
    else (denClear s p).setDen p { d with on := true, age := 0, off := none, flags := 0, csat := false, retained := false })
  let s := forEach (enabledPaths s) s (fun p s => s.setDen p { s.denOf p with pcfg := s.rdA (DEN_PCFG p), pmap := s.rdA (DEN_PMAP p) })
  let s := regionsEnter s
  let cols := ((List.range 32).filter (denOnIn s s.rdA)).map (fun p => denCols s.rdA p)
  let rd := w32 (readBeats (denW s) cols)
  showDen (if s.rd DEN_RDBEATS = rd then s else s.wr DEN_RDBEATS rd)
/-- RESET at DATAPATH or above and the pin resets clear the histograms without a readout (R214). -/
def denDiscard (s : State) : State :=
  let s := forEach (s.den.map Prod.fst) s (fun p s => s.setDen p {})
  showDen { s with denCells := [], denWait := [], denRun := none, figures := [], denSat := [], rgnPast := [] }

-- Correlation array
def corrRegs : List Nat := [CORR_CTRL, CORR_IPER] ++ (List.range 8).map CORR_GAIN ++ [CORR_HBMBASE_LO, CORR_HBMBASE_HI, CORR_SLOTS]
def corrGain (c : CorrSt) (a : Nat) : Nat := fld (nth 0 c.cfg (2 + a / 2)) (16 * (a % 2) + 15) (16 * (a % 2))
def corrPsh (c : CorrSt) : Nat := fld (nth 0 c.cfg 0) 19 16
/-- An integration that starts at the present boundary, with group 49 and the profile in force (R218, R223). -/
def corrNew (s : State) : CorrSt :=
  let p := profile s
  { start := s.beat, cfg := corrRegs.map s.rdA, paths := prPaths p, first := prFirst p, count := prCount p }
def corrStart (s : State) : State := { s with corr := some (corrNew s) }.setB CORR_STAT 0 true
/-- A bin requantised (R220): q of 40-fraction-bit X, and whether it was clipped. -/
def requant (g : Nat) (x : Int) : Int × Bool :=
  let q := rhu (x * g) 52
  (clampI (-127) 127 q, decide (q < -127 ∨ 127 < q))
def corrAccLim : Int := 2 ^ 31 - 1
/-- Add to an accumulator component, which saturates (R221). -/
def accAdd (a x : Int) : Int × Bool := let v := a + x; (clampI (-corrAccLim) corrAccLim v, decide (v < -corrAccLim ∨ corrAccLim < v))
/-- Product p(a,b) of n paths (R218). -/
def prodIndex (n a b : Nat) : Nat := a * n - a * (a - 1) / 2 + (b - a)
/-- One channel of one frame: every product of the requantised values `q`, ascending. -/
def corrChannel (n i : Nat) (q : List Cx) (c : CorrSt) : CorrSt :=
  let psh := corrPsh c
  let pairs := (List.range n).flatMap (fun a => (List.range (n - a)).map (fun d => (a, a + d)))
  pairs.foldr (fun (ab : Nat × Nat) c =>
    let x := nth ((0, 0) : Cx) q ab.1
    let y := nth ((0, 0) : Cx) q ab.2
    let k := prodIndex n ab.1 ab.2 * c.count + i
    let old := Sparse.get (fun _ => ((0, 0) : Cx)) c.acc k
    let re := accAdd old.1 (rhu (x.1 * y.1 + x.2 * y.2) psh)
    let im := accAdd old.2 (rhu (x.2 * y.1 - x.1 * y.2) psh)
    let sat := (if re.2 then [2 * k] else []) ++ (if im.2 then [2 * k + 1] else [])
    { c with acc := Sparse.set (fun _ => ((0, 0) : Cx)) c.acc k (re.1, im.1),
             satKeys := sat.foldr (fun x l => if l.contains x then l else x :: l) c.satKeys }) c
/-- One frame: the j-th spectrum of every correlated path (R218, R220–R222). -/
def corrFrame (specs : List Spec) (c : CorrSt) : CorrSt :=
  let n := specs.length
  let c := (List.range c.count).foldr (fun i c =>
    let b := c.first + i
    if specs.any (fun x => x.apply.testBit 4 && nth false x.rfi b) then c
    else
      let qs := (List.range n).map (fun a =>
        let x := nth ((0, 0) : Cx) (match specs[a]? with | some y => y.x | none => []) b
        (requant (corrGain c a) x.1, requant (corrGain c a) x.2))
      let c := { c with
        qclip := c.qclip || qs.any (fun q => q.1.2 || q.2.2),
        weight := Sparse.set (fun _ => 0) c.weight i (Sparse.get (fun _ => 0) c.weight i + 1) }
      corrChannel n i (qs.map (fun q => (q.1.1, q.2.1))) c) c
  { c with spectra := c.spectra + 1, flags := specs.foldr (fun x a => (x.flags &&& 0x7FF) ||| a) c.flags }
/-- The integration takes the spectra arriving now: those numbered from its start up to its end (R223). -/
def corrTakes (c : CorrSt) : Bool := decide (2 ≤ c.age) && !(c.ended.isSome && decide (2 ≤ c.endAge))
/-- The spectra numbered b enter the array, complete at boundary b+2. A new clip or saturation sets its bit of CORR_STAT. -/
def corrBeat (s : State) (b : Nat) : State :=
  match s.corr with
  | some c =>
    if !corrTakes c then s
    else
      let per := c.paths.map (fun p => s.specs.filter (fun x => x.beat == b && x.path == p))
      let nf := match per with | l :: t => t.foldr (fun x m => min x.length m) l.length | [] => 0
      let d := (List.range nf).foldl (fun c j => corrFrame (per.filterMap (fun l => l[j]?)) c) { c with qclip := false, satKeys := [] }
      let c' := { d with
        qclip := c.qclip || d.qclip, satKeys := c.satKeys ++ d.satKeys.filter (fun k => !c.satKeys.contains k),
        firstNum := (if nf = 0 then c.firstNum else some (c.firstNum.getD b)) }
      let s := { s with corr := some c' }
      let s := if d.qclip then s.setB CORR_STAT 9 true else s
      if d.satKeys = [] then s else s.setB CORR_STAT 8 true
  | none => s
/-- An integration closed by END at the present boundary (R223, R225). -/
def corrClosed (s : State) (c : CorrSt) : CorrSt :=
  let tm := boundaryTime s s.beat
  { c with ended := some s.beat, endAge := 0, final := true, flags := c.flags ||| F_END, time := tm.1, tf := tm.2 }
/-- A final end at the present boundary: a restart change, entry to a low-power state, or EN 1→0 (R223, R225). Where the
integration ended at the boundary before and the banks have still to swap, the one begun there is the final one. -/
def corrFinal (s : State) : State :=
  match s.corr with
  | some c =>
    if c.final then s
    else if c.ended.isSome then
      { s with corrNext := s.corrNext.map (fun (n : CorrSt) => if n.final then n else corrClosed s n) }.setB CORR_STAT 0 false
    else ({ s with corr := some (corrClosed s c) }.setB CORR_STAT 3 true).setB CORR_STAT 0 false
  | none => s
/-- An integration ends at r with r mod IPER = 0, or where EN leaves force (R223); a deferred one where the other bank is free
(R224). The next one begins, with group 49 as it stands. -/
def execCorrIntegrationEnd (s : State) : Res :=
  .next (match s.corr with
    | some c =>
      let per := fld (nth 0 c.cfg 1) 24 0
      if !s.ab CORR_CTRL 0 then corrFinal s
      else if c.ended.isSome ∨ c.age = 0 then s
      else if per ≠ 0 ∧ s.beat % per = 0 ∧ !(c.late && s.corrDump.isSome) then
        let tm := boundaryTime s s.beat
        { s with corr := some { c with ended := some s.beat, endAge := 0, time := tm.1, tf := tm.2 },
                 corrNext := some (corrNew s) }.setB CORR_STAT 3 true
      else s
    | none => s)
/-- Integration begins with EN, and with a run in which EN is in force. -/
def corrEnter (s : State) : State :=
  if s.corr.isNone ∧ s.ab CORR_CTRL 0 ∧ s.running ∧ corrPresent s then corrStart s else s
def corrStride (c : CorrSt) : Nat :=
  let n := c.paths.length
  cdiv (0x5000 + 8 * (n * (n + 1) / 2) * c.count) 0x1000 * 0x1000
def corrSlot (s : State) (c : CorrSt) : Nat :=
  fld (nth 0 c.cfg 10) 31 12 * 4096 + 2 ^ 32 * fld (nth 0 c.cfg 11) 7 0 + s.corrF % max 1 (fld (nth 0 c.cfg 12) 8 0) * corrStride c
/-- The other bank is still being dumped: the integration goes on, as the final one where the next one has ended (R224). -/
def corrDefer (s : State) (c : CorrSt) : State :=
  let go : CorrSt := { c with ended := none, endAge := 0, late := true }
  let s := match s.corrNext with
    | some n => if n.final then
        { s with corr := some { go with ended := n.ended, endAge := n.endAge, final := true, flags := c.flags ||| F_END, time := n.time, tf := n.tf } }
      else { s with corr := some go }.setB CORR_STAT 3 false
    | none => { s with corr := some go }.setB CORR_STAT 3 false
  report (({ s with corrNext := none }.setB CORR_STAT 10 true).addR CORR_LATECNT 1) 81 0xFFFF
/-- The banks swap; the full one is dumped (R224). -/
def corrSwap (s : State) (c : CorrSt) : State :=
  let s := s.unitWrite (corrSlot s c) (leBytes 8 (2 ^ 64 - 1))
  let next := if c.final then none else s.corrNext
  let s := { s with corrDump := some { c with dumpBeat := s.beat }, corr := next, corrNext := none }
  let s := (s.setB CORR_STAT 2 true).setB CORR_STAT 1 (!s.rb CORR_STAT 1)
  match next with
  | some n => s.setB CORR_STAT 3 n.final
  | none => (s.setB CORR_STAT 3 false).setB CORR_STAT 0 false
/-- At boundary r+1 the full bank swaps, unless the other is still being dumped (R224). -/
def execCorrBankSwap (s : State) : Res :=
  .next (match s.corr with
    | some c =>
      if c.ended.isNone ∨ c.endAge = 0 then s
      else if s.corrDump.isNone then corrSwap s c
      else if c.final then s
      else corrDefer s c
    | none => s)
/-- The dump (R226). -/
def corrHeader (s : State) (c : CorrSt) : List Byte :=
  b8 s.corrF ++ b8 (match c.ended with | some r => r | none => 0) ++ b8 (c.firstNum.getD c.start) ++ b4 c.spectra ++ b4 c.flags ++
  b4 (bitsSet c.paths) ++ b2 c.first ++ b2 c.count ++ b1 c.paths.length ++ b1 (corrPsh c) ++
  b2 ((if c.satKeys = [] then 0 else 1) + (if c.late then 2 else 0) + (if c.qclip then 4 else 0)) ++ b4 c.satKeys.length ++
  b8 c.dumpBeat ++ zeros 8
def corrData (c : CorrSt) : List Byte :=
  let n := c.paths.length
  (List.range (n * (n + 1) / 2 * c.count)).flatMap (fun k =>
    let v := Sparse.get (fun _ => ((0, 0) : Cx)) c.acc k
    b4 (lowBits 32 v.1) ++ b4 (lowBits 32 v.2))
def corrWeights (c : CorrSt) : List Byte := (List.range c.count).flatMap (fun i => b4 (Sparse.get (fun _ => 0) c.weight i))
def execCorrDumpEnd (s : State) : Res :=
  .next (match s.corrDump with
    | some c =>
      let a := corrSlot s c
      let data := corrData c
      let s := ((s.unitWrite (a + 0x1000) (corrWeights c)).unitWrite (a + 0x5000) data).unitWrite a (corrHeader s c)
      let len := 0x5000 + data.length
      let r := match c.ended with | some r => r | none => 0
      let s := forEach (liveStreams s 4) s (fun n s =>
        hbmObject s n ⟨4, c.flags, 0, r, c.time, c.tf, c.paths.length, c.count⟩ (units64 (s.hbmRead a len)) (src64 a len))
      let s := (s.wr64 CORR_LASTEND_LO r).setB CORR_STAT 2 false
      { s with corrDump := none, corrF := s.corrF + 1 }
    | none => s)
def corrDiscard (s : State) : State :=
  (({ s with corr := none, corrNext := none, corrDump := none }.setF CORR_STAT 3 2 0)).setB CORR_STAT 0 false

-- Commands (R227)
def denSetRegs : List Nat := [DEN_CTRL, DEN_HBMBASE_LO, DEN_HBMBASE_HI, DEN_SLOTS]
def corrSetRegs : List Nat :=
  [CORR_CTRL, CORR_IPER, CORR_HBMBASE_LO, CORR_HBMBASE_HI, CORR_SLOTS] ++ (List.range 8).map CORR_GAIN
def execDenSet (q : Req) (s : State) : Res :=
  .next (command s 0x0500 q (q.params.length == 16)
    [(reservedSet q.params 0 [0xFFFF, 0xFFFFF000, 0xFF, 0x1FF], ST_BAD_PARAM), (groupLocked s 48, ST_BUSY)]
    (reply (writeRegs s q.params 0 denSetRegs) 0x0500 q ST_OK []))
def execDenPathSet (q : Req) (s : State) : Res :=
  let p := u16 q.params 0
  .next (command s 0x0501 q (q.params.length == 12)
    [(decide (p < 32) && !corePresent s p, ST_UNIT_ABSENT),
     (decide (32 ≤ p) || !zeroAt q.params 2 2 || reservedSet q.params 4 [0xFFFFFFF1, 0xFFFFFFFF], ST_BAD_PARAM), (groupLocked s 48, ST_BUSY)]
    (reply (writeRegs s q.params 4 [DEN_PCFG p, DEN_PMAP p]) 0x0501 q ST_OK []))
def execDenRegionSet (q : Req) (s : State) : Res :=
  let n := u16 q.params 0
  .next (command s 0x0502 q (q.params.length == 12)
    [(decide (16 ≤ n) || !zeroAt q.params 2 2 || reservedSet q.params 4 [0x9F0FFFFF, 0xFFFF], ST_BAD_PARAM), (groupLocked s 48, ST_BUSY)]
    (reply (writeRegs s q.params 4 [DEN_RGNA n, DEN_RGNB n]) 0x0502 q ST_OK []))
def execCorrSet (q : Req) (s : State) : Res :=
  .next (command s 0x0503 q (q.params.length == 52)
    [(!corrPresent s, ST_UNIT_ABSENT),
     (reservedSet q.params 0 ([0xF0001, 0x1FFFFFF, 0xFFFFF000, 0xFF, 0x1FF] ++ List.replicate 8 0xFFFFFFFF), ST_BAD_PARAM), (groupLocked s 49, ST_BUSY)]
    (reply (writeRegs s q.params 0 corrSetRegs) 0x0503 q ST_OK []))
def execDenStatus (q : Req) (s : State) : Res :=
  .next (command s 0x0504 q (q.params.length == 0) []
    (reply s 0x0504 q ST_OK (regsBytes s [DEN_STAT, DEN_SATCNT, DEN_LATECNT, DEN_LASTFLUSH_LO, DEN_LASTFLUSH_HI,
      CORR_STAT, CORR_LATECNT, CORR_LASTEND_LO, CORR_LASTEND_HI])))

end Sys2Proof.Machine
end

