-- ==== Sys2Proof/Machine/Frames.lean ====
section
/-! DEFINITION. Ethernet frames as the part builds and reads them (R387–R391): headers in network byte order, ARP and
Neighbour Discovery, next hops. The header layouts are those of IEEE 802.3, ARP, IP, UDP and ICMP. -/
namespace Sys2Proof.Machine

/-- `n` as `k` bytes in network order; the `k`-byte field at `o`. -/
def beBytes (k n : Nat) : List Byte := (leBytes k n).reverse
def beAt (p : List Byte) (o k : Nat) : Nat := leAt (slice p o k).reverse 0 k
/-- The Internet checksum of a byte string. -/
def sum16 : List Byte → Nat
  | a :: b :: t => a.toNat * 256 + b.toNat + sum16 t
  | [a] => a.toNat * 256
  | [] => 0
def fold16 (n : Nat) : Nat :=
  let x := n % 65536 + n / 65536
  let y := x % 65536 + x / 65536
  y % 65536 + y / 65536
def checksum (b : List Byte) : Nat := 65535 - fold16 (sum16 b)

/-- Port p's MAC address (R387). -/
def macOf (p : Nat) : Nat := (Config.baseMac.toNat + p) % 2 ^ 48
/-- The number of ports of the current mode, and the speed code of R404. -/
def ethPorts (s : State) : Nat := 8 / 2 ^ s.rf LNK_ETHMODE 1 0
def ethUp (s : State) (p : Nat) : Bool := decide (p < ethPorts s) && s.rf (LNK_ETHSTAT p) 31 30 == 2
/-- The link-local address of a port by EUI-64 (R388). -/
def linkLocal (p : Nat) : Nat :=
  let m := macOf p
  0xFE80 * 2 ^ 112 + (m / 2 ^ 24 ^^^ 0x020000) * 2 ^ 40 + 0xFFFE * 2 ^ 24 + m % 2 ^ 24
/-- Interface `i` (0–3) of port `p`; those enabled. -/
def ifOf (s : State) (p i : Nat) : EthIf := s.ethIf (4 * p + i)
def ifsOn (s : State) (p : Nat) : List Nat := (List.range 4).filter (fun i => (ifOf s p i).en)
/-- The enabled interface of a VLAN. -/
def ifOfVlan (s : State) (p vid : Nat) : Option Nat := (ifsOn s p).find? (fun i => (ifOf s p i).vlan == vid)
/-- The address is one of the interface's. -/
def ownAddr (s : State) (p i : Nat) (v6 : Bool) (a : Nat) : Bool :=
  let f := ifOf s p i
  if v6 then f.ipv6 != 0 && (a == f.ipv6 || a == linkLocal p) else f.ipv4 != 0 && a == f.ipv4

/-- A frame from port `p`: addresses, tag (0 none), EtherType, payload, padded to 60 bytes (R388). -/
def frameOf (p dst tci etype : Nat) (b : List Byte) : List Byte :=
  let f := beBytes 6 dst ++ beBytes 6 (macOf p) ++ (if tci = 0 then [] else beBytes 2 0x8100 ++ beBytes 2 tci) ++ beBytes 2 etype ++ b
  f ++ zeros (60 - f.length)
/-- IPv4 and IPv6 packets (R391). -/
def ipv4Packet (id tos ttl proto src dst : Nat) (b : List Byte) : List Byte :=
  let h (c : Nat) := beBytes 1 0x45 ++ beBytes 1 tos ++ beBytes 2 (20 + b.length) ++ beBytes 2 id ++ beBytes 2 0x4000 ++
    beBytes 1 ttl ++ beBytes 1 proto ++ beBytes 2 c ++ beBytes 4 src ++ beBytes 4 dst
  h (checksum (h 0)) ++ b
def ipv6Packet (tc hop next src dst : Nat) (b : List Byte) : List Byte :=
  beBytes 4 (6 * 2 ^ 28 + tc * 2 ^ 20) ++ beBytes 2 b.length ++ beBytes 1 next ++ beBytes 1 hop ++ beBytes 16 src ++ beBytes 16 dst ++ b
/-- The pseudo-header of a UDP or ICMPv6 checksum. -/
def pseudo (v6 : Bool) (proto src dst len : Nat) : List Byte :=
  if v6 then beBytes 16 src ++ beBytes 16 dst ++ beBytes 4 len ++ beBytes 4 proto
  else beBytes 4 src ++ beBytes 4 dst ++ beBytes 2 proto ++ beBytes 2 len
def udpPacket (v6 : Bool) (src dst sport dport : Nat) (b : List Byte) : List Byte :=
  let h (c : Nat) := beBytes 2 sport ++ beBytes 2 dport ++ beBytes 2 (8 + b.length) ++ beBytes 2 c
  let c := checksum (pseudo v6 17 src dst (8 + b.length) ++ h 0 ++ b)
  h (if c = 0 then 65535 else c) ++ b
def icmp6 (src dst type_ code : Nat) (b : List Byte) : List Byte :=
  let h (c : Nat) := beBytes 1 type_ ++ beBytes 1 code ++ beBytes 2 c
  h (checksum (pseudo true 58 src dst (4 + b.length) ++ h 0 ++ b)) ++ b
def icmp4 (type_ : Nat) (b : List Byte) : List Byte :=
  let h (c : Nat) := beBytes 1 type_ ++ beBytes 1 0 ++ beBytes 2 c
  h (checksum (h 0 ++ b)) ++ b
/-- ARP: operation, target MAC and addresses. -/
def arpPacket (op sha spa tha tpa : Nat) : List Byte :=
  beBytes 2 1 ++ beBytes 2 0x0800 ++ beBytes 1 6 ++ beBytes 1 4 ++ beBytes 2 op ++ beBytes 6 sha ++ beBytes 4 spa ++
  beBytes 6 tha ++ beBytes 4 tpa
/-- The solicited-node group of an address, and the MAC of a multicast address. -/
def solicited (a : Nat) : Nat := 0xFF02 * 2 ^ 112 + 0x1FF000000 + a % 2 ^ 24
def mcastMac (v6 : Bool) (a : Nat) : Nat := if v6 then 0x333300000000 + a % 2 ^ 32 else 0x01005E000000 + a % 2 ^ 23
def isMcast (v6 : Bool) (a : Nat) : Bool := if v6 then a / 2 ^ 120 == 0xFF else a / 2 ^ 28 == 14

/-- Send a frame if the port is UP. -/
def sendFrame (s : State) (p : Nat) (b : List Byte) : State := if ethUp s p then s.put (.frame p b) else s
/-- ARP request or Neighbour Solicitation for a next hop (R390). -/
def askHop (s : State) (h : Hop) : State :=
  let f := ifOf s h.port h.ifc
  if h.v6 then
    let src := if h.ip / 2 ^ 118 = 0x3FA then linkLocal h.port else f.ipv6
    let d := solicited h.ip
    let b := icmp6 src d 135 0 (zeros 4 ++ beBytes 16 h.ip ++ beBytes 1 1 ++ beBytes 1 1 ++ beBytes 6 (macOf h.port))
    sendFrame s h.port (frameOf h.port (mcastMac true d) f.vlan 0x86DD (ipv6Packet 0 255 58 src d b))
  else sendFrame s h.port (frameOf h.port (2 ^ 48 - 1) f.vlan 0x0806 (arpPacket 1 (macOf h.port) f.ipv4 0 h.ip))
/-- Gratuitous ARP and unsolicited Neighbour Advertisement of an interface (R390). -/
def announceIf (s : State) (p i : Nat) : State :=
  let f := ifOf s p i
  let s := if f.ipv4 = 0 then s
    else sendFrame s p (frameOf p (2 ^ 48 - 1) f.vlan 0x0806 (arpPacket 1 (macOf p) f.ipv4 0 f.ipv4))
  if f.ipv6 = 0 then s
  else forEach [f.ipv6, linkLocal p] s (fun a s =>
    let d := 0xFF02 * 2 ^ 112 + 1
    let b := icmp6 a d 136 0 (beBytes 4 0x20000000 ++ beBytes 16 a ++ beBytes 1 2 ++ beBytes 1 1 ++ beBytes 6 (macOf p))
    sendFrame s p (frameOf p (mcastMac true d) f.vlan 0x86DD (ipv6Packet 0 255 58 a d b)))

/-- The next hop of a destination on an interface: itself on its own network, else the gateway (0: none). -/
def nextHopIp (f : EthIf) (v6 : Bool) (d : Nat) : Nat :=
  if v6 then
    if d / 2 ^ 118 = 0x3FA ∨ d / 2 ^ (128 - f.prefix6) = f.ipv6 / 2 ^ (128 - f.prefix6) then d else f.gw6
  else if d / 2 ^ (32 - f.prefix4) = f.ipv4 / 2 ^ (32 - f.prefix4) then d else f.gw4
def findHop (s : State) (p i : Nat) (v6 : Bool) (a : Nat) : Option Hop :=
  s.hops.find? (fun h => h.port == p && h.ifc == i && h.v6 == v6 && h.ip == a)
/-- The MAC of a destination, if it is known. -/
def destMac (s : State) (p i : Nat) (v6 : Bool) (d : Nat) : Option Nat :=
  let f := ifOf s p i
  if isMcast v6 d then some (mcastMac v6 d)
  else if !v6 && (d == 2 ^ 32 - 1 || d == f.ipv4 ||| (2 ^ (32 - f.prefix4) - 1)) then some (2 ^ 48 - 1)
  else
    match findHop s p i v6 (nextHopIp f v6 d) with
    | some h => h.mac
    | none => none
/-- An unresolved next hop enters the cache of 256 entries, replacing the oldest, and is asked for (R390). -/
def resolve (s : State) (p i : Nat) (v6 : Bool) (d : Nat) : State :=
  let a := nextHopIp (ifOf s p i) v6 d
  if a = 0 ∨ (findHop s p i v6 a).isSome then s
  else
    let h : Hop := ⟨p, i, v6, a, none, 0⟩
    askHop { s with hops := (h :: s.hops).take 256 } h
/-- A neighbour's address is learnt. -/
def learnHop (s : State) (p i : Nat) (v6 : Bool) (a m : Nat) : State :=
  if (findHop s p i v6 a).isSome then
    { s with hops := s.hops.map (fun h => if h.port == p && h.ifc == i && h.v6 == v6 && h.ip == a then { h with mac := some m, age := 0 } else h) }
  else s

end Sys2Proof.Machine
end

