-- ==== Sys2Proof/Machine/Stream.lean ====
section
/-! DEFINITION. Noviebel streams: their commands and what carries records away (R321–R333): host rings, volumes, datagrams. -/
namespace Sys2Proof.Machine

/-- STREAM_SET (R331): the shadow only. -/
def setShadow (s : State) (n : Nat) (e : List Byte) : State := { s with strShadow := Sparse.set entryDflt s.strShadow n e }
def execStreamSet (q : Req) (s : State) : Res :=
  let n := u16 q.params 0
  .next (command s 0x0800 q (q.params.length == 68)
    [(decide (256 ≤ n) || !zeroAt q.params 2 2, ST_BAD_PARAM), (groupLocked s 53, ST_BUSY)]
    (reply (setShadow s n (slice q.params 4 64)) 0x0800 q ST_OK []))

/-- STREAM_STATUS (R331). -/
def streamStatus (s : State) (n : Nat) (shadow : Bool) : List Byte :=
  let t := s.stream n
  (if shadow then s.entryShadow n else s.entry n) ++ b8 t.nextSeq ++ b8 t.sealed ++ b8 t.dropped ++ b8 t.bytes ++
  b4 (queueFill t) ++ b4 t.late ++ b8 t.lastBeat ++ b4 t.segLost ++ b4 0
def execStreamStatus (q : Req) (s : State) : Res :=
  .next (command s 0x0801 q (q.params.length == 4)
    [(decide (256 ≤ u16 q.params 0) || decide (1 < u16 q.params 2), ST_BAD_PARAM)]
    (reply s 0x0801 q ST_OK (streamStatus s (u16 q.params 0) (u16 q.params 2 == 1))))

-- Carriers (R321)
/-- The entry by which a stream's records leave: the one it was enabled with, also while a disabled stream drains. -/
def outEntry (s : State) (n : Nat) : List Byte := if (s.stream n).via = [] then s.entry n else (s.stream n).via
/-- A record stays in staging until the flags of its beat are complete: END comes at the next boundary (R313), OVRUN at the one
after (R40). A FORWARD stream's records are not its own. -/
def mayLeave (s : State) (n : Nat) (r : QRec) : Bool :=
  !fclkRuns s || decide (r.sealedAt + 2 ≤ s.beat) || decide (s.beat < r.sealedAt) || enType (outEntry s n) == 0xFF
def headRec (s : State) (n : Nat) : Option QRec := (s.stream n).queue.head?.filter (mayLeave s n)
/-- The head record of a stream's queue has left. -/
def popRecord (s : State) (n : Nat) : State :=
  let t := s.stream n
  s.setStream n { t with queue := t.queue.drop 1, outTime := timeNow s }
/-- The carrier's channel halts with ERR_HALT, cause BUS, after its retries (R321, R367). -/
def carrierHalt (s : State) (n : Nat) : State :=
  let c := enChan (outEntry s n)
  let s := s.setStream n { s.stream n with stopped := true }
  let s := s.setDma c { s.dmaCh c with retries := s.rf (DMA_CTRL c) 6 4 }
  dmaStop s.useFree c 5 1 s.fresh
/-- The stream's records are delivered to `dest`: its channel has neither halted nor been aborted. -/
def carries (s : State) (n dest : Nat) : Bool :=
  let e := outEntry s n
  enDest e == dest && !(s.stream n).stopped && !decide (chanState s (enChan e) ∈ [4, 5])
def ownChan (s : State) (e : List Byte) (b : Bool) : State := if enChan e < 128 then s.setB (DMA_CTRL (enChan e)) 7 b else s

-- Transmit contexts (R391, R402)
def recordSize (b : List Byte) : Nat := (64 + u32 b 48 + 7) / 8 * 8
/-- Complete records among the bytes of a context, at most `f`. -/
def ctxRecords : Nat → List Byte → Nat
  | 0, _ => 0
  | f + 1, b => if b.length < 64 ∨ b.length < recordSize b then 0 else 1 + ctxRecords f (b.drop (recordSize b))
def txBytes (s : State) (a : Nat) : List Byte := Sparse.get (fun _ => []) s.txCtx (a / 0x1000)
def setTx (s : State) (a : Nat) (b : List Byte) : State := { s with txCtx := Sparse.set (fun _ => []) s.txCtx (a / 0x1000) b }
def txRoom (s : State) (a : Nat) : Bool := decide (ctxRecords 2 (txBytes s a) < 2)
def ethCtx (p c : Nat) : Nat := 0x0F30000000 + 0x80000 * p + 0x1000 * c
def nbrCtx (p c : Nat) : Nat := 0x0F38000000 + 0x80000 * p + 0x1000 * c
/-- The context that a stream's carrier writes; none for a ring or a volume. -/
def carrierCtx (e : List Byte) : Option Nat :=
  match enDest e with
  | 2 => some (ethCtx (u8 e 32) (enChan e))
  | 3 => some (nbrCtx 0 (enChan e))
  | 4 => some (nbrCtx 1 (enChan e))
  | _ => none
/-- The first complete record of a context, and the context without it. -/
def txFirst (s : State) (a : Nat) : Option (List Byte) :=
  let b := txBytes s a
  if b.length < 64 ∨ b.length < recordSize b then none else some (b.take (recordSize b))
def txPop (s : State) (a : Nat) : State := setTx s a ((txBytes s a).drop (recordSize (txBytes s a)))
def ctxEmpty (s : State) (e : List Byte) : Bool := match carrierCtx e with | some a => (txFirst s a).isNone | none => true

/-- Firmware writes the carrier's program and starts it as its own: where the program lies and how far it has come are free
values (log 98). -/
def FW_MASTER : Nat := 1
def carrierStart (s : State) (n : Nat) : State :=
  let e := s.entry n
  let c := enChan e
  if 128 ≤ c then s
  else
    let f := s.fresh
    let s := ownChan ((s.useFree.wr (DMA_PROG_LO c) (w32 (f % 2 ^ 28 * 16))).wr (DMA_PROG_HI c) (w32 (f / 2 ^ 28 % 256))) e true
    let s := (s.setDma c { watching := true }).wr (DMA_STAT c) (w32 (2 ^ 29 + FW_MASTER * 2 ^ 17 + f / 2 ^ 36 % 65536))
    match carrierCtx e with
    | some a => setTx s a []
    | none => s
/-- Firmware gives the channel back: IDLE once its program has nothing left to carry; a halted one stays as it is. -/
def carrierStop (s : State) (n : Nat) : State :=
  let e := outEntry s n
  let s := ownChan (s.setStream n { s.stream n with carrying := false }) e false
  if chanRuns s (enChan e) then (s.setF (DMA_STAT (enChan e)) 31 29 0).setDma (enChan e) {} else s
/-- A carrier whose disabled stream has drained, or whose channel has stopped, ends; the channel of an enabled stream that has
become IDLE, after HIBERNATE, is started anew (R371). -/
def carrierKeep (s : State) (n : Nat) : State :=
  let e := s.entry n
  let t := s.stream n
  let st := chanState s (enChan (outEntry s n))
  if enEn e then (if st = 0 then carrierStart s n else s)
  else if t.carrying && ((t.queue == [] && ctxEmpty s (outEntry s n)) || decide (3 ≤ st)) then carrierStop s n
  else s
/-- The streams of the table and those that still have something to carry. -/
def streamsKnown (s : State) : List Nat := uniq (s.strActive.map Prod.fst ++ s.streams.map Prod.fst)
/-- HOST_RING_WRITE (R322, R378). -/
def ringWrite (s : State) (n : Nat) (b : List Byte) : State :=
  let e := outEntry s n
  let t := s.stream n
  let size := 2 ^ u8 e 33
  let off := t.prod % size
  let skip := if size < off + b.length then size - off else 0
  if size + t.cons < t.prod + skip + b.length then s
  else
    let s := if skip = 0 then s else s.put (.hostWrite (u64 e 40 + off) (zeros 4))
    let p := t.prod + skip
    let s := s.put (.hostWrite (u64 e 40 + p % size) b)
    let s := s.put (.hostWrite (u64 e 48) (b8 (p + b.length)))
    let irq := enIrq e && t.irqBeat != some s.beat
    let s := s.setStream n { t with prod := (p + b.length) % 2 ^ 64, irqBeat := (if irq then some s.beat else t.irqBeat) }
    vectorIf (popRecord s n) irq (16 + enChan e)
def execHostRingWrite (stream : Nat) (s : State) : Res :=
  .next (match headRec s stream with
  | none => s
  | some r =>
    if !carries s stream 0 then s
    else if !s.pci.bme then carrierHalt s stream
    else ringWrite s stream r.bytes)

/-- The host writes a consumer count (R323). -/
def ringUser (s : State) (h : Nat) (f : Nat → Bool) : Option Nat :=
  (streamsKnown s).find? (fun n => (enEn (s.entry n) || (s.stream n).via != []) && enDest (outEntry s n) == 0 &&
    u8 (outEntry s n) 32 == h && f n)
/-- The stream that uses host ring `h`: the enabled one, else one that drains, else one that used it. -/
def ringOf (s : State) (h : Nat) : Option Nat :=
  match ringUser s h (fun n => enEn (s.entry n)), ringUser s h (fun n => (s.stream n).queue != []) with
  | some n, _ => some n
  | none, some n => some n
  | none, none => ringUser s h (fun _ => true)
def hconsApply (s : State) (h c : Nat) : State :=
  match ringOf s h with
  | some n =>
    let t := s.stream n
    if c < t.cons ∨ t.prod < c then s.setB OC_STAT 2 true
    else (s.setStream n { t with cons := c }).wr64 (OC_HCONS_LO h) c
  | none => if c = 0 then s else s.setB OC_STAT 2 true
def execOcHconsWrite (h : Nat) (hi : Bool) (v : Word) (s : State) : Res :=
  .next (onBar s .host (if 32 ≤ h then s
  else if hi then hconsApply s h (v.toNat * 2 ^ 32 + (Sparse.get wordDflt s.hconsLo h).toNat)
  else { s with hconsLo := Sparse.set wordDflt s.hconsLo h v }))

-- Volumes
def volChunks (v : Volume) : Nat := v.drives.length * v.k
/-- The enabled streams of a volume. -/
def volStreams (s : State) (v : Nat) : List Nat :=
  (s.strActive.filter (fun p => enEn p.2 && enDest p.2 == 1 && volumeOf p.2 == v)).map Prod.fst
def driveReady (s : State) (p : Nat) : Bool := s.rf (LNK_NVSTAT p) 31 29 == 2
def volDrives (p : List Byte) : List Nat := bitList 4 (u8 p 1)
def sameLba (s : State) : List Nat → Bool
  | a :: b :: t => (s.drive a).lba == (s.drive b).lba && sameLba s (b :: t)
  | _ => true
/-- VOL_FORMAT (R324, R331). -/
def volFormatChecks (s : State) (p : List Byte) : List (Bool × Nat) :=
  [(nvmePorts s == 0, ST_UNIT_ABSENT),
   (decide (3 < u8 p 0) || decide (16 ≤ u8 p 1) || u8 p 1 == 0 || decide (1 < u8 p 2) || u8 p 3 != 0 ||
    decide (u32 p 4 < 1 ∨ 16777216 < u32 p 4) || (volDrives p).any (fun d => !driveReady s d) || !sameLba s (volDrives p), ST_BAD_PARAM),
   (volStreams s (u8 p 0) != [], ST_IN_USE)]
def volHeader (s : State) (v : Volume) (i : Nat) : List Byte :=
  let h := b4 0x4E56564C ++ b2 1 ++ b1 v.drives.length ++ b1 i ++ b4 v.lba ++ b4 (if v.ring then 0 else 1) ++ b8 v.k ++
    b8 v.serial ++ b4 (s.devId % 2 ^ 20) ++ b4 v.flushb ++ timeBytes (timeNow s) ++ zeros 8
  h ++ bw (crc32c h) ++ zeros 4032
def minCap (s : State) (l : List Nat) : Nat := l.foldr (fun d a => min (s.drive d).cap a) (2 ^ 64)
/-- The headers and the deallocation of the chunk area go to the drives in order; the serial is drawn (log 3). -/
def volFormat (s : State) (p : List Byte) : State :=
  let ds := volDrives p
  let v : Volume := {
    state := 1, drives := ds, k := (minCap s ds - 2 ^ 20) / 2 ^ 20, ring := u8 p 2 == 0, lba := (s.drive (nth 0 ds 0)).lba,
    serial := s.fresh % 2 ^ 64, flushb := u32 p 4, cserial := 0, chunks := [] }
  let s := (s.useFree).setVolume (u8 p 0) v
  forEach (List.range ds.length) s (fun i s =>
    let d := nth 0 ds i
    (s.put (.nvme d 0 0 (volHeader s v i))).put (.nvme d 3 (2 ^ 20) (b8 (v.k * 2 ^ 20))))
def execVolFormat (q : Req) (s : State) : Res :=
  .next (command s 0x0802 q (q.params.length == 8) (volFormatChecks s q.params)
    (reply (volFormat s q.params) 0x0802 q ST_ACCEPTED []))
def execVolFormatDone (v : Nat) (s : State) : Res :=
  .next (if (s.volume v).state = 1 then s.setVolume v { s.volume v with state := 2 } else s)
/-- VOL_STATUS (R331). -/
def execVolStatus (q : Req) (s : State) : Res :=
  let v := s.volume (u8 q.params 0)
  .next (command s 0x0803 q (q.params.length == 4)
    [(nvmePorts s == 0, ST_UNIT_ABSENT), (decide (3 < u8 q.params 0) || !zeroAt q.params 1 3, ST_BAD_PARAM)]
    (reply s 0x0803 q ST_OK (b4 v.state ++ b4 v.drives.length ++ b8 v.cserial ++ b8 (volChunks v))))

/-- The streams whose records go to a volume, those disabled that still drain among them. -/
def volCarried (s : State) (v : Nat) : List Nat :=
  (streamsKnown s).filter (fun n => enDest (outEntry s n) == 1 && volumeOf (outEntry s n) == v)
/-- Records of a stream that may leave, packed into its chunk until it closes (R325). -/
def isEndRec (b : List Byte) : Bool := (u32 b 12).testBit 11
def packChunk (now n : Nat) (ok : QRec → Bool) : List QRec → Option Chunk → Option Chunk × List QRec
  | [], c => (c, [])
  | r :: t, c =>
    let ch := c.getD ⟨n, [], 0, leAt r.bytes 16 6, r.beat, r.beat, now, false, false⟩
    if !ok r then (c, r :: t)
    else if ch.closed then (some ch, r :: t)
    else if 2 ^ 20 < 64 + ch.used + r.bytes.length then (some { ch with closed := true }, r :: t)
    else
      let last := isEndRec r.bytes
      packChunk now n ok t (some { ch with
        recs := r.bytes :: ch.recs, used := ch.used + r.bytes.length, lastBeat := r.beat, closed := last, hasEnd := last })
/-- The carriers of a volume fill their chunks; a chunk that closes comes after those that have. -/
def chunkFill (s : State) (v : Nat) : State :=
  forEach (volCarried s v) s (fun n s =>
    let vol := s.volume v
    let c := vol.chunks.find? (fun c => c.stream == n)
    if !carries s n 1 || vol.state != 2 || (match c with | some c => c.closed | none => false) then s
    else
      let r := packChunk (beatOrTick s) n (mayLeave s n) (s.stream n).queue c
      let s := s.setVolume v { vol with chunks := vol.chunks.filter (fun c => c.stream != n) ++ r.1.toList }
      if r.2.length = (s.stream n).queue.length then s else s.setStream n { s.stream n with queue := r.2, outTime := timeNow s })
/-- Records of a stream that have no volume left to go to (R309, R326, R327). -/
def dropStaged (s : State) (n k : Nat) : State :=
  let t := s.stream n
  let s' := s.setStream n { t with queue := [], dropped := t.dropped + k, loss := true }
  let s' := (s'.setB OC_STAT 0 true).addR OC_DROPCNT k
  if k = 0 then s else if s.rb OC_STAT 0 then s' else report s' 128 (n % 65536)
def volDrop (s : State) (v : Nat) : State :=
  let held (n : Nat) : Nat := ((s.volume v).chunks.filter (fun c => c.stream == n)).foldr (fun c k => c.recs.length + k) 0
  forEach (volCarried s v) (s.setVolume v { s.volume v with chunks := [] }) (fun n s => dropStaged s n ((s.stream n).queue.length + held n))
def volumeKeep (s : State) (v : Nat) : State := if (s.volume v).state ∈ [3, 4] then volDrop s v else chunkFill s v
def chunkBytes (s : State) (v : Volume) (c : Chunk) : List Byte :=
  let h := b4 0x4E56434B ++ b2 c.stream ++ b2 c.recs.length ++ b8 v.cserial ++ b8 v.serial ++ b8 c.firstSeq ++ b8 c.firstBeat ++
    b8 c.lastBeat ++ b4 c.used ++ b4 (s.devId % 2 ^ 20) ++ zeros 4
  h ++ bw (crc32c h) ++ c.recs.reverse.flatten ++ zeros (2 ^ 20 - 64 - c.used)
/-- Commands of a port that its I/O queue of depth 1,024 can hold (R383). -/
def NV_DEPTH : Nat := 1023
def nvOf (s : State) (p : Nat) : List NvCmd := s.nvCmds.filter (fun c => c.port == p)
def nvPut (s : State) (c : NvCmd) : State := s.put (.nvme c.port c.kind c.at_ c.bytes)
/-- Issue an NVMe command: 0 Write, 1 Flush, 2 Read; it waits while the queue is full. -/
def nvIssue (s : State) (c : NvCmd) : State :=
  let s' := { s with nvCmds := s.nvCmds ++ [c] }
  if (nvOf s c.port).length < NV_DEPTH then nvPut s' c else s'
/-- Admin commands and the controller's enable (R383–R386): 8 CC.EN, 9 Identify by CNS, 10 Set Features, 11 Create I/O CQ and 12
Create I/O SQ by depth, 13 Get Log Page. -/
def nvAdmin (s : State) (p : Nat) (l : List (Nat × Nat)) : State := forEach l s (fun x s => s.put (.nvme p x.1 x.2 []))
def nvQueues : List (Nat × Nat) := [(10, 7), (11, 1024), (12, 1024)]
/-- A STOP volume that has reached n·K chunks (R326). -/
def volumeFull (s : State) (v : Nat) : State :=
  let vol := s.volume v
  if !vol.ring ∧ vol.state = 2 ∧ volChunks vol ≤ vol.cserial then
    report ((volDrop (s.setVolume v { vol with state := 3 }) v).setB OC_STAT 3 true) 130 v
  else s
/-- A closed chunk goes to its drive; Flush follows the END chunk. -/
def chunkWrite (s : State) (v : Nat) (c : Chunk) : State :=
  let vol := s.volume v
  let n := vol.drives.length
  let k := vol.cserial % volChunks vol
  let s := s.setVolume v { vol with cserial := vol.cserial + 1, chunks := vol.chunks.filter (fun x => x.stream != c.stream) }
  let s := nvIssue s ⟨nth 0 vol.drives (k % n), 0, v, false, 0, none, chunkBytes s vol c, 2 ^ 20 * (1 + k / n)⟩
  let s := if c.hasEnd then forEach vol.drives s (fun d s => nvIssue s ⟨d, 1, v, false, 0, none, [], 0⟩) else s
  volumeFull s v
/-- The chunk that closed first is written. -/
def chunkNext (s : State) (v : Nat) : State :=
  match (s.volume v).chunks.find? (fun c => c.closed) with
  | some c => if (s.volume v).state = 2 then chunkWrite s v c else s
  | none => s
def execChunkWrite (v : Nat) (s : State) : Res := .next (chunkNext (chunkFill s v) v)
/-- Chunks whose first record entered `flushb` beats ago close, in the order in which they opened. -/
def chunksDue (s : State) (v : Nat) : State :=
  let vol := s.volume v
  let due (c : Chunk) : Bool := !c.closed && decide (c.openedAt + (vol.flushb : Int) ≤ (beatOrTick s : Int))
  s.setVolume v { vol with
    chunks := vol.chunks.filter (fun c => !due c) ++ (vol.chunks.filter due).map (fun (c : Chunk) => { c with closed := true }) }
def execChunkFlushTime (v : Nat) (s : State) : Res := .next (chunkNext (chunksDue (chunkFill s v) v) v)
/-- A volume stops for good (R326). -/
def volumeFail (s : State) (v : Nat) : State :=
  let vol := s.volume v
  if vol.state ∈ [1, 2, 3] then report ((volDrop (s.setVolume v { vol with state := 4 }) v).setB OC_STAT 4 true) 129 v else s

-- Datagrams (R328, R329, R391)
def dgPort (e : List Byte) : Nat := u8 e 32
def dgV6 (e : List Byte) : Bool := u8 e 33 == 6
def dgAddr (e : List Byte) : Nat := if dgV6 e then beAt e 48 16 else beAt e 48 4
def dgIf (s : State) (e : List Byte) : Option Nat := ifOfVlan s (dgPort e) (u16 e 36 % 4096)
/-- The frame that carries a record. -/
def datagram (s : State) (e : List Byte) (i mac : Nat) (b : List Byte) : List Byte :=
  let f := ifOf s (dgPort e) i
  let d := dgAddr e
  let tos := u8 e 34 % 64 * 4
  if dgV6 e then frameOf (dgPort e) mac (u16 e 36) 0x86DD (ipv6Packet tos 64 17 f.ipv6 d (udpPacket true f.ipv6 d (u16 e 40) (u16 e 38) b))
  else frameOf (dgPort e) mac (u16 e 36) 0x0800
    (ipv4Packet (s.fresh % 65536) tos 64 17 f.ipv4 d (udpPacket false f.ipv4 d (u16 e 40) (u16 e 38) b))
/-- The interface and the next hop's MAC by which a stream's datagrams leave, when the port is UP and the hop is known. -/
def wayOf (s : State) (e : List Byte) : Option (Nat × Nat) :=
  match dgIf s e with
  | some i => if ethUp s (dgPort e) then (destMac s (dgPort e) i (dgV6 e) (dgAddr e)).map (fun m => (i, m)) else none
  | none => none
/-- Ask for the next hop of a stream that waits for it. -/
def datagramAsk (s : State) (e : List Byte) : State :=
  match dgIf s e with
  | some i => if (destMac s (dgPort e) i (dgV6 e) (dgAddr e)).isNone then resolve s (dgPort e) i (dgV6 e) (dgAddr e) else s
  | none => s
/-- The time of a record, from its header (R300). -/
def recordTime (b : List Byte) : Nat := (leAt b 32 6 * 1000000000 + u32 b 38) * 65536 + u16 b 42
def launchDue (e b : List Byte) : Nat := recordTime b + u32 e 28 * 65536
/-- The first record of the stream's context leaves as a datagram; `at_` says whether at its launch time. -/
def datagramOut (s : State) (e : List Byte) (h : Nat × Nat) (at_ : Bool) : State :=
  let a := ethCtx (dgPort e) (enChan e)
  match txFirst s a with
  | some b =>
    let f := datagram s e h.1 h.2 b
    txPop (s.useFree.put (if at_ then .launched (dgPort e) f else .frame (dgPort e) f)) a
  | none => s
/-- The carrier writes its head record into the context, which sends it at once unless it has to wait for its launch; one whose
moment had passed as it reached the head is late (R329, R391). -/
def datagramMove (s : State) (n : Nat) (e : List Byte) (h : Nat × Nat) (r : QRec) : State :=
  let t := s.stream n
  let a := ethCtx (dgPort e) (enChan e)
  let s := setTx (popRecord s n) a (txBytes s a ++ r.bytes)
  if !enLaunch e then datagramOut s e h false
  else if launchDue e r.bytes < max r.inTime t.outTime then
    datagramOut ((s.setStream n { s.stream n with late := t.late + 1 }).setB OC_STAT 1 true) e h true
  else s
/-- One step of a UDP stream's carrier: no record waits in its context for the launch. -/
def datagramSend (s : State) (n : Nat) : State :=
  let e := outEntry s n
  match headRec s n, wayOf s e with
  | some r, some h => if ctxEmpty s e then datagramMove s n e h r else s
  | some _, none => datagramAsk s e
  | none, _ => s
/-- DATAGRAM_LAUNCH: the record in the context, or else the head record, at its launch time. -/
def datagramLaunch (s : State) (n : Nat) : State :=
  let e := outEntry s n
  let s := match (s.stream n).queue.head?, wayOf s e with
    | some r, some h => if ctxEmpty s e ∧ launchDue e r.bytes ≤ timeNow s then datagramMove s n e h r else s
    | _, _ => s
  match txFirst s (ethCtx (dgPort e) (enChan e)), wayOf s e with
  | some b, some h => if launchDue e b ≤ timeNow s then datagramOut s e h true else s
  | some _, none => datagramAsk s e
  | none, _ => s
def execDatagramLaunch (stream : Nat) (tclk : Nat) (s : State) : Res :=
  let s := setClock s tclk
  .next (if carries s stream 2 ∧ enLaunch (outEntry s stream) then datagramLaunch s stream else s)
def repeated : Nat → (State → State) → State → State
  | 0, _, s => s
  | n + 1, f, s => repeated n f (f s)

end Sys2Proof.Machine
end

