-- ==== Sys2Proof/Machine/Hbm.lean ====
section
/-! DEFINITION. HBM3 Capture Memory (R334–R352): regions, arbitration windows, retraining, errors, repair, retirement. -/
namespace Sys2Proof.Machine

abbrev HBM_END : Nat := 0x1C00000000
def memReady (s : State) : Bool := s.rb MEM_STAT 0

-- Regions (R336)
def spareConf (s : State) (a : Nat) : Nat := s.rf a 28 16
/-- The spare pool of region 1 (Carousel) or 2 (stream): its first page and its pages; it follows the pages the region was set to. -/
def poolOf (s : State) (k : Nat) : Nat × Nat :=
  if k = 1 then (s.rdN MEM_CARBASE + s.mem.sizes.1, spareConf s MEM_CARSPARE)
  else (s.rdN MEM_STRBASE + s.mem.sizes.2, spareConf s MEM_STRSPARE)
def poolEnd (s : State) (k : Nat) : Nat := (poolOf s k).1 + (poolOf s k).2
/-- Region of a page: 0 firmware or general, 1 Carousel, 2 stream. -/
def regionOf (s : State) (p : Nat) : Nat :=
  if s.rdN MEM_CARBASE ≤ p ∧ p < poolEnd s 1 then 1 else if s.rdN MEM_STRBASE ≤ p ∧ p < poolEnd s 2 then 2 else 0
def inGeneralPage (s : State) (p : Nat) : Bool := decide (16384 ≤ p) && decide (p < 786432) && regionOf s p == 0
/-- Bytes `a … a+n−1` lie in the general region; in the firmware region. -/
def inGeneral (s : State) (a n : Nat) : Bool :=
  decide (HBM0 ≤ a) && decide (a + n ≤ HBM_END) &&
  (n == 0 || (inGeneralPage s (hbmPage a) && inGeneralPage s (hbmPage (a + n - 1)) &&
    !(decide (hbmPage a < s.rdN MEM_CARBASE) && decide (s.rdN MEM_CARBASE ≤ hbmPage (a + n - 1))) &&
    !(decide (hbmPage a < s.rdN MEM_STRBASE) && decide (s.rdN MEM_STRBASE ≤ hbmPage (a + n - 1)))))
def inFirmware (a n : Nat) : Bool := decide (HBM0 ≤ a + n - 1) && decide (a < HBM0 + 16384 * 65536) && n != 0

-- Layout and retirement (R348)
def retiredIn (s : State) (lo n : Nat) : List Nat := s.store.retired.filter (fun p => decide (lo ≤ p) && decide (p < lo + n))
/-- The spare pages of a pool that have not retired, highest first. -/
def sparesOf (s : State) (pool : Nat × Nat) : List Nat :=
  ((List.range pool.2).reverse.map (fun i => pool.1 + i)).filter (fun q => !s.store.retired.contains q)
/-- Lay a region out: the size that stays usable, the spares left, and the pages redirected with the spares they go to. -/
def layRegion (s : State) (base size spare : Nat) : Nat × Nat × List (Nat × Nat) :=
  let bad := sortN (retiredIn s base size)
  let usable := spare - (retiredIn s (base + size) spare).length
  let red := bad.zip (sparesOf s (base + size, spare))
  (size - (bad.length - red.length), usable - red.length, red)
/-- The whole page reads poisoned. -/
def poisonPage (s : State) (p : Nat) : State :=
  setMem s { s.mem with poison := (List.range 8192).map (fun i => (HBM0 + p * 65536) / 8 + i) ++ s.mem.poison }
def layOut (s : State) (cb cs csp sb ss ssp : Nat) : State :=
  let c := layRegion s cb cs csp
  let t := layRegion s sb ss ssp
  let s := ((s.wr MEM_CARBASE (w32 cb)).wr MEM_CARSIZE (w32 c.1)).wr MEM_CARSPARE (w32 (csp * 65536 + c.2.1))
  let s := ((s.wr MEM_STRBASE (w32 sb)).wr MEM_STRSIZE (w32 t.1)).wr MEM_STRSPARE (w32 (ssp * 65536 + t.2.1))
  let red := c.2.2 ++ t.2.2
  let out := s.store.retired.filter (fun p => !red.any (fun r => r.1 == p))
  let new := out.filter (fun p => !s.mem.excluded.contains p)
  forEach new (setMem s { s.mem with redirects := red, excluded := out, sizes := (cs, ss) }) (fun p s => poisonPage s p)
/-- The highest unused spare page of a region, and how many are left. -/
def unused (s : State) (k : Nat) : List Nat := (sparesOf s (poolOf s k)).filter (fun q => !s.mem.redirects.any (fun r => r.2 == q))
def showSpares (s : State) (k : Nat) : State :=
  if k = 0 then s else s.setF (if k = 1 then MEM_CARSPARE else MEM_STRSPARE) 12 0 (unused s k).length
/-- Accesses to page `r` go to a spare page of its region while there is one; else the page is excluded. Its data is lost. -/
def pageMove (s : State) (k r : Nat) : State :=
  let others := s.mem.redirects.filter (fun x => x.1 != r)
  let s := match (if k = 0 then none else (unused s k).head?) with
    | some q => setMem s { s.mem with redirects := (r, q) :: others }
    | none => setMem s { s.mem with redirects := others, excluded := r :: s.mem.excluded }
  poisonPage s r
/-- PAGE_RETIRE (R348): `p` is the page whose row failed, itself or as the spare of another; an unused spare page holds no data. -/
def pageRetire (s : State) (c p : Nat) : State :=
  if s.store.retired.contains p then s
  else if 4096 ≤ s.store.retired.length then report (s.setB MEM_STAT 6 true) 101 c
  else
    let r := match s.mem.redirects.find? (fun x => x.2 == p) with | some x => x.1 | none => p
    let k := regionOf s r
    let idle := (unused s k).contains p
    let s := { s with store := { s.store with retired := s.store.retired ++ [p] } }
    let s := showSpares (if idle then s else pageMove s k r) k
    report (((s.wr MEM_CAPACITY (s.rd MEM_CAPACITY - 1)).addR MEM_RETCNT 1).setB MEM_STAT 5 true) 100 c

/-- MEM_REGION_SET (R350). -/
def regionParams (p : List Byte) : Nat × Nat × Nat × Nat × Nat × Nat :=
  (u32 p 0, u32 p 4, u16 p 8, u32 p 12, u32 p 16, u16 p 10)
def regionBad (p : List Byte) : Bool :=
  let (cb, cs, csp, sb, ss, ssp) := regionParams p
  let ce := cb + cs + csp
  let se := sb + ss + ssp
  decide (cb < 16384) || decide (sb < 16384) || decide (786432 < ce) || decide (786432 < se) || decide (cb < se ∧ sb < ce) ||
  decide (655360 < cs) || decide (4096 < csp) || decide (4096 < ssp) || decide (1 < u32 p 20)
def layFrom (s : State) (p : List Byte) : State :=
  let (cb, cs, csp, sb, ss, ssp) := regionParams p
  layOut s cb cs csp sb ss ssp
def regionSet (s : State) (p : List Byte) : State :=
  let s := layFrom s p
  if u32 p 20 = 1 then { s with store := { s.store with memLayout := p } } else s
def carsBusy (s : State) : Bool := s.cars.any (fun c => c.2.st != 0 && c.2.st != 4)
def anyStream (s : State) : Bool := s.strActive.any (fun p => enEn p.2)
def execMemRegionSet (q : Req) (s : State) : Res :=
  let s' := regionSet s q.params
  .next (command s 0x0900 q (q.params.length == 24) [(regionBad q.params, ST_BAD_PARAM), (carsBusy s || anyStream s, ST_STATE)]
    (reply s' 0x0900 q ST_OK (bw (s'.rd MEM_CARSIZE) ++ bw (s'.rd MEM_STRSIZE))))
/-- MEM_STATUS and MEM_RETIRED_READ (R350). -/
def execMemStatus (q : Req) (s : State) : Res :=
  .next (command s 0x0901 q (q.params.length == 0) []
    (reply s 0x0901 q ST_OK (regsBytes s [MEM_STAT, MEM_CAPACITY, MEM_RETCNT, MEM_CARBASE, MEM_CARSIZE, MEM_CARSPARE, MEM_STRBASE,
      MEM_STRSIZE, MEM_STRSPARE, MEM_CECNT, MEM_UECNT, MEM_CAPARCNT, MEM_REPCNT])))
def retiredEntry (s : State) (p : Nat) : List Byte :=
  b4 (p + regionOf s p * 2 ^ 24 + (if s.mem.redirects.any (fun r => r.1 == p) then 2 ^ 31 else 0))
def execMemRetiredRead (q : Req) (s : State) : Res :=
  let l := ((s.store.retired.drop (u32 q.params 0)).take 1015)
  .next (command s 0x0902 q (q.params.length == 4) []
    (reply s 0x0902 q ST_OK (b4 s.store.retired.length ++ b4 l.length ++ l.flatMap (retiredEntry s))))

-- Arbitration (R339, R340)
/-- The credit of class `k` in a window: CAPTURE, DISPLAY-URGENT, STREAM, PPE/DMA, HOST. -/
def windowCredit (s : State) (k : Nat) : Nat :=
  let sh := match k with
    | 0 => s.rf MEM_SHARECAP 7 0
    | 1 => if displayPresent s then s.af MEM_SHARE 7 0 else 0
    | 2 => s.af MEM_SHARE 15 8
    | 3 => s.af MEM_SHARE 23 16
    | _ => s.af MEM_SHARE 31 24
  sh * 2560 / 100
/-- The queue of a class: its 32 oldest requests (R337). -/
def queueOf (a : ArbSt) (k : Nat) : List HbmWait := (a.wait.filter (fun w => w.req.cls == k)).take 32
def rowHit (a : ArbSt) (w : HbmWait) : Bool := a.rows.contains (Config.hbmBank w.req.page, w.req.page)
/-- The place in its queue of the request served next: one that 64 younger ones have passed, else the oldest that hits an open
row, else the oldest (R337). -/
def nextOf (a : ArbSt) (q : List HbmWait) : Nat :=
  match q.findIdx? (fun w => decide (64 ≤ w.passed)) with
  | some i => i
  | none => (q.findIdx? (rowHit a)).getD 0
/-- Take the `i`th request of class `k` out; the older ones have been passed once more. -/
def takeWait (k : Nat) : Nat → List HbmWait → List HbmWait
  | _, [] => []
  | i, w :: t =>
    if w.req.cls != k then w :: takeWait k i t
    else if i = 0 then t
    else { w with passed := w.passed + 1 } :: takeWait k (i - 1) t
def asks (a : ArbSt) (k : Nat) : Bool := a.wait.any (fun w => w.req.cls == k)
/-- The class to which a slot is awarded (R339), and whether round robin chose it: 5 is a display request that is not urgent, 6
patrol scrubbing, which comes last (R346). -/
def awardTo (a : ArbSt) : Option (Nat × Bool) :=
  let can (k : Nat) : Bool := asks a k && decide (0 < nth 0 a.credit k + nth 0 a.debt k)
  match [1, 0, 2, 3, 4].find? can with
  | some k => some (k, false)
  | none =>
    match ((List.range 6).map (fun i => (a.turn + i) % 6)).find? (asks a) with
    | some k => some (k, true)
    | none => if asks a 6 then some (6, false) else none
/-- A slot is taken from the class's debt first and then from its credit. -/
def chargeSlot (a : ArbSt) (k : Nat) : ArbSt :=
  if 0 < nth 0 a.debt k then { a with debt := setNth a.debt k (nth 0 a.debt k - 1) }
  else { a with credit := setNth a.credit k (nth 0 a.credit k - 1) }
def openRow (a : ArbSt) (w : HbmWait) : ArbSt :=
  let b := Config.hbmBank w.req.page
  { a with rows := (b, w.req.page) :: a.rows.filter (fun r => r.1 != b), write := w.req.write }
/-- One slot of a controller (R337, R339): the request served moves 64 bytes; a slot lost to a row or a bus turn is charged to
the class of the request that needed it, which is served in a later one. -/
def arbSlot (u : ArbUse) (t : Nat) (a : ArbSt) : ArbSt :=
  let a := { a with wait := a.wait ++ (u.arrive.filter (fun p => p.1 == t)).map (fun p => (⟨p.2, 0⟩ : HbmWait)) }
  if u.paused.contains t then a
  else match awardTo a with
  | none => a
  | some (k, rr) =>
    let i := nextOf a (queueOf a k)
    match (queueOf a k)[i]? with
    | none => a
    | some w =>
      let a := chargeSlot (if rr then { a with turn := (k + 1) % 6 } else a) k
      if u.slow.contains t && (!rowHit a w || a.write != w.req.write) then openRow a w
      else { openRow a w with wait := takeWait k i a.wait }
/-- A class ends the window below its credit while it has requests pending (R340). -/
def fellShort (a : ArbSt) (k : Nat) : Bool := decide (0 < nth 0 a.credit k) && asks a k
/-- The window of a controller ends: shortfalls, debts of CAPTURE and DISPLAY-URGENT, new credits. -/
def arbEnd (s : State) (u : ArbUse) : State :=
  let a := Sparse.get (fun _ => ({} : ArbSt)) s.mem.arb u.chan
  let a := forEach (List.range 2560) (if a.credit = [] then { a with credit := (List.range 5).map (windowCredit s) } else a) (arbSlot u)
  let debt := [0, 1].map (fun k =>
    min (windowCredit s k) (nth 0 a.debt k + (if fellShort a k then nth 0 a.credit k else 0)))
  let s := forEach ([0, 1, 2, 3, 4].filter (fellShort a)) s (fun k s => s.setB MEM_CLSHORT k true)
  setMem s { s.mem with arb := Sparse.set (fun _ => {}) s.mem.arb u.chan { a with
    credit := (List.range 5).map (windowCredit s), debt := debt } }
/-- Windows end at beats, or ticks, that are multiples of 16 (R339, R22); a controller that `uses` does not name met no request
in its window. -/
def execArbWindowEnd (uses : List ArbUse) (s : State) : Res :=
  .next (if beatOrTick s % 16 = 0 ∧ memReady s then
    forEach ((List.range 64).filter (fun c => s.rf (MEM_PCSTAT c) 31 30 != 3)) s (fun c s =>
      arbEnd s ((uses.find? (fun u => u.chan == c)).getD ⟨c, [], [], []⟩))
  else s)

-- Refresh, retraining, parity (R342–R344)
def stackTemp (s : State) (k : Nat) : Int := sext 8 (if k = 0 then s.rf MEM_TEMP 7 0 else s.rf MEM_TEMP 15 8)
/-- A per-bank refresh leaves for the channel's stack, at the doubled rate above 85 °C. -/
def execHbmRefresh (chan : Nat) (s : State) : Res :=
  .next (if memReady s ∧ chan < 64 ∧ s.rf (MEM_PCSTAT chan) 31 30 ≠ 3 ∧ !s.rb MEM_STAT 1 then
    s.put (.flow 1 (2 * chan + (if 85 < stackTemp s (chan / 32) then 1 else 0))) else s)
def execStackOverTemperature (stack : Nat) (temp : Int) (s : State) : Res :=
  .next (if stack < 2 then
    let s := s.setF MEM_TEMP (8 * stack + 7) (8 * stack) (lowBits 8 temp)
    if 95 < stackTemp s stack then report s 102 stack else s
  else s)
def pcState (s : State) (c : Nat) : Nat := s.rf (MEM_PCSTAT c) 31 30
def chanFail (s : State) (c : Nat) : State :=
  report ((s.setF (MEM_PCSTAT c) 31 30 3).setB MEM_STAT 7 true) 99 c
/-- The retraining of group g at its beat, or tick in STANDBY (R343). -/
def execRetrain (g : Nat) (s : State) : Res :=
  .next (if g < 16 ∧ beatOrTick s % 80000 = 5000 * g ∧ pwrState s ∈ [PS_RUN, PS_IDLE, PS_STANDBY] ∧ !s.rb MEM_STAT 1 then
    forEach (List.range 4) s (fun j s => if pcState s (4 * g + j) = 1 then s.setF (MEM_PCSTAT (4 * g + j)) 31 30 2 else s)
  else s)
def allTrained (s : State) : Bool := (List.range 64).all (fun c => pcState s c == 1 || pcState s c == 3)
def execRetrainEnd (chan : Nat) (ok : Bool) (s : State) : Res :=
  .next (if 64 ≤ chan ∨ (pcState s chan ≠ 0 ∧ pcState s chan ≠ 2) then s
  else
    let first := pcState s chan == 0
    let again := s.mem.retried.contains chan
    let s := setMem s { s.mem with retried := s.mem.retried.filter (fun c => c != chan) }
    let s := if ok then s.setF (MEM_PCSTAT chan) 31 30 1
      else if again then chanFail s chan else setMem s { s.mem with retried := chan :: s.mem.retried }
    if first && allTrained s then (s.setB MEM_STAT 0 true).setB MEM_STAT 1 false else s)
/-- A parity error: `replays` replays in a row also met errors; after the third the channel pauses and retrains at once and
replays again, and errors that persist then fail it (R344). -/
def execParityError (chan : Nat) (replays : Nat) (persist : Bool) (s : State) : Res :=
  .next (if 64 ≤ chan ∨ pcState s chan = 3 then s
  else
    let s := (s.addR MEM_CAPARCNT (1 + min replays 3 + (if 3 ≤ replays ∧ persist then 1 else 0))).setB MEM_STAT 2 true
    if replays < 3 then s
    else
      let s := report s 98 chan
      if persist then chanFail s chan else if pcState s chan = 1 then s.setF (MEM_PCSTAT chan) 31 30 2 else s)

-- Data errors (R345–R347)
/-- Patrol scrubbing reads words of the channels in service and writes corrected ones back (R344, R346). -/
def scrubbed (s : State) (l : List Nat) : List Nat := l.filter (fun x => pcState s (pcOf x) != 3)
def execPatrolScrub (h : EccHits) (s : State) : Res :=
  .next (if s.rb MEM_CTRL 0 && memReady s && !s.rb MEM_STAT 1 then
    forEach (scrubbed s h.ue) (forEach (scrubbed s h.ce) s (fun x s => eccCe s x)) (fun x s => eccUe s x)
  else s)
/-- The repairs that have taken a spare row of a bank: each bank has 2 (R347). -/
def repairsIn (s : State) (c b : Nat) : Nat :=
  ((s.store.repairs ++ s.store.hard).filter (fun r => r.1 == c && Config.hbmBank r.2 == b)).length
/-- SPARES and EXH of a pseudo-channel as power-on finds them (R351). -/
def sparesShow (s : State) (c : Nat) : State :=
  let l := ((s.store.repairs ++ s.store.hard).filter (fun r => r.1 == c)).map (fun r => Config.hbmBank r.2)
  (s.setF (MEM_PCSTAT c) 7 0 (2 * Config.hbmBanks - l.length)).setF (MEM_PCSTAT c) 15 8
    ((uniq l).filter (fun b => decide (2 ≤ repairsIn s c b))).length
/-- The poisoned words of the row of page `p` in pseudo-channel `c` (R334), which the repair reads through ECC. -/
def rowPoison (s : State) (c p : Nat) : List Nat :=
  (s.mem.poison.filter (fun w => pcOf (8 * w) == c && rowPage s (8 * w) == p)).map (fun w => 8 * w)
/-- Repair of a failing row in service while no pause is active (R347): `spares` rows at most are left in its bank; with none its
page retires (R348). Poisoned words stay poisoned. -/
def rowRepair (s : State) (c p spares : Nat) : State :=
  let s := forEach (rowPoison s c p) s (fun a s => eccUe s a)
  let s := setMem s { s.mem with failing := s.mem.failing.filter (fun f => f != (c, p)) }
  let left := min spares (2 - repairsIn s c (Config.hbmBank p))
  if left = 0 then pageRetire s c p
  else
    let s := s.setF (MEM_PCSTAT c) 7 0 (s.rf (MEM_PCSTAT c) 7 0 - 1)
    let s := if left = 1 then s.setF (MEM_PCSTAT c) 15 8 (s.rf (MEM_PCSTAT c) 15 8 + 1) else s
    let s := (s.wr (MEM_PCLASTREP c) (w32 p)).addR MEM_REPCNT 1
    { s with store := { s.store with repairs := s.store.repairs ++ [(c, p)] } }
def execRowRepair (chan : Nat) (page : Nat) (spares : Nat) (s : State) : Res :=
  .next (if !s.mem.failing.contains (chan, page) ∨ !memReady s ∨ s.rb MEM_STAT 1 ∨ pcState s chan = 3 ∨
      (List.range 64).any (fun c => pcState s c == 2) then s
    else rowRepair s chan page spares)

/-- A range touches a pseudo-channel that has failed, which is never used again (R344). -/
def failedIn (s : State) (a n : Nat) : Bool :=
  (List.range (min 64 ((a % 256 + n + 255) / 256))).any (fun i => pcState s (pcOf (a + 256 * i)) == 3)
-- Device addresses (R353, R402)
inductive DmaSpace where
  | ppe (cluster : Nat)
  | sram
  | hbm
  | eth (port chan : Nat)
  | nbr (port chan : Nat)
deriving DecidableEq, Repr
def dmaSpace (a : Nat) : Option DmaSpace :=
  if 0x0F00000000 ≤ a ∧ a < 0x0F01000000 then some (.ppe ((a - 0x0F00000000) / 0x40000 / 8))
  else if 0x0F10000000 ≤ a ∧ a < 0x0F12000000 then some (.ppe ((a - 0x0F10000000) / 0x400000))
  else if 0x0F20000000 ≤ a ∧ a < 0x0F20080000 then some .sram
  else if HBM0 ≤ a ∧ a < HBM_END then some .hbm
  else if 0x0F30000000 ≤ a ∧ a < 0x0F30400000 then some (.eth ((a - 0x0F30000000) / 0x80000) ((a - 0x0F30000000) / 0x1000 % 128))
  else if 0x0F38000000 ≤ a ∧ a < 0x0F38100000 then some (.nbr ((a - 0x0F38000000) / 0x80000) ((a - 0x0F38000000) / 0x1000 % 128))
  else none
/-- A byte of the engines' memories, DMA SRAM or HBM. -/
def devByte (s : State) (a : Nat) : Byte :=
  match dmaSpace a with
  | some (.ppe _) => Mem.get s.pm.bytes a
  | some .sram => Mem.get s.sram (a - 0x0F20000000)
  | some .hbm => Mem.get s.hbm a
  | _ => 0
def deviceBytes (s : State) (a n : Nat) : List Byte := (List.range n).map (fun k => devByte s (a + k))

/-- A host access through BAR2 (R335, R336, R345, R348). -/
def bar2Read (s : State) (a n : Nat) (h : EccHits) : State :=
  let s := if s.mem.excluded.any (fun p => decide (hbmPage a ≤ p) && decide (p ≤ hbmPage (a + n - 1))) then s.setB MEM_STAT 8 true else s
  let (s, bad) := eccRead s a n h
  let s := s.put (.readBytes .host (s.hbmRead a n))
  if bad then s.put (.poisoned .host) else s
/-- The words of which a write of `n` bytes at `a` covers only a part: they are read first, and stay poisoned where the read meets
an uncorrectable error (R345). -/
def partWords (a n : Nat) : List Nat :=
  if n = 0 then [] else (uniq [a / 8, (a + n - 1) / 8]).filter (fun w => !(decide (a ≤ 8 * w) && decide (8 * w + 8 ≤ a + n)))
def bar2Write (s : State) (a : Nat) (b : List Byte) (h : EccHits) : State :=
  (forEach (partWords a b.length) s (fun w s => (eccRead s (8 * w) 8 h).1)).hbmWrite a b
def execBar2Access (write : Bool) (x : Nat) (n : Nat) (bytes : List Byte) (h : EccHits) (s : State) : Res :=
  let a := HBM0 + x
  .next (if s.pci.d3 then unsupported s
  else if !memReady s || decide (48 * 2 ^ 30 < x + n) then
    (if write then s else s.put (.readBytes .host (List.replicate n 255)))
  else if inFirmware a n || failedIn s a n then unsupported s
  else if write then bar2Write s a bytes h
  else bar2Read s a n h)

end Sys2Proof.Machine
end

