-- ==== Sys2Proof/Machine/Mailbox.lean ====
section
/-! DEFINITION. Mailboxes, doorbells, locks and the intake of Bisor packets (R63–R97). -/
namespace Sys2Proof.Machine

/-- An event of MBX_STAT (kind 0 REJECT, 1 FENCED, 2 TIMEOUT, 3 LOST); MBX_ERRSRC keeps the first (R85). -/
def mbxEvent (s : State) (kind box : Nat) : State :=
  let s := if s.rf MBX_STAT 3 0 = 0 then s.wr MBX_ERRSRC (w32 (2 ^ 31 + kind * 256 + box)) else s
  s.setB MBX_STAT kind true
/-- Vector 8+n of pair `n` (R88). -/
def pairVector (s : State) (n : Nat) : State := vectorIf s (s.rb MBX_IRQEN (8 + n)) (8 + n)
/-- A refused host write (R80, R81). -/
def hostReject (s : State) (box : Nat) : State :=
  let s := report (mbxEvent s 0 box) 228 (if box < 8 then box else if box < 80 then box - 16 else box - 80)
  if box < 8 then pairVector (s.setB (MBX_HCSTAT box) 5 true) box else s
/-- A host access to a fenced mailbox or doorbell (R87). -/
def hostFenced (s : State) (box : Nat) : State :=
  let s := mbxEvent s 1 box
  if box < 8 then pairVector s box else if box < 16 then pairVector s (box - 8) else s
def hcFull (s : State) (n : Nat) : Bool := s.rf (MBX_HCSTAT n) 1 0 == 1
def hrFull (s : State) (n : Nat) : Bool := s.rf (MBX_HRSTAT n) 1 0 == 1
def inFull (s : State) (e : Nat) : Bool := s.rf (MBX_PESTAT e) 1 0 == 1
def outFull (s : State) (e : Nat) : Bool := s.rf (MBX_PESTAT e) 3 2 == 1
def setIn (s : State) (e : Nat) (full : Bool) : State :=
  let s := if full then setIdleBeats s (e / 8) 0 else s
  (s.setF (MBX_PESTAT e) 1 0 (if full then 1 else 0)).setB (MBX_CLPEND (e / 8)) (e % 8) full
def setOut (s : State) (e : Nat) (full : Bool) : State :=
  (s.setF (MBX_PESTAT e) 3 2 (if full then 1 else 0)).setB (MBX_CLPEND (e / 8)) (8 + e % 8) full
/-- An engine's interrupt source fires (R279). -/
def engineIrq (s : State) (e n : Nat) : State :=
  let p := s.ppeEng e
  if ppeState s e = 3 then s else idleBroken (s.setPpe e { p with ipend := p.ipend ||| 2 ^ n }) e

-- The mailbox data window (R77, R80–R82, R87)
/-- The end of the mailbox, or of the half of an engine's mailbox, that an address lies in. -/
def boxEnd (a : Nat) : Nat := if a < 0x90000 then (a / 0x1000 + 1) * 0x1000 else (a / 0x800 + 1) * 0x800
/-- A write that stays within one mailbox or half: taken, refused or fenced. The host writes commands and IN halves, the
management cores also replies, and engine `e` alone the OUT half of mailbox `e`. -/
def mailboxPart (s : State) (m : Master) (a : Nat) (b : List Byte) : State :=
  if a < 0x80000 ∨ 0xD0000 ≤ a then s
  else if a < 0x90000 then
    let n := (a - 0x80000) / 0x1000 % 8
    let cmd := decide (a < 0x88000)
    match m with
    | .host =>
      if !fwReady s then hostFenced s (if cmd then n else 8 + n)
      else if cmd then (if hcFull s n then hostReject s n else s.mbxWrite a b)
      else s
    | .mgmt _ => if !fwReady s || (if cmd then hcFull s n else hrFull s n) then s.put (.busError m) else s.mbxWrite a b
    | _ => s.put (.busError m)
  else
    let e := (a - 0x90000) / 0x1000
    let out := decide (0x800 ≤ (a - 0x90000) % 0x1000)
    let host := decide (m = .host)
    let may := match m with
      | .host => !out
      | .mgmt _ => !out
      | .ppe x => out && x == e
      | .other => false
    if engFenced s e then (if host then hostFenced s (16 + e) else s.put (.busError m))
    else if !may || (if out then outFull s e else inFull s e) then (if host then hostReject s (16 + e) else s.put (.busError m))
    else s.mbxWrite a b
/-- A write of any length, mailbox by mailbox; `f` bounds the number of mailboxes it crosses. -/
def mailboxParts : Nat → State → Master → Nat → List Byte → State
  | 0, s, _, _, _ => s
  | f + 1, s, m, a, b =>
    if b = [] then s
    else
      let k := boxEnd a - a
      mailboxParts f (mailboxPart s m a (b.take k)) m (a + k) (b.drop k)
def mailboxWrite (s : State) (m : Master) (a : Nat) (b : List Byte) : State := mailboxParts b.length s m a b
/-- A read that stays within one mailbox or half: its bytes, or what the fence answers (R80, R87). -/
def mailboxGet (s : State) (m : Master) (a n : Nat) : State × List Byte :=
  let ones := List.replicate n (0xFF : Byte)
  if a < 0x80000 ∨ 0xD0000 ≤ a then (s, zeros n)
  else if a < 0x90000 then
    let k := (a - 0x80000) / 0x1000 % 8
    match m with
    | .host => if fwReady s then (s, s.mbxRead a n) else (hostFenced s (if a < 0x88000 then k else 8 + k), ones)
    | .mgmt _ => if fwReady s then (s, s.mbxRead a n) else (s.put (.busError m), ones)
    | _ => (s.put (.busError m), ones)
  else
    let e := (a - 0x90000) / 0x1000
    if engFenced s e then (if m = .host then hostFenced s (16 + e) else s.put (.busError m), ones)
    else (s, s.mbxRead a n)
def mailboxGets : Nat → State → Master → Nat → Nat → State × List Byte
  | 0, s, _, _, _ => (s, [])
  | f + 1, s, m, a, n =>
    if n = 0 then (s, [])
    else
      let k := min n (boxEnd a - a)
      let r := mailboxGet s m a k
      let t := mailboxGets f r.1 m (a + k) (n - k)
      (t.1, r.2 ++ t.2)
def mailboxRead (s : State) (m : Master) (a n : Nat) : State × List Byte := mailboxGets n s m a n
def execMailboxDataWrite (m : Master) (addr : Nat) (bytes : List Byte) (s : State) : Res :=
  .next (onBar s m (mailboxWrite s m addr bytes))

/-- The host rings command doorbell `n` (R78, R80). -/
def ringCommand (s : State) (n : Nat) (v : Word) : State :=
  let len := fld v 12 0
  if !fwReady s then hostFenced s n
  else if hcFull s n ∨ len < 24 ∨ 4096 < len then hostReject s n
  else
    let s := (s.setF (MBX_HCSTAT n) 1 0 1).setF (MBX_HCSTAT n) 31 16 (hostEpoch s)
    { s with doorbells := s.doorbells ++ [(n, len)] }
def execMbxHcdbWrite (n : Nat) (v : Word) (s : State) : Res := .next (onBar s .host (if n < 8 then ringCommand s n v else s))

-- Packets (R63–R69)
/-- Every opcode that a chapter defines (R74). -/
def opcodeRanges : List (Nat × Nat) :=
  [(0x0000, 0x0004), (0x0100, 0x0106), (0x0200, 0x0205), (0x0300, 0x0302), (0x0400, 0x0403), (0x0500, 0x0504),
   (0x0600, 0x0608), (0x0700, 0x0707), (0x0800, 0x0803), (0x0810, 0x0818), (0x0900, 0x0902), (0x0910, 0x0913)] ++
  [(0x0A00, 0x0A07), (0x0A10, 0x0A15), (0x0B00, 0x0B03), (0x0C00, 0x0C06), (0x0D00, 0x0D03), (0x0E00, 0x0E02),
   (0x0E10, 0x0E16), (0x0F00, 0x0F0A)]
def opcodeKnown (op : Nat) : Bool := opcodeRanges.any (fun r => decide (r.1 ≤ op ∧ op ≤ r.2))
def pkOpcode (pk : List Byte) : Nat := u16 pk 12
def pkFlag (pk : List Byte) (i : Nat) : Bool := (u8 pk 3).testBit i
/-- The header check of R67: `none` discards, a status refuses, 0 passes. -/
def headerCheck (s : State) (pk : List Byte) : Option Nat :=
  if u16 pk 0 ≠ 0xB150 ∨ pkFlag pk 0 then none
  else
    let any := pkFlag pk 2
    let anyOk := decide (pkOpcode pk ∈ [0, 1, 3])
    let idBad := decide (2 ^ 20 ≤ u32 pk 4) || (any && !anyOk) || (!any && u32 pk 4 != s.devId)
    let rsv := decide (16 ≤ u8 pk 3) || pkFlag pk 3 || !zeroAt pk 18 6
    let lenBad := decide (4072 < u16 pk 14) || pk.length != 24 + u16 pk 14 + (if pkFlag pk 1 then 32 else 0)
    match firstFail [(idBad, ST_BAD_PARAM), (u8 pk 2 != 1, ST_BAD_PARAM), (rsv, ST_BAD_PARAM), (lenBad, ST_BAD_LENGTH)] with
    | some st => some st
    | none => some 0
/-- Authentication of R68. -/
def authOk (s : State) (pk : List Byte) (net : Bool) : Bool :=
  let n := u16 pk 16
  if n = 0 then !pkFlag pk 1 && (!net || pkOpcode pk == 0x0F03)
  else
    match s.session n with
    | some ss => pkFlag pk 1 && decide (pk.drop (24 + u16 pk 14) = digestBytes (Config.hmac ss.key (pk.take (24 + u16 pk 14))))
    | none => false
/-- The replay window of R69: the window after an accepted sequence, or none. -/
def replayStep (w : Session) (q : Nat) : Option Session :=
  let d := (q + 2 ^ 32 - w.high) % 2 ^ 32
  let back := (w.high + 2 ^ 32 - q) % 2 ^ 32
  if w.empty then some { w with empty := false, high := q, seen := 1 }
  else if 1 ≤ d ∧ d < 2 ^ 31 then
    some { w with high := q, seen := (if d < 1024 then w.seen * 2 ^ d % 2 ^ 1024 else 0) ||| 1 }
  else if back ≤ 1023 ∧ !w.seen.testBit back then some { w with seen := w.seen ||| 2 ^ back }
  else none
def replayCheck (s : State) (n q : Nat) : Option State :=
  if n = 0 then some s
  else
    match s.session n with
    | some w =>
      match replayStep w q with
      | some w' => some (s.setSession n (some w'))
      | none => none
    | none => none
/-- Step 1 of R8 passed: the request is in hand, unless its opcode is undefined or its operator may not send it. -/
def intoHand (s : State) (op : Nat) (q : Req) : State :=
  if !roleOk s op q then deny s op q ST_LOCKED
  else if !opcodeKnown op then deny s op q ST_BAD_OPCODE
  else { s with inHand := s.inHand ++ [⟨op, q, (s.session q.session).map Session.key⟩] }
def pkReq (pk : List Byte) (src : Src) (epoch : Nat) : Req :=
  ⟨src, u16 pk 16, w32 (u32 pk 8), epoch, slice pk 24 (u16 pk 14)⟩
/-- Acceptance of a packet from a host mailbox: a failure at step 3 of R67 or later is answered. -/
def acceptHost (s : State) (n : Nat) (pk : List Byte) (epoch : Nat) : State :=
  let q := pkReq pk (.mailbox n) epoch
  let op := pkOpcode pk
  match headerCheck s pk with
  | none => s
  | some st =>
    if st ≠ 0 then answerAs s op q (pkFlag pk 1) (b2 st ++ b2 0)
    else if !authOk s pk false then answerAs (report s 195 0xFFFF) op q false (b2 ST_AUTH_FAIL ++ b2 0)
    else
      match replayCheck s q.session q.seq.toNat with
      | none => deny (report (s.addSat MBX_REPLAYCNT 0xFFFFFFFF 1) 196 0xFFFF) op q ST_REPLAY
      | some s => intoHand s op q
/-- The first FULL command mailbox in doorbell order whose pair can take it (R78, R79). -/
def pairReady (s : State) (n : Nat) : Bool := !hrFull s n && s.inHand.all (fun h => decide (h.req.src ≠ .mailbox n))
def nextDoorbell (s : State) : Option (Nat × Nat) := s.doorbells.find? (fun d => pairReady s d.1)
/-- Firmware takes a command mailbox (R78 step 4). -/
def takeMailbox (s : State) (n len : Nat) : State :=
  let pk := s.mbxRead (0x80000 + 0x1000 * n) len
  let epoch := s.rf (MBX_HCSTAT n) 31 16
  let s := { s with doorbells := s.doorbells.filter (fun d => d.1 != n) }
  let s := s.setF (MBX_HCSTAT n) 1 0 0
  let s := (s.wr (MBX_HCSEQ n) (w32 (u32 pk 8))).wr (MBX_HCBEAT n) (w32 s.beat)
  acceptHost (pairVector s n) n pk epoch
def execMailboxTake (s : State) : Res :=
  .next (match nextDoorbell s with
    | some (n, len) => if fwReady s then takeMailbox s n len else s
    | none => s)
/-- A dropped network packet (R67, R71, R72). -/
def dropPacket (s : State) : State := s.addSat MBX_DROPCNT 0xFFFFFFFF 1
/-- Acceptance of a network packet: a failure gets no reply, but a replay does (R67–R69). -/
def acceptNet (s : State) (p : Peer) (pk : List Byte) : State :=
  let q := pkReq pk (.net p) 0
  let op := pkOpcode pk
  if headerCheck s pk ≠ some 0 then dropPacket s
  else if !authOk s pk true then report (s.addSat MBX_AUTHCNT 0xFFFFFFFF 1) 195 0xFFFF
  else
    match replayCheck s q.session q.seq.toNat with
    | none => deny (report (s.addSat MBX_REPLAYCNT 0xFFFFFFFF 1) 196 0xFFFF) op q ST_REPLAY
    | some s => intoHand s op q
/-- Each source executes one command at a time, in queue order (R71). -/
def netFree (s : State) (p : Peer × List Byte) : Bool :=
  s.inHand.all (fun h => !isNet h.req.src || h.req.session != u16 p.2 16)
def execNetworkPacketTake (s : State) : Res :=
  .next (match s.netQueue.find? (netFree s) with
    | some p => if fwReady s then acceptNet { s with netQueue := s.netQueue.erase p } p.1 p.2 else s
    | none => s)

/-- The host acknowledges a reply: the reply mailbox is EMPTY (R78 step 6). -/
def execMbxHrackWrite (n : Nat) (s : State) : Res := .next (onBar s .host (if n < 8 then s.wr (MBX_HRSTAT n) 0 else s))

/-- A message expires (R89): `box` 0–7 command mailbox, 16+e engine IN half. -/
def mailboxTimeout (s : State) (box : Nat) : State :=
  if s.rf MBX_TMO 15 0 = 0 then s
  else if box < 8 then
    if hcFull s box then
      let s := { s with doorbells := s.doorbells.filter (fun d => d.1 != box) }
      let s := (s.setF (MBX_HCSTAT box) 1 0 0).setB (MBX_HCSTAT box) 4 true
      pairVector (mbxEvent s 2 box) box
    else s
  else if 16 ≤ box ∧ box < 80 ∧ inFull s (box - 16) then
    let e := box - 16
    let host := s.rf (MBX_PESTAT e) 15 9 == 0
    let sent := s.bt.fwMsgs.filter (fun x => x.1 == e)
    let s := (setIn { s with bt := { s.bt with fwMsgs := s.bt.fwMsgs.filter (fun x => x.1 != e) } } e false).setB (MBX_PESTAT e) 6 true
    let s := if host then mbxEvent s 2 box else s
    forEach sent s (fun x s => if s.inHand.contains x.2 then deny s x.2.op x.2.req ST_TIMEOUT else s)
  else s
def execMailboxTimeout (box : Nat) (s : State) : Res := .next (mailboxTimeout s box)

/-- The IN doorbell of an engine that takes it (R83). A message of firmware belongs to the newest command in hand, which
its expiry answers (R89; log 84). -/
def ringEngine (s : State) (m : Master) (e : Nat) : State :=
  let fw := match m with | .mgmt _ => s.inHand.getLast?.toList.map (fun h => (e, h)) | _ => []
  let s := { s with bt := { s.bt with fwMsgs := s.bt.fwMsgs.filter (fun x => x.1 != e) ++ fw } }
  let s := setIn s e true
  let s := s.setF (MBX_PESTAT e) 15 9 (masterId m)
  let s := s.setF (MBX_PESTAT e) 31 16 (if m = .host then hostEpoch s else fwEpoch s)
  let s := wakeCluster s (e / 8)
  if s.rb (MBX_CLMASK (e / 8)) (e % 8) ∧ s.rf (PPE_CLSTAT (e / 8)) 1 0 = 0 then engineIrq s e 0 else s
/-- An engine is never the sender of a message to one: a ring of its is a bus error (R82, R289). -/
def mayRing : Master → Bool
  | .host => true
  | .mgmt _ => true
  | _ => false
/-- A write of MBX_CLDBc (R81, R83, R86, R87): each bit rings, is refused or meets a fence; the write is answered once for
each. The doorbell of an absent cluster is fenced whatever the bits (R7). -/
def ringCluster (s : State) (m : Master) (c : Nat) (v : Word) : State :=
  let l := (bitList 8 v.toNat).map (fun j => 8 * c + j)
  let fenced := l.any (engFenced s) || !clusterPresent s c
  let full := l.any (fun e => !engFenced s e && inFull s e)
  let s := forEach (l.filter (fun e => !engFenced s e && !inFull s e && mayRing m)) s (fun e s => ringEngine s m e)
  if m = .host then
    let s := if fenced then hostFenced s (80 + c) else s
    if full then hostReject s (80 + c) else s
  else if fenced || full || !mayRing m then s.put (.busError m) else s
def execMbxCldbWrite (m : Master) (c : Nat) (v : Word) (s : State) : Res :=
  .next (onBar s m (if c < 8 then ringCluster s m c v else s))

/-- OUTACK releases OUT (R84) and tells the engine (R279). -/
def execMbxPestatOutack (m : Master) (e : Nat) (s : State) : Res :=
  .next (onBar s m (if e < 64 ∧ enginePresent s e ∧ outFull s e then engineIrq (setOut s e false) e 1 else s))

/-- MBX_DROPCNT, MBX_AUTHCNT or MBX_REPLAYCNT: the read returns the count and clears it (R85). -/
def execMbxCountRead (m : Master) (which : Nat) (s : State) : Res :=
  let a := if which = 0 then MBX_DROPCNT else if which = 1 then MBX_AUTHCNT else MBX_REPLAYCNT
  .next (onBar s m ((s.put (.readData m (s.rd a))).wr a 0))

/-- Masters that can hold a lock (R94). -/
def lockable (m : Master) : Bool := decide (m ≠ .other)
/-- Several masters read lock `n` in one cycle (R94, R96): the lowest id wins a free lock. -/
def lockRead (s : State) (n : Nat) (ms : List Master) : State :=
  let ids := sortN ((ms.filter lockable).map masterId)
  let before := lockOwner s n
  let owner := match before with | some o => some o | none => ids.head?
  let s := setLock s n owner
  forEach ms s (fun m s =>
    s.put (.readData m (
      if !lockable m then 0x7F
      else match owner with
        | some o => if before.isNone ∧ o = masterId m then w32 (2 ^ 31 + o) else w32 o
        | none => 0)))
def execGlbLockRead (n : Nat) (ms : List Master) (s : State) : Res := let up := ms.filter (fun m => !(decide (m = .host) && s.pci.d3))
  .next (if n < 256 then lockRead (if up = ms then s else unsupported s) n up else s)
/-- The owner writes its id to a lock (R95). -/
def execGlbLockRelease (m : Master) (n : Nat) (v : Word) (s : State) : Res :=
  .next (onBar s m (if lockable m ∧ lockOwner s n = some (masterId m) ∧ fld v 6 0 = masterId m then setLock s n none else s))

end Sys2Proof.Machine
end

