-- ==== Sys2Proof/Machine/PpeIsa.lean ====
section
/-! DEFINITION. The instruction set of the post-processing engines (R264–R280, R286–R291): decoding, legality, the
exposed pipeline, memory accesses, control flow. -/
namespace Sys2Proof.Machine

/-- One slot's operation (R271, R272). -/
inductive POp where
  | nop
  | alu (op d a b : Nat) (sat : Bool) (sh : Nat)
  | imm (op d v : Nat)
  | load (size : Nat) (pm : Bool) (d n off : Nat)
  | store (size : Nat) (pm : Bool) (src n off : Nat)
  | mac (op acc d a b : Nat) (sat : Bool) (sh : Nat)
  | branch (cond a target : Nat)
  | ctl (op last a b count : Nat)
deriving DecidableEq, Repr

/-- R272's register fields that name a P, M or special register stay within it. -/
def aluFieldsOk (op d a : Nat) : Bool :=
  if op = 0x0C ∨ op = 0x0D then decide (d < 8) else if op = 0x0E then decide (a < 8) else true
/-- Decode one slot (R271, R272); `none` is a reserved encoding. -/
def decodeSlot (w : Nat) : Option POp :=
  match bitsOf w 31 28 with
  | 0 => if w = 0 then some .nop else none
  | 1 =>
    let op := bitsOf w 27 22
    if op ≤ 0x13 ∧ aluFieldsOk op (bitsOf w 21 17) (bitsOf w 16 12) then
      some (.alu op (bitsOf w 21 17) (bitsOf w 16 12) (bitsOf w 11 7) (w.testBit 6) (bitsOf w 5 0)) else none
  | 2 => if bitsOf w 27 24 ≤ 5 ∧ bitsOf w 23 21 = 0 then some (.imm (bitsOf w 27 24) (bitsOf w 20 16) (bitsOf w 15 0)) else none
  | 3 =>
    if w.testBit 16 ∨ (w.testBit 25 ∧ bitsOf w 15 0 ≠ 0) then none
    else some (.load (bitsOf w 27 26) (w.testBit 25) (bitsOf w 24 20) (bitsOf w 19 17) (bitsOf w 15 0))
  | 4 =>
    if w.testBit 16 ∨ (w.testBit 25 ∧ bitsOf w 15 0 ≠ 0) then none
    else some (.store (bitsOf w 27 26) (w.testBit 25) (bitsOf w 24 20) (bitsOf w 19 17) (bitsOf w 15 0))
  | 5 =>
    let op := bitsOf w 27 24
    let a := bitsOf w 16 12
    if op ≤ 10 ∧ (op = 9 → a ≤ 1) ∧ (op = 10 → a ≤ 2) then
      some (.mac op (bitsOf w 23 22) (bitsOf w 21 17) a (bitsOf w 11 7) (w.testBit 6) (bitsOf w 5 0)) else none
  | 6 => if bitsOf w 27 24 ≤ 6 ∧ bitsOf w 18 13 = 0 then some (.branch (bitsOf w 27 24) (bitsOf w 23 19) (bitsOf w 12 0)) else none
  | 7 =>
    let op := bitsOf w 27 24
    if op ≤ 9 ∧ (op ≠ 0 → !w.testBit 0) then
      some (.ctl op (bitsOf w 23 11) (bitsOf w 10 6) (bitsOf w 5 1) (bitsOf w 10 0)) else none
  | _ => none
/-- The classes each slot accepts (R270). -/
def slotAccepts (b : Bool) : POp → Bool
  | .mac .. => b
  | .branch .. => !b
  | .ctl .. => !b
  | _ => true
def isStore : POp → Bool
  | .store .. => true
  | _ => false
/-- D64 names an even register (R277). -/
def pairOk : POp → Bool
  | .load 3 _ d _ _ => d % 2 == 0
  | .store 3 _ d _ _ => d % 2 == 0
  | _ => true

-- Registers
def P_KEY (n : Nat) : Nat := 32 + n
def M_KEY (n : Nat) : Nat := 40 + n
/-- Register `k` of bank `bank` as the bundle that issues reads it. -/
def preg (p : PpeSt) (bank k : Nat) : Nat := Sparse.get (fun _ => 0) p.regs (128 * bank + k)
def sreg (p : PpeSt) (bank k : Nat) : Int := sext 32 (preg p bank k)
def bankOf (p : PpeSt) : Nat := if p.task.isSome then 0 else 1
def pmode (p : PpeSt) (n : Nat) : Nat := Sparse.get (fun _ => 0) p.regs (264 + n)
def pbase (p : PpeSt) (n : Nat) : Nat := Sparse.get (fun _ => 0) p.regs (272 + n)
/-- A result cut to 32 bits, saturating when SAT is set (R273). -/
def fit (sat : Bool) (v : Int) : Nat := lowBits 32 (if sat then satI 32 v else v)

/-- Reverse-carry addition over bits `k−1 … 0` (R269): `i` counts the bits still to add from bit `k−1` down. -/
def revAdd (esz : Nat) : Nat → Bool → Nat → Nat → Nat
  | 0, _, _, _ => 0
  | i + 1, c, x, y =>
    let a := x.testBit i
    let b := y.testBit i
    let sum := (a ^^ b) ^^ c
    let carry := (a && b) || (c && (a ^^ b))
    (if sum then 2 ^ i else 0) + revAdd esz i (carry && decide (esz < i)) x y
def log2Of (l : Nat) : Option Nat := (List.range 18).find? (fun k => 2 ^ k == l)
/-- The post-modified value of Pn, and whether it took a free value (R269): L = 0 in MODULO and an L that is no power of
two in BITREV are outside what the rule lays down. -/
def postMod (s : State) (p : PpeSt) (bank n : Nat) : Nat × Bool :=
  let x : Nat := preg p bank (P_KEY n)
  let m : Nat := preg p bank (M_KEY n)
  let w : Nat := pmode p n
  let l : Nat := w % 2 ^ 18
  let b : Nat := pbase p n
  match bitsOf w 31 30 with
  | 0 => ((x + m) % 2 ^ 32, false)
  | 1 => if l = 0 then (s.fresh % 2 ^ 32, true)
    else (lowBits 32 ((b : Int) + ((x : Int) - b + sext 32 m) % (l : Int)), false)
  | _ =>
    match log2Of l with
    | some k => ((b + revAdd (bitsOf w 29 28) k false ((x + 2 ^ 32 - b) % 2 ^ 32) m) % 2 ^ 32, false)
    | none => (s.fresh % 2 ^ 32, true)

-- Memory (R264–R267)
def dataAt (e : Nat) : Nat := 0x0F00000000 + 0x40000 * e
def sharedAt (c : Nat) : Nat := 0x0F10000000 + 0x400000 * c
/-- The spaces of R264. -/
inductive Space where
  | data | shared | inHalf | outHalf | mbCtl | slices | density | lock
deriving DecidableEq, Repr
def sizeOf (size : Nat) : Nat := if size ≤ 1 then 2 else if size = 2 then 4 else 8
/-- The space that an access of `n` bytes at `a` falls in; registers take word accesses only. -/
def spaceOf (a n : Nat) : Option Space :=
  if a % n ≠ 0 then none
  else if a < 0x40000 then some .data
  else if 0x100000 ≤ a ∧ a < 0x500000 then some .shared
  else if 0x600000 ≤ a ∧ a < 0x600800 then some .inHalf
  else if 0x600800 ≤ a ∧ a < 0x601000 then some .outHalf
  else if a = 0x610000 ∧ n = 4 then some .mbCtl
  else if 0x10000000 ≤ a ∧ a < 0x18000000 then some .slices
  else if 0x20000000 ≤ a ∧ a < 0x21000000 then some .density
  else if 0x40001000 ≤ a ∧ a < 0x40001400 ∧ n = 4 then some .lock
  else none
def isWindow (a n : Nat) : Bool := decide (spaceOf a n = some .slices) || decide (spaceOf a n = some .density)
def pmRead (s : State) (a n : Nat) : List Byte := Mem.read s.pm.bytes a n
def pmWrite (s : State) (a : Nat) (b : List Byte) : State := { s with pm := { s.pm with bytes := Mem.write s.pm.bytes a b } }
/-- A 16-bit unit of the slice windows; an absent slice reads 0 (R264). -/
def sliceHalf (s : State) (a : Nat) : Nat :=
  let k := (a - 0x10000000) / 0x800000
  if !slicePresent s k then 0
  else
    let o := (a - 0x10000000) % 0x800000
    (s.slcRead (k * 2 ^ 24 + o / 4 * 4)).toNat / 2 ^ (8 * (o % 4)) % 65536
/-- A 16-bit unit of the density window (R266). -/
def densityHalf (s : State) (a : Nat) : Nat :=
  let o := a - 0x20000000
  let v (k : Nat) : Nat := Sparse.get (fun _ => 0) s.denCells k
  if s.layoutDense then v (2 ^ 18 * (o / 0x80000) + o % 0x80000 / 2) % 65536
  else v (2 ^ 18 * (2 * (o / 0x100000)) + o % 0x100000 / 4) / 2 ^ (8 * (o % 4)) % 65536
def halves (f : Nat → Nat) (a : Nat) : Nat → Nat
  | 0 => 0
  | n + 1 => f a + 65536 * halves f (a + 2) n
/-- MB_CTL as the engine reads it (R291). -/
def mbCtl (s : State) (e : Nat) : Nat :=
  s.rf (MBX_PESTAT e) 31 16 * 65536 + (if outFull s e then 512 else 0) + (if inFull s e then 256 else 0)
/-- What a load returns; `none` is an access error. -/
def ppeRead (s : State) (e a n : Nat) : Option Nat :=
  match spaceOf a n with
  | some .data => some (leAt (pmRead s (dataAt e + a) n) 0 n)
  | some .shared => some (leAt (pmRead s (sharedAt (e / 8) + (a - 0x100000)) n) 0 n)
  | some .inHalf => some (leAt (s.mbxRead (0x90000 + 0x1000 * e + (a - 0x600000)) n) 0 n)
  | some .outHalf => some (leAt (s.mbxRead (0x90000 + 0x1000 * e + (a - 0x600000)) n) 0 n)
  | some .mbCtl => some (mbCtl s e)
  | some .slices => some (halves (sliceHalf s) a (n / 2))
  | some .density => some (halves (densityHalf s) a (n / 2))
  | some .lock =>
    match lockOwner s ((a - 0x40001000) / 4) with
    | none => some (2 ^ 31 + 16 + e)
    | some o => some o
  | none => none
/-- A load of a free lock acquires it (R94). -/
def ppeReadEffect (s : State) (e a n : Nat) : State :=
  match spaceOf a n with
  | some .lock =>
    let k := (a - 0x40001000) / 4
    if (lockOwner s k).isNone then setLock s k (some (16 + e)) else s
  | _ => s

/-- The engine takes IN (R89, R291). -/
def inTake (s : State) (e : Nat) : State := if inFull s e then setIn s e false else s
/-- The engine rings OUT (R84): firmware sees MBX_CLPEND, the host vector 192+e when it is enabled. -/
def outRing (s : State) (e : Nat) : State :=
  vectorIf ((setOut s e true).setB (PPE_STAT e) 1 true) (s.rb (PPE_CTRL e) 0) (192 + e)
/-- A store; `none` is an access error (R264, R291). -/
def ppeWrite (s : State) (e a n v : Nat) : Option State :=
  match spaceOf a n with
  | some .data => some (pmWrite s (dataAt e + a) (leBytes n v))
  | some .shared => some (pmWrite s (sharedAt (e / 8) + (a - 0x100000)) (leBytes n v))
  | some .outHalf => if outFull s e then none else some (s.mbxWrite (0x90000 + 0x1000 * e + (a - 0x600000)) (leBytes n v))
  | some .mbCtl =>
    if v.testBit 1 ∧ outFull s e then none
    else
      let s := if v.testBit 0 then inTake s e else s
      some (if v.testBit 1 then outRing s e else s)
  | some .lock =>
    let k := (a - 0x40001000) / 4
    some (if lockOwner s k = some (16 + e) ∧ v % 128 = 16 + e then setLock s k none else s)
  | _ => none

-- Slots
/-- What a slot does: register writes, a load's address and size, a store, what it raises, whether a free value was
used. -/
structure SlotAct where
  wr : List PpeWr := []
  rd : Option (Nat × Nat) := none
  st : Option (Nat × Nat × Nat) := none
  accErr : Bool := false
  sat : Bool := false
  free : Bool := false
deriving DecidableEq, Repr
/-- Results of the ALU classes that go to G(d) (R272, R273). |−2^31| does not fit 32 bits, and no rule gives it. -/
def aluResult (s : State) (op : Nat) (x y : Nat) (sat : Bool) (sh : Nat) : Nat × Bool :=
  let a := sext 32 x
  let b := sext 32 y
  match op with
  | 0x00 => (fit sat (a + b), false)
  | 0x01 => (fit sat (a - b), false)
  | 0x02 => (x &&& y, false)
  | 0x03 => (x ||| y, false)
  | 0x04 => (x ^^^ y, false)
  | 0x05 => (x * 2 ^ (y % 32) % 2 ^ 32, false)
  | 0x06 => (fit false (rhu a (y % 32)), false)
  | 0x07 => (x / 2 ^ (y % 32), false)
  | 0x08 => (fit false (min a b), false)
  | 0x09 => (fit false (max a b), false)
  | 0x0A => (fit sat (rhu (a * b) sh), false)
  | 0x0B => if a = -2147483648 then (s.fresh % 2 ^ 32, true) else (a.natAbs, false)
  | 0x11 => (x * 2 ^ sh % 2 ^ 32, false)
  | 0x12 => (fit false (rhu a sh), false)
  | _ => (x / 2 ^ sh, false)
/-- What MVS reads (R268); a reserved special, and CYC with no task running, have no value that a rule gives. -/
def special (s : State) (p : PpeSt) (i : Nat) : Nat × Bool :=
  let b := if p.task.isSome then p.taskBeat else s.beat
  let c := p.ctx.getD {}
  match i with
  | 0 => (b % 2 ^ 32, false)
  | 1 => (b / 2 ^ 32 % 2 ^ 32, false)
  | 2 => (p.task.getD 0xFF, false)
  | 3 => if p.task.isSome then (p.cyc, false) else (s.fresh % 2 ^ 32, true)
  | 4 => (p.ien, false)
  | 5 => (p.ipend % 64, false)
  | 6 => (c.icause, false)
  | 7 => (c.rpc, false)
  | i => if i < 24 then (Sparse.get (fun _ => 0) p.regs (256 + i), false)
    else if i < 28 then ((nth (0 : Word) p.evsel (i - 24)).toNat, false) else (s.fresh % 2 ^ 32, true)
def accLim : Int := 2 ^ 39 - 1
/-- A complex operand (R272). -/
def cxOf (x : Nat) : Cx := (sext 16 (x % 65536), sext 16 (x / 65536))
/-- The accumulator after a MAC-class step, before saturation. -/
def macStep (op : Nat) (acc : Cx) (x y : Nat) : Cx :=
  let a := cxOf x
  let b := cxOf y
  match op with
  | 0 => (0, 0)
  | 1 => (a.1 * b.1 - a.2 * b.2, a.1 * b.2 + a.2 * b.1)
  | 2 => (acc.1 + (a.1 * b.1 - a.2 * b.2), acc.2 + (a.1 * b.2 + a.2 * b.1))
  | 3 => (acc.1 + (a.1 * b.1 + a.2 * b.2), acc.2 + (a.2 * b.1 - a.1 * b.2))
  | _ => (acc.1 + a.1 * b.1, acc.2)
/-- Search registers after a step (R273). -/
def searchStep (op : Nat) (v sv : Int) (si sn : Nat) : Int × Nat × Nat :=
  if (op = 7 ∧ sv < v) ∨ (op = 8 ∧ v < sv) then (v, sn, (sn + 1) % 65536) else (sv, si, (sn + 1) % 65536)
/-- Writes of a MAC-class or search result: visible to its own class after 1 bundle, to the readers after `l` (R274). -/
def twoViews (bank l : Nat) (kv : List (Nat × Nat × Nat)) : List PpeWr :=
  kv.flatMap (fun x => [⟨1, true, 128 * bank + x.1, x.2.2⟩, ⟨l, true, 128 * bank + x.2.1, x.2.2⟩])
/-- The address of a load or store and its post-modification (R269, R271). -/
def memAddr (p : PpeSt) (bank : Nat) (pm : Bool) (n off : Nat) : Nat :=
  if pm then preg p bank (P_KEY n) else lowBits 32 ((preg p bank (P_KEY n) : Int) + sext 16 off)
/-- What one slot does (R271–R274). -/
def slotAct (s : State) (p : PpeSt) (slotB : Bool) (pc : Nat) : POp → SlotAct
  | .nop => {}
  | .alu op d a b sat sh =>
    let k := bankOf p
    let w (l key v : Nat) : List PpeWr := [⟨l, slotB, key, v⟩]
    match op with
    | 0x0C => { wr := w 1 (128 * k + P_KEY d) (preg p k a) }
    | 0x0D => { wr := w 1 (128 * k + M_KEY d) (preg p k a) }
    | 0x0E => { wr := w 1 (128 * k + d) (preg p k (P_KEY a)) }
    | 0x0F =>
      let r := special s p a
      { wr := w 1 (128 * k + d) r.1, free := r.2 }
    | 0x10 => { wr := w 1 (256 + d) (preg p k a) }
    | _ =>
      let r := aluResult s op (preg p k a) (preg p k b) sat sh
      { wr := w (if op = 0x0A then 2 else 1) (128 * k + d) r.1, free := r.2 }
  | .imm op d v =>
    let k := bankOf p
    let x := preg p k d
    let r := match op with
      | 0 => fit false (sext 32 x + sext 16 v)
      | 1 => x &&& v
      | 2 => x ||| v
      | 3 => x ^^^ v
      | 4 => lowBits 32 (sext 16 v)
      | _ => v * 65536
    { wr := [⟨1, slotB, 128 * k + d, r⟩] }
  | .load size pm _ n off =>
    let k := bankOf p
    let a := memAddr p k pm n off
    let m := postMod s p k n
    if pm ∧ bitsOf (pmode p n) 31 30 = 3 then { accErr := true }
    else { rd := some (a, size), wr := (if pm then [⟨1, slotB, 128 * k + P_KEY n, m.1⟩] else []), free := pm && m.2,
           accErr := (spaceOf a (sizeOf size)).isNone }
  | .store size pm d n off =>
    let k := bankOf p
    let a := memAddr p k pm n off
    let m := postMod s p k n
    let v := preg p k d + (if size = 3 then 2 ^ 32 * preg p k (d + 1) else 0)
    if pm ∧ bitsOf (pmode p n) 31 30 = 3 then { accErr := true }
    else { st := some (a, sizeOf size, v % 2 ^ (8 * sizeOf size)), free := pm && m.2,
           wr := (if pm then [⟨1, slotB, 128 * k + P_KEY n, m.1⟩] else []), accErr := (spaceOf a (sizeOf size)).isNone }
  | .mac op acc d a b sat sh =>
    let k := bankOf p
    if op ≤ 4 then
      let r := macStep op (sext 40 (preg p k (48 + acc)), sext 40 (preg p k (52 + acc))) (preg p k a) (preg p k b)
      let c : Cx := (clampI (-accLim) accLim r.1, clampI (-accLim) accLim r.2)
      { wr := twoViews k 3 [(48 + acc, 56 + acc, lowBits 40 c.1), (52 + acc, 60 + acc, lowBits 40 c.2)],
        sat := decide (c ≠ r) }
    else if op = 5 then { wr := [⟨1, slotB, 128 * k + d, fit sat (rhu (sext 40 (preg p k (56 + acc))) sh)⟩] }
    else if op = 6 then { wr := [⟨1, slotB, 128 * k + d, fit sat (rhu (sext 40 (preg p k (60 + acc))) sh)⟩] }
    else if op ≤ 8 then
      let r := searchStep op (sreg p k a) (sreg p k 64) (preg p k 65) (preg p k 66)
      { wr := twoViews k 2 [(64, 67, lowBits 32 r.1), (65, 68, r.2.1), (66, 69, r.2.2)] }
    else if op = 9 then
      { wr := twoViews k 2 [(64, 67, if a = 0 then 2 ^ 31 else 2 ^ 31 - 1), (65, 68, 0), (66, 69, 0)] }
    else { wr := [⟨1, slotB, 128 * k + d, preg p k (67 + a)⟩] }
  | .branch cond _ _ =>
    -- CALL writes i + 3 to G31
    if cond = 5 then { wr := [⟨1, slotB, 128 * bankOf p + 31, pc + 3⟩] } else {}
  | .ctl .. => {}
/-- The value of a load as it reaches G(d) (R271). -/
def loadWrites (p : PpeSt) (slotB : Bool) (size d v : Nat) : List PpeWr :=
  let k := 128 * bankOf p
  match size with
  | 0 => [⟨3, slotB, k + d, lowBits 32 (sext 16 v)⟩]
  | 1 => [⟨3, slotB, k + d, v % 65536⟩]
  | 2 => [⟨3, slotB, k + d, v % 2 ^ 32⟩]
  | _ => [⟨3, slotB, k + d, v % 2 ^ 32⟩, ⟨3, slotB, k + d + 1, v / 2 ^ 32⟩]
def loadDest : POp → Nat
  | .load _ _ d _ _ => d
  | _ => 0
/-- Take a slot's load: the lock it acquires, and the writes on their way; `none` is an access error. -/
def takeLoad (s : State) (p : PpeSt) (e : Nat) (slotB : Bool) (o : POp) (a : SlotAct) : Option (State × List PpeWr) :=
  match a.rd with
  | none => some (s, a.wr)
  | some (x, size) =>
    match ppeRead s e x (sizeOf size) with
    | none => none
    | some v => some (ppeReadEffect s e x (sizeOf size), a.wr ++ loadWrites p slotB size (loadDest o) v)

-- Control flow (R276–R278)
/-- The bundle after bundle `i`, with the REPs it ends or runs again. -/
def flowNext (i : Nat) : List PpeRep → Nat × List PpeRep
  | [] => ((i + 1) % 8192, [])
  | r :: t =>
    if r.last = i then
      if 1 < r.count then (r.first, { r with count := r.count - 1 } :: t) else flowNext i t
    else ((i + 1) % 8192, r :: t)
def inBody (b : Nat) (r : PpeRep) : Bool := decide (r.first ≤ b) && decide (b ≤ r.last)
/-- A taken branch leaves the REPs whose body its target lies outside of. -/
def leaveReps (target : Nat) (l : List PpeRep) : List PpeRep := l.filter (inBody target)
/-- The branch test on G(a) (R272). -/
def branchTaken (cond : Nat) (v : Int) : Bool :=
  match cond with
  | 1 => decide (v = 0)
  | 2 => decide (v ≠ 0)
  | 3 => decide (v < 0)
  | 4 => decide (0 ≤ v)
  | _ => true
/-- The context moves past bundle `i` that is no branch and no REP. -/
def flowOn (c : PpeCtx) : PpeCtx :=
  let n := flowNext c.pc c.reps
  match c.br with
  | some (2, t, r) => { c with pc := n.1, reps := n.2, br := some (1, t, r) }
  | some (_, some t, r) => { c with pc := t, reps := leaveReps t n.2, br := none, hnd := c.hnd && !r, ieNext := r }
  | _ => { c with pc := n.1, reps := n.2, br := none }
/-- What bundle `i` makes illegal beside its encodings (R277): control in a delay slot, REP nesting and ends, delay slots
that hold an active REP's end, END, WAITI and RETI out of place. -/
def ctlIllegal (c : PpeCtx) : POp → Bool
  | .branch .. =>
    let n1 := flowNext c.pc c.reps
    let n2 := flowNext n1.1 n1.2
    c.br.isSome || n1.2.any (fun r => r.last == n1.1) || n2.2.any (fun r => r.last == n2.1)
  | .ctl op last _ _ _ =>
    (c.br.isSome && decide (op < 8)) ||
    (decide (op ≤ 1) && (decide (2 ≤ c.reps.length) || decide (last ≤ c.pc) ||
      c.reps.any (fun r => decide (r.last < last)))) ||
    ((op == 2 || op == 4) && c.hnd) || (op == 3 && !c.hnd)
  | _ => false
/-- The context after bundle `i`'s slot A. -/
def ctlNext (p : PpeSt) (c : PpeCtx) : POp → PpeCtx
  | .branch cond a target =>
    let k := bankOf p
    let t := if cond = 6 then preg p k 31 % 8192 else target
    let taken := branchTaken cond (sreg p k a)
    let n := flowNext c.pc c.reps
    { c with pc := n.1, reps := n.2, br := some (2, (if taken then some t else none), false) }
  | .ctl op last a _ count =>
    let n := match op with
      | 0 => if count = 0 then 2048 else count
      | _ => preg p (bankOf p) a % 2 ^ 24
    if op ≤ 1 then
      if n = 0 then
        let x := flowNext last c.reps
        { c with pc := x.1, reps := x.2 }
      else { c with pc := (c.pc + 1) % 8192, reps := ⟨c.pc + 1, last, n⟩ :: c.reps }
    else if op = 3 then
      let x := flowNext c.pc c.reps
      { c with pc := x.1, reps := x.2, br := some (2, some c.rpc, true) }
    else if op = 4 then { flowOn c with waiting := true }
    else if op = 8 then { flowOn c with ie := true }
    else if op = 9 then { flowOn c with ie := false }
    else flowOn c
  | _ => flowOn c

-- Halts (R277, R296)
/-- Cause 1 ACCESS, 2 ILLEGAL: the engine halts, its registers frozen. -/
def ppeHalt (s : State) (e cause : Nat) (slotB : Bool) (b : Nat) : State :=
  let p := s.ppeEng e
  let s := if p.task.isSome then s.setPpe e { p with task := none, beatCyc := p.beatCyc + p.cyc } else s
  let s := s.setF (PPE_STAT e) 23 16 255
  let s := (s.setF (PPE_STAT e) 31 29 3).setB (PPE_STAT e) 3 true
  let s := (s.setB (PPE_STAT e) 0 true).wr (PPE_FAULT e) (w32 (cause * 2 ^ 28 + (if slotB then 2 ^ 15 else 0) + b))
  let s := report s (160 + cause) e
  vectorIf s (s.rb (PPE_CTRL e) 3) (192 + e)

-- Signals and records (R286–R288)
def ppeSignal (s : State) (e : Nat) : State :=
  let s := (fire s (64 + e)).setB (PPE_STAT e) 2 true
  vectorIf s (s.rb (PPE_CTRL e) 1) (192 + e)
def ppeTrigger (s : State) (e x y : Nat) : State :=
  let back := y % 2 ^ 24
  let pos := if back ≤ s.beat then s.beat - back else s.fresh
  let s := if back ≤ s.beat then s else s.useFree
  { s with ppeTrig := s.ppeTrig ++ [⟨e, s.beat, pos, x % 2 ^ 24⟩] }
/-- The cycles for which EMIT stalls the engine (R288). -/
def emitStall (len : Nat) : Nat := 1 + cdiv (16 + len) 64
/-- The descriptor that EMIT names lies in data memory, 8-byte aligned, with its payload. -/
def emitLen (s : State) (e a : Nat) : Option Nat :=
  if a % 8 ≠ 0 ∨ 0x40000 < a + 16 then none
  else
    let n := u32 (pmRead s (dataAt e + a) 16) 12
    if 0x40000 < a + 16 + n then none else some n
/-- EMIT of a descriptor and payload `b`: `done` unless the task is stopped before the copy ends (R285). -/
def ppeEmit (s : State) (e : Nat) (b : List Byte) (done : Bool) : State :=
  let n := b.length - 16
  if !done then s
  else if 4096 < n ∨ n % 4 ≠ 0 ∨ !emitAdmitted s e b then s.setB (PPE_STAT e) 6 true
  else { s with emits := s.emits ++ [(e, s.beat, b)] }

end Sys2Proof.Machine
end

