-- ==== Sys2Proof/Machine/Ppe.lean ====
section
/-! DEFINITION. The post-processing engines (R262–R299): bundle issue, interrupts, the dispatcher, loading, cluster
gating, group 0x07. -/
namespace Sys2Proof.Machine

-- The task table (R282)
def taskWord (t : List Nat) (i w : Nat) : Nat := nth 0 t (2 * i + w)
def taskEn (t : List Nat) (i : Nat) : Bool := (taskWord t i 0).testBit 31
def taskIntEn (t : List Nat) (i : Nat) : Bool := (taskWord t i 0).testBit 30
def taskEntry (t : List Nat) (i : Nat) : Nat := bitsOf (taskWord t i 0) 27 24
def taskPlog (t : List Nat) (i : Nat) : Nat := bitsOf (taskWord t i 0) 20 16
def taskPhase (t : List Nat) (i : Nat) : Nat := bitsOf (taskWord t i 0) 15 0
def taskBudget (t : List Nat) (i : Nat) : Nat := bitsOf (taskWord t i 1) 9 0
def tasksOn (t : List Nat) : List Nat := (List.range 8).filter (taskEn t)
/-- The tasks dispatched in beat `b`, in entry order (R283). -/
def tasksDue (t : List Nat) (b : Nat) : List Nat := (tasksOn t).filter (fun i => b % 2 ^ taskPlog t i == taskPhase t i)
/-- An enabled task in force or in a pending ticket (R293, R294, R298). -/
def taskHeld (s : State) (e : Nat) : Bool :=
  let p := s.ppeEng e
  tasksOn p.table != [] || (s.tickets.any (fun t => t.groups.testBit 52) && tasksOn p.shadow != [])
def ppeEntry (p : PpeSt) (n : Nat) : Option Nat :=
  match p.entries[n]? with
  | some b => if b = 0xFFFF then none else some b
  | none => none
def clusterOn (s : State) (c : Nat) : Bool := s.rf (PPE_CLSTAT c) 1 0 == 0
/-- An engine's clock runs and it may issue: READY, not fenced, its cluster ON. -/
def ppeLive (s : State) (e : Nat) : Bool := ppeState s e == 2 && !engFenced s e && clusterOn s (e / 8)
/-- An interrupt may be taken before the next bundle (R280). -/
def takeable (p : PpeSt) (c : PpeCtx) : Bool :=
  c.ie && !c.hnd && c.br.isNone && c.reps == [] && (p.ipend % 64 &&& p.ien) != 0 && (ppeEntry p 15).isSome &&
    (match p.task with | none => true | some t => taskIntEn p.table t)

-- Bundle issue
/-- The writes that become visible now, in the order in which they take effect: slot B's after slot A's (R275); between
two of one slot no rule decides, so a free value does. -/
def visibleNow (s : State) (p : PpeSt) : State × PpeSt :=
  let due := p.pipe.filter (fun w => w.left == 1)
  let rest := (p.pipe.filter (fun w => w.left != 1)).map (fun w => { w with left := w.left - 1 })
  let clash := due.any (fun w => decide (1 < (due.filter (fun v => v.key == w.key && v.slotB == w.slotB)).length))
  let due := if clash && s.fresh % 2 == 1 then due.reverse else due
  let p := (due.filter (fun w => !w.slotB) ++ due.filter (fun w => w.slotB)).foldl ppeVisible p
  (if clash then s.useFree else s, { p with pipe := rest })
/-- The bundle is legal as a whole (R270, R277): the cause's slot when it is not. -/
def bundleIllegal (c : PpeCtx) (a b : Option POp) : Option Bool :=
  match a, b with
  | none, _ => some false
  | some oa, none => if slotAccepts false oa && pairOk oa && !ctlIllegal c oa then some true else some false
  | some oa, some ob =>
    if !slotAccepts false oa || !pairOk oa || ctlIllegal c oa then some false
    else if !slotAccepts true ob || !pairOk ob || (isStore oa && isStore ob) then some true
    else none
def twoWindows (a b : SlotAct) : Bool :=
  match a.rd, b.rd with
  | some x, some y => isWindow x.1 (sizeOf x.2) && isWindow y.1 (sizeOf y.2)
  | _, _ => false
/-- END (R283, R284): the task ends; the next waits for its dispatch, or the background resumes. -/
def taskEnd (s : State) (e : Nat) : State :=
  let p := ppeDrain (s.ppeEng e)
  match p.task with
  | none => s.setPpe e { p with ctx := none }
  | some t =>
    let p := { p with
      task := none, lasts := setNth p.lasts t p.cyc, beatCyc := p.beatCyc + (if p.taskBeat = s.beat then p.cyc else 0) }
    s.setPpe e (if p.due = [] then { p with ctx := p.bg, bg := none } else { p with ctx := none })
/-- What slot A's control operation does beside the flow (R286–R288, R283). -/
def ctlEffect (s : State) (e : Nat) (p : PpeSt) (em : List Byte) (done : Bool) : POp → State
  | .ctl op _ a b _ =>
    let k := bankOf p
    match op with
    | 2 => taskEnd s e
    | 5 => ppeSignal s e
    | 6 => ppeTrigger s e (preg p k a) (preg p k b)
    | 7 => ppeEmit s e em done
    | _ => s
  | _ => s
def isEmit : POp → Option Nat
  | .ctl 7 _ a _ _ => some a
  | _ => none
/-- What EMIT hands over, read before either slot writes (R270). -/
def emitBytes (s : State) (e : Nat) (p : PpeSt) (o : POp) : List Byte :=
  match isEmit o with
  | none => []
  | some a =>
    let x := preg p (bankOf p) a
    pmRead s (dataAt e + x) (16 + (emitLen s e x).getD 0)
/-- Cycles that a bundle takes beside its own: EMIT's stall; `none` when EMIT names no descriptor. -/
def extraCycles (s : State) (e : Nat) (p : PpeSt) (o : POp) : Option Nat :=
  match isEmit o with
  | none => some 0
  | some a => (emitLen s e (preg p (bankOf p) a)).map emitStall
/-- The loads of both slots, then the store: reads come before writes (R270). -/
def bundleMemory (s : State) (p : PpeSt) (e : Nat) (oa ob : POp) (a b : SlotAct) : Option (State × List PpeWr) :=
  match takeLoad s p e false oa a with
  | none => none
  | some (s, wa) =>
    match takeLoad s p e true ob b with
    | none => none
    | some (s, wb) =>
      match (match a.st with | some x => some x | none => b.st) with
      | none => some (s, wa ++ wb)
      | some (x, n, v) =>
        match ppeWrite s e x n v with
        | none => none
        | some s => some (s, wa ++ wb)
/-- The slot that an access error is charged to. -/
def accessSlot (s : State) (p : PpeSt) (e : Nat) (oa : POp) (a : SlotAct) : Bool :=
  !(a.accErr || (takeLoad s p e false oa a).isNone ||
    (match a.st with | some (x, n, v) => (ppeWrite s e x n v).isNone | none => false))
/-- Cycles of a beat after which its boundary may come before a task's budget is spent: only DCLK alone on its bypass clock, at most
640 MHz, has fewer than the 640 of R34 (R285, R445). -/
def beatDclk (s : State) : Nat := if s.rb CLK_BYP 5 ∧ !s.rb CLK_BYP 1 then 256 else 640
/-- The bundle's effects, every check passed. -/
def bundleDo (s : State) (e : Nat) (p : PpeSt) (c : PpeCtx) (stall extra : Nat) (oa : POp) (em : List Byte)
    (a b : SlotAct) (w : List PpeWr) : State :=
  let cyc := p.cyc + 1 + stall + extra
  let done := match p.task with | some t => decide (cyc ≤ taskBudget p.table t ∧ p.beatCyc + cyc ≤ beatDclk s) | none => true
  let s := if a.free || b.free then s.useFree else s
  let s := if a.sat || b.sat then s.setB (PPE_STAT e) 7 true else s
  let s := s.setPpe e { p with pipe := p.pipe ++ w, ctx := some (ctlNext p c oa), cyc := if p.task.isSome then cyc else p.cyc }
  ppeShow (ctlEffect s e p em done oa) e
/-- One bundle issues (R270–R278). A bundle that halts the engine has no other effect. -/
def bundleIssue (s : State) (e stall : Nat) (c0 : PpeCtx) : State :=
  let c := if c0.ieNext then { c0 with ie := true, ieNext := false } else c0
  let (s, p) := visibleNow s (s.ppeEng e)
  let p := { p with ctx := some c }
  let w := Sparse.get (fun _ => 0) s.pm.code (8192 * e + c.pc)
  let s := (s.setPpe e p).setF (PPE_PC e) 12 0 c.pc
  let oa := decodeSlot (w % 2 ^ 32)
  let ob := decodeSlot (w / 2 ^ 32)
  match bundleIllegal c oa ob with
  | some slot => ppeHalt s e 2 slot c.pc
  | none =>
    let oa := oa.getD .nop
    let ob := ob.getD .nop
    let a := slotAct s p false c.pc oa
    let b := slotAct s p true c.pc ob
    if twoWindows a b then ppeHalt s e 2 true c.pc
    else if a.accErr || b.accErr then ppeHalt s e 1 (!a.accErr) c.pc
    else
      match extraCycles s e p oa, bundleMemory s p e oa ob a b with
      | none, _ => ppeHalt s e 1 false c.pc
      | _, none => ppeHalt s e 1 (accessSlot s p e oa a) c.pc
      | some x, some (s', wr) => bundleDo s' e p c stall x oa (emitBytes s e p oa) a b wr
/-- The engine's next bundle may issue: it runs a context that neither waits, is due an interrupt, nor has used its
task's cycles. -/
def issueable (s : State) (e : Nat) : Option PpeCtx :=
  let p := s.ppeEng e
  match p.ctx with
  | none => none
  | some c =>
    let spent := match p.task with
      | some t => decide (taskBudget p.table t ≤ p.cyc) || p.taskBeat != s.beat
      | none => false
    if !ppeLive s e || c.waiting || takeable p c || spent then none else some c
/-- Engine `e` issues its next bundle, which stalls for `stall` cycles (R265). -/
def execPpeBundleIssue (e : Nat) (stall : Nat) (s : State) : Res :=
  .next (match issueable s e with
    | some c => bundleIssue s e stall c
    | none => s)

-- Interrupts (R279–R281)
def lowestBit (v : Nat) : Nat := ((bitList 6 v).head?).getD 0
/-- PPE_HOLD keeps the largest hold-off; one above the declaration is source 163 (R281). -/
def holdOff (s : State) (e hold : Nat) : State :=
  let s := s.setF (PPE_HOLD e) 28 16 (max (s.rf (PPE_HOLD e) 28 16) (min 0x1FFF hold))
  if s.rf (PPE_HOLD e) 12 0 < hold then report (s.setB (PPE_STAT e) 8 true) 163 e else s
def takeInterrupt (s : State) (e hold idle : Nat) (c : PpeCtx) : State :=
  let p := s.ppeEng e
  let n := lowestBit (p.ipend % 64 &&& p.ien)
  let s := s.setPpe e { p with
    ipend := p.ipend % 64 - 2 ^ n, cyc := (if p.task.isSome then p.cyc + idle else p.cyc),
    ctx := some { c with pc := (ppeEntry p 15).getD 0, hnd := true, waiting := false, ie := false, icause := n, rpc := c.pc } }
  ppeShow (holdOff s e hold) e
/-- The pending enabled interrupt is taken before the next bundle, after a hold-off of `hold` cycles, of which a wait of
R290 spent `idle` without issue. -/
def execPpeInterrupt (e : Nat) (hold : Nat) (idle : Nat) (s : State) : Res :=
  .next (match (s.ppeEng e).ctx with
    | some c => if ppeLive s e && takeable (s.ppeEng e) c then takeInterrupt s e hold idle c else s
    | none => s)

-- The dispatcher (R283–R285)
/-- Tasks are skipped (R285). -/
def skipTasks (s : State) (e : Nat) (l : List Nat) : State :=
  forEach l s (fun _ s =>
    let s := (s.setF (PPE_CNT e) 31 16 (min 0xFFFF (s.rf (PPE_CNT e) 31 16 + 1))).setB (PPE_STAT e) 5 true
    let s := vectorIf s (s.rb (PPE_CTRL e) 2) (192 + e)
    if ppeState s e = 3 then s else report s 160 e)
/-- A task starts (R283): 16 cycles of dispatch cost, the background suspended whole. -/
def taskStart (s : State) (e t : Nat) (rest : List Nat) : State :=
  let p := ppeDrain (s.ppeEng e)
  let bg := match p.bg with | some b => some b | none => p.ctx
  ppeShow (s.setPpe e { p with
    due := rest, bg := bg, task := some t, taskBeat := s.beat, cyc := 0, beatCyc := p.beatCyc + 16,
    ctx := some { pc := (ppeEntry p (taskEntry p.table t)).getD 0, ie := taskIntEn p.table t } }) e
/-- The dispatcher starts the next due task of engine `e`; those of an engine that cannot run are skipped. -/
def taskDispatch (s : State) (e : Nat) : State :=
  let p := s.ppeEng e
  match p.due with
  | [] => s
  | t :: rest =>
    if p.task.isSome then s
    else if ppeState s e ≠ 2 ∨ engFenced s e then skipTasks (s.setPpe e { p with due := [] }) e p.due
    else if !clusterOn s (e / 8) then s
    else taskStart s e t rest
def execTaskDispatch (e : Nat) (s : State) : Res := .next (if e < 64 then taskDispatch s e else s)

/-- An overrun in beat `b` (R42): `k` is its bit of GLB_OVRSTAT; a beat counts once. -/
def overrunMark (s : State) (k b : Nat) : State :=
  let s := if s.rd GLB_OVRSTAT = 0 then s.wr64 GLB_OVRBEAT_LO b else s
  let s := s.setB GLB_OVRSTAT k true
  if s.bt.ovrs.contains b then s
  else { s with evtPend := s.evtPend ++ [6], bt := { s.bt with ovrs := (b :: s.bt.ovrs).take 4 } }.addSat GLB_OVRCNT 0xFFFFFFFF 1
/-- The dispatcher stops the running task (R285). -/
def taskStop (s : State) (e t : Nat) : State :=
  let p := ppeDrain (s.ppeEng e)
  let c := p.ctx.getD {}
  let spent := if p.taskBeat = s.beat then max p.cyc (taskBudget p.table t) else p.cyc
  let p := { p with
    ipend := (if c.hnd then p.ipend ||| 2 ^ c.icause else p.ipend), task := none, lasts := setNth p.lasts t spent,
    beatCyc := p.beatCyc + (if p.taskBeat = s.beat then spent else 0), stopBeat := some p.taskBeat }
  let p := if p.due = [] then { p with ctx := p.bg, bg := none } else { p with ctx := none }
  let b := p.taskBeat
  let s := s.setPpe e p
  let s := (s.setF (PPE_CNT e) 15 0 (min 0xFFFF (s.rf (PPE_CNT e) 15 0 + 1))).setB (PPE_STAT e) 4 true
  let s := vectorIf s (s.rb (PPE_CTRL e) 2) (192 + e)
  ppeShow (report (overrunMark s 5 b) 160 e) e
/-- A task has used its cycles without END, waits in WAITI until they are spent, or its beat is over (R285). -/
def execTaskBudgetExpiry (e : Nat) (s : State) : Res :=
  let p := s.ppeEng e
  .next (match p.task with
    | some t =>
      if ppeState s e = 2 ∧ (taskBudget p.table t ≤ p.cyc ∨ p.taskBeat ≠ s.beat ∨ (p.ctx.getD {}).waiting) then taskStop s e t
      else s
    | none => s)

/-- Every condition of R294 holds for an engine. -/
def gatingOk (s : State) (e : Nat) : Bool :=
  (ppeState s e != 2 || ppeIdle (s.ppeEng e)) && !taskHeld s e && !inFull s e
def clusterIdle (s : State) (c : Nat) : Bool := (List.range 8).all (fun j => gatingOk s (8 * c + j))
def idleBeats (s : State) (c : Nat) : Nat := Sparse.get (fun _ => 0) s.pm.idle c
/-- What a boundary brings to the engines: tasks of the beat before that never started are skipped (R285), the tasks of
the new beat become due (R283), a background that waited for them goes on, PPE_CYC and the gating conditions are taken. -/
def engineBoundary (s : State) (e : Nat) : State :=
  let p := s.ppeEng e
  let last := p.beatCyc + (if p.task.isSome then p.cyc else 0)
  let back := p.task.isNone && p.ctx.isNone && p.bg.isSome
  let p := if back then { p with ctx := p.bg, bg := none } else p
  let s := skipTasks (s.setPpe e { p with
    beatCyc := 0, due := if pwrState s = PS_RUN then tasksDue p.table s.beat else [] }) e p.due
  let s := s.setF (PPE_CYC e) 25 16 (min 1023 last)
  ppeShow (s.setF (PPE_CYC e) 9 0 (max (s.rf (PPE_CYC e) 9 0) (min 1023 last))) e
def ppeBoundary (s : State) : State :=
  let s := forEach (s.ppe.map Prod.fst) s (fun e s => engineBoundary s e)
  forEach (List.range 8) s (fun c s =>
    if !clusterPresent s c then s
    else
      let s := s.setF (PPE_CLSTAT c) 15 8 (bitsSet ((List.range 8).filter (fun j => gatingOk s (8 * c + j))))
      setIdleBeats s c (if s.rb (PPE_CLCTRL c) 0 && clusterOn s c && clusterIdle s c then min 250 (idleBeats s c + 1) else 0))

-- The mailbox view (R84, R89, R291)
/-- The engine writes INTAKE. -/
def execMbCtlIntake (e : Nat) (s : State) : Res := .next (if ppeLive s e then inTake s e else s)
/-- The engine writes OUTRING: refused while OUT is FULL, and the engine takes the bus error (R291). -/
def execMbCtlOutring (e : Nat) (s : State) : Res :=
  .next (if !ppeLive s e then s
  else if outFull s e then ppeHalt s e 1 false (s.rf (PPE_PC e) 12 0)
  else outRing s e)

-- Cluster gating (R294, R295)
def execClusterGate (c : Nat) (s : State) : Res :=
  .next (if clusterPresent s c && clusterOn s c && s.rb (PPE_CLCTRL c) 0 && decide (250 ≤ idleBeats s c) && clusterIdle s c then
    (setIdleBeats s c 0).setF (PPE_CLSTAT c) 1 0 1
  else s)
/-- A gated cluster with a cause to wake starts to. -/
def execClusterWake (c : Nat) (s : State) : Res :=
  .next (if clusterPresent s c && s.rf (PPE_CLSTAT c) 1 0 == 1 && (s.wakeReq.contains c || !s.rb (PPE_CLCTRL c) 0) then
    ((s.setF (PPE_CLSTAT c) 1 0 2).addR (PPE_CLWAKECNT c) 1)
  else s)
/-- A cluster is ON again: doorbells rung meanwhile interrupt (R83). -/
def clusterUp (s : State) (c : Nat) : State :=
  let s := { s with wakeReq := s.wakeReq.filter (fun x => x != c) }.setF (PPE_CLSTAT c) 1 0 0
  forEach (List.range 8) s (fun j s =>
    if inFull s (8 * c + j) && s.rb (MBX_CLMASK c) j then engineIrq s (8 * c + j) 0 else s)
def execClusterWakeEnd (c : Nat) (s : State) : Res :=
  .next (if clusterPresent s c && s.rf (PPE_CLSTAT c) 1 0 == 2 then clusterUp s c else s)
/-- A command that needs the cluster wakes it within itself (R293, R295). -/
def clusterNeeded (s : State) (c : Nat) : State :=
  if clusterOn s c then s
  else
    let s := if s.rf (PPE_CLSTAT c) 1 0 = 1 then s.addR (PPE_CLWAKECNT c) 1 else s
    clusterUp s c

-- Images (R292, R293, R558)
structure Image where
  flags : Nat
  code : List Byte
  data : List Byte
  dataAt : Nat
  holdoff : Nat
  entries : List Nat
  digest : List Byte
  head : List Byte
  sig : List Byte
deriving DecidableEq, Repr
def imageOf (b : List Byte) : Image :=
  let cl := u32 b 8
  let dl := u32 b 12
  ⟨u16 b 6, slice b 128 cl, slice b (128 + cl) dl, u32 b 16, u32 b 20, (List.range 16).map (fun i => u16 b (24 + 2 * i)),
    slice b 64 32, b.take 96, slice b (128 + cl + dl) (u32 b 56)⟩
/-- A header that R292 does not allow. -/
def imageMalformed (b : List Byte) (len : Nat) : Bool :=
  let cl := u32 b 8
  let dl := u32 b 12
  let sl := u32 b 56
  let i := imageOf b
  decide (u32 b 0 ≠ 0x7FA50C01) || decide (u16 b 4 ≠ 1) || decide (1 < u16 b 6) ||
  decide (cl < 8 ∨ 65536 < cl ∨ cl % 8 ≠ 0) || decide (262144 < dl ∨ dl % 8 ≠ 0) || decide (u32 b 16 % 8 ≠ 0) ||
  decide (262144 < u32 b 16 + dl) || decide (4096 < u32 b 20) ||
  i.entries.any (fun e => decide (e ≠ 0xFFFF ∧ cl / 8 ≤ e)) || decide (sl ≠ if u16 b 6 = 1 then 384 else 0) ||
  !zeroAt b 60 4 || !zeroAt b 96 32 || decide (len ≠ 128 + cl + dl + sl)
/-- A digest that is not the one of the image's own bytes (R292). -/
def imageDigestBad (b : List Byte) : Bool :=
  let i := imageOf b
  decide (i.digest ≠ digestBytes (Config.sha256 (b.take 64 ++ i.code ++ i.data)))
def imageBad (b : List Byte) (len : Nat) : Bool := imageMalformed b len || imageDigestBad b
/-- The running slot's header (R543, R544). -/
def runningHeader (s : State) : List Byte := Mem.read s.flash (if s.rf SEC_BOOT 31 30 = 1 then 0x3000000 else 0) 4096
def vendorSigns (s : State) (i : Image) : Bool :=
  let h := runningHeader s
  u8 h 6 == 0 && Config.rsaVerify (slice h 448 384) (u32 h 832) i.head i.sig
def ownerSigns (s : State) (i : Image) : Bool :=
  s.store.ownerKey != [] && Config.rsaVerify s.store.ownerKey s.store.ownerExp i.head i.sig
/-- The refusal of a signature or of the policy (R558). -/
def policyRefusal (s : State) (i : Image) : Option Nat :=
  let v := vendorSigns s i
  let o := ownerSigns s i
  if i.flags = 1 then
    if !v && !o then some ST_SIG_FAIL
    else if s.rf SEC_PPEPOL 1 0 = 1 ∧ !o ∧ s.fuses.noVendor then some ST_LOCKED
    else if s.rf SEC_PPEPOL 1 0 = 2 ∧ !o then some ST_LOCKED
    else none
  else if s.rf SEC_PPEPOL 1 0 = 0 then none else some ST_LOCKED
def codeSet : List (Nat × Nat) → Nat → List Byte → Nat → List (Nat × Nat)
  | m, _, _, 0 => m
  | m, k, b, n + 1 => codeSet (Sparse.set (fun _ => 0) m k (leAt b 0 8)) (k + 1) (b.drop 8) n
/-- The load of one engine (R293). -/
def loadEngine (s : State) (e : Nat) (i : Image) : State :=
  let s := clusterNeeded s (e / 8)
  let code := codeSet (s.pm.code.filter (fun p => p.1 / 8192 != e)) (8192 * e) i.code (i.code.length / 8)
  let bytes := Mem.write (s.pm.bytes.filter (fun p => !(decide (dataAt e ≤ p.1) && decide (p.1 < dataAt e + 0x40000))))
    (dataAt e + i.dataAt) i.data
  let s := { s with pm := { s.pm with code := code, bytes := bytes } }
  let p := s.ppeEng e
  let s := s.setPpe e { p with
    regs := p.regs.filter (fun r => decide (256 ≤ r.1)), pipe := [], loaded := true, entries := i.entries,
    digest := BitVec.ofNat 256 (leAt i.digest.reverse 0 32), ctx := none, bg := none }
  let s := (s.setF (PPE_HOLD e) 12 0 i.holdoff).wr (PPE_FAULT e) 0
  engineStopped s e
/-- The copy to an engine that is isolated or held in reset fails; the engine becomes EMPTY (R263, R293). -/
def loadFails (s : State) (e : Nat) : Bool := s.isolated.contains e || s.rf (PWR_STEP (34 + e / 16)) 31 30 != 1
def emptyEngine (s : State) (e : Nat) : State :=
  let p := s.ppeEng e
  ppeShow ((s.setPpe e { ppeQuiet p with loaded := false, entries := [], digest := 0 }).setF (PPE_STAT e) 31 29 0) e
def loadCopy (s : State) (e : Nat) (i : Image) : State := if loadFails s e then emptyEngine s e else loadEngine s e i
def inHbm (a n : Nat) : Bool := decide (HBM0 ≤ a) && decide (a + n ≤ HBM_END)
def execPpeLoad (q : Req) (s : State) : Res :=
  let es := bitList 64 (u64 q.params 0)
  let a := u64 q.params 8
  let len := u32 q.params 16
  let b := s.hbmRead a (min len 328192)
  let i := imageOf b
  let ref := policyRefusal s i
  .next (command s 0x0700 q (q.params.length == 24)
    [(es.any (fun e => !enginePresent s e), ST_UNIT_ABSENT),
     (es == [] || a % 8 != 0 || !inHbm a len || !zeroAt q.params 20 4 || imageBad b len, ST_BAD_PARAM)]
    (match ref with
    | some st => deny (if st = ST_SIG_FAIL then report s 197 0xFFFF else s) 0x0700 q st
    | none =>
      if r503 s || es.any (fun e => decide (2 ≤ ppeState s e)) then deny s 0x0700 q ST_STATE
      else if es.any (taskHeld s) then deny s 0x0700 q ST_IN_USE
      else
        let s' := forEach es s (fun e s => loadCopy s e i)
        if es.any (loadFails s) then deny s' 0x0700 q ST_HW_ERROR else reply s' 0x0700 q ST_OK (b4 i.holdoff ++ i.digest)))

-- Group 0x07 (R298)
def startEngine (s : State) (e : Nat) : State :=
  if ppeState s e ≠ 1 then s
  else
    let p := s.ppeEng e
    ppeShow ((s.setPpe e { p with ctx := (ppeEntry p 14).map (fun b => ({ pc := b } : PpeCtx)) }).setF (PPE_STAT e) 31 29 2) e
def execPpeStart (q : Req) (s : State) : Res :=
  let es := bitList 64 (u64 q.params 0)
  .next (command s 0x0701 q (q.params.length == 8)
    [(es.any (fun e => !enginePresent s e), ST_UNIT_ABSENT),
     (r503 s || es.any (fun e => ppeState s e == 0 || ppeState s e == 3), ST_STATE)]
    (reply (forEach es s (fun e s => startEngine s e)) 0x0701 q ST_OK []))
def stopEngine (s : State) (e : Nat) : State :=
  let s := s.wr (PPE_FAULT e) 0
  if ppeState s e < 2 then s else engineStopped s e
def execPpeStop (q : Req) (s : State) : Res :=
  let es := bitList 64 (u64 q.params 0)
  .next (command s 0x0702 q (q.params.length == 8)
    [(es.any (fun e => !enginePresent s e), ST_UNIT_ABSENT), (es.any (taskHeld s), ST_IN_USE)]
    (reply (forEach es s (fun e s => stopEngine s e)) 0x0702 q ST_OK []))
def setTask (s : State) (e t w0 w1 : Nat) : State :=
  let p := s.ppeEng e
  let l := (p.shadow ++ List.replicate 16 0).take 16
  s.setPpe e { p with shadow := setNth (setNth l (2 * t) w0) (2 * t + 1) w1 }
def execPpeTaskSet (q : Req) (s : State) : Res :=
  let p := q.params
  let e := u16 p 0
  let w0 := u32 p 4
  let w1 := u32 p 8
  .next (command s 0x0703 q (p.length == 12)
    [(!enginePresent s e, ST_UNIT_ABSENT),
     (decide (7 < u8 p 2) || !zeroAt p 3 1 || bitsOf w0 29 28 != 0 || bitsOf w0 23 21 != 0 || decide (1024 ≤ w1), ST_BAD_PARAM),
     (s.locked.contains 52, ST_BUSY)]
    (reply (setTask s e (u8 p 2) w0 w1) 0x0703 q ST_OK []))
def statusBytes (s : State) (e : Nat) (shadow : Bool) : List Byte :=
  let p := s.ppeEng e
  let t := if shadow then p.shadow else p.table
  ([PPE_CTRL e, PPE_STAT e, PPE_PC e, PPE_CYC e, PPE_CNT e, PPE_HOLD e, PPE_IRQ e, PPE_FAULT e]).flatMap (fun a => bw (s.rd a)) ++
    (if p.loaded then digestBytes p.digest else zeros 32) ++ p.lasts.flatMap b2 ++
    (List.range 16).flatMap (fun i => b4 (nth 0 t i))
def execPpeStatus (q : Req) (s : State) : Res :=
  let e := u16 q.params 0
  .next (command s 0x0704 q (q.params.length == 4)
    [(!enginePresent s e, ST_UNIT_ABSENT), (decide (1 < u16 q.params 2), ST_BAD_PARAM)]
    (reply s 0x0704 q ST_OK (statusBytes s e (u16 q.params 2 == 1))))
def spaceSize (sp : Nat) : Nat := if sp = 0 then 0x40000 else 0x400000
def spaceBase (e sp : Nat) : Nat := if sp = 0 then dataAt e else sharedAt (e / 8)
def execPpeMemWrite (q : Req) (s : State) : Res :=
  let p := q.params
  let e := u16 p 0
  let sp := u8 p 2
  .next (command s 0x0705 q (decide (8 ≤ p.length ∧ p.length ≤ 4072))
    [(!enginePresent s e, ST_UNIT_ABSENT),
     (decide (1 < sp) || !zeroAt p 3 1 || decide (spaceSize sp < u32 p 4 + (p.length - 8)), ST_BAD_PARAM),
     (sp == 0 && ppeState s e != 1, ST_STATE)]
    (reply (pmWrite (clusterNeeded s (e / 8)) (spaceBase e sp + u32 p 4) (p.drop 8)) 0x0705 q ST_OK []))
def execPpeMemRead (q : Req) (s : State) : Res :=
  let p := q.params
  let e := u16 p 0
  let sp := u8 p 2
  let n := u32 p 8
  .next (command s 0x0706 q (p.length == 12)
    [(!enginePresent s e, ST_UNIT_ABSENT),
     (decide (1 < sp) || !zeroAt p 3 1 || decide (4064 < n) || decide (spaceSize sp < u32 p 4 + n), ST_BAD_PARAM)]
    (reply s 0x0706 q ST_OK (pmRead s (spaceBase e sp + u32 p 4) n)))
/-- A write of PPE_CLCTRL: GATE = 0 wakes a gated cluster (R295). -/
def setGate (s : State) (c : Nat) (g : Bool) : State :=
  let s := s.setB (PPE_CLCTRL c) 0 g
  if g then s else wakeCluster s c
def execPpeCluster (q : Req) (s : State) : Res :=
  let p := q.params
  let c := u8 p 0
  let s' := setGate s c (u8 p 1 == 1)
  .next (command s 0x0707 q (p.length == 4)
    [(!clusterPresent s c, ST_UNIT_ABSENT), (decide (1 < u8 p 1) || !zeroAt p 2 2, ST_BAD_PARAM)]
    (reply s' 0x0707 q ST_OK (b4 (s'.rf (PPE_CLSTAT c) 1 0))))

-- Resets (R297)
/-- PORST_N, WARM_RST_N: every engine EMPTY, its memories cleared. -/
def ppeClearAll (s : State) : State := { s with ppe := [], pm := {}, ppeTrig := [], emits := [], wakeReq := [] }
/-- A task table with every entry disabled. -/
def tableOff (t : List Nat) : List Nat := (List.range t.length).map (fun i => if i % 2 = 0 then nth 0 t i % 2 ^ 31 else nth 0 t i)
/-- RESET at level PPE or ALL_BUT_LINKS; STANDBY and HIBERNATE keep the shadow tables. The registers clear but for the counts,
which only PORST_N and WARM_RST_N reset, and the declaration of an image that stays loaded (R297, R299). -/
def engineReset (s : State) (e : Nat) (keepShadow : Bool) : State :=
  let p := s.ppeEng e
  let st := if p.loaded then 1 else 0
  let sh := if keepShadow then p.shadow else tableOff p.shadow
  let p' : PpeSt := { loaded := p.loaded, entries := p.entries, digest := p.digest, lasts := p.lasts, shadow := sh, table := tableOff p.table }
  let s := s.setPpe e p'
  let s := ((s.wr (PPE_CTRL e) 0).wr (PPE_STAT e) (w32 (st * 2 ^ 29))).wr (PPE_PC e) 0
  let s := (((s.wr (PPE_CYC e) 0).setF (PPE_HOLD e) 28 16 0).wr (PPE_IRQ e) 0).wr (PPE_FAULT e) 0
  ppeShow s e
def ppeResetAll (s : State) (keepShadow : Bool) : State :=
  forEach (s.ppe.map Prod.fst) { s with ppeTrig := [], emits := [] } (fun e s => engineReset s e keepShadow)

end Sys2Proof.Machine
end

