-- ==== Sys2Proof/Machine/Budget.lean ====
section
/-! DEFINITION. The per-beat budget (R31–R38): a configuration as commits would leave it, its usage, its violations, and
BUDGET_CHECK. -/
namespace Sys2Proof.Machine

/-- A configuration under evaluation: shadowed registers, stream entries and task tables as they would be in force, the
profile's bytes, the layout and R. It is no part of the state. -/
structure Cfg where
  v : Nat → Word
  e : Nat → List Byte
  t : Nat → List Nat
  prof : List Byte
  dense : Bool
  r : Nat

/-- The active configuration. -/
def activeCfg (s : State) : Cfg := ⟨s.rdA, s.entry, fun e => (s.ppeEng e).table, profile s, s.layoutDense, divR s⟩
/-- The named groups taken from their shadows (R37). -/
def applyGroups (s : State) (c : Cfg) (m : Nat) : Cfg := { c with
  v := fun a => match groupOf a with | some g => if m.testBit g then s.rd a else c.v a | none => c.v a,
  e := fun n => if m.testBit 53 then s.entryShadow n else c.e n,
  t := fun e => if m.testBit 52 then (s.ppeEng e).shadow else c.t e }
/-- SLC_LFFT of a lane of a present slice. -/
def isLfft (s : State) (a : Nat) : Bool := (List.range 16).any (fun k => slicePresent s k && (a == SLC_LFFT k 0 || a == SLC_LFFT k 1))
/-- A profile: its O goes into both lanes of every present slice, and group 55 is replaced (R56). -/
def applyProfile (s : State) (c : Cfg) (p : List Byte) : Cfg :=
  let e := effProfile p
  { c with v := fun a => (if isLfft s a then setFld (c.v a) 7 4 (u8 e 2 % 16) else c.v a), prof := e, dense := u8 e 1 == 1 }
def applyTicket (s : State) (c : Cfg) (t : Ticket) : Cfg :=
  match t.profile with
  | some p => applyProfile s c p
  | none => applyGroups s c t.groups
/-- Tickets in target order; equal targets in ticket order. -/
def insT (t : Ticket) : List Ticket → List Ticket
  | [] => [t]
  | a :: l => if t.target < a.target ∨ (t.target = a.target ∧ t.num ≤ a.num) then t :: a :: l else a :: insT t l
def ticketOrder (l : List Ticket) : List Ticket := l.foldr insT []
def applyTickets (s : State) (c : Cfg) (l : List Ticket) : Cfg := (ticketOrder l).foldl (applyTicket s) c
/-- The state with a configuration's layout and R, for the figures that depend on them. -/
def ghost (s : State) (c : Cfg) : State := { s with layoutDense := c.dense }.setF GLB_BEATSTAT 9 8 (Nat.log2 c.r)

-- SLICE (R31, R32)
def lanesOf (c : Cfg) : List Nat := if c.dense then [0, 1] else [0]
def pathOn (c : Cfg) (p : Nat) : Bool := bit (c.v (PTH_CTRL p)) 0
def cfgD (c : Cfg) (p : Nat) : Nat := fld (c.v (PTH_DEC p)) 3 0
/-- A lane that counts: it and its path are enabled. -/
def laneOn (c : Cfg) (k j : Nat) : Bool := lcEn [c.v (SLC_LCTRL k j)] && pathOn c (2 * k + j) && (c.dense || j == 0)
def laneFft (c : Cfg) (p : Nat) : Word := c.v (SLC_LFFT (p / 2) (p % 2))
/-- S of R19. -/
def cfgS (c : Cfg) (p : Nat) : Nat := 4096 * (if c.dense then 1 else 2) / (c.r * 2 ^ cfgD c p)
/-- O in quarters. -/
def overlapQ (f : Word) : Nat :=
  match fftPfb f with
  | 1 => 4
  | 2 => 8
  | _ => 2 ^ (fftOvl f + 2).toNat
/-- SLICE usage in quarters of a sample. -/
def sliceUse (c : Cfg) (k : Nat) : Nat :=
  (((lanesOf c).filter (laneOn c k)).map (fun j => overlapQ (laneFft c (2 * k + j)) * cfgS c (2 * k + j))).foldr (· + ·) 0
def presentSlicesOf (s : State) : List Nat := (List.range 16).filter (slicePresent s)
/-- A commit that changes the frames of a slice (R54). -/
def framesChange (o n : Cfg) (k : Nat) : Bool :=
  [2 * k, 2 * k + 1].any (fun p => decide (frameKey (laneFft o p) ≠ frameKey (laneFft n p)) || cfgD o p != cfgD n p)

-- CORR (R33): the correlated paths are equal in every configuration in force; of unequal ones the first counts (log 82)
def corrUse (s : State) (c : Cfg) : Nat :=
  let ps := (prPaths c.prof).filter (corePresent s)
  match ps with
  | p :: _ =>
    if prCorr c.prof ∧ corrPresent s then
      let n := ps.length
      cdiv (n * (n + 1) / 2 * prCount c.prof * overlapQ (laneFft c p) * cfgS c p) (4 * fftN (laneFft c p) * 512)
    else 0
  | [] => 0
/-- Correlated paths that differ in N, O, D (R33; R is the device's). -/
def corrUnequal (s : State) (c : Cfg) : Bool :=
  prCorr c.prof && corrPresent s &&
    (match prPaths c.prof with
     | p :: t => t.any (fun x => fftN (laneFft c x) != fftN (laneFft c p) || overlapQ (laneFft c x) != overlapQ (laneFft c p) || cfgD c x != cfgD c p)
     | [] => false)

-- PPE (R34)
/-- Cycles of the tasks dispatched in beat `b`. -/
def ppeBeatUse (t : List Nat) (b : Nat) : Nat := ((tasksDue t b).map (fun i => taskBudget t i + 16)).foldr (· + ·) 0
/-- The largest over every beat: it is met at some task's own phase, because every period is a power of two. -/
def ppeUse (t : List Nat) : Nat := ((tasksOn t).map (fun i => ppeBeatUse t (taskPhase t i))).foldr max 0
def ppeList (s : State) (c : Cfg) : List (Nat × Nat) :=
  ((s.ppe.map Prod.fst).filter (enginePresent s)).map (fun e => (e, ppeUse (c.t e)))

-- HBM shares (R35, R338)
def hbmUse (s : State) (c : Cfg) : Nat :=
  let m := c.v MEM_SHARE
  u8 c.prof 5 + (if displayPresent s then fld m 7 0 else 0) + fld m 15 8 + fld m 23 16 + fld m 31 24
/-- The configured Carousel rate (R255) in MB/s, rounded up. -/
def cfgMhz (s : State) (c : Cfg) : Nat := if u8 c.prof 3 = 1 then 8000 else if s.coolMode then s.ext.clk.mhz else sclkMhz s
def chanRate (s : State) (c : Cfg) (n : Nat) : Nat × Nat :=
  let u := carUnitBytes (ghost s c) c.v n * cfgMhz s c
  match carKind c.v n with
  | 2 =>
    let p := carPath c.v n
    (u * (overlapQ (laneFft c p) * cfgS c p), 4096 * (4 * fftN (laneFft c p)))
  | 3 => (u, 4096 * max 1 (fld (c.v DEN_CTRL) 15 0))
  | _ => (u, 4096)
def carouselRate (s : State) (c : Cfg) : Nat :=
  let f := (([0, 1, 2, 3].filter (carEn c.v)).map (chanRate s c)).foldr (fun x a => (x.1 * a.2 + a.1 * x.2, x.2 * a.2)) (0, 1)
  cdiv f.1 f.2
/-- The grants of a beat, `g` bytes, divided among channels with data (channel, weight, fill) in proportion to their weights;
what a channel cannot use goes to the others (R254). Answers the bytes that leave each buffer. -/
def grantShares : Nat → Nat → List (Nat × Nat × Nat) → List (Nat × Nat)
  | 0, _, _ => []
  | n + 1, g, l =>
    let tot := max 1 ((l.map (fun x => x.2.1)).foldr (· + ·) 0)
    let full (x : Nat × Nat × Nat) : Bool := decide (x.2.2 * tot ≤ g * x.2.1)
    let done := l.filter full
    if done = [] then l.map (fun x => (x.1, g * x.2.1 / tot))
    else done.map (fun x => (x.1, x.2.2)) ++
      grantShares n (g - (done.map (fun x => x.2.2)).foldr (· + ·) 0) (l.filter (fun x => !full x))
/-- What leaves each channel's buffer of a CAPTURE grant: shares follow the configured rates. -/
def captureShares (s : State) (c : Cfg) (g : Nat) : List (Nat × Nat) :=
  let live := [0, 1, 2, 3].filter (fun n => (s.car n).fill != 0)
  if live = [] then [] else
    let den := (live.map (fun n => (chanRate s c n).2)).foldr (· * ·) 1
    grantShares 4 g (live.map (fun n => let r := chanRate s c n; (n, max 1 (r.1 * (den / max 1 r.2)), (s.car n).fill)))
def captureRate (c : Cfg) : Nat := u8 c.prof 5 * 16384

/-- What the check finds: SLICE and PPE usage by instance, CORR, HBM_SHARE, rates, and the violations (R38). -/
structure Usage where
  slc : List (Nat × Nat)
  corr : Nat
  ppe : List (Nat × Nat)
  hbm : Nat
  rate : Nat
  share : Nat
  viol : List (Nat × Nat × Nat × Nat)
deriving DecidableEq, Repr
/-- The usage of `n`; SLICE_TRANSITION counts against the old configuration `o` unless `gap` (R54). -/
def usage (s : State) (o n : Cfg) (gap : Bool) : Usage :=
  let ks := presentSlicesOf s
  let slc := ks.map (fun k => (k, cdiv (sliceUse n k) 4))
  let trans := if gap then [] else (ks.filter (framesChange o n)).map (fun k => (k, cdiv (sliceUse n k + sliceUse o k) 4))
  let corr := corrUse s n
  let ppe := ppeList s n
  let hbm := hbmUse s n
  ⟨slc, corr, ppe, hbm, carouselRate s n, captureRate n,
    (slc.filter (fun x => decide (16384 < x.2))).map (fun x => (1, x.1, x.2, 16384)) ++
    (trans.filter (fun x => decide (16384 < x.2))).map (fun x => (2, x.1, x.2, 16384)) ++
    (if 1088 < corr then [(3, 0, corr, 1088)] else []) ++
    (ppe.filter (fun x => decide (640 < x.2))).map (fun x => (4, x.1, x.2, 640)) ++
    (if 100 < hbm then [(5, 0, hbm, 100)] else [])⟩
/-- The highest usage and the lowest-numbered instance with it (R38). -/
def highest : List (Nat × Nat) → Nat × Nat
  | [] => (0, 0)
  | x :: t => let h := highest t; if h.1 ≤ x.2 then (x.2, x.1) else h
/-- The reply of BUDGET_CHECK (R37). -/
def budgetBytes (u : Usage) : List Byte :=
  let v := u.viol
  let sl := highest u.slc
  let pp := highest u.ppe
  b2 (if v = [] then ST_OK else ST_OVER_BUDGET) ++ b2 (min 16 v.length) ++ b2 v.length ++ b2 (if u.share < u.rate then 1 else 0) ++
  b4 sl.1 ++ b2 sl.2 ++ b2 (min 0xFFFF u.corr) ++ b4 pp.1 ++ b2 (if pp.1 = 0 then 0 else pp.2) ++ b2 u.hbm ++ b4 u.rate ++ b4 u.share ++
  (v.take 16).flatMap (fun x => b1 x.1 ++ zeros 1 ++ b2 x.2.1 ++ b4 x.2.2.1 ++ b4 x.2.2.2)

/-- A mask that names an absent path, slice or the absent array (R8, R9). -/
def maskAbsent (s : State) (m : Nat) : Bool :=
  (List.range 50).any (fun g => m.testBit g && (if g < 32 then !corePresent s g else if g < 48 then !slicePresent s (g - 32)
    else g == 49 && !corrPresent s))
/-- BUDGET_CHECK (R37). -/
def budgetChecks (s : State) (p : List Byte) : List (Bool × Nat) :=
  [(maskAbsent s (u64 p 0), ST_UNIT_ABSENT), (decide (2 ^ 55 ≤ u64 p 0) || decide (1 < u32 p 8) || !zeroAt p 12 4, ST_BAD_PARAM)]
def execBudgetCheck (q : Req) (s : State) : Res :=
  let p := q.params
  let o := applyTickets s (activeCfg s) s.tickets
  .next (command s 0x0103 q (p.length == 16) (budgetChecks s p)
    (answer s 0x0103 q (budgetBytes (usage s o (applyGroups s o (u64 p 0)) ((u32 p 8).testBit 0)))))

end Sys2Proof.Machine
end

