-- ==== Sys2Proof/Machine/Ptp.lean ====
section
/-! DEFINITION. The PTP ordinary clock (R416, R417, R425): messages, best master, offsets. The message layouts, state
numbers and multicast addresses are those of IEEE 1588-2019, which the spec names. -/
namespace Sys2Proof.Machine

def setPtp (s : State) (p : PtpSt) : State := { s with ptp := p }
abbrev PT_INIT : Nat := 1
abbrev PT_DISABLED : Nat := 3
abbrev PT_LISTENING : Nat := 4
abbrev PT_MASTER : Nat := 6
abbrev PT_PASSIVE : Nat := 7
abbrev PT_UNCAL : Nat := 8
abbrev PT_SLAVE : Nat := 9
def ptpPort (s : State) : Nat := s.ptp.eth / 4
def ptpIf (s : State) : EthIf := ifOf s (s.ptp.eth / 4) (s.ptp.eth % 4)
/-- The clock identity: the port's MAC address as an EUI-64. -/
def ptpId (s : State) : Nat := let m := macOf (ptpPort s); m / 2 ^ 24 * 2 ^ 40 + 0xFFFE * 2 ^ 24 + m % 2 ^ 24
/-- clockClass and clockAccuracy (R417). -/
def ptpClass (s : State) : Nat × Nat :=
  if s.ptp.slaveOnly then (255, 0xFE)
  else if servo s = SV_LOCKED ∧ s.rb TIM_STAT 27 ∧ 2 ≤ servoSrc s then (6, 0x21)
  else if servo s = SV_HOLDOVER ∧ !s.time.held ∧ s.rb TIM_STAT 27 then (7, 0x21)
  else (248, 0xFE)
def ptpOwn (s : State) : PtpMaster :=
  ⟨s.ptp.prio1, (ptpClass s).1, (ptpClass s).2, 0xFFFF, s.ptp.prio2, ptpId s, 0, ptpId s, 1, 0, 0⟩
/-- Dataset order of the default best master clock algorithm. -/
def lexLt : List Nat → List Nat → Bool
  | a :: s, b :: t => decide (a < b) || (a == b && lexLt s t)
  | _, _ => false
def ptpKey (m : PtpMaster) : List Nat := [m.prio1, m.cls, m.acc, m.var, m.prio2, m.gm, m.steps, m.src, m.srcPort]
/-- The state that the best master gives the port. -/
def ptpDecide (s : State) : State :=
  let p := s.ptp
  match p.master with
  | none => s
  | some m =>
    if !p.slaveOnly && lexLt (ptpKey (ptpOwn s)) (ptpKey m) then setPtp s { p with port := PT_MASTER }
    else if !p.slaveOnly && decide ((ptpClass s).1 ≤ 127) then setPtp s { p with port := PT_PASSIVE }
    else if p.port ∈ [PT_UNCAL, PT_SLAVE] then s
    else setPtp s { p with port := PT_UNCAL, sync := none, lastSync := none, req := none, resp := none }

-- Messages out
/-- A PTP header (34 bytes). -/
def ptpHeader (s : State) (ty len flags : Nat) (corr : Int) (seq : Nat) (logInt : Int) : List Byte :=
  beBytes 1 ty ++ beBytes 1 0x12 ++ beBytes 2 len ++ beBytes 1 s.ptp.domain ++ beBytes 1 0 ++ beBytes 2 flags ++
  beBytes 8 (lowBits 64 corr) ++ zeros 4 ++ beBytes 8 (ptpId s) ++ beBytes 2 1 ++ beBytes 2 seq ++
  beBytes 1 (match ty with | 0 => 0 | 1 => 1 | 8 => 2 | 9 => 3 | _ => 5) ++ beBytes 1 (lowBits 8 logInt)
def ptpStamp (t : Nat) : List Byte := beBytes 6 (t / 65536000000000) ++ beBytes 4 (t / 65536 % 1000000000)
/-- Send a message over the transport; peer messages have their own group. -/
def ptpSend (s : State) (event peer : Bool) (b : List Byte) : State :=
  let f := ptpIf s
  let p := ptpPort s
  let prt := if event then 319 else 320
  match s.ptp.transport with
  | 0 => sendFrame s p (frameOf p (if peer then 0x0180C200000E else 0x011B19000000) f.vlan 0x88F7 b)
  | 1 =>
    let d := if peer then 0xE000006B else 0xE0000181
    sendFrame s.useFree p (frameOf p (mcastMac false d) f.vlan 0x0800
      (ipv4Packet (s.fresh % 65536) 0 1 17 f.ipv4 d (udpPacket false f.ipv4 d prt prt b)))
  | _ =>
    let d := (if peer then 0xFF02 else 0xFF0E) * 2 ^ 112 + (if peer then 0x6B else 0x181)
    sendFrame s p (frameOf p (mcastMac true d) f.vlan 0x86DD (ipv6Packet 0 1 17 f.ipv6 d (udpPacket true f.ipv6 d prt prt b)))
def ptpSeq (s : State) (ty : Nat) : Nat := nth 0 s.ptp.seqs ty
def ptpBump (s : State) (ty : Nat) : State :=
  let l := s.ptp.seqs ++ List.replicate (16 - s.ptp.seqs.length) 0
  setPtp s { s.ptp with seqs := setNth l ty ((nth 0 l ty + 1) % 65536) }
def ptpSync (s : State) : State :=
  let q := ptpSeq s 0
  let t := timeNow s
  let s := ptpBump s 0
  if s.ptp.oneStep then
    ptpSend s true false (ptpHeader s 0 44 0 ((t % 65536 : Nat) : Int) q s.ptp.logSync ++ ptpStamp t)
  else
    let s := ptpSend s true false (ptpHeader s 0 44 0x0200 0 q s.ptp.logSync ++ zeros 10)
    ptpSend s false false (ptpHeader s 8 44 0 ((t % 65536 : Nat) : Int) q s.ptp.logSync ++ ptpStamp t)
/-- Announce (R417): PTP timescale with TIM_UTCOFF, leap flags, time source. -/
def ptpAnnounce (s : State) : State :=
  let m := ptpOwn s
  let fl := 8 + 4 + (if s.rb TIM_UTCOFF 16 then 1 else 0) + (if s.rb TIM_UTCOFF 17 then 2 else 0)
  let q := ptpSeq s 11
  let s := ptpBump s 11
  ptpSend s false false (ptpHeader s 11 64 fl 0 q s.ptp.logAnn ++ zeros 10 ++ beBytes 2 (s.rf TIM_UTCOFF 15 0) ++ zeros 1 ++
    beBytes 1 m.prio1 ++ beBytes 1 m.cls ++ beBytes 1 m.acc ++ beBytes 2 m.var ++ beBytes 1 m.prio2 ++ beBytes 8 m.gm ++
    beBytes 2 0 ++ beBytes 1 (if servoSrc s = 2 then 0x90 else 0xA0))
def ptpRequest (s : State) : State :=
  let ty := if s.ptp.p2p then 2 else 1
  let q := ptpSeq s ty
  let s := setPtp (ptpBump s ty) { (ptpBump s ty).ptp with req := some (q, (timeNow s : Int)), resp := none }
  ptpSend s true s.ptp.p2p (ptpHeader s ty (if s.ptp.p2p then 54 else 44) 0 0 q s.ptp.logDelay ++ zeros (if s.ptp.p2p then 20 else 10))
/-- INITIALIZING ends with the first thing the clock does. -/
def ptpWake (s : State) : State := if s.ptp.port = PT_INIT then setPtp s { s.ptp with port := PT_LISTENING } else s
/-- PTP_MESSAGE_SEND: a scheduled message, 0 Sync, 1 Announce, 2 Delay_Req or Pdelay_Req. -/
def execPtpMessageSend (kind : Nat) (tclk : Nat) (s : State) : Res :=
  let s := ptpWake (setClock s tclk)
  .next (if !s.ptp.on then s
  else if kind = 0 then (if s.ptp.port = PT_MASTER then ptpSync s else s)
  else if kind = 1 then (if s.ptp.port = PT_MASTER then ptpAnnounce s else s)
  else if s.ptp.p2p ∨ s.ptp.port ∈ [PT_UNCAL, PT_SLAVE] then ptpRequest s else s)
/-- The current master is gone (R416). -/
def execAnnounceReceiptTimeout (s : State) : Res :=
  let p := s.ptp
  .next (if p.on ∧ p.port ∈ [PT_LISTENING, PT_PASSIVE, PT_UNCAL, PT_SLAVE] then
    setPtp s { p with master := none, flags := 0, port := (if p.slaveOnly then PT_LISTENING else PT_MASTER) }
  else s)

-- Messages in
def medianI (l : List Int) : Int :=
  let rec ins (x : Int) : List Int → List Int
    | [] => [x]
    | a :: t => if x ≤ a then x :: a :: t else a :: ins x t
  nth 0 (l.foldr ins []) (l.length / 2)
/-- A meanPathDelay; a servo sample whose delay lies off the medianI by more than 1 µs is discarded (R417). -/
def ptpDelay (s : State) (d : Int) : State := setPtp s { s.ptp with delay := d, delays := (d :: s.ptp.delays).take 16 }
def ptpOffset (s : State) (t2 t1 : Int) (logInt : Int) : State :=
  let p := s.ptp
  let off := t2 - t1 - p.delay
  let s := setPtp s { p with offset := off, lastSync := some (t2, t1), port := PT_SLAVE, sync := none }
  let far := p.delays != [] && decide (65536000 < (p.delay - medianI p.delays).natAbs)
  if servoSrc s ≠ 1 ∨ far then s
  else
    let tau := if logInt < 0 then 1000000000 / 2 ^ (-logInt).toNat else 1000000000 * 2 ^ logInt.toNat
    setTime s { s.time with samples := s.time.samples ++ [⟨1, off, tau, true, p.flags.testBit 3⟩] }
/-- A time in a message, in 1/65,536 ns. -/
def ptpTime (b : List Byte) (o : Nat) : Int := ((beAt b o 6 * 1000000000 + beAt b (o + 6) 4) * 65536 : Nat)
def ptpFromMaster (s : State) (b : List Byte) : Bool :=
  match s.ptp.master with
  | some m => beAt b 20 8 == m.src && beAt b 28 2 == m.srcPort && decide (s.ptp.port ∈ [PT_UNCAL, PT_SLAVE])
  | none => false
def ptpForMe (s : State) (b : List Byte) : Bool := beAt b 44 8 == ptpId s && beAt b 52 2 == 1
/-- A valid currentUtcOffset and the leap flags go into TIM_UTCOFF (R417). -/
def ptpUtc (s : State) (b : List Byte) : State :=
  let fl := beAt b 7 1
  if fl.testBit 2 then s.wr TIM_UTCOFF (w32 (beAt b 44 2 + 65536 * (fl % 4))) else s
/-- pflags of PTP_STATUS: utcValid, leap61, leap59, ptpTimescale. -/
def ptpFlags (b : List Byte) : Nat :=
  let fl := beAt b 7 1
  bitsOf fl 2 2 + 2 * bitsOf fl 0 0 + 4 * bitsOf fl 1 1 + 8 * bitsOf fl 3 3
/-- FOREIGN_MASTER_TIME_WINDOW: four announce intervals, in 1/65,536 ns. -/
def ptpWindow (s : State) : Int :=
  262144000000000 * 2 ^ (s.ptp.logAnn + 3).toNat / 8
/-- A foreign master qualifies with its second Announce inside the window; the parent stays qualified. -/
def ptpQualified (s : State) (b : List Byte) (t : Int) : Bool :=
  decide (beAt b 61 2 < 255) &&
  (s.ptp.foreign.any (fun f => f.1 == beAt b 20 8 && f.2.1 == beAt b 28 2 && decide (t - f.2.2 ≤ ptpWindow s)) ||
   (match s.ptp.master with | some c => c.src == beAt b 20 8 && c.srcPort == beAt b 28 2 | none => false))
/-- The record of a foreign master's newest Announce. -/
def ptpHeard (s : State) (b : List Byte) (t : Int) : State :=
  let x := (beAt b 20 8, beAt b 28 2, t)
  setPtp s { s.ptp with foreign := (x :: s.ptp.foreign.filter (fun f => !(f.1 == x.1 && f.2.1 == x.2.1))).take 16 }
def ptpParent (s : State) (b : List Byte) : State :=
  let m : PtpMaster := ⟨beAt b 47 1, beAt b 48 1, beAt b 49 1, beAt b 50 2, beAt b 52 1, beAt b 53 8, beAt b 61 2 + 1, beAt b 20 8,
    beAt b 28 2, beAt b 44 2, ptpFlags b⟩
  let same := match s.ptp.master with | some c => c.src == m.src && c.srcPort == m.srcPort | none => true
  let better := match s.ptp.master with | some c => lexLt (ptpKey m) (ptpKey c) | none => true
  if !same && !better then s
  else
    let s := if same then s else setPtp s { s.ptp with port := PT_LISTENING }
    let s := ptpDecide (setPtp s { s.ptp with master := some m, utc := m.utc })
    if s.ptp.port ∈ [PT_UNCAL, PT_SLAVE] then ptpUtc (setPtp s { s.ptp with flags := m.flags }) b else s
def ptpAnnounceIn (s : State) (b : List Byte) (t : Int) : State :=
  if ptpQualified s b t then ptpParent (ptpHeard s b t) b else ptpHeard s b t
def ptpSyncIn (s : State) (b : List Byte) (t2 : Int) (corr : Int) : State :=
  if !ptpFromMaster s b then s
  else if (beAt b 6 1).testBit 1 then setPtp s { s.ptp with sync := some (beAt b 30 2, t2, corr) }
  else ptpOffset s t2 (ptpTime b 34 + corr) (sext 8 (beAt b 33 1))
def ptpFollowUp (s : State) (b : List Byte) (corr : Int) : State :=
  match s.ptp.sync with
  | some (q, t2, c) => if ptpFromMaster s b ∧ q = beAt b 30 2 then ptpOffset s t2 (ptpTime b 34 + c + corr) (sext 8 (beAt b 33 1)) else s
  | none => s
def ptpDelayReq (s : State) (b : List Byte) (t : Nat) (corr : Int) : State :=
  if s.ptp.port = PT_MASTER ∧ !s.ptp.p2p then
    ptpSend s false false (ptpHeader s 9 54 0 (corr - ((t % 65536 : Nat) : Int)) (beAt b 30 2) s.ptp.logDelay ++ ptpStamp t ++ slice b 20 10)
  else s
def ptpDelayResp (s : State) (b : List Byte) (corr : Int) : State :=
  match s.ptp.req, s.ptp.lastSync with
  | some (q, t3), some (t2, t1) =>
    if ptpFromMaster s b ∧ ptpForMe s b ∧ q = beAt b 30 2 ∧ !s.ptp.p2p then
      ptpDelay (setPtp s { s.ptp with req := none }) ((t2 - t3 + (ptpTime b 34 - t1) - corr) / 2)
    else s
  | _, _ => s
/-- The answer leaves a turnaround after the request's arrival that the spec does not state: a free value. -/
def ptpPdelayReq (s : State) (b : List Byte) (t : Nat) (corr : Int) : State :=
  if !s.ptp.p2p then s
  else
    let s := s.useFree
    let now := t + s.fresh
    let q := beAt b 30 2
    if s.ptp.oneStep then
      ptpSend s true true (ptpHeader s 3 54 0 (corr + (now : Int) - (t : Int)) q 0x7F ++ zeros 10 ++ slice b 20 10)
    else
      let s := ptpSend s true true (ptpHeader s 3 54 0x0200 0 q 0x7F ++ ptpStamp t ++ slice b 20 10)
      ptpSend s false true (ptpHeader s 10 54 0 (corr + ((now % 65536 : Nat) : Int) - ((t % 65536 : Nat) : Int)) q 0x7F ++ ptpStamp now ++ slice b 20 10)
def ptpPdelayResp (s : State) (b : List Byte) (t4 : Int) (corr : Int) : State :=
  match s.ptp.req with
  | some (q, t1) =>
    if !s.ptp.p2p ∨ !ptpForMe s b ∨ q ≠ beAt b 30 2 then s
    else if (beAt b 6 1).testBit 1 then setPtp s { s.ptp with resp := some (q, t4, ptpTime b 34 - corr) }
    else ptpDelay (setPtp s { s.ptp with req := none }) ((t4 - t1 - corr) / 2)
  | none => s
def ptpPdelayFollow (s : State) (b : List Byte) (corr : Int) : State :=
  match s.ptp.req, s.ptp.resp with
  | some (q, t1), some (q', t4, t2) =>
    if q = q' ∧ q = beAt b 30 2 ∧ ptpForMe s b then
      ptpDelay (setPtp s { s.ptp with req := none, resp := none }) ((t4 - t1 - (ptpTime b 34 - t2) - corr) / 2)
    else s
  | _, _ => s
/-- The bytes of a message before its TLVs, by message type. -/
def ptpBody (ty : Nat) : Nat := match ty with | 2 => 54 | 3 => 54 | 9 => 54 | 10 => 54 | 11 => 64 | _ => 44
/-- Security TLVs: AUTHENTICATION, and the three of the experimental security protocol. -/
def ptpSecure (ty : Nat) : Bool := decide (ty ∈ [0x8009, 0x2000, 0x2001, 0x2002])
/-- A TLV among those that follow a message is a security TLV. -/
def ptpTlvSecure : Nat → List Byte → Bool
  | 0, _ => false
  | n + 1, b => decide (4 ≤ b.length) && (ptpSecure (beAt b 0 2) || ptpTlvSecure n (b.drop (4 + beAt b 2 2)))
/-- The message came to the standard's multicast address of the instance's transport (R416). -/
def ptpTo (s : State) (tr mac dst : Nat) : Bool :=
  tr == s.ptp.transport &&
  (if tr == 0 then decide (mac ∈ [0x0180C200000E, 0x011B19000000])
   else if tr == 1 then decide (dst ∈ [0xE000006B, 0xE0000181])
   else dst / 2 ^ 116 == 0xFF0 && decide (dst % 2 ^ 112 ∈ [0x6B, 0x181]))
/-- What the instance does not process: another port, version or domain, a unicast message, its own, or security TLVs (R416). -/
def ptpIgnored (s : State) (port ifc : Nat) (b : List Byte) : Bool :=
  let n := ptpBody (beAt b 0 1 % 16)
  !s.ptp.on || s.ptp.eth != 4 * port + ifc || decide (b.length < n) || beAt b 1 1 % 16 != 2 || beAt b 4 1 != s.ptp.domain ||
  (beAt b 6 1).testBit 2 || beAt b 20 8 == ptpId s || ptpTlvSecure 64 ((b.take (beAt b 2 2)).drop n)
/-- A PTP message with its receive time (R416, R417): other messages are ignored. -/
def ptpReceive (s : State) (port ifc : Nat) (b : List Byte) (t : Nat) : State :=
  let s := ptpWake s
  if ptpIgnored s port ifc b then s
  else
    let corr := sext 64 (beAt b 8 8)
    match beAt b 0 1 % 16 with
    | 0 => ptpSyncIn s b t corr
    | 1 => ptpDelayReq s b t corr
    | 2 => ptpPdelayReq s b t corr
    | 3 => ptpPdelayResp s b t corr
    | 8 => ptpFollowUp s b corr
    | 9 => ptpDelayResp s b corr
    | 10 => ptpPdelayFollow s b corr
    | 11 => ptpAnnounceIn s b t
    | _ => s

-- Commands
def s8 (p : List Byte) (o : Nat) : Int := sext 8 (u8 p o)
/-- PTP_SET (R425). -/
def ptpSetChecks (s : State) (p : List Byte) : List (Bool × Nat) :=
  let tr := bitsOf (u16 p 2) 5 4
  let f := ifOf s (u8 p 0) (u8 p 1)
  [(decide (ethPorts s ≤ u8 p 0) || decide (3 < u8 p 1) || decide (64 ≤ u16 p 2) || tr == 3 || !zeroAt p 10 2 ||
    (tr == 1 && f.ipv4 == 0) || (tr == 2 && f.ipv6 == 0) ||
    decide (s8 p 7 < -7 ∨ 4 < s8 p 7) || decide (s8 p 8 < -3 ∨ 4 < s8 p 8) || decide (s8 p 9 < -7 ∨ 6 < s8 p 9), ST_BAD_PARAM),
   (!f.en || !f.ptp, ST_STATE)]
def ptpConfig (p : List Byte) : PtpSt := {
  on := (u16 p 2).testBit 0, eth := 4 * u8 p 0 + u8 p 1, slaveOnly := (u16 p 2).testBit 1, oneStep := (u16 p 2).testBit 2,
  p2p := (u16 p 2).testBit 3, transport := bitsOf (u16 p 2) 5 4, domain := u8 p 4, prio1 := u8 p 5, prio2 := u8 p 6,
  logSync := s8 p 7, logAnn := s8 p 8, logDelay := s8 p 9, port := (if (u16 p 2).testBit 0 then PT_INIT else PT_DISABLED) }
def execPtpSet (q : Req) (s : State) : Res :=
  .next (command s 0x0A04 q (q.params.length == 12) (ptpSetChecks s q.params)
    (reply (setPtp s (ptpConfig q.params)) 0x0A04 q ST_OK []))
/-- PTP_STATUS (R425): a clock that follows no master is its own parent. -/
def ptpStatusBytes (s : State) : List Byte :=
  let p := s.ptp
  let own := ptpOwn s
  let m := if p.port ∈ [PT_UNCAL, PT_SLAVE, PT_PASSIVE] then p.master.getD own else own
  b1 p.port ++ b1 own.cls ++ b2 m.steps ++ beBytes 8 m.src ++ b2 m.srcPort ++ b1 m.cls ++ b1 0 ++ b8 (lowBits 64 p.offset) ++
  b8 (lowBits 64 p.delay) ++ b2 (if m.src = own.src then s.rf TIM_UTCOFF 15 0 else m.utc) ++ b2 p.flags
def execPtpStatus (q : Req) (s : State) : Res :=
  .next (command s 0x0A05 q (q.params.length == 0) [] (reply s 0x0A05 q ST_OK (ptpStatusBytes s)))

end Sys2Proof.Machine
end

