-- ==== Sys2Proof/Machine/Link.lean ====
section
/-! DEFINITION. Host, Storage, Network and Neighbour Links (R375–R405): NVMe root ports, Ethernet, neighbour ports. -/
namespace Sys2Proof.Machine

-- NVMe (R382–R386)
def nvState (s : State) (p : Nat) : Nat := s.rf (LNK_NVSTAT p) 31 29
def setNv (s : State) (p x : Nat) : State := s.setF (LNK_NVSTAT p) 31 29 x
/-- Firmware brings a trained drive into service, or marks it UNSUITABLE (R383). -/
def driveFit (d : DriveReport) : Bool :=
  (d.mdts == 0 || decide (2 ^ 20 ≤ d.mdts)) && decide (d.minPage ≤ 4096) && d.nsActive && decide (d.lba ∈ [512, 4096]) && !d.metadata
def execDriveBringUp (port : Nat) (d : DriveReport) (s : State) : Res :=
  .next (if nvmePorts s ≤ port ∨ nvState s port ≠ 1 then s
  else
    let s := (s.setF (LNK_NVSTAT port) 23 20 d.width).setF (LNK_NVSTAT port) 19 16 d.speed
    let s := nvAdmin s port [(8, 1), (9, 1), (9, 0)]
    if driveFit d then
      setNv (nvAdmin (s.setDrive port { s.drive port with lba := d.lba, mdts := d.mdts, cap := d.cap, serial := d.serial, model := d.model }) port nvQueues) port 2
    else setNv s port 3)
/-- The first outstanding command of a port leaves the queue, and one that waited for room enters it. -/
def nvTake (s : State) (p : Nat) : Option (NvCmd × State) :=
  match s.nvCmds.find? (fun c => c.port == p) with
  | some c =>
    let s := { s with nvCmds := s.nvCmds.erase c }
    some (c, match (nvOf s p)[NV_DEPTH - 1]? with | some w => nvPut s w | none => s)
  | none => none
/-- A command in error: CMDERR; a Write or Flush is issued once more and then stops its volume; a Read is answered (R326, R385). -/
def nvError (s : State) (c : NvCmd) : State :=
  let s := s.setB (LNK_NVSTAT c.port) 0 true
  if c.kind < 2 then
    if c.again then volumeFail s c.volume else nvIssue s { c with again := true }
  else
    match c.reply with
    | some q => reply s 0x0817 q ST_HW_ERROR []
    | none => s
def nvDone (s : State) (c : NvCmd) (data : List Byte) : State :=
  if c.kind = 2 then
    let s := s.hbmWrite c.hbm data
    match c.reply with
    | some q => reply s 0x0817 q ST_OK []
    | none => s
  else s
def execNvmeCompletion (port : Nat) (ok : Bool) (data : List Byte) (s : State) : Res :=
  .next (match nvTake s port with
  | some (c, s) => if ok then nvDone s c data else nvError s c
  | none => s)
/-- A command not completed within LNK_NVTMO counts as an error completion; before it is issued again the controller is disabled and
enabled and its queues are created anew (R385). -/
def execNvmeCommandTimeout (port : Nat) (s : State) : Res :=
  .next (match nvTake s port with
  | some (c, s) => nvError (if c.kind < 2 ∧ !c.again then nvAdmin s port ([(8, 0), (8, 1)] ++ nvQueues.drop 1) else s) c
  | none => s)
/-- Volumes of a port stop; its reads fail (R385). -/
def portVolumes (s : State) (p : Nat) : List Nat := (List.range 4).filter (fun v => (s.volume v).drives.contains p)
def dropCmds (s : State) (p : Nat) : State :=
  let mine := s.nvCmds.filter (fun c => c.port == p)
  forEach mine { s with nvCmds := s.nvCmds.filter (fun c => c.port != p) } (fun c s =>
    match c.reply with
    | some q => reply s 0x0817 q ST_HW_ERROR []
    | none => s)
def execNvmePortFail (port : Nat) (s : State) : Res :=
  .next (if nvmePorts s ≤ port ∨ nvState s port = 0 ∨ nvState s port = 4 then s
  else
    let s := report (setNv (dropCmds s port) port 4) 131 port
    forEach (portVolumes s port) s (fun v s => volumeFail s v))
def execSmartPoll (port : Nat) (temp : Nat) (crit : Nat) (used : Nat) (written : Nat) (s : State) : Res :=
  .next (if nvmePorts s ≤ port ∨ nvState s port ≠ 2 then s
  else
    let s := nvAdmin s port [(13, 2)]
    let s := s.setDrive port { s.drive port with temp := temp, crit := crit, used := used, written := written }
    if crit = 0 then s else report (s.setB (LNK_NVSTAT port) 1 true) 132 port)
def maskPorts (p : List Byte) : List Nat := bitList 4 (u8 p 0)
def execNvmeReset (q : Req) (s : State) : Res :=
  let l := maskPorts q.params
  .next (command s 0x0815 q (q.params.length == 4)
    [(nvmePorts s == 0, ST_UNIT_ABSENT), (decide (16 ≤ u8 q.params 0) || !zeroAt q.params 1 3, ST_BAD_PARAM),
     (l.any (fun d => (portVolumes s d).any (fun v => volStreams s v != [])), ST_IN_USE)]
    (reply (forEach l s (fun d s => setNv (dropCmds s d) d 1)) 0x0815 q ST_ACCEPTED []))
def padTo (n : Nat) (b : List Byte) : List Byte := b.take n ++ zeros (n - b.length)
def execNvmeInfo (q : Req) (s : State) : Res :=
  let p := u8 q.params 0
  let d := s.drive p
  .next (command s 0x0816 q (q.params.length == 4)
    [(nvmePorts s == 0, ST_UNIT_ABSENT), (decide (3 < p) || !zeroAt q.params 1 3, ST_BAD_PARAM)]
    (reply s 0x0816 q ST_OK (b4 (nvState s p) ++ b4 d.lba ++ b4 d.mdts ++ b8 d.cap ++ b2 d.temp ++ b1 d.crit ++ b1 d.used ++
      leBytes 16 d.written ++ padTo 20 d.serial ++ padTo 40 d.model)))
def nvReadChecks (s : State) (p : List Byte) : List (Bool × Nat) :=
  let d := s.drive (u8 p 0)
  let n := u32 p 12 * d.lba
  [(nvmePorts s == 0, ST_UNIT_ABSENT),
   (decide (3 < u8 p 0) || !zeroAt p 1 3 || (nvState s (u8 p 0) == 2 && (decide (2 ^ 24 < n) || decide (d.cap < (u64 p 4 + u32 p 12) * d.lba))) ||
    u64 p 16 % 4096 != 0 || !inGeneral s (u64 p 16) n, ST_BAD_PARAM),
   (nvState s (u8 p 0) != 2, ST_STATE)]
def execNvmeRead (q : Req) (s : State) : Res :=
  let p := q.params
  .next (command s 0x0817 q (p.length == 24) (nvReadChecks s p)
    (nvIssue s ⟨u8 p 0, 2, 0, false, u64 p 16, some q, b8 (u64 p 4) ++ b4 (u32 p 12), u64 p 4 * (s.drive (u8 p 0)).lba⟩))

-- Ethernet set-up
def execLinkStatus (q : Req) (s : State) : Res :=
  .next (command s 0x0810 q (q.params.length == 0) []
    (reply s 0x0810 q ST_OK (regsBytes s ([LNK_PCISTAT, LNK_ETHMODE] ++ (List.range 8).map LNK_ETHSTAT ++
      (List.range 2).map LNK_NBSTAT ++ (List.range 2).map LNK_NBRTT ++ (List.range 4).map LNK_NVSTAT))))
def udpStreams (s : State) : List (Nat × List Byte) := s.strActive.filter (fun p => enEn p.2 && enDest p.2 == 2)
def queueOn (s : State) (q : Nat) : Bool := s.rb (LNK_EQCTRL q) 31
/-- A port is named by an enabled stream or queue. -/
def portNamed (s : State) (p : Nat) : Bool :=
  (udpStreams s).any (fun e => dgPort e.2 == p) || (List.range 16).any (fun q => queueOn s q && s.rf (LNK_EQCTRL q) 19 16 == p)
/-- Every port goes down and retrains in the mode (R387, R403). -/
def setMode (s : State) (m : Nat) : State :=
  let s := s.setF LNK_ETHMODE 1 0 m
  forEach (List.range 8) s (fun p s =>
    let was := s.rf (LNK_ETHSTAT p) 31 30
    let s := (s.setF (LNK_ETHSTAT p) 31 30 (if p < 8 / 2 ^ m then 1 else 3)).setF (LNK_ETHSTAT p) 29 28 0
    if was = 2 then s.setB (LNK_ETHSTAT p) 0 true else s)
def ethModeInUse (s : State) : Bool :=
  udpStreams s != [] || (List.range 16).any (queueOn s) || s.filters.any (fun f => f.2.en)
def execEthMode (q : Req) (s : State) : Res :=
  let p := q.params
  .next (command s 0x0811 q (p.length == 4)
    [(decide (2 < u8 p 0) || decide (1 < u8 p 1) || !zeroAt p 2 2, ST_BAD_PARAM), (ethModeInUse s, ST_IN_USE)]
    (let s := setMode s (u8 p 0)
     reply (if u8 p 1 = 1 then { s with store := { s.store with ethMode := some (u8 p 0) } } else s) 0x0811 q ST_OK []))
/-- ETH_IF_SET (R388, R403). -/
def ifFrom (p : List Byte) : EthIf := {
  en := (u16 p 2).testBit 0, bisor := (u16 p 2).testBit 1, ptp := (u16 p 2).testBit 2, vlan := u16 p 4, prefix4 := u8 p 6,
  prefix6 := u8 p 7, ipv4 := beAt p 8 4, gw4 := beAt p 12 4, ipv6 := beAt p 16 16, gw6 := beAt p 32 16, mtu := u16 p 48 }
def ifInUse (s : State) (p i : Nat) : Bool :=
  (udpStreams s).any (fun e => dgPort e.2 == p && dgIf s e.2 == some i) || s.filters.any (fun f => f.2.en && f.2.port == p && f.2.ifc == i)
def ethIfChecks (s : State) (p : List Byte) : List (Bool × Nat) :=
  let n := ifFrom p
  let pt := u8 p 0
  let i := u8 p 1
  [(decide (ethPorts s ≤ pt) || decide (3 < i) || decide (16 ≤ u16 p 2) || decide (4094 < n.vlan) || decide (32 < n.prefix4) ||
    decide (128 < n.prefix6) || decide (n.mtu < 576 ∨ 9198 < n.mtu) || !zeroAt p 50 2 ||
    (n.en && (ifsOn s pt).any (fun j => j != i && (ifOf s pt j).vlan == n.vlan)), ST_BAD_PARAM),
   (ifInUse s pt i && decide (ifOf s pt i ≠ n), ST_IN_USE)]
def storeIf (s : State) (p : List Byte) : State :=
  { s with store := { s.store with ifs := Sparse.set (fun _ => []) s.store.ifs (4 * u8 p 0 + u8 p 1) p } }
def execEthIfSet (q : Req) (s : State) : Res :=
  let p := q.params
  .next (command s 0x0812 q (p.length == 52) (ethIfChecks s p)
    (let s := s.setEthIf (4 * u8 p 0 + u8 p 1) (ifFrom p)
     reply (if (u16 p 2).testBit 3 then storeIf s p else s) 0x0812 q ST_OK []))
/-- ETH_FILTER_SET (R396, R403). -/
def filterFrom (p : List Byte) : EthFilter := {
  en := (u8 p 3).testBit 0, srcMatch := (u8 p 3).testBit 1, port := u8 p 1, ifc := u8 p 2, queue := u8 p 4, dport := u16 p 6,
  sport := u16 p 8, src := beAt p 12 16 }
def execEthFilterSet (q : Req) (s : State) : Res :=
  let p := q.params
  .next (command s 0x0813 q (p.length == 28)
    [(decide (31 < u8 p 0) || decide (3 < u8 p 2) || decide (3 < u8 p 3) || decide (u8 p 4 < 8 ∨ 15 < u8 p 4) || u8 p 5 != 0 ||
      !zeroAt p 10 2 || s.rf (LNK_EQCTRL (u8 p 4)) 19 16 != u8 p 1, ST_BAD_PARAM)]
    (reply (s.setFilter (u8 p 0) (filterFrom p)) 0x0813 q ST_OK []))
def execBisorPortSet (q : Req) (s : State) : Res :=
  let p := q.params
  .next (command s 0x0818 q (p.length == 4) [(decide (1 < u16 p 2), ST_BAD_PARAM)]
    (let s := s.wr LNK_BISORPORT (w32 (u16 p 0))
     reply (if u16 p 2 = 1 then { s with store := { s.store with bisorPort := some (u16 p 0) } } else s) 0x0818 q ST_OK []))

-- Ethernet reception (R389)
/-- A frame taken apart: tag, EtherType, and of an IP packet its addresses, protocol and payload place. -/
structure Taken where
  tagged : Bool
  tci : Nat
  etype : Nat
  off : Nat                      -- payload offset in the frame
  ip : Bool
  v6 : Bool
  frag : Bool                    -- an IPv4 fragment or an IPv6 extension header
  piece : Bool                   -- a fragment of a packet
  src : Nat
  dst : Nat
  proto : Nat
  l4 : Nat                       -- offset of the transport header
  len : Nat                      -- its length with payload
deriving DecidableEq, Repr
/-- The protocol numbers of IPv6 extension headers; 44 is the fragment header. -/
def extHeader (h : Nat) : Bool := decide (h ∈ [0, 43, 44, 50, 51, 60, 135, 139, 140, 253, 254])
/-- A fragment header stands in the chain of extension headers that starts at `o` with header type `h`. -/
def hasFragment (b : List Byte) : Nat → Nat → Nat → Bool
  | 0, _, _ => false
  | f + 1, h, o =>
    h == 44 || (decide (h ∈ [0, 43, 51, 60, 135, 139, 140]) &&
      hasFragment b f (beAt b o 1) (o + (if h = 51 then 4 * (beAt b (o + 1) 1 + 2) else 8 * (beAt b (o + 1) 1 + 1))))
def takeApart (b : List Byte) : Taken :=
  let tagged := beAt b 12 2 == 0x8100
  let off := if tagged then 18 else 14
  let et := beAt b (off - 2) 2
  let hl := 4 * (beAt b off 1 % 16)
  if et = 0x0800 ∧ beAt b off 1 / 16 = 4 then
    ⟨tagged, if tagged then beAt b 14 2 else 0, et, off, true, false, decide (beAt b (off + 6) 2 % 0x4000 ≠ 0),
      decide (beAt b (off + 6) 2 % 0x4000 ≠ 0), beAt b (off + 12) 4,
      beAt b (off + 16) 4, beAt b (off + 9) 1, off + hl, beAt b (off + 2) 2 - hl⟩
  else if et = 0x86DD ∧ beAt b off 1 / 16 = 6 then
    ⟨tagged, if tagged then beAt b 14 2 else 0, et, off, true, true, extHeader (beAt b (off + 6) 1),
      hasFragment b 16 (beAt b (off + 6) 1) (off + 40), beAt b (off + 8) 16,
      beAt b (off + 24) 16, beAt b (off + 6) 1, off + 40, beAt b (off + 4) 2⟩
  else ⟨tagged, if tagged then beAt b 14 2 else 0, et, off, false, false, false, false, 0, 0, 0, 0, 0⟩
/-- The groups that a port joins for Neighbour Discovery and PTP. -/
def joined (s : State) (p m : Nat) : Bool :=
  m == 0x333300000001 || (ifsOn s p).any (fun i => (ifOf s p i).ipv6 != 0 &&
    (m == mcastMac true (solicited (ifOf s p i).ipv6) || m == mcastMac true (solicited (linkLocal p)))) ||
  decide (m ∈ [0x011B19000000, 0x0180C200000E, 0x01005E000181, 0x01005E00006B, 0x333300000181, 0x33330000006B]) &&
    (ifsOn s p).any (fun i => (ifOf s p i).ptp)
/-- A UDP datagram whose checksum is bad; an IPv6 one without a checksum. -/
def udpBad (b : List Byte) (t : Taken) : Bool :=
  let u := slice b t.l4 t.len
  let c := beAt b (t.l4 + 6) 2
  t.ip && t.proto == 17 && (if c = 0 then t.v6
    else fold16 (sum16 (pseudo t.v6 17 t.src t.dst t.len ++ u)) != 65535)
/-- Step 1 of R389: a frame that is damaged, of a wrong length, or for another address; or a packet that the part does not take. -/
def foreign (s : State) (f : RxFrame) : Bool :=
  let m := beAt f.bytes 0 6
  !f.fcsOk || !f.fecOk || decide (f.bytes.length < 60 ∨ 9216 < f.bytes.length) ||
  !(m == 2 ^ 48 - 1 || m == macOf f.port || joined s f.port m)
def step1Bad (s : State) (f : RxFrame) (t : Taken) : Bool := foreign s f || t.frag || udpBad f.bytes t
def rxDrop (s : State) : State := s.addR LNK_ETHRXDROP 1
/-- At most 1,000 echo replies per second and port (R390). -/
def echoRoom (s : State) (p : Nat) : Bool × State :=
  let sec := timeNow s / 65536000000000
  let n := match s.echoes.find? (fun e => e.1 == p) with
    | some (_, t, k) => if t = sec then k else 0
    | none => 0
  (decide (n < 1000), { s with echoes := (p, sec, n + 1) :: s.echoes.filter (fun e => e.1 != p) })
/-- Step 3: what firmware answers; none when the frame is no such frame. -/
def firmwareFrame (s : State) (p i : Nat) (b : List Byte) (t : Taken) : Option State :=
  let f := ifOf s p i
  let back := beAt b 6 6
  if t.etype = 0x0806 then
    if f.ipv4 = 0 ∨ beAt b (t.off + 24) 4 ≠ f.ipv4 then none
    else
      let s := learnHop s p i false (beAt b (t.off + 14) 4) (beAt b (t.off + 8) 6)
      some (if beAt b (t.off + 6) 2 = 1 then
        sendFrame s p (frameOf p back f.vlan 0x0806 (arpPacket 2 (macOf p) f.ipv4 (beAt b (t.off + 8) 6) (beAt b (t.off + 14) 4)))
      else s)
  else if !t.ip then none
  else if t.v6 ∧ t.proto = 58 then
    let ty := beAt b t.l4 1
    let tgt := beAt b (t.l4 + 8) 16
    if ty = 135 ∧ ownAddr s p i true tgt then
      let bodyN := icmp6 tgt t.src 136 0 (beBytes 4 0x60000000 ++ beBytes 16 tgt ++ beBytes 1 2 ++ beBytes 1 1 ++ beBytes 6 (macOf p))
      some (sendFrame s p (frameOf p back f.vlan 0x86DD (ipv6Packet 0 255 58 tgt t.src bodyN)))
    else if ty = 136 ∧ ownAddr s p i true t.dst then some (learnHop s p i true tgt back)
    else if ty = 128 ∧ ownAddr s p i true t.dst then
      let r := echoRoom s p
      some (if r.1 ∧ t.len + 40 ≤ f.mtu then sendFrame r.2 p (frameOf p back f.vlan 0x86DD
        (ipv6Packet 0 64 58 t.dst t.src (icmp6 t.dst t.src 129 0 (slice b (t.l4 + 4) (t.len - 4))))) else rxDrop s)
    else none
  else if !t.v6 ∧ t.proto = 1 ∧ beAt b t.l4 1 = 8 ∧ ownAddr s p i false t.dst then
    let r := echoRoom s p
    some (if r.1 ∧ t.len + 20 ≤ f.mtu then sendFrame r.2.useFree p (frameOf p back f.vlan 0x0800
      (ipv4Packet (s.fresh % 65536) 0 64 1 t.dst t.src (icmp4 0 (slice b (t.l4 + 4) (t.len - 4))))) else rxDrop s)
  else none
/-- The time of a receive stamp, in 1/65,536 ns. -/
def rxTime (f : RxFrame) : Nat := (f.sec * 1000000000 + f.ns) * 65536 + f.frac

-- Descriptor rings (R393–R395)
def qHead (s : State) (q : Nat) : Nat := s.rf (LNK_EQHEAD q) 11 0
def qTail (s : State) (q : Nat) : Nat := s.rf (LNK_EQTAIL q) 11 0
def qSize (s : State) (q : Nat) : Nat := 2 ^ s.rf (LNK_EQCTRL q) 23 20
def qHost (s : State) (q : Nat) : Bool := s.rb (LNK_EQCTRL q) 30
def qBase (s : State) (q : Nat) : Nat :=
  s.rf (LNK_EQBASE_LO q) 31 12 * 4096 + 2 ^ 32 * (if qHost s q then s.rdN (LNK_EQBASE_HI q) else s.rf (LNK_EQBASE_HI q) 7 0)
def qAt (s : State) (q : Nat) : Nat := qBase s q + 32 * qHead s q
/-- A descriptor: from the ring in device memory, or as the host memory holds it. -/
def descAt (s : State) (q : Nat) (host : List Byte) : List Byte := if qHost s q then padTo 32 host else deviceBytes s (qAt s q) 32
/-- Bytes written to device memory, or to host or device memory. -/
def devicePut (s : State) (a : Nat) (b : List Byte) : State :=
  match dmaSpace a with
  | some (.ppe _) => pmWrite s a b
  | some .sram => s.sramWrite (a - 0x0F20000000) b
  | some .hbm => s.hbmWrite a b
  | _ => s
def putBytes (s : State) (host : Bool) (a : Nat) (b : List Byte) : State := if host then s.put (.hostWrite a b) else if inFirmware a b.length then s else devicePut s a b
/-- Write a descriptor back, advance HEAD, and fire EVT (R393). -/
def writeBack (s : State) (q : Nat) (d : List Byte) : State :=
  let s := putBytes s (qHost s q) (qAt s q) d
  let s := s.setF (LNK_EQHEAD q) 11 0 ((qHead s q + 1) % qSize s q)
  let e := s.rf (LNK_EQCTRL q) 9 0
  if e = 0 then s else fire s e
/-- RX_DESCRIPTOR (R395). -/
def rxDescriptor (s : State) (q : Nat) (f : RxFrame) (t : Taken) (ptpEvent : Bool) : State :=
  let d := descAt s q f.ring
  let host := (u8 d 12).testBit 0
  if !queueOn s q ∨ qHead s q = qTail s q ∨ u16 d 8 < f.bytes.length ∨ ((qHost s q ∨ host) ∧ !s.pci.bme) then rxDrop s
  else
    let s := putBytes s host (u64 d 0) f.bytes
    let st := 0x80 + (if ptpEvent then 2 else 0) + (if t.tagged then 1 else 0)
    writeBack s q (d.take 10 ++ b2 f.bytes.length ++ slice d 12 1 ++ b1 st ++ b2 t.tci ++ timeBytes (rxTime f) ++ slice d 28 4)
/-- The lowest-numbered filter that matches (R396). -/
def filterHit (s : State) (p i : Nat) (b : List Byte) (t : Taken) : Option EthFilter :=
  ((List.range 32).map s.filter).find? (fun (f : EthFilter) =>
    f.en && f.port == p && f.ifc == i && f.dport == beAt b (t.l4 + 2) 2 &&
    (!f.srcMatch || (f.sport == beAt b t.l4 2 && (if t.v6 then f.src == t.src else f.src / 2 ^ 96 == t.src))))
/-- NETWORK_PACKET_RECEIVE (R71, R72). -/
def netReceive (s : State) (p i : Nat) (b : List Byte) (t : Taken) : State :=
  if 64 ≤ s.netQueue.length then dropPacket s
  else
    let peer : Peer := ⟨p, i, t.tci, t.v6, t.src, beAt b t.l4 2⟩
    { s with netQueue := s.netQueue ++ [(peer, slice b (t.l4 + 8) (beAt b (t.l4 + 4) 2 - 8))] }
/-- Steps 4 to 7. -/
def deliver (s : State) (f : RxFrame) (i : Nat) (t : Taken) : State :=
  let b := f.bytes
  let udp := t.ip && t.proto == 17
  let mine := ownAddr s f.port i t.v6 t.dst
  let dport := beAt b (t.l4 + 2) 2
  let ptpUdp := udp && decide (dport ∈ [319, 320])
  if (ifOf s f.port i).ptp ∧ (t.etype = 0x88F7 ∨ ptpUdp) then
    if ptpTo s (if !ptpUdp then 0 else if t.v6 then 2 else 1) (beAt b 0 6) t.dst then
      ptpReceive s f.port i (if ptpUdp then slice b (t.l4 + 8) (t.len - 8) else b.drop t.off) (rxTime f)
    else s
  else if udp && mine && dport == s.rf LNK_BISORPORT 15 0 && (ifOf s f.port i).bisor then netReceive s f.port i b t
  else if udp then
    match filterHit s f.port i b t with
    | some x => rxDescriptor s x.queue f t (dport == 319)
    | none => rxDrop s
  else rxDrop s
/-- ETH_FRAME_RECEIVE (R389, R72). -/
def frameReceive (s : State) (f : RxFrame) : State :=
  let t := takeApart f.bytes
  let s := if f.fecOk then s else s.setB (LNK_ETHSTAT f.port) 1 true
  if step1Bad s f t then
    let s := rxDrop s
    if t.piece && !foreign s f then dropPacket s else s
  else
    match ifOfVlan s f.port (t.tci % 4096) with
    | none => rxDrop s
    | some i =>
      match firmwareFrame s f.port i f.bytes t with
      | some s => s
      | none => deliver s f i t
def execEthFrameReceive (f : RxFrame) (s : State) : Res := .next (if ethUp s f.port then frameReceive s f else s)

-- Ethernet links and next hops (R390, R391, R405)
def execEthLinkUp (port : Nat) (s : State) : Res :=
  .next (if ethPorts s ≤ port then s
  else
    let s := (s.setF (LNK_ETHSTAT port) 31 30 2).setF (LNK_ETHSTAT port) 29 28 (1 + s.rf LNK_ETHMODE 1 0)
    forEach (ifsOn s port) s (fun i s => announceIf s port i))
/-- An Ethernet port leaves UP and retrains (R404, R405). -/
def ethDown (s : State) (port : Nat) : State :=
  if !ethUp s port then s
  else
    let s := ((s.setF (LNK_ETHSTAT port) 31 30 1).setF (LNK_ETHSTAT port) 29 28 0).setB (LNK_ETHSTAT port) 0 true
    if portNamed s port then report s 133 port else s
def execEthLinkDown (port : Nat) (s : State) : Res :=
  .next (ethDown s port)
def execNextHopRetry (s : State) : Res := .next (forEach (s.hops.filter (fun h => h.mac.isNone)) s (fun h s => askHop s h))
/-- Cache entries grow `seconds` older; those older than 300 s are asked for again. -/
def execNeighbourRefresh (seconds : Nat) (s : State) : Res :=
  let s := { s with hops := s.hops.map (fun h => { h with age := h.age + seconds }) }
  .next (forEach (s.hops.filter (fun h => h.mac.isSome && decide (300 < h.age))) s (fun h s => askHop s h))

/-- The tail of a queue advances (R393). -/
def execLnkEqtailWrite (q : Nat) (v : Word) (s : State) : Res :=
  .next (if q < 16 then s.wr (LNK_EQTAIL q) (w32 (fld v 11 0)) else s)
/-- The UDP checksum of a frame, recomputed. -/
def fixUdp (b : List Byte) : List Byte :=
  let t := takeApart b
  if t.ip ∧ t.proto = 17 ∧ !t.frag then
    let u := slice b t.l4 t.len
    let z := u.take 6 ++ zeros 2 ++ u.drop 8
    let c := checksum (pseudo t.v6 17 t.src t.dst t.len ++ z)
    b.take (t.l4 + 6) ++ beBytes 2 (if c = 0 then 65535 else c) ++ b.drop (t.l4 + 8)
  else b
/-- A transmit descriptor that is refused (R394). -/
def txRefused (d : List Byte) : Bool :=
  let fl := u8 d 12
  decide (u16 d 8 < 14 ∨ 9216 < u16 d 8) || decide (32 ≤ fl) || !zeroAt d 14 2 || !zeroAt d 28 4 ||
  (fl.testBit 3 && (!fl.testBit 1 || decide (u16 d 8 < u16 d 10 + 44)))
def descTime (d : List Byte) : Nat := (leAt d 16 6 * 1000000000 + u32 d 22) * 65536 + u16 d 26
/-- The frame at the head leaves with a status. -/
def txSend (s : State) (q : Nat) (d b : List Byte) (status : Nat) : State :=
  let fl := u8 d 12
  let now := timeNow s
  let o := u16 d 10 + 34
  let b := if fl.testBit 3 then fixUdp (b.take o ++ ptpStamp now ++ b.drop (o + 10)) else b
  let b := if fl.testBit 4 then fixUdp b else b
  let p := s.rf (LNK_EQCTRL q) 19 16
  let s := s.put (.launched p (b ++ zeros (60 - b.length)))
  let s := if status = 1 then s.addR LNK_ETHTXLATE 1 else s
  let s := { s with txDue := s.txDue.filter (fun x => x.1 != q) }
  writeBack s q (d.take 13 ++ b1 (0x80 + status) ++ slice d 14 2 ++ (if fl.testBit 1 then timeBytes now else slice d 16 12) ++ slice d 28 4)
/-- TX_DESCRIPTOR: the descriptor at the head of a transmit queue; `host` and `frame` are what the host memory holds where
the ring or the buffer lies there. -/
def txHead (s : State) (q : Nat) (d frame : List Byte) : State :=
  let b := if (u8 d 12).testBit 0 then padTo (u16 d 8) frame else deviceBytes s (u64 d 0) (u16 d 8)
  if txRefused d then writeBack s q (d.take 13 ++ b1 0x82 ++ d.drop 14)
  else if !ethUp s (s.rf (LNK_EQCTRL q) 19 16) then s
  else if (u8 d 12).testBit 2 then
    let due := descTime d
    if s.txDue.any (fun x => x.1 == q) then (if timeNow s < due then s else txSend s q d b 0)
    else if due < timeNow s then txSend s q d b 1
    else { s with txDue := (q, due) :: s.txDue }
  else txSend s q d b 0
def txReady (s : State) (q : Nat) (d : List Byte) : Bool :=
  decide (q < 8) && queueOn s q && qHead s q != qTail s q && (s.pci.bme || (!qHost s q && !(u8 d 12).testBit 0))
def execTxDescriptor (q : Nat) (host : List Byte) (frame : List Byte) (tclk : Nat) (s : State) : Res :=
  let s := setClock s tclk
  let d := descAt s q host
  .next (if txReady s q d ∧ !s.txDue.any (fun x => x.1 == q) then txHead s q d frame else s)
/-- FRAME_LAUNCH: a frame that waits at the head of its queue leaves at its launch time (R394). -/
def execFrameLaunch (q : Nat) (host : List Byte) (frame : List Byte) (tclk : Nat) (s : State) : Res :=
  let s := setClock s tclk
  let d := descAt s q host
  .next (if txReady s q d ∧ s.txDue.any (fun x => x.1 == q) then txHead s q d frame else s)

-- Neighbour ports (R398–R400)
def nbrEn (s : State) (p : Nat) : Bool := s.rb (LNK_NBSTAT p) 0
/-- A neighbour port leaves UP while it is enabled (R404, R405). -/
def nbrDown (s : State) (port : Nat) : State :=
  if port < 2 ∧ nbrUp s port then
    report ((s.setF (LNK_NBSTAT port) 31 30 1).setB (LNK_NBSTAT port) 1 true) 134 port else s
def execNbrPortDown (port : Nat) (s : State) : Res := .next (nbrDown s port)
/-- NBR_SET (R403). -/
def nbrEnable (s : State) (p : Nat) (en : Bool) : State :=
  let was := nbrUp s p
  if en = nbrEn s p then s
  else
    let s := (s.setB (LNK_NBSTAT p) 0 en).setF (LNK_NBSTAT p) 31 30 (if en then 1 else 0)
    if was then s.setB (LNK_NBSTAT p) 1 true else s
def execNbrSet (q : Req) (s : State) : Res :=
  let p := q.params
  .next (command s 0x0814 q (p.length == 4) [(decide (1 < u8 p 0) || decide (1 < u8 p 1) || !zeroAt p 2 2, ST_BAD_PARAM)]
    (reply (nbrEnable s (u8 p 0) (u8 p 1 == 1)) 0x0814 q ST_OK []))
/-- A flit with a bad CRC: of a record (R400), or of a token. -/
def execFlitCrcFail (port : Nat) (record : Bool) (token : Bool) (s : State) : Res :=
  .next (if 2 ≤ port then s
  else
    let s := (s.addR LNK_NBCRCCNT 1).setB (LNK_NBSTAT port) 2 true
    let s := if token then s.addR TRG_TOKERRCNT 1 else s
    if record then report (s.setB (LNK_NBSTAT port) 3 true) 135 port else s)
/-- TOKEN_RECEIVE (R245, R246, R401): kept for its boundary, and forwarded while hops remain. -/
def tokenBad (c : List Byte) : Bool := c.length != 20 || decide (1 < u8 c 0) || u8 c 2 == 0 || decide (1 < u8 c 3)
def tokenReceive (s : State) (p : Nat) (c : List Byte) (cyc : Nat) : State :=
  if !nbrUp s p ∨ tokenBad c then s.addR TRG_TOKERRCNT 1
  else
    let s := s.addR TRG_TOKRXCNT 1
    let s := { s with tokens := s.tokens ++ [(p, s.beat + (if cyc ≤ 496 then 1 else 2), c)] }
    if 1 < u8 c 2 then tokenOut s (1 - p) (c.take 2 ++ b1 (u8 c 2 - 1) ++ c.drop 3) else s
def execTokenReceive (port : Nat) (content : List Byte) (cyc : Nat) (s : State) : Res :=
  .next (if port < 2 then tokenReceive { s with cyc := cyc % 512 } port content (cyc % 512) else s)
/-- TOKEN_PRESENT: the tokens of the coming boundary, in order of arrival (R246). -/
def execTokenPresent (s : State) : Res :=
  let now := s.tokens.filter (fun t => decide (t.2.1 ≤ s.beat + 1))
  .next (forEach now { s with tokens := s.tokens.filter (fun t => decide (s.beat + 1 < t.2.1)) } (fun t s => tokenPresent s t.1 t.2.2))
/-- GRID_FLIT_RECEIVE (R411): the flit's start is stamped at an offset from a TCLK count. -/
def nbrDelay (s : State) (p : Nat) : Nat := if s.rb TIM_CTRL 0 then s.rf (LNK_NBRTT p) 19 0 * 2048 else s.rdN TIM_NBRDLY * 4096
def execGridFlitReceive (port : Nat) (beat : Nat) (grid : Bool) (tclk : Nat) (stamp : Int) (s : State) : Res :=
  let s := setClock s tclk
  .next (if port < 2 ∧ nbrUp s port ∧ grid ∧ servoSrc s = 3 + port then
    let ref : Int := (beat * beatLen + 40 * 65536 + nbrDelay s port : Nat)
    let x : ServoIn := ⟨3 + port, (timeNow s : Int) + stamp - ref, 1000000000, true, true⟩
    setTime s { s.time with samples := s.time.samples ++ [x] }
  else s)
/-- GRID_FLIT_SEND (R399). -/
def execGridFlitSend (s : State) : Res :=
  .next (if fclkRuns s ∧ s.beat % 2500000 = 0 ∧ !halted s then
    forEach ((List.range 2).filter (nbrUp s)) s (fun p s =>
      sendFlit s p 0x20 (b8 s.beat ++ b1 (if gridOn s then 1 else 0) ++ b4 (s.devId % 2 ^ 20)))
  else s)
/-- Records use credits of the receiver's buffer in whole KiB. -/
def kib (b : List Byte) : Nat := (b.length + 1023) / 1024
/-- RECORD_FORWARD (R330). -/
def forwardOf (s : State) (port id : Nat) : Option Nat :=
  (s.strActive.find? (fun p => enEn p.2 && enType p.2 == 0xFF && (enSource p.2).testBit port && enSelect p.2 % 65536 == id)).map Prod.fst
def forwardRecord (s : State) (n : Nat) (b : List Byte) : State :=
  let t := s.stream n
  if enQueue (s.entry n) < queueFill t + b.length ∨ volBlocked s (s.entry n) then
    let first := !s.rb OC_STAT 0
    let s := s.setStream n { t with sealed := t.sealed + 1, dropped := t.dropped + 1 }
    let s := (s.setB OC_STAT 0 true).addR OC_DROPCNT 1
    if first then report s 128 (n % 65536) else s
  else fillRise (s.setStream n { t with
    sealed := t.sealed + 1, bytes := t.bytes + b.length, lastBeat := u64 b 24,
    queue := t.queue ++ [⟨b, u64 b 24, s.beat, recordTime b, timeNow s⟩] }) n
def execNbrRecordReceive (port : Nat) (record : List Byte) (s : State) : Res :=
  .next (if 2 ≤ port ∨ !nbrUp s port then s
  else
    let s := sendFlit s port 0x40 (b2 (kib record))
    match (if halted s then none else forwardOf s port (u16 record 6)) with
    | some n => forwardRecord s n record
    | none => (s.addR OC_NBRDROP 1).setB OC_STAT 7 true)
/-- The complete records of a neighbour context leave whole, in order, while the port is UP and credits last (R399, R402). -/
def ctxSend (s : State) (p a : Nat) : State :=
  match txFirst s a with
  | some r =>
    let c := (s.nbrPort p).credit
    if nbrUp s p ∧ kib r ≤ c then txPop ((sendRecord s p r).setNbr p { credit := c - kib r }) a else s
  | none => s
def ctxDrain (s : State) (p a : Nat) : State := repeated (ctxRecords 3 (txBytes s a)) (fun s => ctxSend s p a) s
def portDrain (s : State) (p : Nat) : State :=
  forEach ((s.txCtx.map Prod.fst).filter (fun k => decide (nbrCtx p 0 / 0x1000 ≤ k ∧ k < nbrCtx p 128 / 0x1000))) s
    (fun k s => ctxDrain s p (0x1000 * k))
/-- One step of a neighbour stream's carrier (R330, R400): the head record enters its context while the port is UP. -/
def nbrSend (s : State) (n port : Nat) : State :=
  let a := nbrCtx port (enChan (outEntry s n))
  match headRec s n with
  | some r => if nbrUp s port && txRoom s a then ctxDrain (setTx (popRecord s n) a (txBytes s a ++ r.bytes)) port a else s
  | none => s
def execCreditReceive (port : Nat) (n : Nat) (s : State) : Res :=
  .next (if port < 2 ∧ nbrUp s port then portDrain (s.setNbr port { credit := min 1024 ((s.nbrPort port).credit + n) }) port else s)
def execNbrPortUp (port : Nat) (s : State) : Res :=
  .next (if port < 2 ∧ nbrEn s port ∧ !nbrUp s port then
    portDrain ((s.setF (LNK_NBSTAT port) 31 30 2).setNbr port { credit := 1024 }) port else s)
def execEchoRequestReceive (port : Nat) (content : List Byte) (s : State) : Res :=
  .next (if port < 2 ∧ nbrUp s port ∧ !halted s then sendFlit s port 0x51 content else s)
def execEchoReplyReceive (port : Nat) (content : List Byte) (tclk : Nat) (s : State) : Res :=
  let s := setClock s tclk
  .next (if port < 2 ∧ nbrUp s port then
    let sent := (leAt content 0 6 * 1000000000 + u32 content 6) * 65536 + u16 content 10
    s.wr (LNK_NBRTT port) (w32 (min (2 ^ 20 - 1) ((timeNow s - sent + 2048) / 4096)))
  else s)
def execEchoSend (port : Nat) (tclk : Nat) (s : State) : Res :=
  let s := setClock s tclk
  .next (if port < 2 ∧ nbrUp s port ∧ !halted s then sendFlit s port 0x50 (timeBytes (timeNow s)) else s)

end Sys2Proof.Machine
end

