-- ==== Sys2Proof/Machine/Dma.lean ====
section
/-! DEFINITION. DMA Channel Programs (R353–R374): the channels' instructions, shuffles, bursts, pacing, stops, group 0x09. -/
namespace Sys2Proof.Machine

def fwOwn (s : State) (n : Nat) : Bool := s.rb (DMA_CTRL n) 7
/-- PPE memories of an absent, gated or unpowered cluster answer with a bus error (R267, R371). -/
def clusterReach (s : State) (c : Nat) : Bool :=
  clusterPresent s c && s.rf (PPE_CLSTAT c) 1 0 != 1 && s.rf (PWR_STEP (34 + c / 2)) 31 30 == 1
/-- A range of PPE memory lies in data memories or in shared memories, and in clusters that answer (R353). -/
def ppeReach (s : State) (a k c : Nat) : Bool :=
  match dmaSpace (a + k - 1) with
  | some (.ppe d) => decide (a < 0x0F01000000) == decide (a + k - 1 < 0x0F01000000) && (List.range 8).all (fun x => decide (x < c ∨ d < x) || clusterReach s x)
  | _ => false
/-- Channel `n` may read bytes `a … a+k−1`. -/
def devReadable (s : State) (n a k : Nat) : Bool :=
  match dmaSpace a with
  | some (.ppe c) => ppeReach s a k c
  | some .sram => decide (a + k ≤ 0x0F20080000)
  | some .hbm => decide (a + k ≤ HBM_END) && memReady s && !failedIn s a k && (fwOwn s n || !inFirmware a k)
  | _ => false
/-- Channel `n` may write them: a transmit context takes its own channel's writes only (R402). -/
def devWritable (s : State) (n a k : Nat) : Bool :=
  match dmaSpace a with
  | some (.eth p c) => c == n && decide (p < ethPorts s) && decide (dmaSpace (a + k - 1) = some (.eth p c))
  | some (.nbr p c) => c == n && decide (dmaSpace (a + k - 1) = some (.nbr p c)) && decide (p < 2)
  | _ => devReadable s n a k
def devWrite (s : State) (a : Nat) (b : List Byte) : State :=
  match dmaSpace a with
  | some (.eth _ _) => setTx s a (txBytes s a ++ b)
  | some (.nbr p _) => ctxDrain (setTx s a (txBytes s a ++ b)) p a
  | _ => devicePut s a b

-- Instructions (R356–R360)
def inOp (i : Nat) : Nat := bitsOf i 127 124
def progOf (s : State) (n : Nat) : Nat := s.rf (DMA_PROG_LO n) 31 4 * 16 + 2 ^ 32 * s.rf (DMA_PROG_HI n) 7 0
def chanPc (s : State) (n : Nat) : Nat := s.rf (DMA_STAT n) 15 0
/-- Bytes of the current MOVE not delivered (R355). -/
def residueOf (d : DmaSt) : Nat :=
  match d.mv with
  | some m => bitsOf d.instr 107 84 - m.pos
  | none => if bitsOf d.instr 127 124 = 1 then bitsOf d.instr 107 84 else 0
def dmaErr (s : State) (n cause residue : Nat) : State := dmaStop s n 5 cause residue
def fetchable (s : State) (n a : Nat) : Bool :=
  (decide (dmaSpace a = some .sram) || decide (dmaSpace a = some .hbm)) && devReadable s n a 16 && poisonIn s a 16 == []
/-- A fetch from HBM meets the poisoned words there (R345). -/
def fetchErrors (s : State) (a : Nat) : State := (eccRead s a 16 ⟨[], []⟩).1
/-- Fetch instruction `pc` (R356, R367): `fe` error responses come before it; an opcode that no table lists is illegal. -/
def dmaFetch (s : State) (n pc fe : Nat) : State :=
  let s := ((s.setF (DMA_STAT n) 31 29 1).setF (DMA_STAT n) 15 0 pc).setB (DMA_STAT n) 24 false
  let a := progOf s n + 16 * pc
  let limit := s.rf (DMA_CTRL n) 6 4
  if !fetchable s n a ∨ limit < fe then
    dmaErr (forEach (List.range (limit + 1)) s (fun _ s => fetchErrors s a)) n 2 0
  else
    let i := leAt ((List.range 16).map (fun k => devByte s (a + k))) 0 16
    let s := if fe = 0 then s else report s 169 n
    let s := s.setDma n { s.dmaCh n with instr := i, mv := none }
    if inOp i < 1 ∨ 5 < inOp i then dmaErr s n 3 0 else s
def dmaNext (s : State) (n fe : Nat) : State := dmaFetch s n ((chanPc s n + 1) % 65536) fe

-- MOVE fields (R357)
def mvPace (i : Nat) : Nat := bitsOf i 123 122
def mvBurst (i : Nat) : Nat := 64 * 2 ^ bitsOf i 121 119
def mvSop (i : Nat) : Nat := bitsOf i 118 117
def mvEsz (i : Nat) : Nat := bitsOf i 116 114
def mvLanes (i : Nat) : Nat := bitsOf i 113 109 + 1
def mvCount (i : Nat) : Nat := bitsOf i 107 84
def mvDsel (i : Nat) : Nat := bitsOf i 83 82
def mvSsel (i : Nat) : Nat := bitsOf i 41 40
def mvDst (d : DmaSt) : Nat := (nth 0 d.a (mvDsel d.instr) + bitsOf d.instr 81 42) % 2 ^ 64
def mvSrc (d : DmaSt) : Nat := (nth 0 d.a (mvSsel d.instr) + bitsOf d.instr 39 0) % 2 ^ 64
def mvDstSpace (d : DmaSt) : Nat := nth 0 d.spaces (mvDsel d.instr)
def mvSrcSpace (d : DmaSt) : Nat := nth 0 d.spaces (mvSsel d.instr)
/-- A MOVE that R357 or R361 does not allow. -/
def moveIllegal (d : DmaSt) : Bool :=
  let i := d.instr
  let w := 2 ^ mvEsz i
  let l := mvLanes i
  let c := mvCount i
  let aligned := mvDst d % 8 == 0 && mvSrc d % 8 == 0
  mvPace i == 3 || bitsOf i 121 119 == 7 || i.testBit 108 || c == 0 || decide (5 < mvEsz i) ||
  decide (5 < mvDstSpace d) || decide (5 < mvSrcSpace d) ||
  (match mvSop i with
    | 0 => mvEsz i != 0 || l != 1
    | 3 => decide (2 < mvEsz i) || decide (32 < l * w) || !aligned || c % (8 * l * w) != 0
    | _ => mvEsz i == 0 || !aligned || c % (8 * l) != 0)
/-- The fill of a staging queue (R365); `none` names no queue. -/
def fillOf (s : State) (q : Nat) : Option Nat :=
  if q < 256 then some (queueFill (s.stream q)) else none
/-- FILL or RATE settings that stop the MOVE as it issues (R365, R366). -/
def paceBad (s : State) (d : DmaSt) : Bool :=
  match mvPace d.instr with
  | 1 => (fillOf s d.qid).isNone || decide (d.high ≤ d.low) || decide (d.high < mvBurst d.instr)
  | 2 => decide (d.rate < 1 ∨ 256 < d.rate)
  | _ => false
/-- FCLK cycles at an instant of the present beat. -/
def cycleNow (s : State) (cyc : Nat) : Nat := beatOrTick s * 512 + cyc
def issues (s : State) (n op : Nat) : Bool :=
  decide (n < 128) && chanState s n == 1 && inOp (s.dmaCh n).instr == op && (s.dmaCh n).mv.isNone
/-- LOOP (R358). -/
def loopIllegal (s : State) (n i : Nat) : Bool :=
  bitsOf i 122 107 == 0 || decide (chanPc s n ≤ bitsOf i 106 91) || bitsOf i 22 0 != 0
def advance (l : List Nat) (k : Nat) (str : Nat) : List Nat := setNth l k (lowBits 64 (((nth 0 l k : Nat) : Int) + sext 32 str))
def loopStep (s : State) (n fe : Nat) : State :=
  let d := s.dmaCh n
  let i := d.instr
  let v := bitsOf i 123 123
  let c := (if nth 0 d.cnt v = 0 then bitsOf i 122 107 else nth 0 d.cnt v) - 1
  let a := advance (advance d.a (bitsOf i 90 89) (bitsOf i 86 55)) (bitsOf i 88 87) (bitsOf i 54 23)
  let s := s.setDma n { d with cnt := setNth d.cnt v c, a := a }
  if c = 0 then dmaNext s n fe else dmaFetch s n (bitsOf i 106 91) fe
/-- LOOP arrives; `fe` error responses meet the fetch after it. -/
def execLoop (n : Nat) (fe : Nat) (s : State) : Res :=
  .next (if !issues s n 2 then s else if loopIllegal s n (s.dmaCh n).instr then dmaErr s n 3 0 else loopStep s n fe)

-- WAIT (R359)
def wtEvent (i : Nat) : Nat := bitsOf i 123 114
def wtN (i : Nat) : Nat := bitsOf i 113 98
def wtTmo (i : Nat) : Nat := bitsOf i 97 82
def waitDone (s : State) (n fe : Nat) : State :=
  let d := s.dmaCh n
  dmaNext (s.setDma n { d with ecnt := d.ecnt - wtN d.instr }) n fe
def execWait (n : Nat) (fe : Nat) (s : State) : Res :=
  let d := s.dmaCh n
  let i := d.instr
  .next (if !issues s n 3 then s
  else if wtN i = 0 ∨ bitsOf i 81 0 ≠ 0 then dmaErr s n 3 0
  else
    let d := if wtEvent i = d.wev then d else { d with wev := wtEvent i, ecnt := 0 }
    let s := s.setDma n { d with waitAt := beatOrTick s }
    if wtN i ≤ d.ecnt then waitDone s n fe else s.setF (DMA_STAT n) 31 29 2)
/-- The count of a waiting channel has reached N. -/
def execWaitComplete (n : Nat) (fe : Nat) (s : State) : Res :=
  .next (if n < 128 ∧ chanState s n = 2 ∧ wtN (s.dmaCh n).instr ≤ (s.dmaCh n).ecnt then waitDone s n fe else s)
def execWaitTimeout (n : Nat) (s : State) : Res :=
  let d := s.dmaCh n
  .next (if n < 128 ∧ chanState s n = 2 ∧ d.ecnt < wtN d.instr ∧ wtTmo d.instr ≠ 0 ∧ d.waitAt + (wtTmo d.instr : Int) ≤ (beatOrTick s : Int) then
    dmaErr s n 5 0 else s)

-- SIGNAL, END (R360)
def signalIllegal (i : Nat) : Bool := bitsOf i 111 0 != 0 || (i.testBit 122 && decide (bitsOf i 121 112 < 512))
def execDmaSignal (n : Nat) (fe : Nat) (s : State) : Res :=
  let i := (s.dmaCh n).instr
  .next (if !issues s n 4 then s
  else if signalIllegal i then dmaErr s n 3 0
  else
    let s := if i.testBit 122 then fire s (bitsOf i 121 112) else s
    let s := vectorIf s (i.testBit 123 && s.rb (DMA_CTRL n) 2) (16 + n)
    dmaNext s n fe)
def execDmaEnd (n : Nat) (s : State) : Res :=
  .next (if !issues s n 5 then s else if bitsOf (s.dmaCh n).instr 123 0 ≠ 0 then dmaErr s n 3 0 else dmaStop s n 3 0 0)

-- Shuffles (R361)
/-- The source bit that destination bit `x` of a MOVE takes. -/
def shuffleBit (i x : Nat) : Nat :=
  let w := 2 ^ mvEsz i
  let l := mvLanes i
  let c := mvCount i
  match mvSop i with
  | 0 => x
  | 1 => x / w % l * (c / l * 8) + x / w / l * w + x % w
  | 2 =>
    let lane := x / (c / l * 8)
    let y := x % (c / l * 8)
    (y / w * l + lane) * w + y % w
  | _ =>
    let p := x / (c / (l * w) * 8)
    (x % (c / (l * w) * 8) * l + p / w) * w + p % w
/-- Destination byte `j` of a MOVE from its source bytes. -/
def movedByte (i : Nat) (src : Nat → Byte) (j : Nat) : Byte :=
  if mvSop i = 0 then src j
  else BitVec.ofNat 8 (bitsSet ((List.range 8).filter (fun k =>
    let b := shuffleBit i (8 * j + k)
    (src (b / 8)).toNat.testBit (b % 8))))

-- Bursts (R362–R367)
/-- The size of the burst that starts at byte `pos`: the destination is divided at multiples of the burst size. -/
def burstSize (d : DmaSt) (pos : Nat) : Nat :=
  min (mvCount d.instr - pos) (mvBurst d.instr - (mvDst d + pos) % mvBurst d.instr)
/-- The tokens of RATE at a cycle, in quarter bytes (R366). -/
def tokens (d : DmaSt) (m : DmaMove) (now : Nat) : Nat :=
  min (8 * mvBurst d.instr) (m.bucket + d.rate * ((now : Int) - m.bucketAt).toNat)
/-- FILL in ON at this instant (R365). -/
def fillOn (s : State) (d : DmaSt) (m : DmaMove) : Bool :=
  m.on || (match fillOf s d.qid with | some f => decide (d.high ≤ f) | none => false)
def paced (s : State) (d : DmaSt) (m : DmaMove) (now : Nat) : Bool :=
  match mvPace d.instr with
  | 1 => !fillOn s d m
  | 2 => decide (tokens d m now < 4 * burstSize d m.pos)
  | _ => false
/-- MOVE issues. -/
def execMove (n : Nat) (s : State) : Res :=
  let d := s.dmaCh n
  .next (if !issues s n 1 then s
  else if moveIllegal d then dmaErr s n 3 (mvCount d.instr)
  else if paceBad s d then dmaErr s n 4 (mvCount d.instr)
  else
    let m : DmaMove := { bucket := 4 * mvBurst d.instr, bucketAt := cycleNow s s.cyc }
    let m := { m with on := mvPace d.instr == 1 && fillOn s d m }
    (s.setDma n { d with mv := some m }).setB (DMA_STAT n) 24 (paced s d m (cycleNow s s.cyc)))
/-- The destination can take a whole burst (R364): a transmit context of a port that is UP, with fewer than two complete records
(R391). -/
def destReady (s : State) (d : DmaSt) : Bool :=
  mvDstSpace d != 0 ||
    (match dmaSpace (mvDst d) with
    | some (.eth p _) => ethUp s p && txRoom s (mvDst d)
    | some (.nbr p _) => nbrUp s p && txRoom s (mvDst d)
    | _ => true)
/-- Channel `n` requests a burst (R364). -/
def requests (s : State) (n cyc : Nat) : Bool :=
  let d := s.dmaCh n
  match d.mv with
  | some m => chanState s n == 1 && m.inFlight == 0 && !d.abort && !paced s d m (cycleNow s cyc) && destReady s d
  | none => false
def moving (s : State) (n : Nat) : Bool := match (s.dmaCh n).mv with | some m => m.inFlight != 0 | none => false
/-- A mover is free, and `n` is the next requesting channel in round-robin order (R363). -/
def hasTurn (s : State) (n cyc : Nat) : Bool :=
  let l := s.dma.map Prod.fst
  let after (k : Nat) : Nat := (k + 127 - s.bt.mover) % 128
  decide ((l.filter (moving s)).length < 16) && l.all (fun k => k == n || decide (after n < after k) || !requests s k cyc)
/-- A mover takes the next burst of channel `n` in an FCLK cycle of the present beat (R363). -/
def burstStart (s : State) (n cyc : Nat) (d : DmaSt) (m : DmaMove) : State :=
  let now := cycleNow s cyc
  if paced s d m now then s.setB (DMA_STAT n) 24 true
  else if !destReady s d || !hasTurn s n cyc then s.setB (DMA_STAT n) 24 false
  else
    let size := burstSize d m.pos
    let m := { m with
      inFlight := size, tries := 0, on := m.on || mvPace d.instr == 1,
      bucket := (if mvPace d.instr = 2 then tokens d m now - 4 * size else m.bucket), bucketAt := now }
    let s := { s with bt := { s.bt with mover := n } }
    (s.setDma n { d with mv := some m, retries := 0 }).setB (DMA_STAT n) 24 false
def execBurstStart (n : Nat) (cyc : Nat) (s : State) : Res :=
  let s := { s with cyc := cyc % 512 }
  let d := s.dmaCh n
  .next (match d.mv with
    | some m => if n < 128 ∧ chanState s n = 1 ∧ m.inFlight = 0 ∧ !d.abort then burstStart s n (cyc % 512) d m else s
    | none => s)

/-- A source range in device space is readable; host and root-port space need the endpoint or the drive (R353, R378). -/
def sideOk (s : State) (space : Nat) (ok : Bool) : Bool :=
  if space = 0 then ok else if space = 1 then s.pci.bme && s.pci.up else nvState s (space - 2) == 2
/-- The source bytes that a burst reads lie at its own offset for a copy, anywhere in the source for a shuffle. -/
def burstSource (d : DmaSt) (m : DmaMove) : Nat × Nat :=
  if mvSop d.instr = 0 then (mvSrc d + m.pos, m.inFlight) else (mvSrc d, mvCount d.instr)
/-- A write to a side outside the device. -/
def sideWrite (s : State) (space a : Nat) (b : List Byte) : State :=
  if space = 0 then devWrite s a b else if space = 1 then s.put (.hostWrite a b) else s.put (.nvme (space - 2) 4 a b)
/-- An error response: another try, or the end of the channel (R367, R368). -/
def burstFails (s : State) (n : Nat) (d : DmaSt) (m : DmaMove) : State :=
  if m.tries < s.rf (DMA_CTRL n) 6 4 then
    s.setDma n { d with mv := some { m with tries := m.tries + 1 }, retries := m.tries + 1 }
  else if d.abort then dmaStop s n 4 1 (mvCount d.instr - m.pos)
  else dmaStop s n 5 1 (mvCount d.instr - m.pos)
/-- A burst delivered: the next burst, the next instruction or the stop of an abort. -/
def burstDone (s : State) (n fe : Nat) (d : DmaSt) (m : DmaMove) (b : List Byte) : State :=
  let s := sideWrite s (mvDstSpace d) ((mvDst d + m.pos) % 2 ^ 64) b
  let s := if m.tries = 0 then s else report s 169 n
  let pos := m.pos + m.inFlight
  let low := match fillOf s d.qid with | some f => decide (f ≤ d.low) | none => false
  let m' := { m with pos := pos, inFlight := 0, tries := 0, on := m.on && !low }
  let s := (s.setDma n { d with mv := some m' }).setB (DMA_STAT n) 24 (paced s d m' (cycleNow s s.cyc))
  if d.abort then dmaStop s n 4 0 (mvCount d.instr - pos)
  else if pos = mvCount d.instr then dmaNext s n fe
  else s
/-- The burst in flight is answered. `data` holds the MOVE's source bytes when they lie in host or root-port memory; `err`
says that the answer was an error response; `h` the words in which ECC found an error. -/
def burstEnd (s : State) (n : Nat) (data : List Byte) (err : Bool) (h : EccHits) (fe : Nat) (d : DmaSt) (m : DmaMove) : State :=
  let src := burstSource d m
  let srcOk := sideOk s (mvSrcSpace d) (devReadable s n src.1 src.2)
  let dstOk := sideOk s (mvDstSpace d) (devWritable s n ((mvDst d + m.pos) % 2 ^ 64) m.inFlight)
  let hbm := mvSrcSpace d == 0 && decide (dmaSpace src.1 = some .hbm)
  let (s, bad) := if srcOk && hbm then eccRead s src.1 src.2 h else (s, false)
  if err || !srcOk || !dstOk || bad then burstFails s n d m
  else
    let byte (k : Nat) : Byte := if mvSrcSpace d = 0 then devByte s (mvSrc d + k) else BitVec.ofNat 8 (byteAt data k)
    burstDone s n fe d m ((List.range m.inFlight).map (fun j => movedByte d.instr byte (m.pos + j)))
def execBurstEnd (n : Nat) (data : List Byte) (err : Bool) (h : EccHits) (fe : Nat) (s : State) : Res :=
  let d := s.dmaCh n
  .next (match d.mv with
    | some m => if n < 128 ∧ chanState s n = 1 ∧ m.inFlight ≠ 0 then burstEnd s n data err h fe d m else s
    | none => s)

-- Start and abort (R368–R370)
/-- START (R369). -/
def dmaStart (s : State) (n starter fe : Nat) : State :=
  if chanRuns s n then s
  else
    let b := Mem.read s.sram (blockOf n) 0x30
    let d : DmaSt := { watching := true, a := [u64 b 0, u64 b 8, u64 b 16, u64 b 24], spaces := [u8 b 32, u8 b 33, u8 b 34, u8 b 35], qid := u16 b 0x24, rate := u16 b 0x26, high := u32 b 0x28, low := u32 b 0x2C }
    let s := ((s.setDma n d).setF (DMA_STAT n) 28 25 0).setF (DMA_STAT n) 23 17 starter
    dmaFetch s n 0 fe
/-- An abort (R368). -/
def dmaAbort (s : State) (n : Nat) : State :=
  let d := s.dmaCh n
  if !chanRuns s n then s
  else if (match d.mv with | some m => m.inFlight != 0 | none => false) then s.setDma n { d with abort := true }
  else dmaStop s n 4 0 (residueOf d)
def isMgmt : Master → Bool
  | .mgmt _ => true
  | _ => false
/-- A write of DMA_CTRL (R370, R372). -/
def dmaCtrlWrite (s : State) (m : Master) (n : Nat) (v : Word) (fe : Nat) : State :=
  if 128 ≤ n ∨ (fwOwn s n ∧ !isMgmt m) then s
  else
    let s := (s.setF (DMA_CTRL n) 6 4 (fld v 6 4)).setB (DMA_CTRL n) 2 (bit v 2)
    let s := if bit v 1 then dmaAbort s n else s
    if bit v 0 then dmaStart s n (masterId m) fe else s
def execDmaCtrlStart (m : Master) (n : Nat) (v : Word) (fe : Nat) (s : State) : Res := .next (onBar s m (dmaCtrlWrite s m n (putBit v 0 true) fe))
def execDmaCtrlAbort (m : Master) (n : Nat) (v : Word) (s : State) : Res := .next (onBar s m (dmaCtrlWrite s m n (putBit v 1 true) 0))

-- Group 0x09, DMA (R373)
def progOk (a : Nat) : Bool :=
  a % 16 == 0 && (decide (0x0F20000000 ≤ a ∧ a < 0x0F20080000) || decide (HBM0 ≤ a ∧ a < HBM_END))
def execDmaStart (q : Req) (fe : Nat) (s : State) : Res :=
  let p := q.params
  let n := u16 p 0
  let prog := u64 p 4
  let fl := u16 p 2
  let sp := Mem.read s.sram (blockOf n + 0x20) 4
  .next (command s 0x0910 q (p.length == 12)
    [(decide (128 ≤ n) || !progOk prog || sp.any (fun b => decide (5 < b.toNat)) || bitsOf fl 3 1 != 0 || decide (128 ≤ fl), ST_BAD_PARAM),
     (chanRuns s n, ST_STATE), (fwOwn s n, ST_IN_USE)]
    (let s := (s.setF (DMA_CTRL n) 6 4 (bitsOf fl 6 4)).setB (DMA_CTRL n) 2 (fl.testBit 0)
     let s := (s.setF (DMA_PROG_LO n) 31 4 (prog / 16 % 2 ^ 28)).setF (DMA_PROG_HI n) 7 0 (prog / 2 ^ 32)
     reply (dmaStart s n FW_MASTER fe) 0x0910 q ST_OK []))
def maskChans (p : List Byte) : List Nat := (List.range 128).filter (fun n => (leAt p 0 16).testBit n)
/-- DMA_ABORT: the reply waits until every channel named has stopped. -/
def abortAll (s : State) (q : Req) (l : List Nat) : State :=
  let s := forEach l s (fun n s => dmaAbort s n)
  let left := l.filter (chanRuns s)
  if left = [] then reply s 0x0911 q ST_OK [] else { s with bt := { s.bt with aborts := s.bt.aborts ++ [(q, left)] } }
def execDmaAbort (q : Req) (s : State) : Res :=
  let l := maskChans q.params
  .next (command s 0x0911 q (q.params.length == 16) [(l.any (fwOwn s), ST_IN_USE)] (abortAll s q l))
def execDmaStatus (q : Req) (s : State) : Res :=
  let n := u16 q.params 0
  .next (command s 0x0912 q (q.params.length == 4)
    [(decide (128 ≤ n) || !zeroAt q.params 2 2, ST_BAD_PARAM)]
    (reply s 0x0912 q ST_OK (bw (s.rd (DMA_CTRL n)) ++ bw (s.rd (DMA_STAT n)) ++ bw (s.rd (DMA_PROG_LO n)) ++
      bw (s.rd (DMA_PROG_HI n)) ++ Mem.read s.sram (blockOf n + 0x30) 16)))
def execDmaSramWrite (q : Req) (s : State) : Res :=
  let p := q.params
  .next (command s 0x0913 q (decide (4 ≤ p.length ∧ p.length ≤ 4072))
    [(decide (0x80000 < u32 p 0 + (p.length - 4)), ST_BAD_PARAM)]
    (reply (s.sramWrite (u32 p 0) (p.drop 4)) 0x0913 q ST_OK []))

-- Resets (R371)
def dmaResetAll (s : State) : State := forEach (List.range 128) { s with dma := [], sram := [] } (fun n s =>
  (((s.wr (DMA_CTRL n) 0x30).wr (DMA_STAT n) 0).wr (DMA_PROG_LO n) 0).wr (DMA_PROG_HI n) 0)
/-- Every channel for which `f` holds is aborted. -/
def dmaAbortIf (s : State) (f : Nat → Bool) : State := forEach ((List.range 128).filter f) s (fun n s => dmaAbort s n)
/-- On the return from HIBERNATE all channels are IDLE and DMA SRAM has lost its content (R354, R371). -/
def dmaIdleAll (s : State) : State :=
  forEach (List.range 128) { s with dma := [], sram := [] } (fun n s => s.wr (DMA_STAT n) 0)

end Sys2Proof.Machine
end

