-- ==== Sys2Proof/Machine/Check.lean ====
section
/-! DEFINITION. What a commit is checked for besides the budget: group by group, in the configuration it would leave (R8,
R51). Each group answers whether an absent unit is named, a parameter is out of range, a state stands in the way, or a
resource is busy. -/
namespace Sys2Proof.Machine

def inMask (m g : Nat) : Bool := m.testBit g
def oddB (c : Cfg) (p : Nat) : Bool := !c.dense && p % 2 == 1
def cfgPath (c : Cfg) (p : Nat) : List Word := (pathRegs p).map c.v
def cfgLane (c : Cfg) (k j : Nat) : List Word := (laneRegs k j).map c.v
def cfgBins (c : Cfg) (p : Nat) : Nat := binsOf (laneFft c p) (cfNco (cfgPath c p))

-- Groups 0–31 (R130, R146, R152, R168, R173)
/-- The longest usable FIR bank (R152). -/
def firMax (c : Cfg) (p : Nat) : Nat := min 256 (64 * c.r * 2 ^ cfgD c p / (if cfNco (cfgPath c p) then 2 else 1))
def firBanks (s : State) (c : Cfg) (p : Nat) : List Nat :=
  let x := s.path p
  [fld (cfFir (cfgPath c p)) 0 0] ++ (match x.fade with | some f => [f.src, f.tgt] | none => []) ++
    (match x.queued with | some b => [b.1] | none => [])
def bankLen (s : State) (p b : Nat) : Nat := if b = 0 then (s.path p).bankA.length else (s.path p).bankB.length
def pathBad (s : State) (c : Cfg) (p : Nat) : Bool :=
  let g := cfgPath c p
  let k := fld (cfDcb g) 12 8
  let kb := fld (cfBlk g) 15 8
  decide (k < 8 ∨ 30 < k) || decide (kb < 8 ∨ 128 < kb) || fld (cfBlk g) 1 0 == 3 || fld (cfPh g) 17 16 == 3 ||
  decide (10 < cfD g) || (oddB c p && cfEn g) || (!c.dense && bit (cfCtrl g) 6) ||
  (cfFirEn g && (firBanks s c p).any (fun b => decide (firMax c p < bankLen s p b)))
def coresOf (c : Cfg) (p : Nat) : List Nat := if c.dense then [p] else [p, p + 1]
def pathState (s : State) (o n : Cfg) (p : Nat) : Bool :=
  (cfNco (cfgPath o p) != cfNco (cfgPath n p) && bit (o.v (SLC_LCTRL (p / 2) (p % 2))) 0) ||
  (!pathOn o p && pathOn n p && (coresOf n p).any (fun c => (s.core c).down))
def pathBusy (s : State) (o n : Cfg) (p : Nat) : Bool := !pathOn o p && pathOn n p && fgRunning s (p / 8)

-- Groups 32–47 (R169, R171, R176, R181, R184, R186, R188, R199)
def traceBad (w : Word) : Bool :=
  let m := trMode w
  decide (8 ≤ m) || (decide (m = 1 ∨ m = 2) && trK w != 1) || (bit w 27 && decide (m = 6 ∨ m = 7)) ||
  (trHold w && !decide (m = 6 ∨ m = 7)) || (bit w 27 && decide (fld w 26 22 < 1 ∨ 16 < fld w 26 22))
def winInfoOf (s : State) (k b : Nat) : Word := s.rd (if b = 0 then SLC_WININFO_A k else SLC_WININFO_B k)
def laneBad (s : State) (c : Cfg) (k j : Nat) : Bool :=
  let g := cfgLane c k j
  let f := lcFft g
  let w := fld (lcRank g) 4 0
  let wi := winInfoOf s k (fftBank f)
  decide (1 ≤ fld f 3 0 ∧ fld f 3 0 < 9) || decide (fftOvl f < -2 ∨ 4 < fftOvl f) || decide (5 < fftWin f) || fftPfb f == 3 || fld f 11 10 == 3 ||
  (fftWin f == 5 && bit wi 31 && 2 ^ fld wi 29 25 != fftM f) ||
  w % 2 == 0 || decide (w < 3) || (bit (lcRank g) 8 && decide (15 < w)) ||
  decide (4 < fld (lcPeak g) 14 12) || decide (fld (lcPeak g) 6 0 < 1 ∨ 64 < fld (lcPeak g) 6 0) ||
  decide (4 < fld (lcMerge g) 30 28) || decide (fld (lcMerge g) 22 16 < 1 ∨ 64 < fld (lcMerge g) 22 16) ||
  decide (fld (lcMerge g) 10 0 < 1 ∨ 1024 < fld (lcMerge g) 10 0) || decide (4 < fld (lcMask g) 18 16) ||
  (List.range 4).any (fun t => traceBad (lcTrace g t)) || (!c.dense && j == 1 && lcEn g)
/-- Ranges that depend on B, and so on the path's word type too. -/
def rangeBad (c : Cfg) (k j : Nat) : Bool :=
  let g := cfgLane c k j
  let b := cfgBins c (2 * k + j)
  let first := fld (lcPkRange g) 15 0
  let last := fld (lcPkRange g) 31 16
  (bit (lcCtrl g) 3 && decide (last < first ∨ b ≤ last)) ||
  (bit (lcCtrl g) 2 && decide (b < fld (lcMRange g) 15 0 + fld (lcMerge g) 10 0 * fld (lcMerge g) 22 16))
def laneState (s : State) (c : Cfg) (k j : Nat) : Bool :=
  let f := lcFft (cfgLane c k j)
  fftWin f == 5 && !bit (winInfoOf s k (fftBank f)) 31

-- Group 48 (R207, R211, R213, R215, R217)
def denOn (c : Cfg) (p : Nat) : Bool := denEn c.v p && (c.dense || p % 2 == 0)
def denPathsOn (c : Cfg) : List Nat := (List.range 32).filter (denOn c)
def denMapBad (c : Cfg) (p : Nat) : Bool :=
  let m := c.v (DEN_PMAP p)
  denOn c p && decide (cfgBins c p < dpFirst m + dpCols m * dpG m)
def denRingBad (s : State) (c : Cfg) : Bool :=
  match (denPathsOn c).getLast? with
  | none => false
  | some p =>
    let h := if c.dense then p else p / 2
    let b := baseOf c.v DEN_HBMBASE_LO DEN_HBMBASE_HI
    decide (b < HBM0 ∨ HBM_END < b + (h + 1) * fld (c.v DEN_SLOTS) 8 0 * denStride (ghost s c))
def denReadBad (s : State) (c : Cfg) : Bool :=
  decide (fld (c.v DEN_CTRL) 15 0 < readBeats (denW (ghost s c)) ((denPathsOn c).map (denCols c.v)))
def regionOn (c : Cfg) (n : Nat) : Bool := bit (c.v (DEN_RGNA n)) 31
def regionPath (c : Cfg) (n : Nat) : Nat := fld (c.v (DEN_RGNA n)) 28 24
def denRegionBad (c : Cfg) (n : Nat) : Bool :=
  let a := c.v (DEN_RGNA n)
  let b := c.v (DEN_RGNB n)
  bit a 31 && (decide (fld a 19 10 < fld a 9 0) || decide (fld b 15 8 < fld b 7 0) || oddB c (fld a 28 24))
def denPathBad (c : Cfg) (p : Nat) : Bool :=
  let g := c.v (DEN_PCFG p)
  if oddB c p then denEn c.v p
  else fld g 7 6 == 3 || (fld g 7 6 == 2 && decide (fld g 11 8 < 1 ∨ 8 < fld g 11 8))
def denBad (s : State) (c : Cfg) : Bool :=
  fld (c.v DEN_CTRL) 15 0 == 0 || decide (fld (c.v DEN_SLOTS) 8 0 < 2 ∨ 256 < fld (c.v DEN_SLOTS) 8 0) ||
  (List.range 32).any (denPathBad c) || (List.range 16).any (denRegionBad c) || denRingBad s c
def denAbsent (s : State) (c : Cfg) : Bool :=
  (List.range 32).any (fun p => denEn c.v p && !corePresent s p) ||
  (List.range 16).any (fun n => regionOn c n && !corePresent s (regionPath c n))
def denMapMoves (o n : Cfg) (p : Nat) : Bool :=
  denOn o p && denOn n p &&
    ((o.v (DEN_PCFG p) ^^^ n.v (DEN_PCFG p)) &&& 0xFFFFF030#32 != 0 || o.v (DEN_PMAP p) != n.v (DEN_PMAP p))
def denFrameMoves (o n : Cfg) (p : Nat) : Bool := denOn o p && denOn n p && fftN (laneFft o p) != fftN (laneFft n p)
/-- The path's final readout is pending or running (R213). -/
def denFinalPending (s : State) (p : Nat) : Bool :=
  s.denWait.any (fun f => f.finals.contains p) || (match s.denRun with | some f => f.finals.contains p | none => false)
def denBusy (s : State) (o n : Cfg) : Bool := (List.range 32).any (fun p => !denOn o p && denOn n p && denFinalPending s p)

-- Group 49 (R219, R223, R226)
def corrOn (c : Cfg) : Bool := bit (c.v CORR_CTRL) 0
def corrRingBad (c : Cfg) : Bool :=
  let n := (prPaths c.prof).length
  let stride := cdiv (0x5000 + 8 * (n * (n + 1) / 2) * prCount c.prof) 0x1000 * 0x1000
  let b := baseOf c.v CORR_HBMBASE_LO CORR_HBMBASE_HI
  decide (b < HBM0 ∨ HBM_END < b + fld (c.v CORR_SLOTS) 8 0 * stride)
def corrBad (c : Cfg) : Bool :=
  let ip := fld (c.v CORR_IPER) 24 0
  decide (ip < 2500 ∨ 16777216 < ip) || decide (fld (c.v CORR_SLOTS) 8 0 < 2 ∨ 256 < fld (c.v CORR_SLOTS) 8 0) ||
  (corrOn c && prCorr c.prof &&
    (corrRingBad c ||
      (match prPaths c.prof with
       | p :: t => t.any (fun x => cfNco (cfgPath c x) != cfNco (cfgPath c p)) ||
          (p :: t).any (fun x => decide (cfgBins c x < prFirst c.prof + prCount c.prof))
       | [] => false)))
/-- A lane's anchor after a series of configurations, each with the beat it takes effect in (R172). -/
def anchorAfter (p : Nat) : Nat → Cfg → List (Nat × Cfg) → Nat
  | a, _, [] => a
  | a, o, (b, n) :: t =>
    let moved := framesChange o n (p / 2) || (!laneOn o (p / 2) (p % 2) && laneOn n (p / 2) (p % 2))
    anchorAfter p (if moved then b else a) n t
def corrAnchorsDiffer (s : State) (c0 : Cfg) (steps : List (Nat × Cfg)) (ps : List Nat) : Bool :=
  match ps.map (fun p => anchorAfter p (s.lane p).anchor c0 steps) with
  | a :: t => t.any (fun x => x != a)
  | [] => false
def corrState (s : State) (c0 : Cfg) (steps : List (Nat × Cfg)) (n : Cfg) : Bool :=
  let ps := prPaths n.prof
  corrOn n && (!prCorr n.prof || ps.any (fun p => !laneOn n (p / 2) (p % 2)) || corrAnchorsDiffer s c0 steps ps)
/-- What is refused while EN = 1 is in force. -/
def corrHeld (o n : Cfg) : Bool :=
  corrOn o && prCorr o.prof && (prPaths o.prof).any (fun p =>
    (laneOn o (p / 2) (p % 2) && !laneOn n (p / 2) (p % 2)) || framesChange o n (p / 2))
def corrBusy (s : State) (o n : Cfg) : Bool :=
  !corrOn o && corrOn n && (s.corrDump.isSome || (match s.corr with | some c => c.final | none => false))

-- Group 50 (R230, R233, R235, R245, R259)
def unitPath (c : Cfg) (u : Nat) : Option Nat :=
  let k := tuKind c.v u
  if k = 1 ∨ k = 2 then some (tuA c.v u)
  else if k = 3 then some (2 * tuA c.v u + tuB c.v u)
  else none
def unitAbsent (s : State) (c : Cfg) (u : Nat) : Bool :=
  let a := tuA c.v u
  match tuKind c.v u with
    | 1 => decide (a < 32) && !corePresent s a
    | 2 => decide (a < 32) && !corePresent s a
    | 3 => decide (a < 16) && !slicePresent s a
    | 7 => decide (a < 64) && !enginePresent s a
    | _ => false
def unitSourceBad (c : Cfg) (u : Nat) : Bool :=
  let a := tuA c.v u
  let b := tuB c.v u
  let x := tuC c.v u
  let par := fld (c.v (TRG_PARAM u)) 15 0
  let pathBad' (comp : Nat) : Bool := decide (32 ≤ a) || decide (2 < comp) || oddB c a || (decide (1 ≤ comp) && !cfNco (cfgPath c a))
  match tuKind c.v u with
  | 0 => false
  | 1 => pathBad' b || decide (2 < x)
  | 2 => pathBad' b || decide (1 < x) || par == 0
  | 3 => decide (16 ≤ a) || decide (1 < b) || decide (1 < x) || par == 0 || (!c.dense && b == 1)
  | 4 => decide (16 ≤ a) || decide (1 < b) || c.v (TRG_THR u) == 0
  | 5 => decide (7 < a) || decide (b < 1 ∨ 16 < b)
  | 6 => decide (32 ≤ a) || decide (2 < b)
  | 7 => decide (64 ≤ a)
  | 8 => false
  | 9 => decide (2 < b)
  | _ => true
def unitBad (c : Cfg) (u : Nat) : Bool :=
  let h := fld (c.v (TRG_HOLD u)) 24 0
  let t := c.v (TRG_TOK u)
  (tuEn c.v u && !isMaster c.v (tuMaster c.v u)) || unitSourceBad c u || h == 0 ||
    decide ((if bit (c.v (TRG_HOLD u)) 31 then 65535 else 16777216) < h) || fld t 29 28 == 3 || fld t 13 12 == 3 || fld t 11 8 == 0 ||
    decide (999999999 < (c.v (TRG_TIME_NS u)).toNat)
def trgBad (c : Cfg) : Bool :=
  allUnits.any (unitBad c) || (masters c.v).any (fun m => decide (8 < (groupOfUnit c.v m).length))
/-- A unit's registers but TRG_THR and TRG_PARAM (R259). -/
def unitFixed (c : Cfg) (u : Nat) : List Word :=
  [TRG_CTRL u, TRG_SRC u, TRG_PAT u, TRG_CARE u, TRG_HOLD u, TRG_TOK u, TRG_TIME_NS u, TRG_TIME_SLO u, TRG_TIME_SHI u].map c.v
def groupBusy (s : State) (c : Cfg) (u : Nat) : Bool := tuEn c.v u && (s.unit (tuMaster c.v u)).st != 0
def trgState (s : State) (o n : Cfg) : Bool :=
  allUnits.any (fun u => decide (unitFixed o u ≠ unitFixed n u) && (groupBusy s o u || groupBusy s n u))

-- Group 51 (R247, R248)
def chanPaths (c : Cfg) (n : Nat) : List Nat := if carKind c.v n < 2 then bitList 32 (carPathsOf c.v n) else [carPath c.v n]
/-- The channel's source is enabled. -/
def chanSource (c : Cfg) (n : Nat) : Bool :=
  (chanPaths c n).all (fun p => match carKind c.v n with
    | 2 => laneOn c (p / 2) (p % 2)
    | 3 => denOn c p
    | _ => pathOn c p && (c.dense || p % 2 == 0))
def chanRing (c : Cfg) (n : Nat) : Nat × Nat := (carBase c.v n, carBase c.v n + carNseg c.v n * carSegBytes c.v n)
def chanBad (s : State) (c : Cfg) (n : Nat) : Bool :=
  let g := ghost s c
  let r := chanRing c n
  let lo := HBM0 + s.rdN MEM_CARBASE * 65536
  decide (3 < carKind c.v n) || (carKind c.v n == 2 && decide (5 < carSel c.v n)) || decide (2 ^ 30 < carSegBytes c.v n) ||
  decide (65536 < carNseg c.v n) || tuMaster c.v (carTrig c.v n) != carTrig c.v n ||
  (carEn c.v n && (decide (carSegBytes c.v n < 1024) || decide (carNseg c.v n < 1) || decide (carCap g c.v n < 1) ||
    decide (carPost c.v n < 1 ∨ carCap g c.v n < carPost c.v n) || decide (4194304 < carUnitBytes g c.v n) ||
    (chanPaths c n).isEmpty || (chanPaths c n).any (oddB c) ||
    decide (r.1 < lo ∨ lo + s.rdN MEM_CARSIZE * 65536 < r.2) ||
    [0, 1, 2, 3].any (fun m => m != n && carEn c.v m && decide (r.1 < (chanRing c m).2 ∧ (chanRing c m).1 < r.2))))
def chanAbsent (s : State) (c : Cfg) (n : Nat) : Bool := carEn c.v n && (chanPaths c n).any (fun p => !corePresent s p)
def chanState51 (s : State) (o n : Cfg) (c : Nat) : Bool :=
  carEn n.v c && (!chanSource n c || (carActive (s.car c) && (carRegs c).any (fun a => o.v a != n.v a)))
/-- A commit that changes the unit bytes of a running channel, or disables its source. -/
def chanHeld (s : State) (o n : Cfg) (c : Nat) : Bool :=
  carActive (s.car c) && carEn o.v c &&
    (carUnitBytes (ghost s o) o.v c != carUnitBytes (ghost s o) n.v c || (chanSource o c && !chanSource n c) ||
      (carKind o.v c == 2 && fftPfb (laneFft o (carPath o.v c)) != fftPfb (laneFft n (carPath o.v c))) ||
      (carKind o.v c == 3 && dpG (o.v (DEN_PMAP (carPath o.v c))) != dpG (n.v (DEN_PMAP (carPath o.v c)))))

-- Group 52 (R282)
def taskBad (t : List Nat) : Bool :=
  (tasksOn t).any (fun i => decide (16 < taskPlog t i) || decide (2 ^ taskPlog t i ≤ taskPhase t i) ||
    decide (taskBudget t i < 1 ∨ 624 < taskBudget t i) || decide (13 < taskEntry t i))
def taskState (s : State) (c : Cfg) (e : Nat) : Bool :=
  let t := c.t e
  (tasksOn t).any (fun i => ppeState s e != 2 || (ppeEntry (s.ppeEng e) (taskEntry t i)).isNone ||
    decide (s.rf (PPE_CLSTAT (e / 8)) 1 0 ∈ [1, 2]))
def enginesUsed (s : State) : List Nat := (s.ppe.map Prod.fst).filter (enginePresent s)

-- Group 53 (R311, R312, R322, R327, R328, R392, R433, R435, R496, R537)
def streamKeys (s : State) : List Nat := uniq (s.strActive.map Prod.fst ++ s.strShadow.map Prod.fst)
def streamsOn (s : State) (c : Cfg) : List Nat := (streamKeys s).filter (fun n => enEn (c.e n))
def codingOk (ty cod : Nat) : Bool :=
  match ty with
  | 1 => decide (cod ≤ 4)
  | 2 => decide (cod ∈ [0, 5, 6, 7])
  | 3 => decide (cod ∈ [0, 8])
  | _ => cod == 0
/-- A product of LOG words (R312). -/
def logProduct (c : Cfg) (p product : Nat) : Bool :=
  product == 0 || (decide (2 ≤ product ∧ product ≤ 5) && trLog (c.v (SLC_LTRACE (p / 2) (p % 2) (product - 2))))
def sourceBad (c : Cfg) (e : List Byte) : Bool :=
  let src := enSource e
  let sel := enSelect e
  match enType e with
  | 1 =>
    let prod := sel % 16
    src / 2 ^ 25 != 0 || bitsOf src 7 5 != 0 || bitsOf sel 15 4 != 0 || decide (8 < prod) ||
    (decide (prod = 6 ∨ prod = 8) && enCoding e != 0) || (decide (enCoding e ∈ [1, 2, 3]) && logProduct c (src % 32) prod)
  | 2 => decide (32 ≤ src) || sel != 0
  | 3 => decide (32 ≤ src) || sel != 0
  | 4 => src != 0 || sel != 0
  | 5 => decide (16 ≤ sel)
  | 6 => decide (4 ≤ src) || sel != 0
  | 7 => !(decide (1 ≤ src ∧ src < 16) || src == 256 || src == 512) || decide (65536 ≤ sel) || sel == 0
  | 8 => if sel.testBit 31 then decide (4 ≤ src) || sel != 2 ^ 31 else decide (17 ≤ src) || decide (65536 ≤ sel) || sel == 0
  | 9 => src != 0 || decide (65536 ≤ sel) || sel == 0
  | 10 => false
  | _ => decide (4 ≤ src) || decide (65536 ≤ sel)
def everyBad (e : List Byte) : Bool :=
  let v := u16 e 16
  match enType e with
  | 1 => v == 0
  | 2 => decide (v < 1 ∨ 256 < v)
  | _ => v != 1
def udpRoom (s : State) (e : List Byte) : Nat :=
  match dgIf s e with
  | some i => (ifOf s (dgPort e) i).mtu - (if dgV6 e then 48 else 28)
  | none => 0
def udpDestBad (s : State) (e : List Byte) : Bool :=
  decide (ethPorts s ≤ dgPort e) || decide (u8 e 33 ≠ 4 ∧ u8 e 33 ≠ 6) || decide (64 ≤ u8 e 34) || !zeroAt e 35 1 ||
  (u16 e 36).testBit 12 || !zeroAt e 42 6 || (!dgV6 e && !zeroAt e 52 12) || decide (udpRoom s e < 64 + enMaxrec e) ||
  (match dgIf s e with
   | some i => if dgV6 e then (ifOf s (dgPort e) i).ipv6 == 0 else (ifOf s (dgPort e) i).ipv4 == 0
   | none => true)
def destBad (s : State) (e : List Byte) : Bool :=
  match enDest e with
  | 0 => decide (31 < u8 e 32) || decide (u8 e 33 < 16 ∨ 32 < u8 e 33) || !zeroAt e 34 6 || u64 e 40 % 4096 != 0 ||
      u64 e 48 % 8 != 0 || !zeroAt e 56 8
  | 1 => decide (3 < u8 e 32) || !zeroAt e 33 31 || decide (2 ^ 20 - 128 < enMaxrec e)
  | 2 => udpDestBad s e
  | 3 => !zeroAt e 32 32
  | 4 => !zeroAt e 32 32
  | _ => true
def entryBad (s : State) (c : Cfg) (e : List Byte) : Bool :=
  let ty := enType e
  decide (16 ≤ u8 e 0) || !zeroAt e 15 1 || !zeroAt e 19 1 || !(decide (1 ≤ ty ∧ ty ≤ 10) || ty == 255) ||
  !codingOk ty (enCoding e) || decide (u8 e 12 < 11 ∨ 20 < u8 e 12) || decide (u8 e 13 < 6 ∨ 16 < u8 e 13) ||
  decide (127 < enChan e) || decide (31 < u8 e 18) || (ty == 2 && u16 e 20 == 0) || everyBad e ||
  (enDith e && (decide (enCoding e = 0 ∨ enCoding e = 7) || u32 e 24 == 0)) ||
  decide (enQueue e < 64 + enMaxrec e) || sourceBad c e || destBad s e
/-- The staging queues do not fit in the usable pages of the stream region (R336). -/
def stagingBad (s : State) (c : Cfg) : Bool :=
  decide (65536 * s.rdN MEM_STRSIZE < ((streamsOn s c).map (fun n => enQueue (c.e n))).foldr (· + ·) 0)
/-- What two enabled streams may not share (R312, R433, R435, R537). -/
def entryClaims (e : List Byte) : List (Nat × Nat) :=
  [(0, enChan e)] ++ (if enDest e = 0 then [(1, u8 e 32)] else []) ++
  (match enType e with
   | 255 => ([0, 1].filter (fun p => (enSource e).testBit p)).map (fun p => (2 + p, enSelect e % 65536))
   | 8 => if (enSelect e).testBit 31 then [(5, enSource e % 4)] else [(4, enSource e % 32)]
   | 9 => [(6, 0)]
   | _ => [])
def shareBad (s : State) (c : Cfg) : Bool :=
  let l := (streamsOn s c).map (fun n => entryClaims (c.e n))
  (List.range l.length).any (fun i => (nth [] l i).any (fun x => ((l.drop (i + 1)).any (fun m => m.contains x))))
def entryAbsent (s : State) (e : List Byte) : Bool :=
  (decide (enType e ∈ [1, 2, 3]) && !corePresent s (enSource e % 32)) || (enType e == 4 && !corrPresent s) ||
  (enType e == 10 && (List.range 64).any (fun g =>
    (if g < 32 then (enSource e).testBit g else (enSelect e).testBit (g - 32)) && !enginePresent s g)) ||
  (enDest e == 1 && nvmePorts s == 0)
/-- The fields of an entry but EN, IRQ, every and loff. -/
def entryFixed (e : List Byte) : List Byte := b1 (u8 e 0 / 4) ++ slice e 1 15 ++ slice e 18 10 ++ slice e 32 32
def entryState (s : State) (o n : List Byte) : Bool :=
  (enDest n == 1 && (s.volume (volumeOf n)).state != 2) || (enEn o && decide (entryFixed o ≠ entryFixed n))
/-- The channel runs a program that was not written for stream `k`. -/
def entryInUse (s : State) (k : Nat) (o n : List Byte) : Bool :=
  !enEn o && chanRuns s (enChan n) && !((s.stream k).carrying && enChan (outEntry s k) == enChan n)

-- Group 54 (R338)
def shareRange (s : State) (c : Cfg) : Bool :=
  let m := c.v MEM_SHARE
  fld m 31 24 == 0 || fld m 23 16 == 0 || decide (100 < fld m 31 24) || decide (100 < fld m 23 16) || decide (100 < fld m 15 8) ||
  (displayPresent s && decide (100 < fld m 7 0))

-- All groups of a commit
/-- Paths and slices that a mask touches. -/
def maskPaths (m : Nat) : List Nat := (List.range 32).filter (inMask m)
def maskSlices (m : Nat) : List Nat := (List.range 16).filter (fun k => inMask m (32 + k))
def sliceTouched (m k : Nat) : Bool := inMask m (32 + k) || inMask m (2 * k) || inMask m (2 * k + 1)
def lanes2 : List Nat := [0, 1]
def commitAbsent (s : State) (n : Cfg) (m : Nat) : Bool :=
  maskAbsent s m || (inMask m 48 && denAbsent s n) || (inMask m 50 && allUnits.any (unitAbsent s n)) ||
  (inMask m 51 && [0, 1, 2, 3].any (chanAbsent s n)) ||
  (inMask m 53 && (streamsOn s n).any (fun k => entryAbsent s (n.e k)))
def commitBad (s : State) (n : Cfg) (m : Nat) : Bool :=
  (maskPaths m).any (pathBad s n) || (maskSlices m).any (fun k => lanes2.any (laneBad s n k)) ||
  (List.range 16).any (fun k => sliceTouched m k && lanes2.any (rangeBad n k)) ||
  (inMask m 48 && denBad s n) || ((inMask m 48 || inMask m 55) && denReadBad s n) ||
  (List.range 32).any (fun p => (inMask m 48 || inMask m p || inMask m (32 + p / 2)) && denMapBad n p) ||
  corrUnequal s n || (inMask m 49 && corrBad n) || (inMask m 50 && trgBad n) || (inMask m 51 && [0, 1, 2, 3].any (chanBad s n)) ||
  (inMask m 52 && (enginesUsed s).any (fun e => taskBad (n.t e))) ||
  (inMask m 53 && ((streamsOn s n).any (fun k => entryBad s n (n.e k)) || shareBad s n || stagingBad s n)) || (inMask m 54 && shareRange s n)
def commitState (s : State) (c0 o n : Cfg) (steps : List (Nat × Cfg)) (m : Nat) : Bool :=
  (maskPaths m).any (pathState s o n) || (maskSlices m).any (fun k => lanes2.any (laneState s n k)) ||
  (List.range 32).any (fun p => (inMask m 48 && denMapMoves o n p) || denFrameMoves o n p) ||
  (inMask m 49 && corrState s c0 steps n) || corrHeld o n || (inMask m 50 && trgState s o n) ||
  (inMask m 51 && [0, 1, 2, 3].any (chanState51 s o n)) || [0, 1, 2, 3].any (chanHeld s o n) ||
  (inMask m 52 && (enginesUsed s).any (taskState s n)) ||
  (inMask m 53 && (streamsOn s n).any (fun k => entryState s (o.e k) (n.e k)))
def commitBusy (s : State) (o n : Cfg) (m : Nat) : Bool :=
  (maskPaths m).any (pathBusy s o n) || (inMask m 48 && denBusy s o n) || (inMask m 49 && corrBusy s o n)
def commitInUse (s : State) (o n : Cfg) (m : Nat) : Bool :=
  inMask m 53 && (streamsOn s n).any (fun k => entryInUse s k (o.e k) (n.e k))

end Sys2Proof.Machine
end

