-- ==== Sys2Proof/Machine/Commit.lean ====
section
/-! DEFINITION. Commits and profiles (R43–R59), CNV_DIVIDE (R103), the values in force (R43, R554). -/
namespace Sys2Proof.Machine

/-- The ticket is copied at the end of the present beat: its target is the coming boundary, a next-beat one by its place and
an absolute one by its number (R45, R28). -/
def copyNow (s : State) (t : Ticket) : Bool := !t.restart && t.target == (if t.abs then nextBeat s else s.beat + 1)
/-- GLB_CMTSTAT.PENDING and BUSY (R55). -/
def showCmt (s : State) : State :=
  (s.setF GLB_CMTSTAT 20 16 s.tickets.length).setB GLB_CMTSTAT 0 (s.tickets.any (copyNow s))
/-- The reply of COMMIT after its status (R45). -/
def ticketBytes (t : Ticket) : List Byte :=
  b2 (if t.late then 1 else 0) ++ b4 t.num ++ b8 t.target ++ b8 t.arrBeat ++ b2 t.arrCyc ++ zeros 2
def ticketReply (s : State) (op : Nat) (q : Req) (st : Nat) (t : Ticket) : State := answer s op q (b2 st ++ ticketBytes t)
/-- A ticket leaves the pending set: 0 applied, 1 cancelled (R52). -/
def ticketGone (s : State) (t : Ticket) (ending : Nat) : State :=
  showCmt { s with
    tickets := s.tickets.filter (fun x => x.num != t.num), past := (⟨t, ending⟩ :: s.past).take 64,
    locked := s.locked.filter (fun g => !t.groups.testBit g) }
/-- A cancelled ticket applies nothing; a request still unanswered gets ST_STATE (R53), also when COMMIT_CANCEL withdraws it
(log 82). -/
def ticketCancel (s : State) (t : Ticket) : State :=
  let s := ticketGone s t 1
  match t.reply with
  | some (op, q) => if t.abs then s else deny s op q ST_STATE
  | none => s
def cancelTickets (s : State) (keep : Nat → Bool) : State :=
  forEach (s.tickets.filter (fun t => !keep t.num)) s (fun t s => ticketCancel s t)

-- Evaluation of a new ticket in target order (R37, R51)
/-- The configurations that a list of tickets leads through, each with its beat. -/
def cfgSteps (s : State) : Cfg → List Ticket → List (Nat × Cfg)
  | _, [] => []
  | c, t :: l => let n := applyTicket s c t; (t.target, n) :: cfgSteps s n l
/-- The first later ticket that would fail: `o` is the configuration that the tickets of earlier targets leave, `c` the one
so far, and `b` the target of the last one in it (R51, R54). -/
def laterOver (s : State) (o c : Cfg) (b : Nat) : List Ticket → Option Usage
  | [] => none
  | t :: l =>
    let o' := if t.target = b then o else c
    let n := applyTicket s c t
    let u := usage s o' n (t.gapOk || t.restart)
    if u.viol = [] then laterOver s o' n t.target l else some u
structure Trial where
  old : Cfg
  new : Cfg
  steps : List (Nat × Cfg)
  excess : Option Usage
/-- A change `f` at beat `eff`: the state it is made in, the state it leaves, and what the budget refuses. The old usage of
SLICE_TRANSITION takes the tickets of earlier target, the new one also those of the same target (R54). -/
def trial (s : State) (f : Cfg → Cfg) (eff : Nat) (gap : Bool) : Trial :=
  let l := ticketOrder s.tickets
  let base := (l.filter (fun t => decide (t.target < eff))).foldl (applyTicket s) (activeCfg s)
  let early := l.filter (fun t => decide (t.target ≤ eff))
  let o := early.foldl (applyTicket s) (activeCfg s)
  let n := f o
  let u := usage s base n gap
  ⟨o, n, cfgSteps s (activeCfg s) early ++ [(eff, n)],
    if u.viol = [] then laterOver s base n eff (l.filter (fun t => decide (eff < t.target))) else some u⟩
/-- A next-beat request in the closing window takes effect one beat later (R47). -/
def lateArrival (s : State) : Bool := decide (496 ≤ s.cyc)
def effBeat (s : State) (target : Option Nat) : Nat :=
  match target with
  | some t => t
  | none => s.beat + (if lateArrival s then 2 else 1)
/-- An absolute target that cannot be met (R48). -/
def targetBad (s : State) (target : Option Nat) : Bool :=
  match target with
  | some t => !(decide (s.beat + 1 < t) || (t == s.beat + 1 && !lateArrival s)) || decide (s.beat + 2 ^ 32 < t)
  | none => false
def ticketClash (s : State) (groups : Nat) : Bool :=
  decide (16 ≤ s.tickets.length) || s.tickets.any (fun t => t.groups &&& groups != 0)
/-- Hand a request to the commit unit: a ticket, its locks, ST_ACCEPTED for an absolute one (R46–R48). -/
def ticketAdd (s : State) (op : Nat) (q : Req) (groups : Nat) (target : Option Nat) (gap : Bool) (prof : Option (List Byte))
    (restart : Bool) : State :=
  let late := target.isNone && lateArrival s
  let t : Ticket := ⟨(s.ticketNo + 1) % 2 ^ 32, groups, effBeat s target, gap, late, target.isSome, s.beat, s.cyc, some (op, q), prof, restart⟩
  let s := { s with tickets := s.tickets ++ [t], ticketNo := t.num, locked := s.locked ++ bitList 56 groups }
  let s := forEach ((s.ppe.map Prod.fst).filter (taskHeld s)) s (fun e s => setIdleBeats s (e / 8) 0)
  let s := showCmt (if late then s.setB GLB_CMTSTAT 1 true else s)
  if t.abs then ticketReply s op q ST_ACCEPTED t else s
/-- The instant of arrival (R46). -/
def arrive (s : State) (w : At) : State := setClock { s with cyc := w.cyc % 512 } w.tclk

/-- COMMIT (R45–R51). -/
def commitTarget (p : List Byte) : Option Nat := if (u32 p 16).testBit 0 then some (u64 p 8) else none
def commitGap (p : List Byte) : Bool := (u32 p 16).testBit 1
def commitTrial (s : State) (p : List Byte) : Trial :=
  trial s (fun c => applyGroups s c (u64 p 0)) (effBeat s (commitTarget p)) (commitGap p)
def commitChecks (s : State) (p : List Byte) : List (Bool × Nat) :=
  let m := u64 p 0
  let x := commitTrial s p
  [(commitAbsent s x.new m, ST_UNIT_ABSENT),
   (m == 0 || decide (2 ^ 55 ≤ m) || decide (4 ≤ u32 p 16) || !zeroAt p 20 4 || commitBad s x.new m, ST_BAD_PARAM),
   (r503 s || targetBad s (commitTarget p) || commitState s (activeCfg s) x.old x.new x.steps m, ST_STATE),
   (ticketClash s m || ((commitTarget p).isSome && aligning s) || commitBusy s x.old x.new m, ST_BUSY),
   (commitInUse s x.old x.new m, ST_IN_USE)]
def commitEffect (s : State) (q : Req) : State :=
  let p := q.params
  match (commitTrial s p).excess with
  | some u => answer s 0x0100 q (budgetBytes u)
  | none => ticketAdd s 0x0100 q (u64 p 0) (commitTarget p) (commitGap p) none false
def execCommit (q : Req) (w : At) (s : State) : Res :=
  let s := arrive s w
  .next (command s 0x0100 q (q.params.length == 24) (commitChecks s q.params) (commitEffect s q))

-- The values in force (R43, R554)
/-- A stream entry as the last copy left it. -/
def entryCopied (s : State) (n : Nat) : List Byte := Sparse.get entryDflt (s.bt.strNext.getD s.strActive) n
/-- Words of a group in force, in ascending address or table offset. -/
def groupWords (s : State) (g : Nat) : List Word :=
  if g = 52 then (List.range 64).flatMap (fun e => (List.range 16).map (fun i => w32 (nth 0 (s.ppeEng e).table i)))
  else if g = 53 then (List.range 256).flatMap (fun n => (List.range 16).map (fun i => w32 (u32 (entryCopied s n) (4 * i))))
  else if g = 55 then (List.range 4).map (fun i => w32 (u32 s.profile (4 * i)))
  else (groupAddrs g).map (fun a => if addrAbsent s a then 0 else s.rdA a)
/-- SEC_CFGHASH (R554): firmware's hash of the values in force. -/
def cfgHash (s : State) : BitVec 256 := Config.sha256 ((List.range 56).flatMap (fun g => (groupWords s g).flatMap bw))
/-- Firmware recomputes the hash; the values take effect at beat `b`. -/
def cfgTake (s : State) (b : Nat) : State := { s with cfgBeat := b, ext := { s.ext with cfg := cfgHash s } }

-- The copy (R45, R50)
/-- A profile comes into force at beat `b` (R56). -/
def profileApply (s : State) (p : List Byte) (b : Nat) : State :=
  let e := effProfile p
  let s := { s with profile := slice p 0 16, profileBeat := b }
  let s := s.setF MEM_SHARECAP 7 0 (u8 e 5)
  forEach ((presentSlicesOf s).flatMap (fun k => [SLC_LFFT k 0, SLC_LFFT k 1])) s
    (fun a s => s.wrA a (setFld (s.rdA a) 7 4 (u8 e 2 % 16)))
/-- The groups of a mask come into force from their shadows. -/
def groupsApply (s : State) (m : Nat) : State :=
  let s := forEach ((bitList 55 m).flatMap groupAddrs) s (fun a s => s.wrA a (s.rd a))
  let s := if m.testBit 52 then { s with ppe := s.ppe.map (fun (x : Nat × PpeSt) => (x.1, { x.2 with table := x.2.shadow })) } else s
  if m.testBit 53 then { s with bt := { s.bt with strNext := some s.strShadow } } else s
/-- CAR_RATE and each channel's C as set by what is in force (R248, R255). -/
def showRate (s : State) : State :=
  forEach [0, 1, 2, 3] (s.wr CAR_RATE (w32 (carouselRate s (activeCfg s)))) (fun n s => s.wr (CAR_CHCAP n) (w32 (carCap s s.rdA n)))
/-- What a ticket's copy puts into force: a whole profile, or its groups (R45, R56). -/
def ticketSettings (s : State) (t : Ticket) (b : Nat) : State :=
  match t.profile with
  | some p => profileApply s p b
  | none => groupsApply s t.groups
/-- The groups that a commit marked GAP_OK changes (R54). -/
def gapAllow (s : State) (t : Ticket) : State :=
  if t.gapOk then { s with gapNow := s.gapNow ++ bitList 56 t.groups } else s
/-- Event 4 fires at the effective beat, and event 5 where the commit came in the closing window (R47). -/
def copyEvents (s : State) (t : Ticket) : State := { s with evtPend := s.evtPend ++ [4] ++ (if t.late then [5] else []) }
/-- The reply a next-beat ticket owes. -/
def ticketAnswer (s : State) (t : Ticket) : State :=
  match t.reply with
  | some (op, q) => if t.abs then s else ticketReply s op q ST_OK t
  | none => s
/-- One ticket's copy. Its effective beat carries the number that the coming boundary gives it (R28, R47, R55). -/
def ticketCopy (s : State) (t : Ticket) : State :=
  let b := nextBeat s
  let t := { t with target := b }
  let s := gapAllow (ticketSettings s t b) t
  ticketAnswer (showRate ((copyEvents (ticketGone (cfgTake s b) t 0) t).wr64 GLB_CMTLAST_LO b)) t
/-- In FCLK cycle 511 of the beat before, every ticket due at the coming boundary is copied (R45). -/
def copyDue (s : State) : List Ticket := s.tickets.filter (copyNow s)
def execCommitCopy (s : State) : Res := .next (forEach (ticketOrder (copyDue s)) s (fun t s => ticketCopy s t))

-- COMMIT_STATUS and COMMIT_CANCEL (R52)
def findTicket (s : State) (n : Nat) : Option (Ticket × Nat) :=
  match s.tickets.find? (fun t => t.num == n) with
  | some t => some (t, 3)
  | none => (s.past.find? (fun x => x.t.num == n)).map (fun x => (x.t, x.ending))
def execCommitStatus (q : Req) (s : State) : Res :=
  .next (command s 0x0101 q (q.params.length == 4) [((findTicket s (u32 q.params 0)).isNone, ST_BAD_PARAM)]
    (match findTicket s (u32 q.params 0) with
     | some (t, e) => if e = 1 then deny s 0x0101 q ST_STATE else ticketReply s 0x0101 q (if e = 0 then ST_OK else ST_ACCEPTED) t
     | none => s))
/-- The cancel comes too late: in or after the closing window of beat target − 1. -/
def cancelLate (s : State) (t : Ticket) : Bool := decide (t.target ≤ s.beat) || (t.target == s.beat + 1 && lateArrival s)
def cancelEffect (s : State) (q : Req) (t : Ticket) : State :=
  let s := ticketCancel s t
  let s := match s.restart with
    | some r => if t.restart ∧ r.ticket = t.num then { s with restart := none } else s
    | none => s
  ticketReply s 0x0102 q ST_OK t
def execCommitCancel (q : Req) (w : At) (s : State) : Res :=
  let s := arrive s w
  .next (command s 0x0102 q (q.params.length == 4) [((findTicket s (u32 q.params 0)).isNone, ST_BAD_PARAM)]
    (match findTicket s (u32 q.params 0) with
     | some (t, e) => if e = 3 ∧ !cancelLate s t then cancelEffect s q t else deny s 0x0102 q ST_STATE
     | none => s))

-- Profiles (R56–R59)
def profAbsent (s : State) (p : List Byte) : Bool :=
  let e := effProfile p
  (prCorr e && (!corrPresent s || (prPaths e).any (fun x => !corePresent s x))) ||
  ((u8 e 6).testBit 0 && !displayPresent s) || ((u8 e 6).testBit 1 && nvmePorts s == 0)
def profBad (p : List Byte) : Bool :=
  let o := sext 8 (u8 p 2)
  if u8 p 0 ≠ 0 then decide (6 < u8 p 0) || !zeroAt p 1 15
  else
    decide (1 < u8 p 1) || decide (o < -2 ∨ 4 < o) || decide (1 < u8 p 3) || decide (1 < u8 p 4) || decide (40 < u8 p 5) ||
    decide (3 < u8 p 6) || !zeroAt p 7 1 ||
    (prCorr p && (decide (16 < (prPaths p).length) || decide (prCount p < 1 ∨ 4096 < prCount p) ||
      (u8 p 1 == 0 && (prPaths p).any (fun x => x % 2 == 1))))
/-- What DENSE alone may hold is enabled (R58). -/
def oddInUse (s : State) (c : Cfg) : Bool :=
  (List.range 32).any (fun p => bit (c.v (PTH_CTRL p)) 6 || (p % 2 == 1 && (pathOn c p || denEn c.v p))) ||
  (List.range 16).any (fun k => bit (c.v (SLC_LCTRL k 1)) 0) || (List.range 16).any (fun n => regionOn c n && regionPath c n % 2 == 1) ||
  allUnits.any (fun u => tuEn c.v u && (match unitPath c u with | some p => p % 2 == 1 | none => false)) ||
  [0, 1, 2, 3].any (fun n => carEn c.v n && (chanPaths c n).any (fun p => p % 2 == 1)) ||
  (streamsOn s c).any (fun k => decide (enType (c.e k) ∈ [1, 2, 3]) && enSource (c.e k) % 2 == 1)
def profCorr (p : List Byte) : Bool × List Byte := (prCorr p, slice p 8 8)
def profGroups (s : State) : Nat := 2 ^ 55 + bitsSet ((presentSlicesOf s).map (fun k => 32 + k))
def profTarget (p : List Byte) : Option Nat := if u64 p 16 = 0 then none else some (u64 p 16)
/-- A restart change: layout or power mode differs from that in force (R57). -/
def profRestart (s : State) (p : List Byte) : Bool :=
  let e := effProfile p
  (u8 e 1 == 1) != s.layoutDense || (u8 e 3 == 1) != s.coolMode
def profTrial (s : State) (p : List Byte) : Trial :=
  trial s (fun c => applyProfile s c p) (effBeat s (profTarget p)) (profRestart s p)
def profileChecks (s : State) (p : List Byte) : List (Bool × Nat) :=
  let x := profTrial s p
  let e := effProfile p
  let cs := activeCfg s :: x.steps.map Prod.snd
  [(profAbsent s p, ST_UNIT_ABSENT),
   (profBad p || corrUnequal s x.new || denReadBad s x.new || denRingBad s x.new || (corrOn x.new && corrRingBad x.new), ST_BAD_PARAM),
   (r503 s || restarting s || targetBad s (profTarget p) || (corrOn (activeCfg s) && decide (profCorr e ≠ profCorr (profile s))) ||
      corrHeld x.old x.new || (u8 e 3 == 1 && clkSrc s == 1) ||
      (s.layoutDense && u8 e 1 == 0 && (cs.dropLast.any (oddInUse s) || (laterCfgs x).any (oddInUse s))), ST_STATE),
   (ticketClash s (profGroups s) || (profRestart s p && anyFg s) ||
      (((profTarget p).isSome || profRestart s p) && aligning s), ST_BUSY)]
where laterCfgs (x : Trial) : List Cfg := (cfgSteps s x.old (ticketOrder s.tickets)).map Prod.snd
/-- The profile's O in the shadows of every present slice (R56). -/
def ovlShadows (s : State) (p : List Byte) : State :=
  forEach ((presentSlicesOf s).flatMap (fun k => [SLC_LFFT k 0, SLC_LFFT k 1])) s
    (fun a s => s.wr a (setFld (s.rd a) 7 4 (u8 (effProfile p) 2 % 16)))
def profileEffect (s : State) (q : Req) : State :=
  let p := q.params
  match (profTrial s p).excess with
  | some u => answer s 0x0104 q (budgetBytes u)
  | none =>
    let r := profRestart s p
    let kind := if (u8 (effProfile p) 3 == 1) != s.coolMode then 1 else 0
    let eff := effBeat s (profTarget p)
    let s := ticketAdd (ovlShadows s p) 0x0104 q (profGroups s) (profTarget p) false (some p) r
    if r then restartBegin s kind 0x0104 q s.ticketNo (eff - 1) 0 else s
def execProfileSet (q : Req) (w : At) (s : State) : Res :=
  let s := arrive s w
  .next (command s 0x0104 q (q.params.length == 24) (profileChecks s q.params) (profileEffect s q))
def execProfileGet (q : Req) (s : State) : Res :=
  .next (command s 0x0105 q (q.params.length == 0) []
    (reply s 0x0105 q ST_OK (slice (s.profile ++ zeros 16) 0 16 ++ b8 s.profileBeat)))

-- CNV_DIVIDE (R103)
def divideTarget (p : List Byte) : Nat := u64 p 8
def divideTrial (s : State) (p : List Byte) : Usage :=
  let o := applyTickets s (activeCfg s) s.tickets
  usage s o { o with r := u8 p 0 } true
def divideChecks (s : State) (p : List Byte) : List (Bool × Nat) :=
  let t := divideTarget p
  [(!decide (u8 p 0 ∈ [1, 2, 4]) || !zeroAt p 1 7, ST_BAD_PARAM),
   (r503 s || restarting s || (t != 0 && decide (t < s.beat + 12501 ∨ s.beat + 2 ^ 32 < t)), ST_STATE),
   (anyFg s || aligning s, ST_BUSY), (decide ((divideTrial s p).viol ≠ []), ST_OVER_BUDGET)]
def divideEffect (s : State) (q : Req) : State :=
  let t := divideTarget q.params
  restartBegin s 2 0x0200 q 0 (if t = 0 then s.beat else t - 12501) t
def execCnvDivide (q : Req) (w : At) (s : State) : Res :=
  let s := arrive s w
  .next (command s 0x0200 q (q.params.length == 16) (divideChecks s q.params) (divideEffect s q))

/-- ACTIVE_READ: the spec gives no packet layout, so the row names what the request asks for: a group and the offset of a
word in it. -/
def groupAbsent (s : State) (g : Nat) : Bool := maskAbsent s (2 ^ g)
def execActiveRead (q : Req) (group word : Nat) (s : State) : Res :=
  .next (command s 0x0106 q true
    [(groupAbsent s group, ST_UNIT_ABSENT), (decide (55 < group) || decide ((groupWords s group).length ≤ word), ST_BAD_PARAM)]
    (reply s 0x0106 q ST_OK (bw (nth 0 (groupWords s group) word))))

end Sys2Proof.Machine
end

