-- ==== Sys2Proof/Machine/Display.lean ====
section
/-! DEFINITION. Display Scan-Out (R466–R484): modes and link, layers, the density layer, copies, handles and tags. -/
namespace Sys2Proof.Machine

def setDsp (s : State) (d : DspSt) : State := { s with ext := { s.ext with dsp := d } }
def State.dsp (s : State) : DspSt := s.ext.dsp
def dspVec (s : State) (v : Nat) : State := vectorIf s (s.rb DSP_CTRL 0) v
def dspLink (s : State) : Nat := s.rf DSP_STAT 1 0
/-- The engine is powered: its timing runs (R481, R502). -/
def dspAwake (s : State) : Bool := displayPresent s && !(decide (pwrState s ∈ [PS_BOOTING, PS_STANDBY, PS_HIBERNATE, PS_ENTERING, PS_LEAVING]))

-- Modes (R467, R469)
def mHact (p : List Byte) : Nat := u16 p 4
def mVact (p : List Byte) : Nat := u16 p 12
def mHtotal (p : List Byte) : Nat := u16 p 4 + u16 p 6 + u16 p 8 + u16 p 10
def mVtotal (p : List Byte) : Nat := u16 p 12 + u16 p 14 + u16 p 16 + u16 p 18
def mFlag (p : List Byte) (i : Nat) : Bool := (u16 p 20).testBit i
def mBpc (p : List Byte) : Nat := if mFlag p 3 then 10 else 8
/-- Link rate per lane in Mbit/s: RBR, HBR, HBR2, HBR3. -/
def linkMbps (r : Nat) : Nat := nth 0 [1620, 2700, 5400, 8100] r
def modeBad (p : List Byte) : Bool :=
  let lanes := u8 p 22
  decide (u32 p 0 < 25000 ∨ 600000 < u32 p 0) || !(decide (lanes ∈ [1, 2, 4])) || decide (3 < u8 p 23) || decide (32 ≤ u16 p 20) ||
  decide (lanes * linkMbps (u8 p 23) * 800 < u32 p 0 * 3 * mBpc p) || decide (3840 < mHact p) || decide (2160 < mVact p) ||
  decide (mVtotal p < mVact p + 10)
def execDspModeSet (q : Req) (s : State) : Res :=
  let p := q.params
  .next (command s 0x0C00 q (p.length == 24)
    [(!displayPresent s, ST_UNIT_ABSENT), (modeBad p, ST_BAD_PARAM), (r503 s, ST_STATE)]
    (reply (setDsp s { s.dsp with modeReq := p }) 0x0C00 q ST_ACCEPTED []))

-- Handles (R472, R479)
def fmtBytes (f : Nat) : Nat := if f ∈ [3, 4, 5] then 2 else 1
/-- Chroma plane: bytes of a row, and rows. -/
def chromaStride (b : DspBuf) : Nat := if b.fmt ∈ [0, 3, 6] then 2 * b.stride else b.stride
def chromaRows (b : DspBuf) : Nat := if b.fmt ∈ [2, 5] then b.h / 2 else b.h
def bufEnd (b : DspBuf) : Nat :=
  if b.fmt = 7 then 0x101000
  else 0x1000 + b.stride * b.h + chromaStride b * chromaRows b + (if b.fmt = 6 then b.stride * b.h else 0)
def bufBad (s : State) (b : DspBuf) : Bool :=
  decide (7 < b.fmt) || b.addr % 4096 != 0 || !inGeneral s b.addr b.size || b.stride % 64 != 0 ||
  decide (b.stride < b.w * fmtBytes b.fmt) || decide (b.size < bufEnd b) || (decide (b.fmt ∈ [2, 5]) && b.h % 2 == 1) ||
  (decide (b.fmt ∈ [1, 2, 4, 5]) && b.w % 2 == 1)
def bufOf (s : State) (h : Nat) : Option DspBuf := Sparse.get (fun _ => none) (s.dsp.bufs.map (fun p => (p.1, some p.2))) h
/-- A handle no buffer has: the part's own number. -/
def newHandle (s : State) : Nat :=
  let h := s.fresh % 2 ^ 32
  if (bufOf s h).isNone then h else ((List.range 65).find? (fun k => (bufOf s k).isNone)).getD 0
def execDspBufReg (q : Req) (s : State) : Res :=
  let p := q.params
  let b : DspBuf := ⟨u64 p 0, u32 p 8, u8 p 12, u16 p 14, u16 p 16, u16 p 18, w32 (u32 p 20), !isNet q.src⟩
  .next (command s 0x0C01 q (p.length == 24)
    [(!displayPresent s, ST_UNIT_ABSENT), (!zeroAt p 13 1 || bufBad s b, ST_BAD_PARAM), (decide (64 ≤ s.dsp.bufs.length), ST_BUSY)]
    (let h := newHandle s
     let s := s.useFree
     reply (setDsp s { s.dsp with bufs := Sparse.ins s.dsp.bufs h b }) 0x0C01 q ST_OK (b4 h)))
def layerOn (v : Nat → Word) (n : Nat) : Bool := bit (v (DSP_LCTRL n)) 31
def layerHandle (v : Nat → Word) (n : Nat) : Nat := (v (DSP_LHANDLE n)).toNat
def namedBy (v : Nat → Word) (h : Nat) : Bool := (List.range 3).any (fun n => layerOn v n && layerHandle v n == h)
def handleInUse (s : State) (h : Nat) : Bool :=
  namedBy s.rdA h || (s.rb DSP_CMT 0 && namedBy s.rd h) || (s.dsp.rend.isSome && layerHandle s.rdA 0 == h)
def freeHandle (s : State) (h : Nat) : State := setDsp s { s.dsp with bufs := Sparse.del s.dsp.bufs h }
def execDspBufFree (q : Req) (s : State) : Res :=
  let h := u32 q.params 0
  .next (command s 0x0C02 q (q.params.length == 4)
    [(!displayPresent s, ST_UNIT_ABSENT), ((bufOf s h).isNone, ST_BAD_PARAM), (handleInUse s h, ST_IN_USE)]
    (reply (freeHandle s h) 0x0C02 q ST_OK []))

-- Copies (R477, R478)
def dspFrame (s : State) : Nat := s.rd64 DSP_FRAME_LO
/-- A change ends the stretch of a frame at the next line boundary past the nominal lines; the copy follows 8 lines later. -/
def endStretch (s : State) : State :=
  let d := s.dsp
  if s.rb DSP_STAT 9 then
    let s := s.setB DSP_STAT 9 false
    if d.copied then s else setDsp s { d with vtot := min d.vtot (max (d.line + 1) (mVtotal d.mode) + 16) }
  else s
/-- GO is set: late when it lands in the copy cycle or after it. -/
def askCopy (s : State) : State :=
  let s := endStretch (s.setB DSP_CMT 0 true)
  if s.dsp.copied then dspVec (s.setB DSP_STAT 3 true) 290 else s
def execDspCommit (q : Req) (s : State) : Res :=
  .next (command s 0x0C03 q (q.params.length == 0) [(!displayPresent s, ST_UNIT_ABSENT), (r503 s, ST_STATE)]
    (let s := askCopy s
     setDsp s { s.dsp with waiting := s.dsp.waiting ++ [q] }))
/-- A write of DSP_CMT. -/
def dspCmtWrite (s : State) (v : Word) : State :=
  if displayPresent s then
    let s := if bit v 1 then endStretch (setDsp s { s.dsp with dirty := true }) else s
    if bit v 0 then askCopy s else s
  else s
def execDspCmtGo (v : Word) (s : State) : Res := .next (dspCmtWrite s (putBit v 0 true))
def execDspCmtDirty (v : Word) (s : State) : Res := .next (dspCmtWrite s (putBit v 1 true))
def dspShadows : List Nat := [DSP_BG, DSP_L0SRC] ++ (List.range 3).flatMap (fun n => [DSP_LCTRL n, DSP_LPOS n, DSP_LHANDLE n])
def copyBad (s : State) : Bool := (List.range 3).any (fun n => layerOn s.rd n && (bufOf s (layerHandle s.rd n)).isNone)
def replyAll (s : State) (op : Nat) (st : Nat) (rest : List Byte) (l : List Req) : State := forEach l s (fun q s => reply s op q st rest)
/-- The whole copy of a requested GO, or its refusal; answers whether it took place. With a mode change at the same copy point
the frames count from the black one, frame 0 (R481, R483). -/
def doCopy (s : State) : State × Bool :=
  if !s.rb DSP_CMT 0 then (s, false)
  else
    let l := s.dsp.waiting
    let s := (setDsp s { s.dsp with waiting := [] }).setB DSP_CMT 0 false
    if copyBad s then (replyAll (dspVec (s.setB DSP_STAT 6 true) 293) 0x0C03 ST_STATE [] l, false)
    else
      let moved := fld (s.rdA DSP_L0SRC) 4 0 != fld (s.rd DSP_L0SRC) 4 0
      let s := forEach dspShadows s (fun a s => s.wrA a (s.rd a))
      let s := if moved then
          match bufOf s (layerHandle s.rdA 0) with
          | some b => setDsp (s.hbmWrite (b.addr + 0x1000) (List.replicate 262144 255)) { s.dsp with lastSeq := none, rend := none }
          | none => setDsp s { s.dsp with lastSeq := none, rend := none }
        else s
      (replyAll s 0x0C03 ST_OK (b8 (if s.dsp.modeReq = [] then dspFrame s + 1 else 1)) l, true)

-- The density layer (R473–R475)
def slotSeq (s : State) (a : Nat) : Nat := leAt (s.hbmRead a 8) 0 8
def denSlotAddr (s : State) (p i : Nat) : Nat :=
  baseOf s.rdA DEN_HBMBASE_LO DEN_HBMBASE_HI + (denIndex s p * max 1 (fld (s.rdA DEN_SLOTS) 8 0) + i) * denStride s
/-- The newest frame of a ring that is complete and newer than the last one rendered. -/
def newestFrame (s : State) (p : Nat) : Option (Nat × Nat) :=
  (List.range (max 1 (fld (s.rdA DEN_SLOTS) 8 0))).foldl (fun (b : Option (Nat × Nat)) i =>
    let a := denSlotAddr s p i
    let q := slotSeq s a
    let new : Bool := match s.dsp.lastSeq with | some x => decide (x < q) | none => true
    let more : Bool := match b with | some y => decide (y.2 < q) | none => true
    if q ≠ 2 ^ 64 - 1 ∧ new ∧ more then some (a, q) else b) none
/-- The luma index of a count. -/
def lumaIndex (src : Word) (n : Nat) : Nat :=
  if bit src 21 then
    let e := Nat.log2 (n + 1)
    min 255 (8 * e + (n + 1) * 8 / 2 ^ e % 8)
  else min 255 (n / 2 ^ fld src 26 22)
def palY (s : State) (i : Nat) : Nat := bitsOf (s.rdN (DSP_PALY (i / 4))) (8 * (i % 4) + 7) (8 * (i % 4))
def palC (s : State) (i : Nat) : Nat × Nat := (s.rf (DSP_PALC i) 15 8, s.rf (DSP_PALC i) 7 0)
/-- Render the frame in slot `a` into a half: luma, ages, and CbCr of each block of four cells. -/
def renderL0 (s : State) (b : DspBuf) (a half : Nat) : State :=
  let src := s.rdA DSP_L0SRC
  let cols := leAt (s.hbmRead (a + 50) 2) 0 2
  let w := if (leAt (s.hbmRead (a + 44) 2) 0 2).testBit 2 then 4 else 2
  let count (x y : Nat) : Nat := if x < cols then leAt (s.hbmRead (a + 0x1000 + x * 256 * w + y * w) w) 0 w else 0
  let age (x y : Nat) : Nat :=
    if cols ≤ x then 255
    else if count x y ≠ 0 then 0 else min 255 ((Mem.get s.hbm (b.addr + 0x1000 + 1024 * y + x)).toNat + 1)
  let ys := (List.range 256).flatMap (fun y => (List.range 1024).map (fun x => w32 (palY s (lumaIndex src (count x y))) |>.setWidth 8))
  let ages := (List.range 256).flatMap (fun y => (List.range 1024).map (fun x => BitVec.ofNat 8 (age x y)))
  let cs := (List.range 128).flatMap (fun y => (List.range 512).flatMap (fun x =>
    let m := min (min (age (2 * x) (2 * y)) (age (2 * x + 1) (2 * y))) (min (age (2 * x) (2 * y + 1)) (age (2 * x + 1) (2 * y + 1)))
    b1 (palC s m).1 ++ b1 (palC s m).2))
  ((s.hbmWrite (b.addr + 0x41000 + 0x60000 * half) (ys ++ cs))).hbmWrite (b.addr + 0x1000) ages
/-- At a copy point: the render that ran becomes the half shown unless its frame has changed, and the next one begins. -/
def l0Step (s : State) : State × Bool :=
  let buf := if layerOn s.rdA 0 then bufOf s (layerHandle s.rdA 0) else none
  match buf with
  | none => (setDsp s { s.dsp with rend := none }, false)
  | some b =>
    if b.fmt ≠ 7 then (setDsp s { s.dsp with rend := none }, false)
    else
      let done := match s.dsp.rend with | some (a, q) => if slotSeq s a = q then some (a, q) else none | none => none
      let s := setDsp s { s.dsp with rend := none }
      let s := match done with
        | some (a, q) =>
          let h := 1 - s.dsp.half
          let s := renderL0 s b a h
          setDsp s { s.dsp with half := h, lastSeq := some q }
        | none => s
      (setDsp s { s.dsp with rend := newestFrame s (fld (s.rdA DSP_L0SRC) 4 0) }, done.isSome)

-- Tags (R480)
def tagBad (s : State) (b : DspBuf) : Bool :=
  decide (w32 (leAt (s.hbmRead b.addr 4) 0 4) ≠ b.tag) || poisonIn s b.addr 4 != []
def layerBuf (s : State) (n : Nat) : Option DspBuf := if layerOn s.rdA n then bufOf s (layerHandle s.rdA n) else none
def tagsBad (s : State) : List Nat :=
  (List.range 3).filter (fun n => !s.dsp.blankNow.contains n && (match layerBuf s n with | some b => tagBad s b | none => false))
def markTorn (s : State) (l : List Nat) : State :=
  if l = [] then s
  else
    let s := dspVec (s.setB DSP_STAT 5 true) 291
    let s := if s.dsp.torn then s else s.addR DSP_TORNCNT 1
    setDsp s { s.dsp with torn := true, blankNext := uniq (s.dsp.blankNext ++ l) }
/-- Reads of the tag words of the layers shown meet the poison there (R345). -/
def tagReads (s : State) : State :=
  forEach ((List.range 3).filter (fun n => !s.dsp.blankNow.contains n)) s (fun n s =>
    match layerBuf s n with
    | some b => (eccRead s b.addr 4 ⟨[], []⟩).1
    | none => s)
def eccHits (s : State) (h : EccHits) : State := forEach h.ue (forEach h.ce s (fun x s => eccCe s x)) (fun x s => eccUe s x)
/-- The tag read before prefill: a mismatch blanks the layer in the coming frame and the next. -/
def tagsStart (s : State) : State :=
  let s := setDsp s { s.dsp with blankNow := s.dsp.blankNext, blankNext := [], torn := false }
  let l := tagsBad s
  let s := markTorn (tagReads s) l
  setDsp s { s.dsp with blankNow := s.dsp.blankNow ++ l }

-- The copy point (R469, R473, R477, R478)
/-- VCLK for a pixel clock (R452): a new frequency is reached from the bypass clock (R456). -/
def vclkSet (s : State) (khz : Nat) : State :=
  if s.rf CLK_VCLK 19 0 = khz then s
  else
    let s := if s.rb CLK_BYP 11 then s else (s.setB CLK_BYP 11 true).addR CLK_BYPCNT 1
    (s.setB CLK_LOCK 11 false).wr CLK_VCLK (w32 khz)
/-- A waiting mode takes effect: its first frame is black; the link trains when its rate or lanes change or it is down. -/
def takeMode (s : State) : State :=
  let d := s.dsp
  if d.modeReq = [] then s
  else
    let same := d.mode != [] && u16 d.mode 22 == u16 d.modeReq 22
    let s := setDsp s { d with mode := d.modeReq, modeReq := [], line := 0, vtot := mVtotal d.modeReq, copied := true, fresh := true, due := true, still := 0, retrain := false }
    let s := vclkSet ((s.wr64 DSP_FRAME_LO 0).setB DSP_STAT 9 false) (u32 d.modeReq 0)
    if same && dspLink s == 2 then s else s.setF DSP_STAT 1 0 1
/-- Layers on handles of a host that is gone are disabled and the handles freed (R481). -/
def dropGone (s : State) : State :=
  let g := s.dsp.gone
  if g = [] then s
  else
    let s := forEach (List.range 3) s (fun n s =>
      let s := if layerOn s.rdA n ∧ g.contains (layerHandle s.rdA n) then s.wrA (DSP_LCTRL n) (putBit (s.rdA (DSP_LCTRL n)) 31 false) else s
      if layerOn s.rd n ∧ g.contains (layerHandle s.rd n) then s.setB (DSP_LCTRL n) 31 false else s)
    forEach g (setDsp s { s.dsp with gone := [] }) (fun h s => freeHandle s h)
def atCopy (d : DspSt) : Bool := (d.mode != [] && !d.copied && d.line + 8 == d.vtot) || (d.mode == [] && d.modeReq != [])
def copyPoint (s : State) (h : EccHits) : State :=
  let first := s.dsp.mode == []
  let s := dropGone (eccHits s h)
  let (s, copied) := doCopy s
  let (s, switched) := l0Step s
  let quiet := !copied && !switched && !s.dsp.dirty
  let s := setDsp s { s.dsp with dirty := false, still := (if quiet then s.dsp.still + 1 else 0), copied := true }
  let s := if s.dsp.retrain ∧ dspLink s = 0 ∧ s.dsp.modeReq = [] then setDsp (s.setF DSP_STAT 1 0 1) { s.dsp with retrain := false } else s
  let left := if first then 0 else s.dsp.line
  let s := takeMode s
  let s := setDsp s { s.dsp with line := left, vtot := (if s.dsp.fresh then left + 8 else s.dsp.vtot) }
  let s := if s.dsp.fresh || dspLink s != 2 then setDsp s { s.dsp with blankNow := s.dsp.blankNext, blankNext := [], torn := false }
    else tagsStart s
  dspVec s 288
def execCopyPoint (h : EccHits) (s : State) : Res := .next (if dspAwake s && atCopy s.dsp then copyPoint s h else s)

-- Scan-out (R468, R471, R476)
/-- A 10-bit pixel: Y, Cb, Cr and alpha. -/
def pix (y cb cr a : Nat) : Nat × Nat × Nat × Nat := (y, cb, cr, a)
def planeVal (s : State) (a e : Nat) : Nat := if e = 1 then 4 * (Mem.get s.hbm a).toNat else leAt (s.hbmRead a 2) 0 2 % 1024
/-- The pixel of a layer's buffer at `x`, `y`, if its buffer reaches there (R472, R474). -/
def bufPixel (s : State) (b : DspBuf) (x y : Nat) : Option (Nat × Nat × Nat × Nat) :=
  if b.fmt = 7 then
    let src := s.rdA DSP_L0SRC
    let sx := fld src 15 14 + 1
    let sy := fld src 18 16 + 1
    let a := b.addr + 0x41000 + 0x60000 * s.dsp.half
    let c := a + 0x40000 + 1024 * (y / sy / 2) + 2 * (x / sx / 2)
    if x < 1024 * sx ∧ y < 256 * sy then some (pix (planeVal s (a + 1024 * (y / sy) + x / sx) 1) (planeVal s c 1) (planeVal s (c + 1) 1) 255) else none
  else
    let e := fmtBytes b.fmt
    let base := b.addr + 0x1000
    let cx := if b.fmt ∈ [0, 3, 6] then x else x / 2
    let cy := if b.fmt ∈ [2, 5] then y / 2 else y
    let c := base + b.stride * b.h + cy * chromaStride b + 2 * e * cx
    let al := if b.fmt = 6 then (Mem.get s.hbm (base + 3 * b.stride * b.h + y * b.stride + x)).toNat else 255
    if x < b.w ∧ y < b.h then some (pix (planeVal s (base + y * b.stride + e * x) e) (planeVal s c e) (planeVal s (c + e) e) al) else none
/-- One layer over what lies below: L0 and L1 opaque, L2 blended; a blank layer is black or transparent. -/
def layOver (s : State) (under : List (Nat × Nat)) (line x n : Nat) (below : Nat × Nat × Nat × Nat) : Nat × Nat × Nat × Nat :=
  let p := s.rdA (DSP_LPOS n)
  match layerBuf s n with
  | none => below
  | some b =>
    if x < fld p 11 0 ∨ line < fld p 27 16 then below
    else
      match bufPixel s b (x - fld p 11 0) (line - fld p 27 16) with
      | none => below
      | some c =>
        let blank := s.dsp.blankNow.contains n || under.any (fun u => u.1 == n && decide (u.2 ≤ x))
        if blank then (if n = 2 then below else pix 64 512 512 255)
        else if n < 2 then c
        else
          let al := c.2.2.2
          let mix (a d : Nat) : Nat := (rdiv ((al * a + (255 - al) * d : Nat) : Int) 255).toNat
          pix (mix c.1 below.1) (mix c.2.1 below.2.1) (mix c.2.2.1 below.2.2.1) 255
/-- Conversion to the output encoding: BT.709 RGB of full range, or YCbCr passed through (R468). -/
def outPixel (p : List Byte) (c : Nat × Nat × Nat × Nat) : Nat :=
  let m : Nat := 2 ^ mBpc p - 1
  let y : Int := (c.1 : Int) - 64
  let cb : Int := (c.2.1 : Int) - 512
  let cr : Int := (c.2.2.1 : Int) - 512
  let clip (v : Int) : Nat := (clampI 0 m v).toNat
  let comps : List Nat :=
    if mFlag p 2 then
      [clip (rdiv (m * (y * 8960000 + 15748 * cr * 876)) 7848960000),
       clip (rdiv (m * (y * 64081920000 - 876 * (13397432 * cb + 33480248 * cr))) 56135761920000),
       clip (rdiv (m * (y * 8960000 + 18556 * cb * 876)) 7848960000)]
    else [c.1, c.2.1, c.2.2.1].map (fun v => if mFlag p 3 then v else min 255 ((v + 2) / 4))
  nth 0 comps 0 * 2 ^ 20 + nth 0 comps 1 * 2 ^ 10 + nth 0 comps 2
def linePixels (s : State) (under : List (Nat × Nat)) (line : Nat) : List Nat :=
  let d := s.dsp
  let bg := s.rdA DSP_BG
  (List.range (mHact d.mode)).map (fun x =>
    outPixel d.mode (if d.black then pix 64 512 512 255
      else [0, 1, 2].foldl (fun c n => layOver s under line x n c) (pix (4 * fld bg 23 16) (4 * fld bg 15 8) (4 * fld bg 7 0) 255)))
/-- Columns of a layer `w` wide that lie in the active area: what lies outside is not fetched (R471). -/
def visible (s : State) (n w : Nat) : Nat := min w (mHact s.dsp.mode - fld (s.rdA (DSP_LPOS n)) 11 0)
/-- Layers that fetch pixels of this line. -/
def fetching (s : State) (line n : Nat) : Bool :=
  !s.dsp.black && !s.dsp.blankNow.contains n && visible s n 1 == 1 && (match layerBuf s n with
    | some b => decide (fld (s.rdA (DSP_LPOS n)) 27 16 ≤ line) && decide (line < fld (s.rdA (DSP_LPOS n)) 27 16 + (if b.fmt = 7 then 256 * (fld (s.rdA DSP_L0SRC) 18 16 + 1) else b.h))
    | none => false)
def underrun (s : State) : State := report (dspVec ((s.setB DSP_STAT 4 true).addR DSP_UNDCNT 1) 292) 232 0xFFFF
def stretchedTotal (d : DspSt) : Nat := max (mVtotal d.mode) (u32 d.mode 0 * 1000 / (30 * mHtotal d.mode))
def mayStretch (s : State) : Bool := decide (120 ≤ s.dsp.still) && s.rb DSP_CTRL 1 && s.dsp.async && dspLink s == 2 &&
  !s.rb DSP_CMT 0 && !s.dsp.dirty && s.dsp.rend.isNone && s.dsp.modeReq == []
/-- The bytes of layer `n` that a line fetches (R471, R472, R474). -/
def lineRanges (s : State) (line n : Nat) : List (Nat × Nat) :=
  match layerBuf s n with
  | none => []
  | some b =>
    let y := line - fld (s.rdA (DSP_LPOS n)) 27 16
    if b.fmt = 7 then
      let r := y / (fld (s.rdA DSP_L0SRC) 18 16 + 1)
      let a := b.addr + 0x41000 + 0x60000 * s.dsp.half
      let w := cdiv (visible s n (1024 * (fld (s.rdA DSP_L0SRC) 15 14 + 1))) (fld (s.rdA DSP_L0SRC) 15 14 + 1)
      [(a + 1024 * r, w), (a + 0x40000 + 1024 * (r / 2), 2 * cdiv w 2)]
    else
      let base := b.addr + 0x1000
      let c := base + b.stride * b.h
      let w := visible s n b.w
      let cw := if b.fmt ∈ [0, 3, 6] then w else cdiv w 2
      [(base + y * b.stride, w * fmtBytes b.fmt), (c + (if b.fmt ∈ [2, 5] then y / 2 else y) * chromaStride b, 2 * fmtBytes b.fmt * cw)] ++
        (if b.fmt = 6 then [(base + 3 * b.stride * b.h + y * b.stride, w)] else [])
/-- The fetch of a line of layer `n`: poisoned pixels tear the frame and blank the layer (R345). -/
def lineRead (s : State) (h : EccHits) (line n : Nat) : State :=
  let r := lineRanges s line n
  let bad := r.any (fun x => (eccRead s x.1 x.2 h).2)
  let s := forEach r s (fun x s => (eccRead s x.1 x.2 h).1)
  if bad then markTorn s [n] else s
/-- A frame starts: black after a mode change or while the link is not up; else the layers show (R469). -/
def frameStart (s : State) : State :=
  let d := s.dsp
  let s := s.wr64 DSP_FRAME_LO ((if d.fresh then 0 else dspFrame s + 1) % 2 ^ 64)
  let hold := d.fresh || (d.due && dspLink s != 2)
  let s := setDsp s { s.dsp with line := 0, vtot := mVtotal d.mode, copied := false, fresh := false, black := hold }
  let s := if d.due && !hold && d.modeReq == [] then dspVec (setDsp (s.setB DSP_STAT 2 true) { s.dsp with due := false }) 289 else s
  if s.rb DSP_STAT 9 then
    if mayStretch s then setDsp s { s.dsp with vtot := stretchedTotal s.dsp } else s.setB DSP_STAT 9 false
  else s
def scanLine (s : State) (under : List (Nat × Nat)) (h : EccHits) : State :=
  let line := s.dsp.line
  let active := decide (line < mVact s.dsp.mode) && dspLink s == 2 && !s.dsp.fresh
  let l := if active then (List.range 3).filter (fetching s line) else []
  let u := if active then under.filter (fun u => decide (u.1 < 3) && fetching s line u.1) else []
  let r := l.flatMap (lineRanges s line)
  let out (x : Nat) : Bool := !r.any (fun y => decide (y.1 < x + 8 ∧ x < y.1 + y.2))
  let s := eccHits s ⟨h.ce.filter out, h.ue.filter out⟩
  let s := forEach l s (fun n s => lineRead s h line n)
  let s := if active then s.put (.line line (linePixels s u line)) else s
  let s := forEach (uniq (u.map Prod.fst)) s (fun _ s => underrun s)
  let s := if active && line + 1 == mVact s.dsp.mode && !s.dsp.black then markTorn (tagReads s) (tagsBad s) else s
  if line + 1 = s.dsp.vtot then frameStart s else setDsp s { s.dsp with line := line + 1 }
/-- The line ends; the copy point comes before the scan of its line. -/
def execScanoutLine (under : List (Nat × Nat)) (h : EccHits) (s : State) : Res :=
  .next (if dspAwake s && s.dsp.mode != [] && !atCopy s.dsp then scanLine s under h else s)
def execStaticRefreshStretch (s : State) : Res :=
  .next (if dspAwake s && s.dsp.mode != [] && mayStretch s && !s.rb DSP_STAT 9 && !s.dsp.copied then
    (setDsp s { s.dsp with vtot := max s.dsp.vtot (stretchedTotal s.dsp) }).setB DSP_STAT 9 true
  else s)

-- The link (R469, R470)
def linkFail (s : State) : State := report (dspVec ((s.setF DSP_STAT 1 0 0).setB DSP_STAT 7 true) 294) 233 0xFFFF
def execHpdFall (s : State) : Res := .next (if displayPresent s ∧ s.rb DSP_STAT 8 then linkFail (setDsp (s.setB DSP_STAT 8 false) { s.dsp with retrain := false }) else s)
def execHpdRise (s : State) : Res :=
  .next (if displayPresent s then setDsp (s.setB DSP_STAT 8 true) { s.dsp with retrain := (s.dsp.mode != [] && dspLink s == 0) } else s)
def execLinkTrainingEnd (ok : Bool) (adaptive : Bool) (s : State) : Res :=
  .next (if dspLink s ≠ 1 then s else if ok then setDsp (s.setF DSP_STAT 1 0 2) { s.dsp with async := adaptive } else linkFail s)

-- Commands (R482)
def palWrite (s : State) (t first : Nat) (data : List Byte) : State :=
  if t = 0 then forEach (List.range data.length) s (fun i s =>
    let k := first + i
    s.setF (DSP_PALY (k / 4)) (8 * (k % 4) + 7) (8 * (k % 4)) (u8 data i))
  else forEach (List.range (data.length / 2)) s (fun i s => s.wr (DSP_PALC (first + i)) (w32 (u16 data (2 * i))))
def execDspPalSet (q : Req) (s : State) : Res :=
  let p := q.params
  let n := u16 p 4
  .next (command s 0x0C04 q (decide (8 ≤ p.length) && p.length == 8 + n * (if u8 p 0 = 0 then 1 else 2))
    [(!displayPresent s, ST_UNIT_ABSENT),
     (decide (1 < u8 p 0) || !zeroAt p 1 1 || !zeroAt p 6 2 || decide (256 < u16 p 2 + n), ST_BAD_PARAM)]
    (reply (palWrite s (u8 p 0) (u16 p 2) (p.drop 8)) 0x0C04 q ST_OK []))
/-- `sink` is what the sink answers, if it does: for a read its bytes. -/
def execDspAux (q : Req) (sink : Option (List Byte)) (s : State) : Res :=
  let p := q.params
  let n := u8 p 1
  .next (command s 0x0C05 q (decide (6 ≤ p.length) && p.length == 6 + n)
    [(!displayPresent s, ST_UNIT_ABSENT), (decide (3 < u8 p 0) || n == 0 || decide (16 < n), ST_BAD_PARAM), (!s.rb DSP_STAT 8, ST_STATE)]
    (let s := s.put (.aux (u8 p 0) (u32 p 2) (if u8 p 0 % 2 = 1 then p.drop 6 else []))
     match sink with
     | none => deny s 0x0C05 q ST_TIMEOUT
     | some b => reply s 0x0C05 q ST_OK (if u8 p 0 % 2 = 1 then p.drop 6 else (b ++ zeros n).take n)))
def execDspStatus (q : Req) (s : State) : Res :=
  .next (command s 0x0C06 q (q.params.length == 0) [(!displayPresent s, ST_UNIT_ABSENT)]
    (reply s 0x0C06 q ST_OK ([DSP_STAT, DSP_FRAME_LO, DSP_FRAME_HI, DSP_UNDCNT, DSP_TORNCNT].flatMap (fun a => bw (s.rd a)))))

-- Other happenings (R481)
/-- The host's handles are freed at the next copy point. -/
def dspHostGone (s : State) : State :=
  setDsp s { s.dsp with gone := (s.dsp.bufs.filter (fun p => p.2.host)).map Prod.fst }
/-- STANDBY and HIBERNATE: the link idles; on return the mode is set anew. -/
def dspSleep (s : State) : State := setDsp (s.setF DSP_STAT 1 0 0) { s.dsp with retrain := false, rend := none }
def dspReturn (s : State) : State :=
  let d := s.dsp
  if d.mode = [] then s
  else setDsp s { d with mode := [], modeReq := (if d.modeReq = [] then d.mode else d.modeReq), copied := false }
/-- PORST_N, WARM_RST_N. -/
def dspReset (s : State) : State := setDsp s {}

end Sys2Proof.Machine
end

