-- ==== Sys2Proof/Machine/Monitor.lean ====
section
/-! DEFINITION. Badger Monitor Converters (R485–R499): regular and injected sequences, limits, fast watch. -/
namespace Sys2Proof.Machine

def setMon (s : State) (x : MonSt) : State := { s with ext := { s.ext with mon := x } }
def monCore (s : State) (m : Nat) : MonCore := Sparse.get (fun _ => {}) s.ext.mon.cores m
def setMonCore (s : State) (m : Nat) (c : MonCore) : State := setMon s { s.ext.mon with cores := Sparse.set (fun _ => {}) s.ext.mon.cores m c }
/-- The cores run in every state but HIBERNATE; before firmware has started they are not powered. -/
def monAwake (s : State) : Bool := decide (pwrState s ∉ [PS_BOOTING, PS_HIBERNATE])

-- Refused field values (R490, R491, R498)
def seqBad (v : Word) : Bool := decide (4 < fld v 27 25 ∨ 8 < fld v 15 12 ∨ fld v 10 0 < 4 ∨ 1024 < fld v 10 0)
def monCtrlBad (v : Word) : Bool := decide (24 < fld v 21 17)
def monInjBad (v : Word) : Bool :=
  let k := fld v 31 28
  let x := fld v 23 16
  decide (5 < k) || (k == 4 && !decide (1 ≤ x ∧ x ≤ 3)) || (k != 0 && k != 4 && decide (31 < x))
def monOwBad (v : Word) : Bool := (List.range 16).any (fun i => fld v (2 * i + 1) (2 * i) == 3)
def limBad (v : Word) : Bool := decide (20 < fld v 30 26)
def fwBad (v : Word) : Bool := decide (4 < fld v 11 9 ∨ 4 < fld v 3 1)
/-- Core registers in the order of MON_CORE_SET, each with its writable bits and its test. -/
def monRegs (m : Nat) : List (Nat × Nat × (Word → Bool)) :=
  [(MON_CTRL m, 0xEFFE0000, monCtrlBad), (MON_INJ m, 0xF0FF0000, monInjBad), (MON_OW m, 0xFFFFFFFF, monOwBad)] ++
  (List.range 16).map (fun j => (MON_RSEQ m j, 0xFFFFF7FF, seqBad)) ++ (List.range 16).map (fun j => (MON_RCAL m j, 0xFFFFFFFF, fun _ => false)) ++
  (List.range 4).map (fun j => (MON_ISEQ m j, 0xFFFFF7FF, seqBad)) ++ (List.range 4).map (fun j => (MON_ICAL m j, 0xFFFFFFFF, fun _ => false)) ++
  (List.range 4).flatMap (fun j => [(MON_LIMLO m j, 0xFCFFFFFF, limBad), (MON_LIMHI m j, 0xFFFFFF, fun _ => false)])
/-- A write of `v` to a monitor register holds a refused value and is ignored whole. -/
def monBad (a : Nat) (v : Word) : Bool :=
  if a = MON_FWCTRL then fwBad v
  else [0, 1, 2, 3].any (fun m => (monRegs m).any (fun r => r.1 == a && r.2.2 v))

-- Sequences (R489–R492)
def pairOf (m : Nat) : Nat := m / 2
def fastOn (s : State) (p : Nat) : Bool := s.rb MON_FWCTRL (31 - p)
def showMon (s : State) (m st : Nat) : State := s.setF (MON_STAT m) 31 30 st
/-- A cause of vector 296+m: bit of MON_EVTSTAT; the vector fires at the next boundary (R498). -/
def monCause (s : State) (b m : Nat) : State :=
  let s := s.setB MON_EVTSTAT (b + m) true
  if s.rb MON_IRQEN (b + m) then { s with vecPend := (296 + m) :: s.vecPend } else s
def entryRegs (s : State) (m k : Nat) : Nat × Word × Word :=
  if k < 16 then (k, s.rd (MON_RSEQ m k), s.rd (MON_RCAL m k)) else (k, s.rd (MON_ISEQ m (k - 16)), s.rd (MON_ICAL m (k - 16)))
/-- The core begins an entry. -/
def startEntry (s : State) (m k : Nat) : State :=
  showMon (setMonCore s m { monCore s m with cur := some (entryRegs s m k) }) m (if k < 16 then 1 else 2)
/-- What a core does next when no entry is in conversion: an injected sequence, the pass, fast watch or nothing. -/
def resume (s : State) (m : Nat) : State :=
  let c := monCore s m
  match c.inj with
  | some i => startEntry s m (16 + i)
  | none =>
    if fastOn s (pairOf m) then
      showMon (setMonCore s m { c with cur := none }) m (if (monCore s (if m % 2 = 0 then m + 1 else m - 1)).inj.isSome then 0 else 3)
    else
      match c.pass with
      | some k => startEntry s m k
      | none => showMon (setMonCore s m { c with cur := none }) m 0
/-- A regular pass starts: continuously, or at a boundary; a boundary that finds one running is skipped. -/
def passStart (s : State) (m : Nat) : State :=
  let c := monCore s m
  let v := s.rd (MON_CTRL m)
  let now := beatOrTick s
  if !bit v 31 ∨ fastOn s (pairOf m) ∨ (bit v 30 ∧ (now % 2 ^ fld v 21 17 ≠ 0 ∨ c.startAt = some now)) then s
  else if c.pass.isSome then
    (if bit v 30 then ((setMonCore s m { c with startAt := some now }).setB (MON_STAT m) 29 true).setF (MON_STAT m) 7 0 (min 255 (s.rf (MON_STAT m) 7 0 + 1)) else s)
  else
    let s := setMonCore s m { c with ctrl := v, pass := some 0, startAt := (if bit v 30 then some now else c.startAt) }
    if c.inj.isSome then s else resume s m
def execMonPassStart (m : Nat) (s : State) : Res := .next (if m < 4 && monAwake s then passStart s m else s)
/-- The last sample of the entry in conversion has been taken: the sequence moves on. -/
def injLen (s : State) (m : Nat) : Nat := fld (if (monCore s m).pass.isSome then (monCore s m).ctrl else s.rd (MON_CTRL m)) 23 22 + 1
def resumePair (s : State) (m : Nat) : State :=
  let o := if m % 2 = 0 then m + 1 else m - 1
  let s := resume s m
  if fastOn s (pairOf m) ∧ (monCore s m).inj.isNone ∧ (monCore s o).inj.isNone then resume s o else s
def moveOn (s : State) (m : Nat) (go : Bool) : State :=
  let c := monCore s m
  match c.cur with
  | none => s
  | some x =>
    let s := setMonCore s m { c with cur := none, flight := c.flight ++ [x] }
    let c := monCore s m
    if 16 ≤ x.1 then
      if x.1 - 16 + 1 < injLen s m then startEntry (setMonCore s m { c with inj := some (x.1 - 15) }) m (x.1 + 1)
      else
        let s := monCause (fire s (468 + m)) 4 m
        let s := setMonCore s m { monCore s m with inj := (if c.held then some 0 else none), held := false }
        resumePair s m
    else
      let last := decide (fld c.ctrl 27 24 ≤ x.1) || !s.rb (MON_CTRL m) 31
      let s := if last then monCause (fire (setMonCore s m { c with pass := none }) (464 + m)) 0 m
        else setMonCore s m { c with pass := some (x.1 + 1) }
      if go then resume s m else s

-- Results and limits (R485, R487, R488, R493)
def corrected (cal : Word) (r : Int) : Int := clampI (-(2 ^ 23 - 1)) (2 ^ 23 - 1) (rhu ((r - sext 16 (fld cal 15 0)) * (fld cal 31 16 : Int)) 14)
/-- LIMIT_VIOLATION. -/
def limits (s : State) (m src : Nat) (c : Int) : State :=
  forEach [0, 1, 2, 3] s (fun j s =>
    let lo := s.rd (MON_LIMLO m j)
    if bit lo 31 ∧ fld lo 30 26 = src ∧ (c < sext 24 (fld lo 23 0) ∨ sext 24 (s.rf (MON_LIMHI m j) 23 0) < c) then
      report (monCause (fire (s.setB MON_LIMSTAT (4 * m + j) true) (448 + 4 * m + j)) 8 m) (240 + m) m
    else s)
def monStreams (s : State) (bitNo : Nat) : List Nat := (liveStreams s 7).filter (fun n => (enSource (s.entry n)).testBit bitNo)
def resultWord (s : State) (m : Nat) (x : Nat × Word × Word) (codes : List Nat) (beat : Nat) : State :=
  let n := fld x.2.1 23 16 + 1
  let cs := ((codes ++ List.replicate n 0).take n).map (fun v => min v 16383)
  let r := rhu ((cs.foldr (· + ·) 0 : Nat) : Int) (fld x.2.1 15 12)
  let corr := decide (16 ≤ x.1) || bit x.2.1 24
  let ovr := cs.any (fun v => v == 0 || v == 16383)
  let v := if corr then corrected x.2.2 r else r
  let old := s.rd (MON_RES m x.1)
  let s := s.wr (MON_RES m x.1) (w32 ((fld old 31 28 + 1) % 16 * 2 ^ 28 + (if ovr then 2 ^ 25 else 0) + (if corr then 2 ^ 24 else 0) + lowBits 24 v))
  let s := if corr then limits s m x.1 v else s
  let item := bw (i32 v) ++ b4 (m * 2 ^ 30 + x.1 * 2 ^ 25 + (if corr then 2 ^ 24 else 0) + (if ovr then 2 ^ 23 else 0) + beat % 2 ^ 23)
  forEach (monStreams s m) s (fun n s =>
    let tm := boundaryTime s beat
    if beat < (s.stream n).since then s else addItem s n ⟨item, beat, tm.1, tm.2, 0, 0⟩)
/-- 125 ns after an entry's last sample: `codes` are its samples; `before`: the last was taken in the beat before. -/
def execMonEntryDone (m : Nat) (codes : List Nat) (before : Bool) (s : State) : Res :=
  .next (if 4 ≤ m then s
  else
    let s := if (monCore s m).flight = [] then moveOn s m true else s
    match (monCore s m).flight with
    | [] => s
    | x :: t => resultWord (setMonCore s m { monCore s m with flight := t }) m x codes (if before then s.beat - 1 else s.beat))

-- Injection (R491, R492, R495)
/-- A fast-watch pause ends the record. -/
def fwSeal (s : State) (p : Nat) : State := forEach (monStreams s (8 + p)) s (fun n s => itemSeal s n 0)
def injectStart (s : State) (m : Nat) : State :=
  let c := monCore s m
  if c.inj.isSome then
    (if c.held then s.setF (MON_STAT m) 15 8 (min 255 (s.rf (MON_STAT m) 15 8 + 1)) else setMonCore s m { c with held := true })
  else resume (setMonCore s m { c with inj := some 0, cur := none }) m
/-- A request reaches a core and pre-empts; `last`: the conversion in progress is the last of its regular entry. -/
def injectRequest (s : State) (m : Nat) (last : Bool) : State :=
  let s := setMon s { s.ext.mon with req := s.ext.mon.req.erase m }
  let o := if m % 2 = 0 then m + 1 else m - 1
  if fastOn s (pairOf m) then
    let idle := (monCore s m).inj.isNone && (monCore s o).inj.isNone
    let s := if idle then fwSeal s (pairOf m) else s
    let s := injectStart s m
    if idle then injectStart s o else s
  else
    let s := if last ∧ (monCore s m).inj.isNone then moveOn s m false else s
    injectStart s m
def execInjectRequest (m : Nat) (last : Bool) (s : State) : Res :=
  .next (if m < 4 ∧ s.ext.mon.req.contains m ∧ monAwake s then injectRequest s m last else s)

-- Fast watch (R495, R496)
/-- A sample of core `m` of a pair; `skip` sample slots passed without one. -/
def fastSample (s : State) (m code skip : Nat) : State :=
  let p := pairOf m
  let i := Sparse.get (fun _ => 0) s.ext.mon.fwIdx p + skip
  if i % 2 ≠ m % 2 then s
  else
    let c := clampI 0 16383 (corrected (s.rd (MON_FWCAL m)) (min code 16383 : Nat))
    let s := setMon s { s.ext.mon with fwIdx := Sparse.set (fun _ => 0) s.ext.mon.fwIdx p (i + 1) }
    let s := forEach [2 * p, 2 * p + 1] s (fun k s => limits s k 20 c)
    forEach (monStreams s (8 + p)) s (fun n s =>
      let tm := boundaryTime s s.beat
      if s.beat < (s.stream n).since then s else addItem s n ⟨b2 c.toNat, s.beat, tm.1, tm.2, i, 0⟩)
def execFastWatchSample (m : Nat) (code : Nat) (skip : Nat) (s : State) : Res :=
  .next (if m < 4 ∧ fastOn s (pairOf m) ∧ (monCore s (2 * pairOf m)).inj.isNone ∧ (monCore s (2 * pairOf m + 1)).inj.isNone ∧ monAwake s then
    fastSample s m code skip
  else s)
/-- A write of MON_FWCTRL: while fast watch runs the regular sequences stand still, and restart at entry 0 afterwards. -/
def fwctrlWrite (s : State) (v : Word) : State :=
  let old := s.rd MON_FWCTRL
  let s := s.wr MON_FWCTRL (v &&& 0xC000FEFE#32)
  forEach [0, 1] s (fun p s =>
    if bit old (31 - p) = bit v (31 - p) then s
    else
      let s := if bit v (31 - p) then setMon s { s.ext.mon with fwIdx := Sparse.set (fun _ => 0) s.ext.mon.fwIdx p 0 } else fwSeal s p
      forEach [2 * p, 2 * p + 1] s (fun m s =>
        let c := monCore s m
        let s := setMonCore s m { c with pass := c.pass.map (fun _ => 0) }
        if c.inj.isSome then s else resume (setMonCore s m { monCore s m with cur := none }) m))

-- Commands (R497)
def monWords (p : List Byte) (m : Nat) : List ((Nat × Nat × (Word → Bool)) × Word) :=
  (monRegs m).zipIdx.map (fun (r : (Nat × Nat × (Word → Bool)) × Nat) => (r.1, w32 (u32 p (4 + 4 * r.2))))
def execMonCoreSet (q : Req) (s : State) : Res :=
  let p := q.params
  let ws := monWords p (u8 p 0)
  .next (command s 0x0D00 q (p.length == 208)
    [(decide (3 < u8 p 0) || !zeroAt p 1 3 || ws.any (fun r => r.1.2.2 r.2 || r.2 &&& ~~~ w32 r.1.2.1 != 0), ST_BAD_PARAM)]
    (reply (forEach ws s (fun r s => s.wr r.1.1 r.2)) 0x0D00 q ST_OK []))
def execMonInject (q : Req) (s : State) : Res :=
  .next (command s 0x0D01 q (q.params.length == 4) [(decide (16 ≤ u32 q.params 0), ST_BAD_PARAM)]
    (reply (setMon s { s.ext.mon with req := s.ext.mon.req ++ bitList 4 (u32 q.params 0) }) 0x0D01 q ST_OK []))
def execMonRead (q : Req) (s : State) : Res :=
  let m := u8 q.params 0
  .next (command s 0x0D02 q (q.params.length == 4) [(decide (3 < m) || !zeroAt q.params 1 3, ST_BAD_PARAM)]
    (reply s 0x0D02 q ST_OK (([MON_STAT m] ++ (List.range 20).map (fun k => MON_RES m k)).flatMap (fun a => bw (s.rd a)))))
def execMonFwSet (q : Req) (s : State) : Res :=
  let p := q.params
  let v := w32 (u32 p 0)
  .next (command s 0x0D03 q (p.length == 20) [(fwBad v || v &&& ~~~ 0xC000FEFE#32 != 0, ST_BAD_PARAM)]
    (reply (fwctrlWrite (forEach [0, 1, 2, 3] s (fun m s => s.wr (MON_FWCAL m) (w32 (u32 p (4 + 4 * m))))) v) 0x0D03 q ST_OK []))
/-- PORST_N, WARM_RST_N; HIBERNATE turns the cores off. -/
def monClear (s : State) : State := setMon s {}
def monOff (s : State) : State := forEach [0, 1, 2, 3] (setMon s {}) (fun m s => showMon s m 0)

end Sys2Proof.Machine
end

