-- ==== Sys2Proof/Machine/Flow.lean ====
section
/-! DEFINITION. How the data path stops, runs again, is renumbered, reset and halted: restart changes (R57, R53), beat
counter loads (R28), entry to IDLE (R502, R518), RESET (R516) and the FATAL halt (R530). -/
namespace Sys2Proof.Machine

-- Renumbering: the beat counter jumps by `d`
/-- A count moved by `d`; counts do not fall below 0. -/
def shiftBy (d : Int) (n : Nat) : Nat := ((n : Int) + d).toNat
def shiftSnd {α : Type} (d : Int) (l : List (α × Nat)) : List (α × Nat) := l.map (fun (p : α × Nat) => (p.1, shiftBy d p.2))
def shiftDma (d : Int) (x : DmaSt) : DmaSt :=
  { x with waitAt := x.waitAt + d, mv := x.mv.map (fun (m : DmaMove) => { m with bucketAt := m.bucketAt + 512 * d }) }
def shiftFreq (d : Int) (u : FreqUnit) : FreqUnit :=
  let keep := !u.opened && u.abs
  { u with start := (if u.opened || u.abs then u.start else shiftBy d u.start),
           since := (if keep then u.since else shiftBy d u.since), stop := (if keep then u.stop else shiftBy d u.stop),
           endAt := u.endAt.map (shiftBy d), result := u.result.map (fun (r : FreqRes) => { r with due := shiftBy d r.due }) }
def shiftVolume (d : Int) (v : Volume) : Volume :=
  { v with chunks := v.chunks.map (fun (c : Chunk) => { c with openedAt := c.openedAt + d }) }
/-- The counts that units keep running in beats, and in ticks while FCLK is stopped (R22), follow a jump of the numbers. -/
def shiftCounts (s : State) (d : Int) : State :=
  let e := s.ext
  { s with
    dma := s.dma.map (fun (p : Nat × DmaSt) => (p.1, shiftDma d p.2)),
    volumes := s.volumes.map (fun (p : Nat × Volume) => (p.1, shiftVolume d p.2)),
    mem := { s.mem with ceSeen := s.mem.ceSeen.map (fun (c : CeSeen) => { c with beat := c.beat + d }) },
    ext := { e with
      tdc := { e.tdc with units := e.tdc.units.map (fun (p : Nat × FreqUnit) => (p.1, shiftFreq d p.2)) },
      clk := { e.clk with phases := e.clk.phases.map (fun (r : PhaseRun) => { r with at_ := r.at_ + 512 * d }) },
      mon := { e.mon with cores := e.mon.cores.map (fun (p : Nat × MonCore) => (p.1, { p.2 with startAt := none })) } } }
def shiftStream (d : Int) (back : Bool) (t : StreamSt) : StreamSt :=
  { t with grp := shiftBy d t.grp, since := (if back then 0 else t.since), irqBeat := t.irqBeat.map (shiftBy d),
           queue := t.queue.map (fun (r : QRec) => { r with sealedAt := shiftBy d r.sealedAt }) }
def shiftCar (d : Int) (x : CarSt) : CarSt :=
  { x with armAt := x.armAt.map (shiftBy d), stopAt := x.stopAt.map (shiftBy d), gapAt := shiftBy d x.gapAt }
/-- A target of the coming boundary follows the jump; one further on was given as a number and stays. -/
def shiftNext (s : State) (d : Int) (l : List (Nat × Nat)) : List (Nat × Nat) :=
  l.map (fun (r : Nat × Nat) => if r.2 ≤ s.beat + 2 then (r.1, shiftBy d r.2) else r)
/-- The counter jumps by `d` (R28, R21): what is due at a boundary still to come falls due at the same boundary under its
new number; the numbers that data carry stay. `back`: the new numbers lie below the old ones, so thresholds start at 0. -/
def renumber (s : State) (d : Int) : State :=
  let back : Bool := decide (d < 0)
  let s := shiftCounts s d
  { s with
    prods := s.prods.map (fun (p : Product) => { p with readyAt := shiftBy d p.readyAt }),
    specs := s.specs.map (fun (x : Spec) => { x with readyAt := shiftBy d x.readyAt }),
    maskRes := s.maskRes.map (fun (r : MaskRes) => { r with readyAt := shiftBy d r.readyAt }),
    conds := s.conds.map (fun (c : Cond) => { c with due := shiftBy d c.due, pos := if c.free then shiftBy d c.pos else c.pos }),
    armReq := shiftNext s d s.armReq, disReq := shiftSnd d s.disReq, forceReq := shiftSnd d s.forceReq,
    pulses := shiftSnd d s.pulses, fgStart := s.fgStart.map (fun (p : Nat × Nat) => (p.1, max 1 (shiftBy d p.2))),
    cores := s.cores.map (fun (p : Nat × CoreSt) => (p.1, { p.2 with ivlOpen := false, ivlEnd := false })),
    carIn := s.carIn.map (fun (u : CarUnit) => { u with at_ := shiftBy d u.at_ }),
    cars := s.cars.map (fun (p : Nat × CarSt) => (p.1, shiftCar d p.2)),
    tokens := s.tokens.map (fun (t : Nat × Nat × List Byte) => (t.1, shiftBy d t.2.1, t.2.2)),
    tickets := s.tickets.map (fun (t : Ticket) => if t.abs then t else { t with target := shiftBy d t.target }),
    units := s.units.map (fun (p : Nat × UnitSt) => (p.1, { p.2 with holdTo := shiftBy d p.2.holdTo, armBeat := (if back then 0 else p.2.armBeat) })),
    streams := s.streams.map (fun (p : Nat × StreamSt) => (p.1, shiftStream d back p.2)),
    masks := s.masks.map (fun (p : Nat × Mask) => (p.1, { p.2 with fromBeat := (if back then 0 else p.2.fromBeat) })) }

-- Streams at a stop (R313, R518)
/-- The record types that the data path feeds; monitor, TDC and log streams run on outside RUN. -/
def dataType (ty : Nat) : Bool := decide (ty ∈ [1, 2, 3, 4, 5, 6, 10])
/-- An output still on its way is the last of the stream and carries END (R518). -/
def endOnWay (s : State) (e : List Byte) : Bool :=
  let src := enSource e % 32
  match enType e with
  | 1 => enEvery e == 1 && (if enSelect e % 16 < 2 then s.specs.any (fun x => x.path == src)
      else s.prods.any (fun p => 2 * p.slice + p.lane == src && p.product == enSelect e % 16))
  | 3 => s.denWait.any (fun f => f.finals.contains src)
  | 4 => match s.corr with | some c => c.final | none => false
  | _ => false
/-- The enabled streams end their last record; `all`: those of every type, else those of the data path. -/
def streamsEnd (s : State) (all : Bool) : State :=
  forEach (s.strActive.map Prod.fst) s (fun n s =>
    let e := s.entry n
    if enEn e && (all || dataType (enType e)) && !endOnWay s e then streamEnd s n else s)

-- A stop at the present boundary
/-- Entry to a low-power state keeps the histograms: counting continues into them after the return (R214). -/
def denRetain (s : State) : State :=
  forEach (enabledPaths s) s (fun p s => s.setDen p { s.denOf p with on := false, keep := true, off := some 0 })
def carsStop (s : State) : State :=
  forEach [0, 1, 2, 3] s (fun c s =>
    let x := s.car c
    if carActive x || x.armAt.isSome || x.resume then
      let s := carStopNow s c 5 true
      s.setCar c { s.car c with resume := false }
    else s)
/-- The profile that a restart change of PROFILE_SET brings. -/
def restartProfile (s : State) (r : Restart) : List Byte :=
  match s.tickets.find? (fun t => t.num == r.ticket) with
  | some t => effProfile (t.profile.getD [])
  | none => profile s
def fgAll (s : State) : State :=
  forEach ((List.range 4).filter (fun q => quadPresent s q && !quadBypass s q)) s (fun q s => fgBegin s q)
/-- The calibrations of a restart change begin: at once where SCLK is not on bypass, else as it returns. -/
def calDue (s : State) (r : Restart) : State := fgAll { s with restart := some { r with cal := true } }
/-- Grid mode ends unless SCLK is the 10,240 MHz of the MDLLs (R25, R27). -/
def gridCheck (s : State) : State := if sclkMhz s = 10240 ∧ clkSrc s = 0 then s else gridEnd s
/-- What a restart change does to the clocks once the data path has stopped (R57, R129, R462). -/
def restartClocks (s : State) (r : Restart) : State :=
  let p := r.req.params
  let c := s.ext.clk
  match r.kind with
  | 1 =>
    let cool := u8 (restartProfile s r) 3 == 1
    let s := if cool then setSclk s 0 8000 [0, 0, 0, 0] else setSclk s c.src c.mhz c.refsel
    calDue (gridCheck (s.setB CLK_STAT 4 cool)) r
  | 3 =>
    let moved := decide (u8 p 0 ≠ clkSrc s ∨ u16 p 2 ≠ sclkMhz s)
    let s := setClk s { s.ext.clk with src := u8 p 0, mhz := u16 p 2, refsel := sclkRefsel p }
    let s := gridCheck (setSclk s (u8 p 0) (u16 p 2) (sclkRefsel p))
    if moved then calDue s r else s
  | _ => s
def keepRestart (s : State) (n : Nat) : Bool := match s.restart with | some r => n == r.ticket | none => false
/-- The data path has stopped for a restart change: tickets are cancelled (R53), the clocks change. -/
def restartStopped (s : State) : State :=
  match s.restart with
  | some r => if r.stopped then restartClocks (cancelTickets s (keepRestart s)) r else s
  | none => s
/-- The data path stops at the present boundary; the streams' END records follow once the lanes have closed. -/
def stopRun (s : State) : State :=
  let s := { s with running := false, bt := { s.bt with lastRun := false } }
  let s := if pwrState s = PS_ENTERING then denRetain (cancelTickets s (fun _ => false)) else denFinal s (enabledPaths s)
  restartStopped (groupsIdle (carsStop (corrFinal s)))

-- Restart changes
/-- The last beat of the old run is in progress, or past: the stop is due. -/
def restartStopDue (s : State) (r : Restart) : Bool := !r.stopped && fclkRuns s && decide (r.lastBeat ≤ s.beat)
def restartStop (s : State) (r : Restart) : State :=
  let s := { s with restart := some { r with stopped := true } }
  if s.running then { s with bt := { s.bt with lastRun := true } } else restartStopped s
/-- RESTART_STOP: the present beat is the last of the old run (R57). -/
def execRestartStop (s : State) : Res :=
  .next (match s.restart with
    | some r => if restartStopDue s r then restartStop s r else s
    | none => s)
/-- Everything of the old run has left: frames read out, the array dumped, clocks locked, calibration over. -/
def restartReady (s : State) (r : Restart) : Bool :=
  r.stopped && !s.running && !s.bt.lastRun && !(r.cal && anyFg s) && s.denWait.isEmpty && s.denRun.isNone && s.corr.isNone &&
  s.corrDump.isNone && fclkRuns s && (r.runAt == 0 || decide (r.runAt ≤ s.beat + 1)) &&
  (r.kind == 0 || r.kind == 2 || (List.range 4).all (fun q => !quadPresent s q || !quadBypass s q))
/-- CNV_STAT.ROLE of a core in the layout in force (R101). -/
def showRole (s : State) (n : Nat) : State := s.setF (CNV_STAT n) 3 2 (if s.layoutDense then 0 else 1 + n % 2)
/-- A changed layout gives every core its skew of that layout and its role (R101). -/
def layoutMoved (s : State) (moved : Bool) : State :=
  if moved then forEach (allCores s) s (fun n s => showRole (swapSkew (dropSkew s n) n) n) else s
/-- PROFILE_SET's restart: the profile comes into force with the first beat of the new run (R56, R57). -/
def restartProfileRun (s : State) (r : Restart) : State :=
  match s.tickets.find? (fun t => t.num == r.ticket) with
  | none => s
  | some t =>
    let b := nextBeat s
    let e := effProfile (t.profile.getD [])
    let dense := u8 e 1 == 1
    let moved := decide (dense ≠ s.layoutDense)
    let s := layoutMoved { s with layoutDense := dense, coolMode := u8 e 3 == 1 } moved
    let t' := { t with target := b }
    let s := ticketGone (profileApply s (t.profile.getD []) b) t' 0
    ticketAnswer (showRate ((cfgTake (copyEvents s t') b).wr64 GLB_CMTLAST_LO b)) t'
def divCode (r : Nat) : Nat := if r = 1 then 0 else if r = 2 then 1 else 2
def restartRun (s : State) (r : Restart) : State :=
  let s := match r.kind with
    | 2 => answer (s.setF GLB_BEATSTAT 9 8 (divCode (u8 r.req.params 0))) r.op r.req (b2 ST_OK ++ zeros 6 ++ b8 (nextBeat s))
    | 3 => reply s r.op r.req ST_OK (b8 (nextBeat s))
    | _ => restartProfileRun s r
  showRate { s with restart := none, bt := { s.bt with runNext := pwrState s == PS_RUN } }
/-- RESTART_RUN_START: the coming beat is the first of the new run. -/
def execRestartRunStart (s : State) : Res :=
  .next (match s.restart with
    | some r => if restartReady s r then restartRun s r else s
    | none => s)

-- Work dropped
def carsAbandon (s : State) : State :=
  forEach [0, 1, 2, 3] s (fun c s => showCar (s.setCar c {}) c)
def pulsesRelease (s : State) : State := forEach s.pulses { s with pulses := [] } (fun p s => s.put (.pin (16 + p.1) true))
def pathsOff (s : State) : State :=
  forEach (List.range 32) s (fun n s => if (s.path n).run then pathStop s n else s)
def lanesOff (s : State) : State :=
  forEach (presentSlices s) s (fun k s => forEach [0, 1] s (fun j s =>
    if (s.lane (laneKey k j)).on then
      (((s.setLane (laneKey k j) {}).setB (SLC_LWINFO k j) 31 false).setB (SLC_STAT k) j false).setB (SLC_STAT k) (4 + j) false
    else s))
/-- Outputs of beats not finished are dropped. -/
def workDrop (s : State) : State :=
  let s := lanesOff (pathsOff (pulsesRelease { s with running := false, bt := { s.bt with lastRun := false, runNext := false } }))
  { s with specs := [], prods := [], maskRes := [], carIn := [], emits := [], ppeTrig := [], figures := [], patWords := [], patHist := [],
           gapNow := [], conds := [] }
/-- The FATAL halt at the present boundary (R530). -/
def streamHalt (s : State) (n : Nat) : State :=
  let e := s.entry n
  if enType e = 9 then s
  else
    let s := { s with strActive := Sparse.set entryDflt s.strActive n (setNth e 0 (b1' (u8 e 0 - u8 e 0 % 2))) }
    s.setStream n { s.stream n with on := false, queue := [], iq := [], items := [] }
where b1' (n : Nat) : Byte := BitVec.ofNat 8 n
/-- A request that waits for a boundary or a run that no longer comes. -/
def haltReplies (s : State) : State :=
  let s := match s.pwrReply with | some (op, q, _) => deny s op q ST_FAULT | none => s
  let s := match s.restart with
    | some r =>
      match s.tickets.find? (fun (t : Ticket) => t.restart && t.num == r.ticket) with
      | some t => if t.abs then ticketGone s t 1 else deny (ticketGone s t 1) r.op r.req ST_FAULT
      | none => deny s r.op r.req ST_FAULT
    | none => s
  { s with pwrReply := none, pwrAt := none, restart := none, resetAt := none }
def haltNow (s : State) : State :=
  let s := groupsIdle (workDrop s)
  let s := carsAbandon s
  let s := forEach (s.strActive.map Prod.fst) s (fun n s => streamHalt s n)
  let s := forEach (s.ppe.map Prod.fst) s (fun e s => stopEngine s e)
  let s := dmaAbortIf s (fun n => chanRuns s n && !fwOwn s n)
  let s := dspSleep s
  let s := forEach (s.den.map Prod.fst) s (fun p s => s.setDen p { s.denOf p with on := false, fin := [], held := [] })
  let s := corrDiscard (showDen (haltReplies { s with haltDue := false, denWait := [], denRun := none }))
  (s.setF PWR_STAT 31 29 PS_HALTED).setF PWR_STAT 28 26 0

-- RESET (R516)
/-- Groups 0–54 in shadow and in force return to their reset values; a stream with staged records leaves after them. -/
def groupsReset (s : State) : State :=
  let s := { s with regs := s.regs.filter (fun (p : Nat × Word) => (groupOf p.1).isNone), active := [] }
  let s := { s with ppe := s.ppe.map (fun (p : Nat × PpeSt) => (p.1, { p.2 with shadow := [], table := [] })) }
  let left := (s.strActive.map Prod.fst).filter (fun n => (s.stream n).queue != [])
  let ents := left.map (fun n => (n, setNth (s.entry n) 0 (BitVec.ofNat 8 (u8 (s.entry n) 0 - u8 (s.entry n) 0 % 2))))
  let s := forEach (s.streams.map Prod.fst) s (fun n s => s.setStream n { s.stream n with on := false, iq := [], items := [] })
  { s with strShadow := [], strActive := ents, bt := { s.bt with strNext := none } }
/-- The IN half of an engine that is reset: a FULL one is discarded with LOST, in MBX_STAT too if the host sent it (R90). -/
def inDiscardOf (s : State) (e : Nat) : State :=
  if enginePresent s e && inFull s e then
    let host := s.rf (MBX_PESTAT e) 15 9 == 0
    let s := (setIn s e false).setB (MBX_PESTAT e) 5 true
    if host then mbxEvent s 3 (16 + e) else s
  else s
def inDiscard (s : State) : State := forEach (List.range 64) s (fun e s => inDiscardOf s e)
def resetLevel (s : State) (lvl : Nat) : State :=
  let s := if lvl = 0 then s else
    let s := forEach (List.range 64) (inDiscard (ppeResetAll s false)) (fun e s => freeLocks s (16 + e))
    { s with conds := [] }
  if lvl = 2 then groupsReset (dmaAbortIf s (fun n => chanRuns s n && !fwOwn s n)) else s
/-- A counter load that was due at this boundary does not come, nor its event 2: beat 0 begins (R28, R516). -/
def loadDrop (s : State) : State :=
  if s.time.loadTo.isNone then s
  else setTime { s with evtPend := s.evtPend.filter (fun e => e != 2) } { s.time with loadTo := none, gSum := 0, gCount := 0, gDone := none }
/-- A RESET takes effect at the present boundary, which is that of beat 0 (R516). -/
def resetNow (s : State) (lvl : Nat) : State :=
  let s := cancelTickets (loadDrop s) (fun _ => false)
  let s := workDrop s
  let s := forEach (s.strActive.map Prod.fst) s (fun n s => streamDiscard s n)
  let s := groupsIdle (carsAbandon (corrDiscard (denDiscard s)))
  let s := { s with denMarks := [], units := [], traceClr := [], gapNow := [] }
  let s := forEach (masters s.rdA) s (fun m s => showGroup s m)
  let s := forEach [0, 1, 2, 3] s (fun q s => fgAbort s q 2)
  let s := resetLevel (gridEnd (gridAbort s)) lvl
  cfgTake (showRate (s.orR PWR_RSTCAUSE (2 ^ (4 + lvl)))) s.beat

end Sys2Proof.Machine
end

