-- ==== Sys2Proof/Machine/Beat.lean ====
section
/-! DEFINITION. The beat boundary (R18–R30, R40–R42): what the beat that ends leaves, the counter, and what the new beat
begins with; tick boundaries (R22), beat marks (R30) and the SYNCIN divider reset (R454). -/
namespace Sys2Proof.Machine

-- The beat that ends
/-- OVRUN on a record that an engine handed over in a beat in which one of its tasks overran (R39). -/
def emitFlag (s : State) (e b : Nat) : Nat :=
  let p := s.ppeEng e
  if p.stopBeat = some b ∨ (p.task.isSome ∧ p.taskBeat = b) then F_OVRUN else 0
def emitsSeal (s : State) : State :=
  forEach s.emits { s with emits := [] } (fun (x : Nat × Nat × List Byte) s => emitSeal s x.1 x.2.1 x.2.2 (emitFlag s x.1 s.beat))
/-- The codes of the beat that ends are counted (R113). -/
def codesCount (s : State) (i : BeatInput) : State := forEach (allCores s) s (fun n s => coreBeat s i n)
def beatEnd (s : State) (i : BeatInput) : State :=
  let s := forEach (List.range 32) s (fun n s => pathBeat s i n)
  let s := forEach (presentSlices s) s (fun k s => sliceBeat s k)
  let s := forEach (List.range 32) s (fun n s => iqBeat s n)
  let s := patternGather (trigSamples (carBeat s i))
  gridSteps (codesCount (emitsSeal (tdcStreams (groupsClose s))) i)

-- The counter
/-- The new beat's number, the time of its boundary (R302, R409) and cycle 0. -/
def beatNumber (s : State) (n : Nat) (stamp : Int) : State :=
  let t := (((timeNow s : Int) + stamp) % timeWrap).toNat
  let s := s.wr64 GLB_BEAT_LO n
  { s with cyc := 0, beatTimes := (n, t, tflagsNow s) :: s.beatTimes, bt := { s.bt with loadAge := min 3 (s.bt.loadAge + 1) } }
/-- The boundaries on record under their new numbers too, for groups and gates that a counter load falls into. -/
def timesAgain (d : Int) (l : List (Nat × Nat × Nat)) : List (Nat × Nat × Nat) :=
  l ++ (l.filter (fun x => decide (0 ≤ (x.1 : Int) + d))).map (fun x => (shiftBy d x.1, x.2))
/-- Frames closed before a counter load keep their numbers (R28, R256). -/
def flushOld (f : Flush) : Flush := { f with old := true }
def framesOld (s : State) : State := { s with denWait := s.denWait.map flushOld, denRun := s.denRun.map flushOld }
/-- The Carousel at a counter load (R256): segments closed with END, new ones from the first new beat. -/
def carsClose (s : State) : State :=
  let s := forEach s.carIn { s with carIn := [] } (fun u s => carEnter s u)
  forEach [0, 1, 2, 3] s (fun c s =>
    let x := s.car c
    if x.st = 1 ∨ x.st = 2 then
      let s := segClose s c true
      s.setCar c { s.car c with fire := none }
    else s)
def carsAgain (s : State) : State :=
  forEach [0, 1, 2, 3] s (fun c s =>
    let x := s.car c
    if x.st = 1 ∨ x.st = 2 ∨ x.st = 3 then
      if carFull s c then carEvent (showCar (carCause (s.setCar c { x with st := 4 }) c 2) c) c 2 else segBegin s c s.beat s.beat
    else s)
/-- The counter is loaded with `k` (R28): the new number, and what waits follows it. -/
def counterLoad (s : State) (k : Nat) (stamp : Int) : State :=
  let s := carsClose s
  let d := (k : Int) - ((s.beat : Int) + 1)
  let s := framesOld (renumber s d)
  let s := beatNumber { s with beatTimes := timesAgain d s.beatTimes } k stamp
  let s := carsAgain { s with bt := { s.bt with loadAge := 0 } }
  let s := forEach (masters s.rdA) s (fun m s => if (s.unit m).st = 1 then s.setUnit m { s.unit m with armBeat := k } else s)
  setTime s { s.time with loadTo := none, gSum := 0, gCount := 0, gDone := none }

-- Overruns of hardware stages (R40–R42)
/-- OVRUN on the spectra numbered `b` of the paths `inP`, and on what was made from them alone: a consumer lacks them (R60). -/
def markLack (s : State) (inP : Nat → Bool) (b : Nat) : State :=
  { s with
    specs := s.specs.map (fun (x : Spec) => if x.beat = b ∧ inP x.path then { x with flags := x.flags ||| F_OVRUN } else x),
    prods := s.prods.map (fun (x : Product) =>
      if inP (2 * x.slice + x.lane) && decide (x.first ≤ b ∧ b ≤ x.beat) then { x with flags := x.flags ||| F_OVRUN } else x),
    lanes := s.lanes.map (fun (p : Nat × LaneSt) => if inP p.1 then
      (p.1, { p.2 with traces := p.2.traces.map (fun (x : TraceSt) =>
        if decide (0 < x.n ∧ x.first ≤ b ∧ b ≤ x.lastBeat) then { x with flags := x.flags ||| F_OVRUN } else x) })
      else p) }
/-- Spectra of the path reach trigger evaluation: a mask slot of its lane is enabled (R190), a PATTERN unit cares for its RFI
flag (R241), or a DENSITY unit compares a region of its histogram (R240). -/
def triggerPath (s : State) (p : Nat) : Bool :=
  bit (s.rdB (SLC_LMASK (p / 2) (p % 2))) 7 || bit (s.rdB (SLC_LMASK (p / 2) (p % 2))) 15 ||
  (unitsOf s 5).any (fun u => decide (5 ≤ tuA s.rdB u) && (s.rdB (TRG_CARE u)).getLsbD p) ||
  (unitsOf s 4).any (fun u => fld (s.rdB (DEN_RGNA (tuA s.rdB u))) 28 24 == p)
/-- Every output that contains data of beat `b`, two beats ago, carries OVRUN: stage `k` of GLB_OVRSTAT has not finished it;
`v` names the slices of stage 1 (R40, R60, R62). -/
def stageFlags (s : State) (v k b : Nat) : State :=
  match k with
  | 0 => markPaths s (fun _ => true) b 2 F_OVRUN
  | 1 =>
    let s := forEach ((presentSlices s).filter (fun n => v.testBit (16 + n))) s (fun n s => s.setB (SLC_STAT n) 9 true)
    markLanes s (fun p => v.testBit (16 + p / 2)) b 2 F_OVRUN
  | 2 => markLack s (fun p => countsSpec (s.denOf p)) b
  | 3 =>
    match s.corr with
    | some c => if corrTakes c then markLack { s with corr := some { c with flags := c.flags ||| F_OVRUN } } c.paths.contains b else s
    | none => s
  | 4 => markLack s (triggerPath s) b
  | _ => forEach (s.strActive.map Prod.fst) s (fun n s =>
      if enType (s.entry n) = 8 then s else flagQueue s n F_OVRUN (fun r => r.sealedAt == b))
def stageBits (v : Nat) : List Nat := [0, 1, 2, 3, 4, 6].filter (fun k => v.testBit k)
/-- The stages that have not finished beat b by the boundary of beat b+2: one report of source 64, whose
code is the bit of GLB_OVRSTAT (R534), the lowest of several. -/
def overruns (s : State) (v : Nat) : State :=
  let b := beatBack s 2
  if stageBits v = [] then s
  else report (forEach (stageBits v) s (fun k s => overrunMark (stageFlags s v k b) k b)) 64 ((stageBits v).headD 0)

-- The new beat
/-- The stream table that a copy of group 53 brought: disabled streams end, enabled ones start (R310, R313). -/
def strEnabled (l : List (Nat × List Byte)) (n : Nat) : Bool := enEn (Sparse.get entryDflt l n)
/-- A stream enabled anew leaves a channel it no longer uses. -/
def carrierLeave (s : State) (n : Nat) : State :=
  if (s.stream n).carrying && enChan (outEntry s n) != enChan (s.entry n) then carrierStop s n else s
def streamsApply (s : State) : State :=
  match s.bt.strNext with
  | none => s
  | some new =>
    let old := s.strActive
    let off := (old.map Prod.fst).filter (fun n => strEnabled old n && !strEnabled new n)
    let on := (new.map Prod.fst).filter (fun n => strEnabled new n && !strEnabled old n)
    let stay := (new.map Prod.fst).filter (fun n => strEnabled new n && strEnabled old n)
    let s := forEach off s (fun n s => streamEnd s n)
    let s := forEach off s (fun n s => s.setStream n { s.stream n with on := false })
    let s := { s with strActive := new, bt := { s.bt with strNext := none } }
    let s := forEach stay s (fun n s => s.setStream n { s.stream n with via := s.entry n })
    forEach on s (fun n s => carrierStart (streamFresh (carrierLeave s n) n) n)
/-- Units that a commit disabled leave their group; one with another source starts afresh; every group shows its state (R230, R259). -/
def unitsApply (s : State) : State :=
  let gone := allUnits.filter (fun u => tuEn s.rdB u && !tuEn s.rdA u)
  let other := allUnits.filter (fun u => tuEn s.rdA u && s.rdB (TRG_SRC u) != s.rdA (TRG_SRC u))
  let s := forEach other s (fun u s => s.setUnit u { s.unit u with prev := none, ready := true, readyF := true, run := 0, runMet := false })
  let s := forEach gone s (fun u s => ((s.setUnit u {}).wr (TRG_STAT u) 0).setB TRG_ARMSTAT u false)
  let changed := allUnits.any (fun u => s.rdB (TRG_CTRL u) != s.rdA (TRG_CTRL u))
  if changed then forEach (masters s.rdA) s (fun m s => showGroup s m) else s
/-- A Carousel channel that a commit disabled closes its segment with END and is IDLE (R256). -/
def carsApply (s : State) : State :=
  forEach [0, 1, 2, 3] s (fun c s =>
    if carEn s.rdB c && !carEn s.rdA c then
      let s := if (s.car c).st = 1 ∨ (s.car c).st = 2 then segClose s c true else s
      showCar (s.setCar c { s.car c with st := 0, armAt := none, stopAt := none, fire := none, resume := false }) c
    else s)
/-- Settings copied for this beat take effect on the paths, lanes, histograms, array, trigger units and channels. -/
def settingsEnter (s : State) (first load : Bool) : State :=
  let mv := (presentSlices s).map (fun k => (k, anchorMoves s k))
  let s := forEach (List.range 32) s (fun n s => pathEnter s n first load)
  let s := forEach mv s (fun (m : Nat × Bool) s => laneEnter (laneEnter s m.1 0 m.2) m.1 1 m.2)
  let s := tracesTaken s
  unitsApply (carsApply (corrEnter (denEnter s)))
/-- A spectrum or another product becomes ready: to the coder and the Carousel (R191, R247). -/
def specsReady (s : State) (k : Nat) : State :=
  let now := s.beat
  let s := forEach (s.specs.filter (fun x => x.readyAt == now && x.path / 2 == k)) s (fun x s =>
    let j := x.path % 2
    let lg := x.lg.map (lowBits 16)
    let s := specObject s k j 0 x.beat x.flags true lg lg.length false
    let s := specObject s k j 1 x.beat x.flags false x.pw x.pw.length false
    carSpec (carSpec s x.path 0 x.beat x.flags true lg) x.path 1 x.beat x.flags false x.pw)
  forEach (s.prods.filter (fun p => p.readyAt == now && p.slice == k)) s (fun p s =>
    let s := specObject s k p.lane p.product p.beat p.flags p.log p.values p.count p.amp
    if 2 ≤ p.product ∧ p.product ≤ 5 then carSpec s (2 * k + p.lane) p.product p.beat p.flags p.log p.values else s)
/-- Ready outputs have been taken; what PATTERN, the histograms and the array still look at stays. -/
def dropReady (s : State) : State :=
  { s with specs := s.specs.filter (fun x => decide (s.beat < x.readyAt)), prods := s.prods.filter (fun p => decide (s.beat < p.readyAt)),
           maskRes := s.maskRes.filter (fun r => decide (s.beat < r.readyAt)) }
/-- What becomes ready or is decided at the boundary. -/
def presents (s : State) (i : BeatInput) : State :=
  let s := forEach (presentSlices s) s (fun k s => specsReady (sliceReady s k) k)
  let b := beatBack s 2
  let s := corrBeat (denBeat s b) b
  let s := trigTime (trigPpe (trigPattern (trigDensity (trigMask s))))
  let s := carArmDue (carDue (carDrain s (captureShares s (activeCfg s) i.grant)))
  let s := decideAll s (i.overruns.testBit 4)
  dropReady s
/-- Events 0 and 1, and what was kept for this boundary (R29, R426). -/
def boundaryEvents (s : State) : State :=
  let due := [0] ++ (if gridOn s && s.beat % 2500000 == 0 then [1] else []) ++ s.evtPend
  let s := fireAll { s with evtPend := [] } due
  let vs := uniq s.vecPend
  forEach vs { s with vecPend := [], timeJump := 0, gapNow := [] } (fun v s => vector s v)
/-- The carriers at a boundary: chunks fill, datagrams and neighbour records leave (R325, R328, R400); carriers with nothing
left end. -/
def carrierSend (s : State) (n : Nat) : State :=
  let q := (s.stream n).queue.length
  if carries s n 2 then repeated q (fun s => datagramSend s n) s
  else if carries s n 3 then repeated q (fun s => nbrSend s n 0) s
  else if carries s n 4 then repeated q (fun s => nbrSend s n 1) s
  else s
def carriersSend (s : State) : State :=
  let s := forEach (streamsKnown s) s (fun n s => carrierSend s n)
  let s := forEach [0, 1, 2, 3] s (fun v s => volumeKeep s v)
  forEach (streamsKnown s) s (fun n s => carrierKeep s n)
/-- The boot ends: stored settings, and the time since PORST_N as TCLK counts it; with the commit of the boot profile (R512). -/
def storedSettings (s : State) : State :=
  let s := forEach s.store.ifs s (fun (p : Nat × List Byte) s => s.setEthIf p.1 (ifFrom p.2))
  match s.store.bisorPort with
  | some p => s.wr LNK_BISORPORT (w32 p)
  | none => s
def bootDone (s : State) : State :=
  if pwrState s = PS_BOOTING ∧ s.past.any (fun x => x.t.num == 0 && x.t.target == s.beat) then
    (storedSettings (s.wr PWR_BOOTTIME (w32 (s.rd64 TIM_RAW_LO / 640000)))).setF PWR_STAT 31 29 PS_RUN
  else s
/-- The part of a boundary that every kind has: counts, readouts, messages. -/
def boundaryRest (s : State) : State :=
  let s := tdcBoundary (ppeBoundary (coresBoundary s))
  let s := boundaryEvents { s with bypBeat := bypQuads s }
  let s := gridMeasure s s.beat (boundaryTime s s.beat).1
  bootDone (showCmt (carriersSend (logItems s)))

/-- The beat counter at a boundary: its next value, or the one it is loaded with. -/
def beatCount (s : State) (load : Option Nat) (stamp : Int) : State :=
  match load with
  | some k => counterLoad s k stamp
  | none => beatNumber s (s.beat + 1) stamp
/-- The data path starts with the present beat. -/
def runBegin (s : State) : State :=
  { s with running := true, runBeat := s.beat, bt := { s.bt with runNext := false } }
/-- What is in force now is what the present beat runs by. -/
def beatInForce (s : State) : State := { s with inBeat := s.active }
/-- On entry to STANDBY or HIBERNATE, calibration and alignment are aborted at the boundary at which the data path stops (R508). -/
def enteringStop (s : State) : State :=
  if pwrState s = PS_ENTERING then gridAbort (forEach [0, 1, 2, 3] s (fun q s => fgAbort s q 3)) else s
/-- The descriptors of the buffers that a boundary without outputs leaves not VALID (R192). -/
def buffersEmpty (s : State) : State := forEach (presentSlices s) s (fun k s => clearDescs s k (s.beat % 2))
/-- A boundary that stops, starts or goes on with the data path. -/
def flowBoundary (s : State) (i : BeatInput) (load : Option Nat) : State :=
  let stop := s.bt.lastRun
  let first := s.bt.runNext
  let all := match s.restart with | some r => r.stopped | none => false
  let s := { s with devIdRec := s.devId }
  let s := overruns (denAge (beatCount s load i.stamp)) i.overruns
  let s := enteringStop s
  let s := if stop then stopRun s else if first then runBegin s else s
  let s := streamsApply s
  let s := settingsEnter s first load.isSome
  let s := beatInForce (if stop then streamsEnd s all else s)
  boundaryRest (presents s i)
/-- The reply of the request whose transition or reset this was, if it came by one. -/
def pwrAnswer (s : State) (ok : Bool) (b : Nat) : State :=
  match s.pwrReply with
  | some (op, q, _) => (if ok then reply { s with pwrReply := none } op q ST_OK (b8 b) else deny { s with pwrReply := none } op q ST_FAULT)
  | none => s
/-- What a restarted beat counter leaves behind. -/
def countersFresh (s : State) : State :=
  { s with devIdRec := s.devId, beatTimes := [], resetAt := none, profileBeat := 0 }
/-- The data path as beat 0 finds it. -/
def runAnew (s : State) (run : Bool) : State :=
  { s with running := run, runBeat := 0, bt := { s.bt with runNext := false, lastRun := false, ovrs := [] } }
/-- RESET takes effect: the new beat is beat 0 (R516); `running` again as the power state has it. -/
def resetBoundary (s : State) (i : BeatInput) (lvl : Nat) : State :=
  let d := -((s.beat : Int) + 1)
  let s := countersFresh (renumber (logItems (resetNow (codesCount s i) lvl)) d)
  let s := mdllsRetry (buffersEmpty (beatNumber s 0 i.stamp))
  let run := pwrState s == PS_RUN
  pwrAnswer (boundaryRest (beatInForce (settingsEnter (runAnew s run) run false))) true 0
/-- A FATAL report stops the data path (R530). -/
def haltBoundary (s : State) (i : BeatInput) : State :=
  let s := beatCount { codesCount s i with devIdRec := s.devId } s.time.loadTo i.stamp
  boundaryRest (haltNow (beatInForce (buffersEmpty (overruns s i.overruns))))
/-- A tick boundary stands for a beat boundary in the uses that R22 lists; the counter holds. -/
def tickBoundary (s : State) (i : BeatInput) : State :=
  let s := tdcStreams (groupsClose s)
  let t := (((timeNow s : Int) + i.stamp) % timeWrap).toNat
  let s := { s with tick := s.tick + 1, devIdRec := s.devId, beatTimes := ((s.beat, t, tflagsNow s) :: s.beatTimes).take 16 }
  let s := tdcBoundary s
  let vs := uniq s.vecPend
  let s := forEach vs { s with vecPend := [], timeJump := 0 } (fun v s => vector s v)
  let s := carriersSend (logItems s)
  if s.haltDue then haltNow s else s
def boundaryGo (s : State) (i : BeatInput) : State :=
  if s.bt.porst || s.bt.off || pwrState s == PS_HIBERNATE then s
  else
  let s := setClock s i.tclk
  if !fclkRuns s then tickBoundary s i
  else
    match s.resetAt with
    | some lvl => resetBoundary s i lvl
    | none =>
      if s.haltDue then haltBoundary s i
      else flowBoundary (beatEnd s i) i s.time.loadTo
def msiNum : Out → Option Nat
  | .msi v _ _ => some v
  | _ => none
/-- A message among others, newest first, of which the highest vector is the newest; one of a vector is enough. -/
def msiIns (o : Out) : List Out → List Out
  | [] => [o]
  | x :: t => if msiNum o = msiNum x then x :: t else if (msiNum x).getD 0 < (msiNum o).getD 0 then o :: x :: t else x :: msiIns o t
/-- The messages sent since there were `n` outputs, all in one FCLK cycle: in ascending vector number, once each (R587). -/
def orderMsi (n : Nat) (s : State) : State :=
  let k := s.out.length - n
  let new := s.out.take k
  { s with out := (new.filter (fun o => (msiNum o).isSome)).foldr msiIns [] ++ new.filter (fun o => (msiNum o).isNone) ++ s.out.drop k }
def boundary (s : State) (i : BeatInput) : State := orderMsi s.out.length (boundaryGo s i)
/-- BEAT_BOUNDARY. -/
def execBeatBoundary (i : BeatInput) (s : State) : Res := .next (boundary s i)

/-- Mark `n` fires event 8+n at every beat b with b mod 2^PLOG = PHASE (R30). -/
def markDue (s : State) (n : Nat) : Bool :=
  fclkRuns s && s.rb (GLB_MARK n) 31 && s.beat % 2 ^ s.rf (GLB_MARK n) 28 24 == s.rf (GLB_MARK n) 23 0
def execBeatMark (n : Nat) (s : State) : Res := .next (if n < 8 ∧ markDue s n then fire s (8 + n) else s)

/-- Every condition of R454 beside ARM. -/
def syncinFit (s : State) : Bool :=
  pwrState s == PS_IDLE && clkSrc s == 0 && s.rf CLK_BYP 11 0 == 0 && !gridOn s && gridState s == G_OFF
/-- A SYNCIN edge: the divider reset starts a new beat (R454). -/
def syncReset (s : State) (i : BeatInput) : State :=
  let s := boundary s i
  (((s.setB CLK_SYNC 31 false).setB CLK_SYNC 16 true).setF CLK_SYNC 15 0 (s.rf CLK_SYNC 15 0 + 1))
def execSyncinEdge (rising : Bool) (i : BeatInput) (s : State) : Res :=
  .next (if !s.rb CLK_SYNC 31 || rising == s.rb CLK_SYNC 29 then s
  else if syncinFit s then syncReset s i
  else s.setB CLK_SYNC 17 true)

end Sys2Proof.Machine
end

