-- ==== Sys2Proof/Machine/Device.lean ====
section
/-! DEFINITION. Group 0x00: the device commands (R5, R75, R76). -/
namespace Sys2Proof.Machine

def execPing (q : Req) (s : State) : Res :=
  .next (command s 0x0000 q (decide (q.params.length ≤ 4068)) [] (reply s 0x0000 q ST_OK q.params))

def execDeviceIdGet (q : Req) (s : State) : Res :=
  .next (command s 0x0001 q (q.params.length == 0) []
    (reply s 0x0001 q ST_OK (b4 s.devId ++ b2 (hostEpoch s) ++ b2 (fwEpoch s))))

/-- The new id is taken after the reply (R76); with PERSIST it is stored. -/
def setDeviceId (s : State) (id : Nat) (persist : Bool) : State :=
  { s with devId := id, store := if persist then { s.store with deviceId := some id } else s.store }
def execDeviceIdSet (q : Req) (s : State) : Res :=
  let p := q.params
  .next (command s 0x0002 q (p.length == 8)
    [(decide (2 ^ 20 ≤ u32 p 0) || decide (2 ≤ u32 p 4), ST_BAD_PARAM)]
    (setDeviceId (reply s 0x0002 q ST_OK []) (u32 p 0) (u32 p 4 == 1)))

def execQueryCaps (q : Req) (s : State) : Res :=
  .next (command s 0x0003 q (q.params.length == 0) []
    (reply s 0x0003 q ST_OK (bw s.fuses.id ++ bw s.fuses.cap0 ++ bw s.fuses.cap1 ++ b4 (s.devId % 2 ^ 20) ++ b4 s.fwVersion)))

def lockWord (s : State) (n : Nat) : Nat :=
  match lockOwner s n with
  | some o => 2 ^ 31 + o
  | none => 0
def execLockPeek (q : Req) (s : State) : Res :=
  let n := u16 q.params 0
  .next (command s 0x0004 q (q.params.length == 4)
    [(decide (256 ≤ n) || !zeroAt q.params 2 2, ST_BAD_PARAM)]
    (reply s 0x0004 q ST_OK (b4 (lockWord s n))))

end Sys2Proof.Machine
end

