-- ==== Sys2Proof/Machine/Power.lean ====
section
/-! DEFINITION. Power states, start-up staggering and reset (R500–R521, R580), with the boot ROM (R543–R546) and the start of
firmware (R92, R551, R557). -/
namespace Sys2Proof.Machine

-- The boot flash (R542, R543)
def slotBase (k : Nat) : Nat := if k = 0 then 0 else 0x3000000
def slotHeader (s : State) (k : Nat) : List Byte := Mem.read s.flash (slotBase k) 836
def slotMark (s : State) (k : Nat) : Nat := leAt (Mem.read s.flash (slotBase k + 0xF00) 4) 0 4
def slotGen (s : State) (k : Nat) : Nat := leAt (Mem.read s.flash (slotBase k + 0xF04) 4) 0 4
def slotBody (s : State) (k : Nat) : List Byte := Mem.read s.flash (slotBase k + 0x1000) (u32 (slotHeader s k) 16)
def hdMark : Nat := 0x4D41524B
def hdKey (h : List Byte) : Nat := u8 h 6
def hdSvn (h : List Byte) : Nat := u32 h 8
def hdVersion (h : List Byte) : Nat := u32 h 12
def hdLength (h : List Byte) : Nat := u32 h 16
def hdDigest (h : List Byte) : List Byte := slice h 32 32
def hdExponent (h : List Byte) : Nat := u32 h 832
/-- Magic, version, reserved fields, svn and length are as R543 lays down. -/
def headerForm (h : List Byte) : Bool :=
  u32 h 0 == 0x5A574231 && u16 h 4 == 1 && u8 h 7 == 0 && zeroAt h 20 12 && decide (hdSvn h ≤ 64) &&
  decide (1 ≤ hdLength h ∧ hdLength h ≤ 50327552)
/-- A key hash: of the modulus followed by the exponent (R543). -/
def keyHash (modulus : List Byte) (exponent : Nat) : BitVec 256 := Config.sha256 (modulus ++ b4 exponent)
/-- The key that a header names is enabled and hashes to its fused hash (R544). -/
def keyEnabled (s : State) (h : List Byte) : Bool :=
  let x := keyHash (slice h 448 384) (hdExponent h)
  if hdKey h = 0 then !s.fuses.noVendor && x == s.fuses.vendorHash else hdKey h == 1 && s.fuses.ownerHash == some x
/-- The cause for which an image is refused: 0 none, 1 key, 2 signature, 3 digest, 4 rollback (R544, R560). -/
def imageCause (s : State) (h body : List Byte) : Nat :=
  if !keyEnabled s h then 1
  else if !Config.rsaVerify (slice h 448 384) (hdExponent h) (h.take 64) (slice h 64 384) then 2
  else if digestBytes (Config.sha256 body) != hdDigest h then 3
  else if hdSvn h < s.fuses.svn then 4
  else 0
def isCandidate (s : State) (k : Nat) : Bool := slotMark s k == hdMark && headerForm (slotHeader s k)
/-- The candidates in descending generation; of equal generations slot A comes first. -/
def candidates (s : State) : List Nat :=
  (if slotGen s 0 < slotGen s 1 then [1, 0] else [0, 1]).filter (isCandidate s)
/-- The boot ROM (R544–R546). -/
def digestRegs (s : State) (f : Nat → Nat) (d : BitVec 256) : State :=
  forEach (List.range 8) s (fun i s => s.wr (f i) (w32 (d.toNat / 2 ^ (32 * (7 - i)))))
def bootSlot (s : State) (k : Nat) (fallback : Bool) : State :=
  let h := slotHeader s k
  let d : BitVec 256 := BitVec.ofNat 256 (beAt h 32 32)
  let s := s.wr SEC_BOOT (w32 (k * 2 ^ 30 + (if fallback then 2 ^ 29 else 0) + hdKey h * 2 ^ 28 + hdSvn h % 256 * 65536 + slotGen s k % 65536))
  let s := digestRegs { s with fwVersion := hdVersion h, fwSvn := hdSvn h, ownerRunning := hdKey h == 1 } SEC_FWDIG d
  if fallback then report s 193 0xFFFF else s
def bootRom (s : State) : State :=
  let s := digestRegs s SEC_ROMDIG Config.romDigest
  let l := candidates s
  match l.find? (fun k => imageCause s (slotHeader s k) (slotBody s k) == 0) with
  | some k => bootSlot s k (l.any (fun j => decide (slotGen s k < slotGen s j)))
  | none => report (s.wr SEC_BOOT 0xC0000000) 192 0xFFFF
/-- The device ID of the part (R375). -/
def pciDevice (s : State) : Nat :=
  match fld s.fuses.id 31 16 with
  | 2 => 0x6433
  | 3 => 0x6416
  | _ => 0x6432
def showFuses (s : State) : State :=
  let s := s.wr SEC_FUSE (w32 ((if s.fuses.ownerHash.isSome then 2 ^ 31 else 0) + (if s.fuses.noVendor then 2 ^ 30 else 0) + s.fuses.svn))
  let s := s.wr LNK_PCIDEV (w32 (pciDevice s * 65536 + Config.vendorId.toNat))
  ((s.wr GLB_ID s.fuses.id).wr GLB_CAP0 s.fuses.cap0).wr GLB_CAP1 s.fuses.cap1

-- Resets of the whole device (R515)
/-- Everything at its reset value but what no reset touches: fuses, flash, the outputs so far, the model's own fields. -/
def cleared (s : State) : State :=
  { State.reset with pending := s.pending, out := s.out, free := s.free, fuses := s.fuses, store := (match s.update with | some u => u.was | none => s.store), flash := s.flash }
/-- The FATAL latch and FLT_FATALSRC survive in the Owl domain (R531); FAULT_N stays asserted. -/
def keepLatch (old s : State) : State :=
  let s := s.wr FLT_FATALSRC (old.rd FLT_FATALSRC)
  let s := s.setB PWR_STAT 1 (old.rb FLT_FATALSRC 31)
  { s with faultLow := latchSet old }
/-- PORST_N, or PWR_GOOD low: everything but the latch (R515); the latch's test copy goes (R538), and FAULT_N is released in
reset (R581). -/
def porst (s : State) (cause : Nat) : State :=
  { keepLatch (s.setB FLT_FATALSRC 30 false) (cleared s) with faultLow := false }.wr PWR_RSTCAUSE (w32 (2 ^ cause))
def faultEdge (old s : State) : State := if old.faultLow == s.faultLow then s else s.put (.pin 0 (!s.faultLow))
/-- PORST_N is low, or PWR_GOOD (`pgood`) is. -/
def execPorstN (pgood : Bool) (s : State) : Res := .next (faultEdge s (porst s (if pgood then 2 else 1)))
/-- VDD_AON below its power-on threshold clears the latch as well. -/
def execVddAonLoss (s : State) : Res := .next (faultEdge s ((cleared s).wr PWR_RSTCAUSE 1))
/-- WARM_RST_N keeps the Owl domain, the trouble log and its counts (R540) and what repairs the flash holds (R515); unlocked test mode and its
challenge last until PORST_N (R559). -/
def warmRegs : List Nat := [PWR_WAKECFG, PWR_OWLTMR, PWR_RSTCAUSE, FLT_LOGSTAT, FLT_LOGSEQ, FLT_LOGLOST, FLT_LOGSUP, FLT_ESCCNT, FLT_TEST]
def warmReset (s : State) : State :=
  let n := keepLatch s (cleared s)
  let n := forEach warmRegs n (fun a n => n.wr a (s.rd a))
  let n := forEach ((List.range 64).filter (fun c => pcState s c == 3)) n (fun c n => n.setF (MEM_PCSTAT c) 31 30 3)
  let n := { n with log := s.log, lastCls := s.lastCls, challenge := s.challenge, fromWarm := true }
  (n.setB PWR_RSTCAUSE 3 true).setB PWR_STAT 0 true

-- Boot (R512)
/-- REFIN as firmware measures it: 0 10 MHz, 1 100, 2 160, 3 640; none when it is more than 1 % from all (R447). -/
def refinTake (s : State) (refin : Option Nat) : State :=
  match refin with
  | some r =>
    let qm : Nat × Nat := match r with | 0 => (1, 64) | 1 => (5, 32) | 2 => (1, 4) | _ => (1, 1)
    (s.wr CLK_RPLL (w32 (r % 4 * 2 ^ 30 + qm.1 * 65536 + qm.2))).setB CLK_STAT 7 true
  | none => report s 0 0xFFFF
def stepAbsent (s : State) (n : Nat) : Bool :=
  if n = 5 ∨ n = 6 then nvmePorts s == 0
  else if n = 38 then !displayPresent s
  else if n = 16 ∨ n = 18 ∨ n = 24 then !quadPresent s 0 && !quadPresent s 1
  else if n = 17 ∨ n = 19 ∨ n = 25 then !quadPresent s 2 && !quadPresent s 3
  else if 20 ≤ n ∧ n ≤ 23 then !quadPresent s (n - 20)
  else if 26 ≤ n ∧ n ≤ 29 then !quadPresent s (n - 26)
  else if n = 31 ∨ n = 32 then !corrPresent s
  else if 34 ≤ n ∧ n ≤ 37 then !clusterPresent s (2 * (n - 34)) && !clusterPresent s (2 * (n - 34) + 1)
  else false
/-- Step `n` is in a state; a step that starts shows when. -/
def showStep (s : State) (n st : Nat) : State := s.setF (PWR_STEP n) 31 30 st
def stepStarted (s : State) (n st us : Nat) : State :=
  (showStep (s.setF (PWR_STEP n) 23 0 us) n st).setF PWR_STAT 21 16 n
/-- PORST_N is high: from here on a set latch holds FAULT_N low (R529). -/
def porstOver (s : State) : State :=
  let s := { s with bt := { s.bt with porst := false } }
  if latchSet s then assertFault s else s
/-- The device id the store holds, or 0. -/
def identified (s : State) (id : Nat) : State := { s with devId := id, devIdRec := id }
/-- What every boot does before firmware: fuses, latch, clocks on bypass, the persistent device id, the boot ROM. -/
def bootEarly (s : State) (refin : Option Nat) (starts : List Nat) : State :=
  let s := clkReset (showFuses (porstOver s))
  let s := forEach (List.range 5) s (fun n s => stepStarted s n 1 (nth 0 starts n))
  let s := refinTake { s with stepNo := 5 } refin
  bootRom (identified s (s.store.deviceId.getD 0))
/-- COLD_BOOT: PORST_N and PWR_GOOD are high again (R512, R576); `starts` gives the µs at which steps 0–4 start, `strap` the
level of GPIO47 at the release (R538, R573). -/
def execColdBoot (refin : Option Nat) (starts : List Nat) (strap : Bool) (s : State) : Res :=
  .next (if s.bt.porst then bootEarly (s.setB FLT_TEST 1 strap) refin starts else s)
/-- WARM_RST_N low for 1 µs, then the boot of R512 without hard repairs; no effect while PORST_N is asserted. -/
def execWarmRstN (refin : Option Nat) (starts : List Nat) (s : State) : Res :=
  .next (if s.bt.porst || s.bt.off then s else faultEdge s (bootEarly (warmReset s) refin starts))
/-- Pages that are retired stay so: capacity, layout, redirection (R348, R351). -/
def memoryPowerOn (s : State) : State :=
  let n := s.store.retired.length
  let s := s.wr MEM_CAPACITY (s.rd MEM_CAPACITY - w32 n)
  let s := forEach (List.range 64) s (fun c s => sparesShow s c)
  if s.store.memLayout = [] then layOut s 16384 524288 256 540928 65536 256 else layFrom s s.store.memLayout
/-- A start of firmware: the epoch, sessions, root ports, the identity check (R85, R92, R382, R551, R557). -/
def fwStart (s : State) (idOk : Bool) : State :=
  let s := s.setF MBX_EPOCH 31 16 (fwEpoch s + 1)
  let s := { s.setB MBX_STAT 31 true with sessions := [], sessNo := 0, inHand := [], netQueue := [] }
  let s := s.wr SEC_SESS 0
  let s := s.wr SEC_PPEPOL (w32 s.store.ppePolicy)
  let s := forEach (List.range (nvmePorts s)) s (fun p s => setNv s p 1)
  let s := { s with identBad := !idOk }
  if idOk then s else report s 198 0xFFFF
/-- Firmware loads the band tables from boot flash; a return from HIBERNATE finds them retained (R450, R460). -/
def bandsLoad (s : State) : State :=
  forEach ((List.range 4).filter (quadPresent s)) s (fun q s =>
    forEach (List.range 32) s (fun i s => s.wr (CLK_BAND q i) (Config.bandTable (32 * q + i) &&& 0xBFFFFFFF)))
/-- FULL command mailboxes are lost with the management cores' reset (R90). -/
def commandsLost (s : State) : State :=
  forEach s.doorbells { s with doorbells := [] } (fun (d : Nat × Nat) s => mbxEvent (s.setF (MBX_HCSTAT d.1) 1 0 0) 3 d.1)
def bootedSlot (s : State) : Bool := s.rf SEC_BOOT 31 30 != 3
def execFirmwareStart (idOk : Bool) (s : State) : Res :=
  .next (if s.bt.porst || s.bt.off || fwReady s || !bootedSlot s || decide (s.stepNo < 5) then s
  else if s.hibernated then fwStart (commandsLost s) idOk
  else
    let s := tdcBoot (bandsLoad (fwStart (memoryPowerOn s) idOk))
    let s := if s.fromWarm then s else { s with store := { s.store with repairs := [], hard := s.store.hard ++ s.store.repairs } }
    s.setF PWR_STAT 31 29 PS_BOOTING)

-- The staggered start (R504–R507)
/-- What the retention store keeps: the registers of the gated units (converters to engines, display), of the streams, the
time base and Badger (R501; log 95). -/
def retained (a : Nat) : Bool :=
  (groupOf a).isSome || (decide (TIM_CTRL ≤ a) && decide (a < TIM_CTRL + 0x10000)) ||
  (decide (0x1000000 ≤ a) && decide (a < 0x2400200)) || (decide (0x3300000 ≤ a) && decide (a < 0x3410000))
def retentionLost (s : State) : State :=
  let s := { s with regs := s.regs.filter (fun (p : Nat × Word) => !retained p.1), active := [], strShadow := [], strActive := [] }
  let s := { s with ppe := s.ppe.map (fun (p : Nat × PpeSt) => (p.1, { p.2 with shadow := [], table := [] })) }
  report ((denDiscard s).setB PWR_STAT 3 true) 13 0xFFFF
def waking (s : State) : Bool := pwrState s == PS_LEAVING
def pwrTarget (s : State) : Nat := s.rf PWR_STAT 28 26
/-- HBM stack `k` is powered: its channels train (R349). -/
def stackUp (s : State) (k : Nat) : State :=
  let s := if k = 1 then s.setB MEM_STAT 1 false else s
  forEach (List.range 32) s (fun c s => if pcState s (32 * k + c) = 3 then s else s.setF (MEM_PCSTAT (32 * k + c)) 31 30 0)
/-- Ethernet lanes `lo … lo+3` are powered: the ports on them train in the stored mode (R387). -/
def lanesUp (s : State) (lo : Nat) : State :=
  let s := if waking s then s else s.setF LNK_ETHMODE 1 0 (s.store.ethMode.getD 0)
  let m := s.rf LNK_ETHMODE 1 0
  forEach (List.range 8) s (fun p s =>
    if 8 / 2 ^ m ≤ p then s.setF (LNK_ETHSTAT p) 31 30 3
    else if lo ≤ p * 2 ^ m ∧ p * 2 ^ m < lo + 4 then s.setF (LNK_ETHSTAT p) 31 30 1 else s)
/-- After HIBERNATE the raw count starts at 0 and the servo starts again (R406, R424). -/
def timeReturn (s : State) : State :=
  let s := s.wr64 TIM_RAW_LO 0
  let s := setTime ((s.setB TIM_STAT 28 false).setB TIM_STAT 27 false) { s.time with c := 0, o := 0 }
  let s := if servoSrc s = 0 then s else integRate s
  servoRestart (setClock s 0)
/-- A sample MDLL is powered: it starts on bypass and looks for its band (R450, R460). -/
def mdllUp (s : State) (q : Nat) : State :=
  if !quadPresent s q then s
  else
    let s := (s.setB CLK_BYP (1 + q) true).setB CLK_LOCK (1 + q) false
    if clkSrc s = 1 then s.setF (CLK_SMDLL q) 2 1 3 else if onBypass s 0 then (mayTry s q).setF (CLK_SMDLL q) 2 1 2 else tryFirst s q
/-- The back ends of quadrant `q` run: on the factory set at a boot, on the restored one after a return (R116, R128). -/
def backEndUp (s : State) (q : Nat) : State :=
  let back := waking s
  forEach ((quadCores q).filter (corePresent s)) s (fun n s =>
    let s := showRole s n
    let s := if back then s.setF (CNV_STAT n) 5 4 2 else s
    let s := s.setCore n { s.core n with waking := false }
    if (s.core n).down then s else s.setF (CNV_STAT n) 1 0 (if quadBypass s q then 3 else 2))
/-- FCLK is ungated: beat 0 begins, with event 0, and ticks stop (R21, R22, R29). -/
def fclkStart (s : State) : State :=
  let s := shiftCounts s (-(s.tick : Int))
  let s := { s with
    tick := 0, profileBeat := 0, streams := s.streams.map (fun (p : Nat × StreamSt) => (p.1, { p.2 with since := 0, grp := 0 })), denMarks := [] }
  let s := (s.setB GLB_BEATSTAT 2 true).wr64 GLB_BEAT_LO 0
  let s := { s with cyc := 0, firstRunAt := some 128, beatTimes := [(0, timeNow s, tflagsNow s)], inBeat := s.active }
  fire s 0
/-- A synthesiser of a gated unit is powered: it starts on bypass (R460). -/
def synthUp (s : State) (n : Nat) : State := if synthPresent s n && !locked s n then s.setB CLK_BYP n true else s
/-- Neighbour port `n` is powered. -/
def nbrUpStep (s : State) (n : Nat) : State := if nbrEn s n then s.setF (LNK_NBSTAT n) 31 30 1 else s
/-- Speed and width as LNK_PCISTAT shows them. -/
def showLink (s : State) (gen width : Nat) : State := (s.setF LNK_PCISTAT 31 28 gen).setF LNK_PCISTAT 27 23 width
/-- The link trains to a generation and width; below Gen5 ×16 DOWNTRAIN is set (R404). -/
def trained (s : State) (gen width : Nat) : State :=
  let s := showLink { s with pci := { s.pci with up := true, trainTo := (gen, width) } } gen width
  if gen < 5 ∨ width < 16 then s.setB LNK_PCISTAT 1 true else s
/-- The endpoint is powered: the link trains unless the host holds it in reset. -/
def endpointUp (s : State) : State :=
  if s.pci.perst ∨ s.pci.trainTo.1 = 0 then s else trained s s.pci.trainTo.1 s.pci.trainTo.2
/-- What the units of a step do as they come up. -/
def stepEffect (s : State) (n : Nat) : State :=
  if n = 1 then s.setB CLK_STAT 7 true
  else if n = 2 then (if waking s then timeReturn s else s)
  else if n = 4 then endpointUp s
  else if n = 7 then stackUp s 0
  else if n = 8 then stackUp s 1
  else if n = 9 then lanesUp s 0
  else if n = 10 then lanesUp s 4
  else if n = 11 then nbrUpStep s 0
  else if n = 12 then nbrUpStep s 1
  else if n = 13 then (if waking s then dmaIdleAll s else s)
  else if n = 16 then mdllUp (mdllUp s 0) 1
  else if n = 17 then mdllUp (mdllUp s 2) 3
  else if 20 ≤ n ∧ n ≤ 23 then backEndUp s (n - 20)
  else if n = 34 then synthUp s 5
  else if n = 38 then (let s := synthUp s 11; if waking s then dspReturn s else s)
  else if n = 39 then fclkStart s
  else s
/-- A wake that ends in STANDBY: the staged start is over. -/
def inStandby (s : State) : State := { s with stepNo := 16, hibernated := false }
/-- After step 15 a start with the latch set is over (R514), and so is a wake to STANDBY (R510). -/
def afterStep (s : State) (n : Nat) : State :=
  if n = 15 ∧ latchSet s then (s.setF PWR_STAT 31 29 PS_HALTED).setF PWR_STAT 28 26 0
  else if n = 15 ∧ waking s ∧ pwrTarget s = PS_STANDBY then
    inStandby (((s.setF PWR_STAT 31 29 PS_STANDBY).setF PWR_STAT 28 26 0).wr PWR_TRANSTIME (w32 (s.rf (PWR_STEP 15) 23 0)))
  else if n = 39 then { s with hibernated := false }
  else s
/-- Absent steps are passed over (R505). -/
def skipAbsent : Nat → State → State
  | 0, s => s
  | f + 1, s =>
    if s.stepNo < 40 ∧ stepAbsent s s.stepNo then skipAbsent f { showStep s s.stepNo 3 with stepNo := s.stepNo + 1 } else s
/-- The first step of a start: 16 from STANDBY, 1 from HIBERNATE, whose boot ROM has powered step 0, and 0 at a boot. -/
def startsAt (s : State) (n : Nat) : Bool := n == 0 || (n == 16 && waking s && !s.hibernated)
/-- When step `n` starts: no sooner than 250 µs after the step before it, and step 20 no sooner than 3 ms after the last
present converter bias step (R504). -/
def stepTime (s : State) (n us : Nat) : Nat :=
  if startsAt s n then us
  else
    let last := s.rf (PWR_STEP (s.rf PWR_STAT 21 16)) 23 0 + 250
    let bias := max (if stepAbsent s 18 then 0 else s.rf (PWR_STEP 18) 23 0) (if stepAbsent s 19 then 0 else s.rf (PWR_STEP 19) 23 0)
    max us (max last (if n = 20 then bias + 3000 else 0))
def stepHeld (s : State) : Bool := s.rf (PWR_STEP s.stepNo) 31 30 == 2
/-- The start goes on: it runs, the step before it is done, and firmware is up where it powers the units. -/
def stepMay (s : State) : Bool :=
  !s.bt.porst && !s.bt.off && decide (pwrState s ∈ [PS_BOOTING, PS_LEAVING]) && decide (s.stepNo < 40) && !stepHeld s &&
  (decide (s.stepNo < 5) || fwReady s)
/-- STAGGER_STEP: the next step's units are powered and meet their completion condition; it was asked for at `us` µs. `retOk`:
the retention store's CRC, which the first step after HIBERNATE checks (R501). -/
def staggerStep (s : State) (us : Nat) (retOk : Bool) : State :=
  let s := if waking s ∧ s.stepNo = 1 ∧ !retOk then retentionLost s else s
  let n := s.stepNo
  let s := { stepStarted s n 1 (stepTime s n us) with stepNo := n + 1 }
  afterStep (stepEffect s n) n
def execStaggerStep (us : Nat) (retOk : Bool) (s : State) : Res :=
  let s' := skipAbsent 40 s
  .next (if !stepMay s then s else if s.haltDue then haltNow s else if s'.stepNo < 40 then staggerStep s' us retOk else s')
/-- The next step, started at `us`, does not meet its condition in time: the start stops there (R506). -/
def execStepFail (us : Nat) (s : State) : Res :=
  let s' := skipAbsent 40 s
  .next (if stepMay s ∧ s'.stepNo < 40 then report ((stepStarted s' s'.stepNo 2 (stepTime s' s'.stepNo us)).setB PWR_STAT 2 true) 8 s'.stepNo else s)
/-- RUN_FIRST_BEAT: the coming beat is the first of the run that follows step 39 (R507); after a boot foreground
calibration comes first (R512). `us`: the length of the transition. -/
def wakeDone (s : State) (us : Nat) : State :=
  let t := pwrTarget s
  let s := ((s.setF PWR_STAT 31 29 t).setF PWR_STAT 28 26 0).wr PWR_TRANSTIME (w32 us)
  let s := { s with firstRunAt := none, bt := { s.bt with runNext := t == PS_RUN } }
  match s.pwrReply with
  | some (op, q, _) => reply { s with pwrReply := none } op q ST_OK (b8 128)
  | none => s
def execRunFirstBeat (us : Nat) (s : State) : Res :=
  .next (if !fclkRuns s || s.firstRunAt != some (s.beat + 1) then s
  else if waking s then wakeDone s us
  else if pwrState s = PS_BOOTING then fgAll { s with firstRunAt := none, bt := { s.bt with runNext := true } }
  else s)

-- Requests (R502, R517, R519)
def pwTarget (p : List Byte) : Nat := u8 p 0
def pwCode (p : List Byte) : Nat := pwTarget p + 1
/-- A transition runs, or waits for its boundary; one stopped at a failed step gives way to STANDBY and HIBERNATE. -/
def inTransition (s : State) : Bool :=
  decide (pwrState s ∈ [PS_ENTERING, PS_LEAVING]) || s.pwrAt.isSome
def updating (s : State) : Bool := decide (s.rf SEC_UPDATE 31 29 ∈ [1, 2, 3, 4, 5])
def pwrChecks (s : State) (q : Req) : List (Bool × Nat) :=
  let p := q.params
  let t := pwTarget p
  [(decide (3 < t ∨ 2 < u8 p 1 ∨ 8 ≤ u8 p 2 ∨ u8 p 3 ≠ 0) || (u8 p 1 == 2 && t != 3) || (u64 p 8 != 0 && decide (2 ≤ t)) ||
      ((u8 p 2).testBit 2 && u32 p 4 == 0), ST_BAD_PARAM),
   (t == 3 && isNet q.src && !(u8 p 2).testBit 2, ST_LOCKED),
   (decide (t ≤ 1) && latchSet s, ST_FAULT),
   (pwCode p == pwrState s || (decide (t ≤ 1) && u64 p 8 != 0 && decide (u64 p 8 ≤ s.beat)), ST_STATE),
   ((inTransition s && !(waking s && stepHeld s && decide (2 ≤ t))) || s.resetAt.isSome || restarting s ||
      (t == 3 && updating s), ST_BUSY)]
/-- The wake settings that the request carries. -/
def wakeSettings (s : State) (p : List Byte) : State :=
  let s := (s.setF PWR_WAKECFG 17 16 (u8 p 1)).setF PWR_WAKECFG 2 0 (u8 p 2)
  s.wr PWR_OWLTMR (w32 (u32 p 4))
def leaveBegin (s : State) (step target : Nat) : State :=
  { (s.setF PWR_STAT 31 29 PS_LEAVING).setF PWR_STAT 28 26 target with stepNo := step }
/-- A request carried out; the one whose start stopped at a failed step, which this one abandons, answers ST_STATE (log 95). -/
def pwrEffect (s : State) (q : Req) : State :=
  let p := q.params
  let c := pwCode p
  let s := wakeSettings s p
  if 3 ≤ c then
    let s := match s.pwrReply with
      | some (op, r, _) => deny { s with pwrReply := none } op r ST_STATE
      | none => s
    let s := answer s 0x0E00 q (b2 ST_ACCEPTED ++ b2 0 ++ b8 0)
    let s := (s.setF PWR_STAT 31 29 PS_ENTERING).setF PWR_STAT 28 26 c
    { s with wakeHeld := 0, bt := { s.bt with lastRun := s.running, runNext := false } }
  else if pwrState s = PS_STANDBY then { leaveBegin s 16 c with pwrReply := some (0x0E00, q, c) }
  else
    let b := if u64 p 8 = 0 then s.beat + 1 else u64 p 8
    { s.setF PWR_STAT 28 26 c with pwrAt := some (c, b), pwrReply := some (0x0E00, q, c) }
def execPwrStateSet (q : Req) (s : State) : Res :=
  .next (command s 0x0E00 q (q.params.length == 16) (pwrChecks s q) (pwrEffect s q))
/-- IDLE ends the run with the present beat; RUN starts one with the next (R502). -/
def runTurn (s : State) (c : Nat) : State :=
  let s := mdllsRetry s
  if c = PS_IDLE then { s with bt := { s.bt with lastRun := s.running, runNext := false } }
  else { s with bt := { s.bt with runNext := !s.running } }
/-- PWR_TRANSITION_APPLY: the coming beat is the first in the new state (R502); a halt that comes first wins (R519). -/
def pwrApply (s : State) (c b us : Nat) : State :=
  let ok := !s.haltDue
  let s := ({ s with pwrAt := none }).setF PWR_STAT 28 26 0
  pwrAnswer (if ok then runTurn ((s.setF PWR_STAT 31 29 c).wr PWR_TRANSTIME (w32 us)) c else s) ok b
def execPwrTransitionApply (us : Nat) (s : State) : Res :=
  .next (match s.pwrAt with
    | some (c, b) => if b ≤ s.beat + 1 then pwrApply s c b us else s
    | none => s)
def execPwrStatus (q : Req) (s : State) : Res :=
  .next (command s 0x0E01 q (q.params.length == 0) []
    (reply s 0x0E01 q ST_OK ([PWR_STAT, PWR_WAKECFG, PWR_WAKESRC, PWR_OWLTMR, PWR_RSTCAUSE, PWR_TEMP, PWR_BOOTTIME, PWR_TRANSTIME].flatMap
      (fun a => bw (s.rd a)))))
def execReset (q : Req) (s : State) : Res :=
  let p := q.params
  .next (command s 0x0E02 q (p.length == 4)
    [(decide (2 < u8 p 0) || !zeroAt p 1 3, ST_BAD_PARAM), (decide (pwrState s ∉ [PS_RUN, PS_IDLE]), ST_STATE),
     (s.resetAt.isSome || inTransition s || restarting s, ST_BUSY)]
    { s with resetAt := some (u8 p 0), pwrReply := some (0x0E02, q, 0) })

-- Entry (R508)
/-- The data path has stopped and everything it closed has left. -/
def entryMay (s : State) : Bool :=
  pwrState s == PS_ENTERING && !s.running && !s.bt.lastRun && s.denRun.isNone && s.denWait.isEmpty && s.corr.isNone &&
  s.corrDump.isNone && s.specs.isEmpty && s.prods.isEmpty
/-- FCLK stops: the counter holds, ticks count from 0 (R22). -/
def fclkStop (s : State) : State :=
  if !fclkRuns s then s
  else
    let s := shiftCounts (gridBreak s) (-(s.beat : Int))
    let s := forEach (allCores s) s (fun n s =>
      showPend (s.setCore n { down := (s.core n).down, waking := (s.core n).waking, bg := (s.core n).bg }) n)
    { s.setB GLB_BEATSTAT 2 false with
      tick := 0, inBeat := s.active, streams := s.streams.map (fun (p : Nat × StreamSt) => (p.1, { p.2 with grp := 0 })) }
/-- Steps power off in the order given, the first after `t` µs and the next at least 50 µs after each; when beyond that is a
free value. PWR_STEP records each (R504). -/
def stepsOffFrom : Nat → List Nat → State → State
  | _, [], s => s
  | t, n :: r, s =>
    let us := t + s.fresh % 2 ^ 23
    stepsOffFrom (us + 50) r (((showStep s n 0).setF (PWR_STEP n) 23 0 us).setF PWR_STAT 21 16 n).useFree
/-- The steps `lo … hi` that are on or failed power off, last first; those below 16 follow the others of the entry. -/
def stepsOff (s : State) (lo hi : Nat) : State :=
  let l := ((List.range (hi + 1)).filter (fun n => decide (lo ≤ n) && decide (s.rf (PWR_STEP n) 31 30 ∈ [1, 2]))).reverse
  let k := s.rf PWR_STAT 21 16
  stepsOffFrom (if lo < 16 ∧ 16 ≤ k then s.rf (PWR_STEP k) 23 0 + 50 else 0) l s
def coresOff (s : State) : State := forEach (allCores s) s (fun n s => s.setF (CNV_STAT n) 1 0 0)
def mdllsOff (s : State) : State :=
  let s := (s.setB CLK_LOCK 5 false).setB CLK_LOCK 11 false
  forEach ((List.range 4).filter (quadPresent s)) s (fun q s => (s.setF (CLK_SMDLL q) 2 1 3).setB CLK_LOCK (1 + q) false)
/-- Entry's part for both states: calibration and alignment aborted, engines reset, FCLK and steps 39–16 off. -/
def entryGate (s : State) : State :=
  let s := cancelTickets s (fun _ => false)
  let s := forEach [0, 1, 2, 3] s (fun q s => fgAbort s q 3)
  let s := fclkStop (gridAbort s)
  let s := ppeResetAll (phasesLost s [0, 1, 2, 3]) true
  let s := dspSleep (mdllsOff (coresOff s))
  stepsOff { s with stepNo := 16 } 16 39
/-- Drives are flushed before their links go down (R508). -/
def drivesFlush (s : State) : State :=
  forEach (List.range (nvmePorts s)) s (fun p s => if nvState s p = 2 then setNv (s.put (.nvme p 1 0 [])) p 0 else setNv s p 0)
def linksDown (s : State) : State :=
  let s := forEach (List.range 8) s (fun p s => ((ethDown s p).setF (LNK_ETHSTAT p) 31 30 0).setF (LNK_ETHSTAT p) 29 28 0)
  let s := forEach [0, 1] s (fun p s => (nbrDown s p).setF (LNK_NBSTAT p) 31 30 0)
  let s := { s with pci := { s.pci with up := false }, echoes := [], tokens := [], txDue := [], txCtx := [] }
  (s.setF LNK_PCISTAT 31 28 0).setF LNK_PCISTAT 27 23 0
/-- The TDC loses its supply: a running calibration fails as ICLK leaves its synthesiser, TB_WARM falls with the RPLL, the queues
are discarded and the units end (R436, R440, R444). -/
def tdcLose (s : State) : State :=
  let s := setWarm (calLost s) false
  let s := setTdc s { s.ext.tdc with chans := s.ext.tdc.chans.map (fun (p : Nat × TdcCh) => (p.1, { p.2 with queue := [], last := none })), units := [] }
  let s := forEach (List.range 17) s (fun c s => showQueue s c)
  forEach [0, 1, 2, 3] s (fun f s => s.setB (TDC_FCTRL f) 31 false)
/-- What has no supply in HIBERNATE and is not retained. -/
def hibernateLose (s : State) : State :=
  let s := { s with inHand := [], netQueue := [], sessions := [], locks := [], mbx := [], streams := s.streams.map (fun (p : Nat × StreamSt) => (p.1, { p.2 with queue := [], iq := [], items := [] })) }
  monOff ((tdcLose (setTime s { s.time with pps := false })).setB MBX_STAT 31 false)
/-- The controllers have served what waited; every channel in service trains anew on exit (R349). -/
def selfRefresh (s : State) : State :=
  let s := setMem s { s.mem with arb := s.mem.arb.map (fun (p : Nat × ArbSt) => (p.1, { p.2 with wait := [] })), retried := [] }
  let s := forEach ((List.range 64).filter (fun c => pcState s c != 3)) s (fun c s => s.setF (MEM_PCSTAT c) 31 30 0)
  (s.setB MEM_STAT 0 false).setB MEM_STAT 1 true
def hibernate (s : State) : State :=
  let s := selfRefresh (hibernateLose (linksDown (drivesFlush s)))
  let s := ((s.wr CLK_LOCK 0).setB CLK_STAT 7 false).wr CLK_BYP (w32 (bitsSet ((List.range 12).filter (synthPresent s))))
  stepsOff { s with stepNo := 0, hibernated := true } 0 15
def entered (s : State) (st us : Nat) : State :=
  ((s.setF PWR_STAT 31 29 st).setF PWR_STAT 28 26 0).wr PWR_TRANSTIME (w32 us)

-- Wake (R510, R511)
/-- PWR_WAKECFG.WAKETO as a state code. -/
def wakeTo (s : State) : Nat := s.rf PWR_WAKECFG 17 16 + 1
/-- From HIBERNATE step 0 powers the core whose boot ROM verifies the firmware, and the start goes on from step 1 (R502,
R511). From STANDBY it goes on from step 16, which a set FATAL latch forbids as it does at a boot (R514, R531; log 95). -/
def wakeNow (s : State) (srcs : Nat) : State :=
  if pwrState s = PS_HIBERNATE then
    let s := (s.orR PWR_WAKESRC srcs).setB PWR_RSTCAUSE 7 true
    stepStarted (bootRom (leaveBegin s 1 (wakeTo s))) 0 1 0
  else if wakeTo s = PS_STANDBY then s
  else
    let s := s.orR PWR_WAKESRC srcs
    if latchSet s then s.setF PWR_STAT 31 29 PS_HALTED else leaveBegin s 16 (wakeTo s)
def wake (s : State) (b : Nat) : State :=
  if !s.rb PWR_WAKECFG b then s
  else if pwrState s = PS_ENTERING then { s with wakeHeld := s.wakeHeld ||| 2 ^ b }
  else if pwrState s = PS_STANDBY ∨ pwrState s = PS_HIBERNATE then wakeNow s (2 ^ b)
  else s
def execWakePin (s : State) : Res := .next (wake s 0)
/-- The Owl timer reads 0. -/
def execOwlTimerExpiry (s : State) : Res :=
  .next (if decide (pwrState s ∈ [PS_STANDBY, PS_HIBERNATE]) && s.rd PWR_OWLTMR != 0 then wake (s.wr PWR_OWLTMR 0) 2 else s)
/-- STATE_ENTRY: entry completes, after `us` µs; HIBERNATE waits for its DMA aborts. A wake held meanwhile acts at once
(R509). -/
def heldWake (s : State) : State := if s.wakeHeld = 0 then s else wakeNow { s with wakeHeld := 0 } s.wakeHeld
def stateEntry (s : State) (us : Nat) : State :=
  let hib := pwrTarget s == PS_HIBERNATE
  let s := entryGate s
  if !hib then heldWake (entered s PS_STANDBY us)
  else if (List.range 128).any (chanRuns s) then dmaAbortIf s (chanRuns s)
  else heldWake (entered (hibernate s) PS_HIBERNATE us)
def execStateEntry (us : Nat) (s : State) : Res := .next (if entryMay s then stateEntry s us else s)

-- Supplies and temperature (R521, R580)
def execVddCoreLow (s : State) : Res := .next (report s 9 0xFFFF)
/-- The hottest junction reads `t` °C: PWR_TEMP and the thresholds that it has crossed. -/
def crossed (was t : Int) : List Nat :=
  (if was ≤ 100 ∧ 100 < t then [10] else []) ++ (if was ≤ 105 ∧ 105 < t then [11] else []) ++ (if was ≤ 115 ∧ 115 < t then [12] else [])
def junction (s : State) (t : Int) : State :=
  let was := sext 8 (s.rf PWR_TEMP 7 0)
  let peak := sext 8 (s.rf PWR_TEMP 15 8)
  let s := (s.setF PWR_TEMP 7 0 (lowBits 8 t)).setF PWR_TEMP 15 8 (lowBits 8 (max peak t))
  forEach (crossed was t) s (fun n s => report s n 0xFFFF)
def execJunctionThreshold (temp : Int) (s : State) : Res := .next (junction s temp)
/-- 125 °C: the Owl domain turns every unit off, until PORST_N. -/
def execThermalShutdown (s : State) : Res :=
  let n := keepLatch s (cleared s)
  let n := forEach [PWR_WAKECFG, PWR_OWLTMR, PWR_RSTCAUSE] n (fun a n => n.wr a (s.rd a))
  .next (faultEdge s { n with bt := { n.bt with porst := false, off := true }, faultLow := true })

end Sys2Proof.Machine
end

