-- ==== Sys2Proof/Machine/Pins.lean ====
section
/-! DEFINITION. What the balls show of the state: the levels that the OT-6432 drives and the management words that the board
reads over I²C (R529, R566, R567, R570–R573, R581). No command reads a ball; these are views of State. -/
namespace Sys2Proof.Machine

/-- The rails are up and the part is neither held in reset nor switched off. -/
def ballsLive (s : State) : Bool := !s.bt.porst && !s.bt.off
def hibernating (s : State) : Bool := pwrState s == PS_HIBERNATE
/-- REFOUT drives 10 MHz: never from an RPLL on bypass (R567). -/
def refoutRuns (s : State) : Bool := ballsLive s && !hibernating s && s.rb GLB_PINCTRL 31 && !onBypass s 0
/-- FAULT_N is low: released in reset, low while the Owl domain has switched the part off, in HIBERNATE as before entry
(R529, R580, R581). -/
def faultNLow (s : State) : Bool := s.faultLow && !s.bt.porst
/-- PPSOUT: a level, or high-impedance in reset and in HIBERNATE (R572, R581). -/
def ppsoutLevel (s : State) : Option Bool := if ballsLive s && !hibernating s then some s.time.pps else none
/-- TRIGIO `n` is pulled low: released in reset and in HIBERNATE; a FATAL halt has dropped every pulse (R232, R530, R581). -/
def trigioLow (s : State) (n : Nat) : Bool :=
  ballsLive s && !hibernating s && s.pulses.any (fun p => p.1 == n && decide (p.2 ≤ s.beat))
/-- RP_PERST_N `p`: high-impedance in reset and on an absent port, low in HIBERNATE and until firmware releases the drive
(R382, R570, R581). -/
def rootPerst (s : State) (p : Nat) : Option Bool :=
  if ballsLive s && decide (p < nvmePorts s) then some (!hibernating s && fwReady s) else none
/-- The centre tap of RFIN `n` is at 0.5 V: only while its die is biased, steps 18 and 19 (R566). -/
def rfTap (s : State) (n : Nat) : Bool := corePresent s n && s.rf (PWR_STEP (18 + n / 16)) 31 30 == 1
/-- SMBALERT_N is low: FAULT_N asserted, or PWR_TEMP at 100 °C or more; released in reset and in HIBERNATE (R571, R581). -/
def smbAlertLow (s : State) : Bool :=
  ballsLive s && !hibernating s && (s.faultLow || decide (100 ≤ sext 8 (s.rf PWR_TEMP 7 0)))
/-- The level that GPIO `n` drives, if it drives one (R573, R581). -/
def gpioLevel (s : State) (n : Nat) : Option Bool :=
  if ballsLive s && s.rb (GLB_GPIOOE (n / 32)) (n % 32) then some (s.rb (GLB_GPIOOUT (n / 32)) (n % 32)) else none
/-- The words that a Block Read with command code 0–7 returns (R571). -/
def boardWords : List Nat := [GLB_ID, PWR_STAT, PWR_TEMP, FLT_CLSPEND, FLT_FIRST, MEM_TEMP, LNK_PCISTAT, TIM_STAT]
/-- A Block Read over I2C0 or I2C1: its byte count and bytes. -/
def blockRead (s : State) (code : Nat) : List Byte :=
  match boardWords[code]? with
  | some a => b1 4 ++ bw (regShown s a)
  | none => b1 0

end Sys2Proof.Machine
end

