-- ==== Sys2Proof/Machine/Pcie.lean ====
section
/-! DEFINITION. The PCIe endpoint (R375–R381, R397): resets of the host interface, link events, configuration and MSI-X. -/
namespace Sys2Proof.Machine

def setPci (s : State) (p : PciSt) : State := { s with pci := p }
/-- A base address register: the first BAR it takes, its size, 64-bit and prefetchable (R376); size 0 is not implemented. -/
structure PciBar where
  bar : Nat
  size : Nat
  wide : Bool
  prefetch : Bool
deriving DecidableEq, Repr
/-- What the endpoint's configuration header reads beside what `PciSt` holds (R375, R376). No row of the table reads it. -/
structure PciHeader where
  vendor : Nat
  device : Nat
  revision : Nat
  classCode : Nat
  maxPayload : Nat
  extTags : Bool                 -- extended and 10-bit tags, as requester and completer
  ecrcAble : Bool
  aspmL0s : Bool
  aspmL1 : Bool
  l1Substates : Bool
  functions : Nat                -- one physical function, neither SR-IOV nor ATS
  d3hot : Bool
  msi : Bool
  intx : Bool
  msixVectors : Nat
  msixTable : Nat
  pba : Nat
  bars : List PciBar
deriving DecidableEq, Repr
def pciHeader (s : State) : PciHeader where
  vendor := Config.vendorId.toNat
  device := pciDevice s
  revision := fld s.fuses.id 15 8
  classCode := 0x118000
  maxPayload := 512
  extTags := true
  ecrcAble := true
  aspmL0s := false
  aspmL1 := true
  l1Substates := false
  functions := 1
  d3hot := true
  msi := false
  intx := false
  msixVectors := 2048
  msixTable := 0x3F00000
  pba := 0x3F08000
  bars := [⟨0, 2 ^ 26, true, false⟩, ⟨2, 2 ^ 36, true, true⟩, ⟨4, 0, false, false⟩, ⟨5, 0, false, false⟩, ⟨6, 0, false, false⟩]
/-- The mailboxes at a reset of the host (R90, R91): FULL commands stay; EMPTY command mailboxes and every reply mailbox are
cleared, and firmware learns of each reply that was not taken (flow 2); the epoch increments. -/
def mailboxHostReset (s : State) : State :=
  let lost := (List.range 8).filter (fun n => hrFull s n)
  let empty := (List.range 8).filter (fun n => !hcFull s n)
  let s := { s with mbx := s.mbx.filter (fun c => !(decide (0x88000 ≤ c.1 ∧ c.1 < 0x90000) ||
    (decide (0x80000 ≤ c.1 ∧ c.1 < 0x88000) && empty.contains ((c.1 - 0x80000) / 0x1000)))) }
  let s := forEach (List.range 8) s (fun n s =>
    (((s.setF (MBX_HCSTAT n) 5 4 0).wr (MBX_HRSTAT n) 0).wr (MBX_HRSEQ n) 0).wr (MBX_HREPOCH n) 0)
  let s := (s.setF MBX_STAT 3 0 0).wr MBX_ERRSRC 0
  let s := s.setF MBX_EPOCH 15 0 (hostEpoch s + 1)
  forEach lost s (fun n s => s.put (.flow 2 n))
/-- An entry with EN clear. -/
def entryOff (e : List Byte) : List Byte := setNth e 0 (BitVec.ofNat 8 (u8 e 0 - u8 e 0 % 2))
/-- Firmware disables every HOST stream (R323), in force and in the shadow. -/
def hostStreamsOff (s : State) : State :=
  let host := (streamsKnown s).filter (fun n => enDest (outEntry s n) == 0 && (enEn (s.entry n) || (s.stream n).via != []))
  let s := forEach host s (fun n s =>
    let h := u8 (outEntry s n) 32
    let s := carrierStop s n
    let s := s.setStream n { s.stream n with on := false, queue := [], iq := [], items := [], cons := 0, prod := 0, via := [] }
    { s.wr64 (OC_HCONS_LO h) 0 with hconsLo := s.hconsLo.filter (fun x => x.1 != h) })
  let off := fun (l : List (Nat × List Byte)) =>
    forEach (l.filter (fun p => enDest p.2 == 0)) l (fun p l => Sparse.set entryDflt l p.1 (entryOff p.2))
  let s := { s with strActive := off s.strActive, strShadow := off s.strShadow, bt := { s.bt with strNext := s.bt.strNext.map off } }
  s.setB OC_STAT 6 true
/-- The descriptors posted to a queue whose ring lies in device memory. -/
def posted (s : State) (q : Nat) : List (List Byte) :=
  let size := qSize s q
  (List.range ((qTail s q + size - qHead s q) % size)).map (fun i => deviceBytes s (qBase s q + 32 * ((qHead s q + i) % size)) 32)
def queueInHost (s : State) (q : Nat) : Bool := qHost s q || (posted s q).any (fun d => (u8 d 12).testBit 0)
/-- A queue disabled by EN or by a reset of the host keeps HEAD; no frame waits at its head any more (R397). -/
def queueOff (s : State) (q : Nat) : State :=
  { s.setB (LNK_EQCTRL q) 31 false with txDue := s.txDue.filter (fun x => x.1 != q) }
/-- The endpoint's own configuration returns to its defaults; MSI-X entries are masked, nothing is pending. -/
def pciDefaults (s : State) : State :=
  { setPci s { s.pci with bme := false, msixEn := false, fmask := false, d3 := false, mps := 128, mrrs := 512, ecrc := false, aspm := false, timeout := 50 } with msix := [], pba := [] }
/-- What PCIe hot reset, FLR and PERST# do (R91, R97, R323, R371, R381, R397, R481). -/
def hostReset (s : State) : State :=
  let s := dmaAbortIf (freeLocks (mailboxHostReset s) 0) (fun n => s.rf (DMA_STAT n) 23 17 == 0)
  let s := forEach ((List.range 16).filter (fun q => queueOn s q && queueInHost s q)) (hostStreamsOff s) (fun q s => queueOff s q)
  pciDefaults (dspHostGone s)
def execPcieHotReset (flr : Bool) (s : State) : Res := .next ((hostReset s).setB LNK_PCISTAT (if flr then 3 else 2) true)

def execPerstAssert (s : State) : Res :=
  .next (if s.pci.perst then s
  else
    let s := (showLink (hostReset s) 0 0).setB LNK_PCISTAT 4 true
    setPci s { s.pci with perst := true, up := false })
def linkOk (gen width : Nat) : Bool := decide (1 ≤ gen ∧ gen ≤ 5) && decide (width ∈ [1, 2, 4, 8, 16])
/-- PERST# is released (R510): the link trains where step 4 has powered the endpoint, else as it does, and the release is a wake
source. -/
def execPerstRelease (gen width : Nat) (s : State) : Res :=
  .next (if !s.pci.perst then s
  else
    let s := setPci s { s.pci with perst := false, trainTo := (if linkOk gen width then (gen, width) else s.pci.trainTo) }
    wake (if s.rf (PWR_STEP 4) 31 30 = 1 ∧ linkOk gen width then trained s gen width else s) 1)
def execPcieSurpriseDown (s : State) : Res := .next (report ((hostReset s).setB LNK_PCISTAT 2 true) 138 0xFFFF)
/-- The link retrains to a lower speed or width (R381). -/
def execPcieDowntrain (gen width : Nat) (s : State) : Res :=
  .next (if linkOk gen width && !s.pci.perst && (decide (gen < s.rf LNK_PCISTAT 31 28) || decide (width < s.rf LNK_PCISTAT 27 23)) then
    report ((trained s gen width).setB LNK_PCISTAT 1 true) 136 0xFFFF
  else s)

/-- Vectors whose message is no longer held back (R379): each sends one message. -/
def sendPending (s : State) : State :=
  let due := s.pba.filter (fun v => !vectorMasked s v)
  forEach due { s with pba := s.pba.filter (fun v => vectorMasked s v) } (fun v s => sendMsi s v)
/-- A word of the MSI-X table as a read returns it: vector control has one bit, the low address is of a DW. -/
def msixMask (w : Nat) : Word := if w = 0 then 0xFFFFFFFC else if w = 3 then 1 else 0xFFFFFFFF
def msixWrite (s : State) (o : Nat) (v : Word) : State :=
  let dflt := fun (a : Nat) => if a % 16 = 12 then (1 : Word) else 0
  sendPending { s with msix := Sparse.set dflt s.msix o (v &&& msixMask (o / 4 % 4)) }
def execMsixUnmask (v : Nat) (s : State) : Res := .next (if v < 2048 then onBar s .host (msixWrite s (16 * v + 12) 0) else s)

/-- PCIE_CONFIG_WRITE: Bus Master Enable, power state, MSI-X enable and function mask, payload and read-request sizes. A
configuration write reaches the endpoint over the link. Sizes that the endpoint cannot hold are ignored. -/
def execPcieConfigWrite (bme d3 msixEn fmask : Bool) (mps mrrs : Nat) (s : State) : Res :=
  .next (if s.pci.perst then s
  else
    let p := s.pci
    sendPending (setPci s { p with bme := bme, d3 := d3, msixEn := msixEn, fmask := fmask, up := true, mps := (if mps ∈ [128, 256, 512] then mps else p.mps), mrrs := (if mrrs ∈ [128, 256, 512, 1024, 2048, 4096] then mrrs else p.mrrs) }))

/-- AER_ERROR (R380): `err` is the error's place in R380's list of its kind, the bit that the log keeps. -/
def execAerError (uncor : Bool) (err : Nat) (s : State) : Res :=
  .next (if uncor then
      (if err < 10 then report (setPci s { s.pci with aerUnc := s.pci.aerUnc ||| 2 ^ err }) 137 0xFFFF else s)
    else if err < 8 then setPci s { s.pci with aerCor := s.pci.aerCor ||| 2 ^ err } else s)

end Sys2Proof.Machine
end

