-- ==== Sys2Proof/Machine/Secure.lean ====
section
/-! DEFINITION. Group 0x0F: firmware slots and update, attestation, sessions, keys and fuses (R542–R561). -/
namespace Sys2Proof.Machine

-- Slots (R543, R544, R560)
def runSlot (s : State) : Nat := if s.rf SEC_BOOT 31 30 = 1 then 1 else 0
def slotBlank (s : State) (k : Nat) : Bool :=
  s.flash.all (fun c => decide (c.1 < slotBase k ∨ slotBase k + 0x3000000 ≤ c.1))
/-- State and cause of a slot as its contents and the fuses now give them. -/
def slotState (s : State) (k : Nat) : Nat × Nat :=
  if slotBlank s k then (0, 0)
  else if !isCandidate s k then (1, 0)
  else
    let c := imageCause s (slotHeader s k) (slotBody s k)
    if c = 0 then (2, 0) else (3, c)
def slotBytes (s : State) (k : Nat) : List Byte :=
  let h := slotHeader s k
  let x := slotState s k
  b1 x.1 ++ b1 x.2 ++ b2 0 ++ b4 (hdVersion h) ++ b4 (hdSvn h) ++ b4 (slotGen s k) ++ hdDigest h
def execFwStatus (q : Req) (s : State) : Res :=
  .next (command s 0x0F00 q (q.params.length == 0) []
    (reply s 0x0F00 q ST_OK (bw (s.rd SEC_BOOT) ++ bw (s.rd SEC_FUSE) ++ bw (s.rd SEC_UPDATE) ++ slotBytes s 0 ++ slotBytes s 1)))

-- Update (R549, R550)
def fuAddr (p : List Byte) : Nat := u64 p 0
def fuLength (p : List Byte) : Nat := u32 p 8
def fuHeader (s : State) (p : List Byte) : List Byte := s.hbmRead (fuAddr p) 4096
def fuBody (s : State) (p : List Byte) : List Byte := s.hbmRead (fuAddr p + 4096) (fuLength p - 4096)
/-- In R549's own order: the place of the image, an update that runs, then the checks of R544 and the header's form. -/
def fuChecks (s : State) (p : List Byte) : List (Bool × Nat) :=
  let h := fuHeader s p
  let c := imageCause s h (fuBody s p)
  [(fuAddr p % 4096 != 0 || !zeroAt p 12 4 || decide (fuLength p ≤ 4096) || decide (0x3000000 < fuLength p) ||
      !inGeneral s (fuAddr p) (fuLength p), ST_BAD_PARAM),
   (updating s, ST_BUSY), (c == 1 || c == 2 || c == 3, ST_SIG_FAIL), (c == 4, ST_ROLLBACK),
   (!headerForm h || fuLength p != 4096 + hdLength h, ST_BAD_PARAM)]
/-- The target slot without mark and generation: what a reset before MARK leaves. -/
def slotWrite (s : State) (k : Nat) (h body : List Byte) : State :=
  let rest := s.flash.filter (fun c => decide (c.1 < slotBase k ∨ slotBase k + 0x3000000 ≤ c.1))
  let bare := h.take 0xF00 ++ zeros 8 ++ h.drop 0xF08
  { s with flash := Mem.write (Mem.write rest (slotBase k) bare) (slotBase k + 0x1000) body }
def fuEffect (s : State) (q : Req) : State :=
  let k := 1 - runSlot s
  let s := slotWrite s k (fuHeader s q.params) (fuBody s q.params)
  let s := { s.wr SEC_UPDATE (w32 (2 * 2 ^ 29 + k * 2 ^ 28)) with update := some ⟨k, s.store⟩ }
  reply s 0x0F01 q ST_ACCEPTED []
def execFwUpdate (q : Req) (s : State) : Res :=
  .next (command s 0x0F01 q (q.params.length == 16) (fuChecks s q.params) (fuEffect s q))
/-- FW_UPDATE_END: 0 erased, written, read back and marked; 1 erase or write error; 2 readback mismatch. -/
def updateEnd (s : State) (u : Update) (result : Nat) : State :=
  let s := { s with update := none }
  if result = 0 then
    let gen := slotGen s (1 - u.slot) + 1
    let s := { s with flash := Mem.write (Mem.write s.flash (slotBase u.slot + 0xF04) (b4 gen)) (slotBase u.slot + 0xF00) (b4 hdMark) }
    s.wr SEC_UPDATE (w32 (6 * 2 ^ 29 + u.slot * 2 ^ 28 + 100))
  else report (s.wr SEC_UPDATE (w32 (7 * 2 ^ 29 + u.slot * 2 ^ 28 + min 2 result * 2 ^ 24))) 194 0xFFFF
def execFwUpdateEnd (result : Nat) (s : State) : Res :=
  .next (match s.update with
    | some u => updateEnd s u result
    | none => s)

-- Attestation (R552–R554)
def engineEntry (s : State) (e : Nat) : List Byte :=
  let p := s.ppeEng e
  b4 (ppeState s e) ++ (if p.loaded && enginePresent s e then digestBytes p.digest else zeros 32)
def ppeHash (s : State) : BitVec 256 := Config.sha256 ((List.range 64).flatMap (engineEntry s))
/-- Eight digest registers as the bytes they hold. -/
def digestAt (s : State) (f : Nat → Nat) : List Byte := (List.range 8).flatMap (fun i => (bw (s.rd (f i))).reverse)
def quote (s : State) (nonce : List Byte) : List Byte :=
  b4 0x51544531 ++ b2 1 ++ b2 0 ++ b4 s.devId ++ bw (s.rd GLB_ID) ++ nonce ++ digestAt s SEC_ROMDIG ++ digestAt s SEC_FWDIG ++
  b4 s.fwSvn ++ b4 s.fwVersion ++ bw (s.rd SEC_BOOT) ++ bw (s.rd SEC_FUSE) ++ digestBytes (ppeHash s) ++ digestBytes s.ext.cfg ++
  b8 s.cfgBeat ++ timeBytes (timeNow s) ++ b1 (tflagsNow s) ++ zeros 3 ++ b8 s.beat
def signature (n : Nat) (m : List Byte) : List Byte := (leBytes 384 (Config.identSign n m).toNat).reverse
def execAttest (q : Req) (w : At) (s : State) : Res :=
  let s := setClock { s with cyc := w.cyc % 512 } w.tclk
  let m := quote s q.params
  .next (command s 0x0F02 q (q.params.length == 32) [(s.identBad, ST_HW_ERROR)]
    (reply s.useFree 0x0F02 q ST_OK (m ++ signature s.free m)))

-- Sessions (R555–R557)
def operatorOf (s : State) (n : Nat) : Option Operator := (s.store.operators.find? (fun p => p.1 == n)).map Prod.snd
def setOperator (s : State) (n : Nat) (o : Option Operator) : State :=
  let rest := s.store.operators.filter (fun p => p.1 != n)
  { s with store := { s.store with operators := (match o with | some o => (n, o) :: rest | none => rest) } }
def openSessions (s : State) : List (Nat × Session) :=
  (List.range 16).filterMap (fun i => (s.session (i + 1)).map (fun x => (i + 1, x)))
def showSess (s : State) : State := s.wr SEC_SESS (w32 (bitsSet ((openSessions s).map (fun p => p.1 - 1))))
def closeSession (s : State) (n : Nat) : State := showSess (s.setSession n none)
/-- The header of a KEY_EXCHANGE request as it came (R65). -/
def requestHeader (s : State) (op : Nat) (q : Req) : List Byte :=
  b2 0xB150 ++ b1 1 ++ b1 (if 0 < q.session then 2 else 0) ++ b4 s.devId ++ bw q.seq ++ b2 op ++ b2 q.params.length ++
  b2 q.session ++ zeros 6
def kxOp (p : List Byte) : Nat := u8 p 0
def kxCounter (p : List Byte) : Nat := u64 p 4
/-- The number that the exchange opens: the lowest free one, or the operator's older session when it holds two, or one and
no number is free. -/
def kxSlot (s : State) (op : Nat) : Option Nat :=
  let l := openSessions s
  let own := l.filter (fun p => p.2.op == op)
  let older := own.foldr (fun p b => match b with
    | some x => if p.2.order ≤ x.2.order then some p else some x
    | none => some p) (none : Option (Nat × Session))
  let free := (List.range 16).find? (fun i => (s.session (i + 1)).isNone)
  match free with
  | some i => if 2 ≤ own.length then older.map Prod.fst else some (i + 1)
  | none => older.map Prod.fst
/-- R556's checks in its order; firmware whose identity check failed answers every exchange of the right length with
ST_HW_ERROR (R551). -/
def kxFail (s : State) (q : Req) : Option Nat :=
  let p := q.params
  match operatorOf s (kxOp p) with
  | none => firstFail [(s.identBad, ST_HW_ERROR), (decide (7 < kxOp p) || !zeroAt p 1 3, ST_BAD_PARAM), (true, ST_LOCKED)]
  | some o => firstFail [(s.identBad, ST_HW_ERROR), (decide (7 < kxOp p) || !zeroAt p 1 3, ST_BAD_PARAM),
      (!Config.rsaVerify o.modulus o.exponent (requestHeader s 0x0F03 q ++ p.take 396) (slice p 396 384), ST_AUTH_FAIL),
      (decide (kxCounter p ≤ o.counter), ST_REPLAY),
      (((Config.oaepUnwrap (slice p 12 384)).getD []).length != 32, ST_AUTH_FAIL)]
/-- The failure is answered on a host mailbox; over the network it is discarded, counted and reported. -/
def kxRefuse (s : State) (q : Req) (st : Nat) : State :=
  let s := s.addR SEC_KXFAIL 1
  if isNet q.src then report ((s.addSat MBX_AUTHCNT 0xFFFFFFFF 1).release q) 195 0xFFFF
  else if st = ST_AUTH_FAIL then answerAs s 0x0F03 q false (b2 st ++ b2 0)
  else deny s 0x0F03 q st
def kxOpen (s : State) (q : Req) (n : Nat) : State :=
  let p := q.params
  let key : BitVec 256 := BitVec.ofNat 256 (beAt ((Config.oaepUnwrap (slice p 12 384)).getD []) 0 32)
  let s := setOperator s (kxOp p) ((operatorOf s (kxOp p)).map (fun o => { o with counter := kxCounter p }))
  let body := b2 n ++ b2 0 ++ b4 (s.rf SEC_SESSTMO 15 0)
  let confirm := digestBytes (Config.hmac key (replyHeader s 0x0F03 q (decide (0 < q.session)) false 44 ++ body))
  let s := reply (s.addR SEC_KXCNT 1) 0x0F03 q ST_OK (body ++ confirm)
  showSess { s.setSession n (some ⟨key, kxOp p, true, 0, 0, s.sessNo⟩) with sessNo := s.sessNo + 1 }
def keyExchange (s : State) (q : Req) : State :=
  if q.params.length ≠ 780 then kxRefuse s q ST_BAD_LENGTH
  else match kxFail s q with
  | some st => kxRefuse s q st
  | none => match kxSlot s (kxOp q.params) with
    | some n => kxOpen s q n
    | none => deny s 0x0F03 q ST_BUSY
def execKeyExchange (q : Req) (s : State) : Res :=
  .next (command s 0x0F03 q true [] (keyExchange s q))
/-- The reply to the command that closes its own session goes out under the old key (R557). -/
def execKeyClose (q : Req) (s : State) : Res :=
  .next (command s 0x0F04 q (q.params.length == 0) [(q.session == 0, ST_STATE)]
    (closeSession (reply s 0x0F04 q ST_OK []) q.session))
def execSessionIdleTimeout (n : Nat) (s : State) : Res := .next (if (s.session n).isSome then closeSession s n else s)
def closeOf (s : State) (op : Nat) : State :=
  forEach ((openSessions s).filter (fun p => p.2.op == op)) s (fun (p : Nat × Session) s => closeSession s p.1)
def operatorNew (p : List Byte) : Option Operator :=
  if (slice p 8 384).all (fun b => b == 0) then none else some ⟨slice p 8 384, u32 p 4, u16 p 2, 0⟩
def execOperatorSet (q : Req) (s : State) : Res :=
  let p := q.params
  .next (command s 0x0F05 q (p.length == 392) [(decide (7 < u8 p 0) || u8 p 1 != 0, ST_BAD_PARAM)]
    (closeOf (setOperator (reply s 0x0F05 q ST_OK []) (u8 p 0) (operatorNew p)) (u8 p 0)))

-- Identity, fuses and policy (R547, R548, R558, R560)
def execIdentityGet (q : Req) (s : State) : Res :=
  .next (command s 0x0F06 q (q.params.length == 0) []
    (reply s 0x0F06 q ST_OK (b4 Config.identCert.length ++ Config.identCert)))
def setFuses (s : State) (f : Fuses) : State := showFuses { s with fuses := f }
def rollbackCommit (s : State) : State := setFuses s { s.fuses with svn := max s.fuses.svn (min 64 s.fwSvn) }
def execRollbackCommit (q : Req) (s : State) : Res :=
  .next (command s 0x0F07 q (q.params.length == 0) [(updating s, ST_BUSY)]
    (reply (rollbackCommit s) 0x0F07 q ST_OK (b4 (max s.fuses.svn (min 64 s.fwSvn)))))
def policySet (s : State) (n : Nat) : State :=
  { s.wr SEC_PPEPOL (w32 n) with store := { s.store with ppePolicy := n } }
def execPpePolicySet (q : Req) (s : State) : Res :=
  let n := u8 q.params 0
  .next (command s 0x0F08 q (q.params.length == 4)
    [(decide (2 < n) || !zeroAt q.params 1 3, ST_BAD_PARAM), (n == 2 && s.fuses.ownerHash.isNone, ST_STATE)]
    (reply (policySet s n) 0x0F08 q ST_OK []))
def okHash (p : List Byte) : BitVec 256 := keyHash (slice p 8 384) (u32 p 4)
def okRevoke (p : List Byte) : Bool := bit (w32 (u32 p 0)) 0
/-- The running firmware was verified with this key. -/
def runsUnder (s : State) (x : BitVec 256) : Bool :=
  let h := runningHeader s
  s.ownerRunning && keyHash (slice h 448 384) (u32 h 832) == x
def okChecks (s : State) (p : List Byte) : List (Bool × Nat) :=
  let x := okHash p
  let fused := match s.fuses.ownerHash with
    | some y => x != y || !okRevoke p
    | none => false
  [(decide (1 < u32 p 0), ST_BAD_PARAM), (fused, ST_LOCKED), (okRevoke p && !runsUnder s x, ST_STATE)]
def ownerKeySet (s : State) (p : List Byte) : State :=
  let s := { s with store := { s.store with ownerKey := slice p 8 384, ownerExp := u32 p 4 } }
  setFuses s { s.fuses with ownerHash := some (okHash p), noVendor := s.fuses.noVendor || okRevoke p }
def execOwnerKeySet (q : Req) (s : State) : Res :=
  .next (command s 0x0F09 q (q.params.length == 392) (okChecks s q.params)
    (reply (ownerKeySet s q.params) 0x0F09 q ST_OK []))

-- Factory test unlock (R559)
/-- A vendor-key signature, the vendor key being that of the running slot's header (as R558). -/
def vendorSigned (s : State) (m sig : List Byte) : Bool :=
  let h := runningHeader s
  u8 h 6 == 0 && Config.rsaVerify (slice h 448 384) (u32 h 832) m sig
def tuLocked (s : State) : Bool := !s.rb FLT_TEST 1 || s.fuses.noVendor
def tuChallenge (s : State) (q : Req) : State :=
  let c : BitVec 256 := BitVec.ofNat 256 s.fresh
  reply { s.useFree with challenge := some c } 0x0F0A q ST_OK (digestBytes c)
def tuOk (s : State) (sig : List Byte) : Bool :=
  match s.challenge with
  | some c => vendorSigned s (b8 Config.fusedSerial ++ digestBytes c) sig
  | none => false
def tuUnlock (s : State) (q : Req) : State :=
  report (reply { s.setB FLT_TEST 0 true with challenge := none } 0x0F0A q ST_OK []) 199 0xFFFF
/-- The two forms of TEST_UNLOCK are told apart by their length. -/
def testUnlock (s : State) (q : Req) : State :=
  command s 0x0F0A q (q.params.length == 0 || q.params.length == 384)
    [(tuLocked s, ST_LOCKED), (q.params.length == 384 && s.challenge.isSome && !tuOk s q.params, ST_SIG_FAIL),
     (q.params.length == 384 && s.challenge.isNone, ST_STATE)]
    (if q.params.length = 0 then tuChallenge s q else tuUnlock s q)
def execTestUnlockChallenge (q : Req) (s : State) : Res := .next (testUnlock s q)
def execTestUnlock (q : Req) (s : State) : Res := .next (testUnlock s q)

end Sys2Proof.Machine
end

