-- ==== Sys2Proof/Machine/Register.lean ====
section
/-! DEFINITION. Register accesses with effects of their own (R6, R15–R17, R43, R49, R377, R582–R586): reads that latch or
pop, and writes of every register. -/
namespace Sys2Proof.Machine

-- Reads (R16, R584, R585)
/-- The latches that a master has of its own: the host's and those of management cores 1–4. -/
def latchOwner : Master → Option Nat
  | .host => some 0
  | .mgmt i => if 1 ≤ i ∧ i ≤ 4 then some i else none
  | _ => none
def latchKey (m a : Nat) : Nat := m * 2 ^ 28 + a
def latchOf (s : State) (m a : Nat) : Word := Sparse.get wordDflt s.latch (latchKey m a)
/-- A read of a master latches values for its next reads of those registers. -/
def latchPut (s : State) (m : Master) (l : List (Nat × Word)) : State :=
  match latchOwner m with
  | some k => forEach l s (fun x s => { s with latch := Sparse.set wordDflt s.latch (latchKey k x.1) x.2, latched := insN (latchKey k x.1) (s.latched.filter (fun y => y != latchKey k x.1)) })
  | none => s
/-- First words of the _LO/_HI pairs. -/
def loBases : List Nat := [0x10, 0x28, 0x38, 0x110030, 0x110040, 0x120028, 0x1000018, 0x1000024, 0x100003C, 0x120001C, 0x1400018, 0x1400130, 0x1400138, 0x1600008, 0x160001C, 0x160040C, 0x160041C, 0x1700034, 0x1708010, 0x1780108, 0x1780120, 0x3000008, 0x3100040, 0x3200100, 0x3200304, 0x3300010]
def isLo (a : Nat) : Bool :=
  match regAt a with
  | some (r, _) => loBases.contains r.base
  | none => false
/-- A read that returns a register and latches others. -/
def readLatch (s : State) (m : Master) (a : Nat) (more : List Nat) : State :=
  if addrAbsent s a then s.put (.readData m 0)
  else latchPut (s.put (.readData m (s.rd a))) m (more.map (fun x => (x, s.rd x)))
/-- What a read of a register gives beside the reads of R584: the word latched for this master, else the live value, and
0 for the words of a stamp (R585). The FCLK cycle of the live GLB_BEATPOS is that of the last instant given. -/
def heldLatch (s : State) (m : Master) (a : Nat) : Option Word :=
  match latchOwner m with
  | some k => if s.latched.contains (latchKey k a) then some (latchOf s k a) else none
  | none => none
def liveWord (s : State) (a : Nat) : Word :=
  if a = GLB_BEATPOS then w32 s.cyc
  else if (List.range 17).any (fun c => a == TDC_CHSTAMP1 c || a == TDC_CHSTAMP2 c || a == TDC_CHSTAMP3 c) then 0
  else regShown s a
def plainRead (s : State) (m : Master) (a : Nat) : State :=
  s.put (.readData m (match heldLatch s m a with | some v => v | none => liveWord s a))
/-- The first read of TIM_RAW_LO after a read of TIM_NOW_LO returns what that one latched (R409). -/
def rawLatched (s : State) (m : Master) : Option (Nat × Word) :=
  match latchOwner m with
  | some k => if s.latched.contains (latchKey k TIM_RAW_LO) then some (k, latchOf s k TIM_RAW_LO) else none
  | none => none
def rawRead (s : State) (m : Master) (tclk : Nat) : State :=
  match rawLatched s m with
  | some (k, v) => { s.put (.readData m v) with latched := s.latched.filter (fun y => y != latchKey k TIM_RAW_LO) }
  | none => readLatch (setClock s tclk) m TIM_RAW_LO [TIM_RAW_HI]
/-- GLB_BEAT_LO latches GLB_BEAT_HI and the FCLK cycle (R24). -/
def beatRead (s : State) (m : Master) (cyc : Nat) : State :=
  latchPut (readLatch { s with cyc := cyc } m GLB_BEAT_LO [GLB_BEAT_HI]) m [(GLB_BEATPOS, w32 cyc)]
def execGlbBeatLoRead (m : Master) (cyc : Nat) (s : State) : Res :=
  .next (onBar s m (beatRead s m (if fclkRuns s then cyc % 512 else s.cyc)))
def nowRead (s : State) (m : Master) (tclk : Nat) : State :=
  readLatch (setClock s tclk) m TIM_NOW_LO [TIM_NOW_HI, TIM_NOW_X, TIM_RAW_LO, TIM_RAW_HI]
def execTimNowLoRead (m : Master) (tclk : Nat) (s : State) : Res := .next (onBar s m (nowRead s m tclk))
def calRead (s : State) (m : Master) (core : Nat) : State :=
  readLatch s m (CNV_CALTIME_LO core) [CNV_CALTIME_HI core, CNV_CALTIME_X core]
def execCnvCaltimeLoRead (m : Master) (core : Nat) (s : State) : Res :=
  .next (if core < 32 then onBar s m (calRead s m core) else s)
/-- The four words of a popped stamp (R432, R442): zero when nothing was popped. -/
def stampWords (c : Nat) : List Stamp → List Word
  | [] => [0, 0, 0, 0]
  | x :: _ =>
    let b := stampBytes c x
    let sec := leAt b 0 6
    [w32 (2 ^ 31 + u32 b 6), w32 sec, w32 (sec / 2 ^ 32 + 65536 * u16 b 10), w32 (u32 b 12)]
def stampRead (s : State) (m : Master) (c : Nat) : State :=
  let r := tdcPop s c 1
  let w := stampWords c r.1
  latchPut (r.2.put (.readData m (nth 0 w 0))) m [(TDC_CHSTAMP1 c, nth 0 w 1), (TDC_CHSTAMP2 c, nth 0 w 2), (TDC_CHSTAMP3 c, nth 0 w 3)]
def execTdcChstamp0Read (m : Master) (ch : Nat) (s : State) : Res :=
  .next (if ch < 17 then onBar s m (stampRead s m ch) else s)
/-- A read of one register by a master that reaches it, with its effect if it has one (R584). -/
def readReg (s : State) (m : Master) (a tclk : Nat) : State :=
  if a = TIM_RAW_LO then rawRead s m tclk
  else if a = TIM_NOW_LO then nowRead s m tclk
  else if a = GLB_BEAT_LO then beatRead s m s.cyc
  else if a = MBX_DROPCNT ∨ a = MBX_AUTHCNT ∨ a = MBX_REPLAYCNT then (s.put (.readData m (s.rd a))).wr a 0
  else match inArray a 0x1000 4 256, inArray a (CNV_CALTIME_LO 0) 0x1000 32, inArray a (TDC_CHSTAMP0 0) 0x40 17 with
    | some n, _, _ => lockRead s n [m]
    | none, some c, _ => calRead s m c
    | none, none, some c => stampRead s m c
    | none, none, none => if isLo a then readLatch s m a [a + 4] else plainRead s m a

-- BAR0 (R376, R377)
/-- A memory window of BAR0: mailbox data, DMA SRAM, MSI-X table and pending bits. -/
def inWindow (a : Nat) : Bool :=
  (decide (0x80000 ≤ a) && decide (a < 0xD0000)) || (decide (0x3080000 ≤ a) && decide (a < 0x3100000)) ||
  (decide (0x3F00000 ≤ a) && decide (a < 0x3F08100))
/-- A byte of the MSI-X table or of its pending bits (R376). -/
def msixByteAt (s : State) (o : Nat) : Byte :=
  if o < 0x8000 then BitVec.ofNat 8 (fld (msixWord s (o / 16) (o / 4 % 4)) (8 * (o % 4) + 7) (8 * (o % 4)))
  else BitVec.ofNat 8 (bitsSet ((List.range 8).filter (fun i => s.pba.contains (8 * (o - 0x8000) + i))))
def windowRead (s : State) (m : Master) (a n : Nat) : State :=
  if a < 0xD0000 then
    let r := mailboxRead s m a n
    r.1.put (.readBytes m r.2)
  else if a < 0x3100000 then s.put (.readBytes m (Mem.read s.sram (a - 0x3080000) n))
  else s.put (.readBytes m ((List.range n).map (fun i => msixByteAt s (a - 0x3F00000 + i))))
/-- A word of the mask memory (R239): DIR and the vertex count of the current version, then its vertices. -/
def maskWord (s : State) (o : Nat) : Word :=
  let k := maskOf s (o / 0x400)
  if o % 0x400 = 0 then w32 (k.dir * 65536 + k.verts.length)
  else match k.verts[o % 0x400 / 4 - 1]? with
    | some (f, l) => w32 (f + 65536 * lowBits 16 l)
    | none => 0
/-- One DW: of the mask memory, or a register. -/
def dwRead (s : State) (m : Master) (tclk a : Nat) : State :=
  if 0x1710000 ≤ a ∧ a < 0x1720000 then s.put (.readData m (maskWord s (a - 0x1710000))) else readReg s m a tclk
/-- No register lies in the DWs of an access (R377). -/
def unmapped (a n : Nat) : Bool :=
  (List.range ((a % 4 + n + 3) / 4)).all (fun i => (regAt (a / 4 * 4 + 4 * i)).isNone && !decide (0x1710000 ≤ a + 4 * i ∧ a < 0x1720000))
/-- A window takes what the host may send in one packet: the programmed payload in a write, the read-request size in a read. -/
def windowOk (s : State) (m : Master) (n limit : Nat) : Bool := m != .host || decide (n ≤ limit)
/-- A register access is one or two aligned DW. -/
def shapeOk (a n : Nat) : Bool := a % 4 == 0 && (n == 4 || n == 8)
/-- An access by the host that breaks these rules (R377). -/
def badAccess (s : State) (m : Master) : State := if m = .host then s.setB LNK_PCISTAT 0 true else s
/-- A read of `n` bytes at a BAR0 offset (R377): windows take any length up to the read-request size, registers one or two aligned
DW, in ascending order; offsets that no block maps read 0; any other read of the host's reads all ones and sets BADACC. -/
def barRead (s : State) (m : Master) (a n tclk : Nat) : State :=
  if inWindow a ∧ windowOk s m n s.pci.mrrs then windowRead s m a n
  else if !inWindow a && shapeOk a n then
    let s := dwRead s m tclk a
    if n = 8 then dwRead s m tclk (a + 4) else s
  else if !inWindow a && unmapped a n then s.put (.readBytes m (zeros n))
  else badAccess (s.put (.readData m 0xFFFFFFFF)) m
/-- PAIR_LO_READ: a read of the _LO of a pair latches its _HI. The table has no row for a read of any other register or of
a memory window, and this row carries those too (log 88). -/
def execPairLoRead (m : Master) (addr : Span) (tclk : Nat) (s : State) : Res :=
  .next (onBar s m (barRead s m addr.base addr.len tclk))

-- Software events (R586)
def swevt (s : State) (v : Word) : State := if fld v 9 0 < 512 then s else fire s (fld v 9 0)
def execGlbSwevtWrite (m : Master) (v : Word) (s : State) : Res := .next (onBar s m (swevt s v))

-- Shadowed registers (R43, R49)
/-- The fields that a write sets, and those that writing 1 clears (R15, R17). -/
def fieldsWrite (s : State) (a : Nat) (r : RegRow) (v : Word) : State :=
  let old := s.rd a
  s.wr a ((((old &&& ~~~ w32 r.rw) ||| (v &&& w32 r.rw))) &&& ~~~ (v &&& w32 r.w1c))
def shadowRefused (s : State) (m : Master) : State :=
  match m with
  | .host => report (s.setB GLB_CMTSTAT 2 true) 229 0xFFFF
  | _ => s.put (.busError m)
def shadowWrite (s : State) (m : Master) (a : Nat) (v : Word) : State :=
  match regAt a, groupOf a with
  | some (r, _), some g => if addrAbsent s a then s else if groupLocked s g then shadowRefused s m else fieldsWrite s a r v
  | _, _ => s
def execShadowRegisterWrite (m : Master) (addr : Nat) (v : Word) (s : State) : Res := .next (onBar s m (shadowWrite s m addr v))

-- Registers whose writes have rules of their own
/-- Keep a field of the register as it is. -/
def keepF (s : State) (a hi lo : Nat) (v : Word) : Word := setFld v hi lo (s.rf a hi lo)
/-- Values that a register's own text ignores, or that lie outside its range: those fields keep their values. -/
def keepBad (s : State) (a : Nat) (v : Word) : Word :=
  if a = PWR_WAKECFG then (if fld v 17 16 = 3 then keepF s a 17 16 v else v)
  else if a = MEM_CTRL then (if fld v 15 8 < 1 ∨ 168 < fld v 15 8 then keepF s a 15 8 v else v)
  else if a = SEC_SESSTMO then (if fld v 15 0 < 10 then keepF s a 15 0 v else v)
  else if a = FLT_LOGWM then (if fld v 12 0 < 1 ∨ 4096 < fld v 12 0 then keepF s a 12 0 v else v)
  else if a = TIM_CTRL then (if fld v 31 16 = 0 then keepF s a 31 16 v else v)
  else if a = TIM_STEPMAX then (if 1000000 < v.toNat then s.rd a else v)
  else if a = TIM_RATEMAX then (if v.toNat < 1 ∨ 30000 < v.toNat then s.rd a else v)
  else if a = LNK_NVTMO then (if v.toNat < 100 ∨ 60000 < v.toNat then s.rd a else v)
  else if a = TDC_WARM then
    let v := if fld v 28 16 = 0 then keepF s a 28 16 v else v
    if fld v 15 0 = 0 then keepF s a 15 0 v else v
  else if (List.range 17).any (fun c => a == TDC_CHCTRL c) then
    let v := if fld v 30 29 = 3 then keepF s a 30 29 v else v
    if fld v 11 0 = 0 then keepF s a 11 0 v else v
  else if a = GLB_GPIOOE 1 ∨ a = GLB_GPIOOUT 1 then v &&& 0xFFFF
  else if (List.range 16).any (fun q => a == LNK_EQBASE_HI q && !qHost s q) then v &&& 0xFF
  else if (List.range 3).any (fun n => a == DSP_LCTRL n) then (if fld v 10 8 = 0 then keepF s a 10 8 v else v)
  else v
/-- A write that is ignored whole. -/
def ignoredWhole (s : State) (a : Nat) (v : Word) : Bool :=
  if 0x40 ≤ a ∧ a < 0x60 then decide (24 < fld v 28 24) || decide (2 ^ fld v 28 24 ≤ fld v 23 0)
  else if a = GLB_PINCTRL then fld v 23 16 == 0
  else if a = TIM_GCTRL then
    aligning s || fld v 23 16 == 0 || decide (fld v 11 8 < 4 ∨ 12 < fld v 11 8) || fld v 7 0 == 0
  else if 0x3400000 ≤ a ∧ a < 0x3410000 then monBad a v
  else if (List.range 128).any (fun n => a == DMA_PROG_LO n || a == DMA_PROG_HI n) then chanRuns s ((a - 0x3000000) / 0x100)
  else false
/-- FLT_SRCCFG, four sources at a time: ignored whole when it would bring a source below its minimum or disable one that
may not be; reserved and absent sources ignore their byte (R524). -/
def srcCfgWrite (s : State) (w : Nat) (v : Word) : State :=
  let live := (List.range 4).filter (fun i => !srcReserved (4 * w + i) && !srcAbsent s (4 * w + i))
  let byte := fun (i : Nat) => fld v (8 * i + 7) (8 * i) / 64 * 64 + fld v (8 * i + 1) (8 * i)
  if live.any (fun i => cfgByteBad (4 * w + i) (byte i)) then s
  else forEach live s (fun i s => setSrcCfg s (4 * w + i) (byte i))
/-- TIM_SERVO and TIM_RATE (R413, R426): SRC 5–7 are ignored whole; the rate is writable in FREE. -/
def servoRegWrite (s : State) (v : Word) : State :=
  if 4 < fld v 31 29 then s
  else
    let was := servoSrc s
    let v := if fld v 15 0 = 0 then keepF s TIM_SERVO 15 0 v else v
    let s := s.wr TIM_SERVO (v &&& 0xE0FFFFFF)
    if servoSrc s = was then s else servoRestart s
def rateWrite (s : State) (v : Word) : State := if servo s = SV_FREE then (rebase s).wr TIM_RATE v else s
/-- LNK_EQCTRL (R404): a value out of range is ignored whole; while EN = 1 only EN changes. -/
def eqctrlBad (s : State) (v : Word) : Bool :=
  decide (fld v 23 20 < 4 ∨ 12 < fld v 23 20) || decide (8 / 2 ^ s.rf LNK_ETHMODE 1 0 ≤ fld v 19 16) ||
  (fld v 9 0 != 0 && decide (fld v 9 0 < 512))
def eqctrlWrite (s : State) (q : Nat) (v : Word) : State :=
  if eqctrlBad s v then s
  else if queueOn s q then (if bit v 31 then s else queueOff s q)
  else
    let s := s.wr (LNK_EQCTRL q) (v &&& 0xC0FF03FF)
    if qHost s q then s else s.wr (LNK_EQBASE_HI q) (s.rd (LNK_EQBASE_HI q) &&& 0xFF)
/-- PPE_CTRL with CLRMAX (R299). -/
def ppeCtrlWrite (s : State) (e : Nat) (v : Word) : State :=
  let s := s.wr (PPE_CTRL e) (v &&& 0xF)
  if bit v 8 then (s.setF (PPE_CYC e) 9 0 0).setF (PPE_HOLD e) 28 16 0 else s
/-- FLT_CTRL: LOGSTOP and what FLT_LOGSTAT shows of it. -/
def logStopWrite (s : State) (v : Word) : State :=
  (s.wr FLT_CTRL (v &&& 1)).setB FLT_LOGSTAT 30 (bit v 0 && decide (4096 ≤ s.rf FLT_LOGSTAT 12 0))
/-- What a write leaves behind it: counts and records that clear with the last bit of their register (R42, R85). -/
def afterWrite (s : State) (a : Nat) (v : Word) : State :=
  if a = TDC_WARM then warmFollow s else
  if a = GLB_OVRSTAT ∧ s.rf GLB_OVRSTAT 6 0 = 0 then ({ s with bt := { s.bt with ovrs := [] } }).wr GLB_OVRCNT 0
  else if a = MBX_STAT ∧ s.rf MBX_STAT 3 0 = 0 then s.wr MBX_ERRSRC 0
  else if a = PWR_TEMP ∧ bit v 31 then s.setF PWR_TEMP 15 8 (s.rf PWR_TEMP 7 0)
  else s
/-- A write that follows a rule of its own and not the field types alone: none for every other register. -/
def ruledGlobal (s : State) (m : Master) (a : Nat) (v : Word) : Option State :=
  if a = GLB_SWEVT then some (swevt s v)
  else if a = FLT_CTRL then some (logStopWrite s v)
  else if a = FLT_CLSPEND then some (ackClasses s v)
  else if a = FLT_INJECT then some (if s.rb FLT_TEST 0 then inject s (fld v 7 0) (fld v 9 8) (fld v 31 16) (bit v 10) else s)
  else if a = CLK_SYNC then some (syncWrite s v)
  else if a = TIM_SERVO then some (servoRegWrite s v)
  else if a = TIM_RATE then some (rateWrite s v)
  else if a = DSP_CMT then some (dspCmtWrite s v)
  else if a = MON_FWCTRL then some (if monBad a v then s else fwctrlWrite s v)
  else match inArray a 0x1000 4 256 with
  | some n => some (if lockable m ∧ lockOwner s n = some (masterId m) ∧ fld v 6 0 = masterId m then setLock s n none else s)
  | none => match inArray a 0x20040 4 8 with
    | some i => some (clearSticky s i v)
    | none => (inArray a 0x20100 4 64).map (fun w => srcCfgWrite s w v)
def ruledMailbox (s : State) (m : Master) (a : Nat) (v : Word) : Option State :=
  match inArray a 0x40100 0x10 8 with
  | some n => some (if m = .host then ringCommand s n v else s)
  | none => match inArray a 0x40204 0x10 8 with
    | some n => some (s.wr (MBX_HRSTAT n) 0)
    | none => match inArray a 0x40400 4 64 with
      | some e =>
        let s := s.w1c (MBX_PESTAT e) 0x60 v
        some (if bit v 8 ∧ outFull s e then engineIrq (setOut s e false) e 1 else s)
      | none => (inArray a 0x40600 0x10 8).map (fun c => ringCluster s m c v)
def ruledUnit (s : State) (m : Master) (a : Nat) (v : Word) : Option State :=
  match inArray a 0x1000000 0x1000 32 with
  | some n => some (pwrdnWrite s n v)
  | none => match inArray a 0x1000008 0x1000 32 with
    | some n => some (bgcalWrite s n v)
    | none => match inArray a 0x2000000 0x10000 64 with
      | some e => some (ppeCtrlWrite s e v)
      | none => match inArray a 0x2400000 0x40 8 with
        | some c => some (setGate s c (bit v 0))
        | none => match inArray a 0x3000000 0x100 128 with
          | some n => some (dmaCtrlWrite s m n v 0)
          | none => none
def ruledLink (s : State) (a : Nat) (v : Word) : Option State :=
  match inArray a 0x3200100 8 32 with
  | some h => some { s with hconsLo := Sparse.set wordDflt s.hconsLo h v }
  | none => match inArray a 0x3200104 8 32 with
    | some h => some (hconsApply s h (v.toNat * 2 ^ 32 + (Sparse.get wordDflt s.hconsLo h).toNat))
    | none => match inArray a 0x3200240 4 2 with
      | some p => some (nbrEnable (s.w1c (LNK_NBSTAT p) 0xE v) p (bit v 0))
      | none => match inArray a 0x3200300 0x20 16 with
        | some q => some (eqctrlWrite s q v)
        | none => none
def ruled (s : State) (m : Master) (a : Nat) (v : Word) : Option State :=
  if a < 0x40000 then ruledGlobal s m a v
  else if a < 0x50000 then ruledMailbox s m a v
  else if a < 0x1000000 then ruledGlobal s m a v
  else if a < 0x3100000 then ruledUnit s m a v
  else if 0x3200000 ≤ a ∧ a < 0x3210000 then ruledLink s a v
  else ruledGlobal s m a v
/-- One register takes one word. -/
def registerWrite (s : State) (m : Master) (a : Nat) (v : Word) : State :=
  if addrAbsent s a then s
  else if (groupOf a).isSome then shadowWrite s m a v
  else match ruled s m a v with
  | some t => t
  | none => match regAt a with
    | some (r, _) => if ignoredWhole s a v then s else afterWrite (fieldsWrite s a r (keepBad s a v)) a v
    | none => s

-- Writes of BAR0 (R376, R377)
/-- Bytes written into the MSI-X table, one by one; the pending bits are read only. -/
def msixByte (s : State) (o : Nat) (b : Byte) : State :=
  if 0x8000 ≤ o then s
  else
    let old := msixWord s (o / 16) (o / 4 % 4)
    msixWrite s (o / 4 * 4) (setFld old (8 * (o % 4) + 7) (8 * (o % 4)) b.toNat)
def msixBytes (s : State) (o : Nat) : List Byte → State
  | [] => s
  | b :: t => msixBytes (msixByte s o b) (o + 1) t
def windowWrite (s : State) (m : Master) (a : Nat) (b : List Byte) : State :=
  if a < 0xD0000 then mailboxWrite s m a b
  else if a < 0x3100000 then s.sramWrite (a - 0x3080000) (b.take (0x3100000 - a))
  else msixBytes s (a - 0x3F00000) b
/-- A write at a BAR0 offset (R377); one of a shape that its place does not take is dropped and, the host's, sets BADACC. -/
def barWrite (s : State) (m : Master) (a : Nat) (b : List Byte) : State :=
  if inWindow a ∧ windowOk s m b.length s.pci.mps then windowWrite s m a b
  else if !inWindow a && shapeOk a b.length then
    let s := registerWrite s m a (w32 (u32 b 0))
    if b.length = 8 then registerWrite s m (a + 4) (w32 (u32 b 4)) else s
  else if !inWindow a && unmapped a b.length then s
  else badAccess s m
def execRegisterWrite (m : Master) (addr : Nat) (bytes : List Byte) (s : State) : Res := .next (onBar s m (barWrite s m addr bytes))

end Sys2Proof.Machine
end

