-- ==== Sys2Proof/Machine/Dispatch.lean ====
section
/-! DEFINITION. One arm per command: its meaning, called directly. -/
namespace Sys2Proof.Machine

def exec (i : Instr) (s : State) : Host.Outcome State Fault Refusal :=
  match i with
  | .ping q => Sys2Proof.Machine.execPing q s
  | .deviceIdGet q => Sys2Proof.Machine.execDeviceIdGet q s
  | .deviceIdSet q => Sys2Proof.Machine.execDeviceIdSet q s
  | .queryCaps q => Sys2Proof.Machine.execQueryCaps q s
  | .lockPeek q => Sys2Proof.Machine.execLockPeek q s
  | .commit q w => Sys2Proof.Machine.execCommit q w s
  | .commitCopy => Sys2Proof.Machine.execCommitCopy s
  | .commitStatus q => Sys2Proof.Machine.execCommitStatus q s
  | .commitCancel q w => Sys2Proof.Machine.execCommitCancel q w s
  | .budgetCheck q => Sys2Proof.Machine.execBudgetCheck q s
  | .profileSet q w => Sys2Proof.Machine.execProfileSet q w s
  | .profileGet q => Sys2Proof.Machine.execProfileGet q s
  | .activeRead q group word => Sys2Proof.Machine.execActiveRead q group word s
  | .restartStop => Sys2Proof.Machine.execRestartStop s
  | .restartRunStart => Sys2Proof.Machine.execRestartRunStart s
  | .beatBoundary b => Sys2Proof.Machine.execBeatBoundary b s
  | .beatMark n => Sys2Proof.Machine.execBeatMark n s
  | .syncinEdge rising b => Sys2Proof.Machine.execSyncinEdge rising b s
  | .cnvDivide q w => Sys2Proof.Machine.execCnvDivide q w s
  | .calForeground q => Sys2Proof.Machine.execCalForeground q s
  | .foregroundCalEnd quad r => Sys2Proof.Machine.execForegroundCalEnd quad r s
  | .calStatus q => Sys2Proof.Machine.execCalStatus q s
  | .calAbort q => Sys2Proof.Machine.execCalAbort q s
  | .calBackground q => Sys2Proof.Machine.execCalBackground q s
  | .cnvStatus q => Sys2Proof.Machine.execCnvStatus q s
  | .cnvBgcalWrite m core v => Sys2Proof.Machine.execCnvBgcalWrite m core v s
  | .bgCalIntervalEnd core e => Sys2Proof.Machine.execBgCalIntervalEnd core e s
  | .bgStepLanding => Sys2Proof.Machine.execBgStepLanding s
  | .cnvPwrdnWrite m core v => Sys2Proof.Machine.execCnvPwrdnWrite m core v s
  | .coreReady core => Sys2Proof.Machine.execCoreReady core s
  | .overRangeEpisode core cyc ovd => Sys2Proof.Machine.execOverRangeEpisode core cyc ovd s
  | .overRangeTailEnd core s1 => Sys2Proof.Machine.execOverRangeTailEnd core s1 s
  | .pthConfig q => Sys2Proof.Machine.execPthConfig q s
  | .firLoad q => Sys2Proof.Machine.execFirLoad q s
  | .pthStatus q => Sys2Proof.Machine.execPthStatus q s
  | .fadeStart path => Sys2Proof.Machine.execFadeStart path s
  | .fadeEnd path => Sys2Proof.Machine.execFadeEnd path s
  | .coarseToFine path => Sys2Proof.Machine.execCoarseToFine path s
  | .slcConfig q => Sys2Proof.Machine.execSlcConfig q s
  | .windowLoad q => Sys2Proof.Machine.execWindowLoad q s
  | .windowLoadAbandon slice bank => Sys2Proof.Machine.execWindowLoadAbandon slice bank s
  | .traceClear q => Sys2Proof.Machine.execTraceClear q s
  | .traceRestart slice lane traces => Sys2Proof.Machine.execTraceRestart slice lane traces s
  | .slcStatus q => Sys2Proof.Machine.execSlcStatus q s
  | .denSet q => Sys2Proof.Machine.execDenSet q s
  | .denPathSet q => Sys2Proof.Machine.execDenPathSet q s
  | .denRegionSet q => Sys2Proof.Machine.execDenRegionSet q s
  | .corrSet q => Sys2Proof.Machine.execCorrSet q s
  | .denStatus q => Sys2Proof.Machine.execDenStatus q s
  | .densityFlush => Sys2Proof.Machine.execDensityFlush s
  | .densityReadoutStart => Sys2Proof.Machine.execDensityReadoutStart s
  | .densityReadoutEnd spans => Sys2Proof.Machine.execDensityReadoutEnd spans s
  | .corrIntegrationEnd => Sys2Proof.Machine.execCorrIntegrationEnd s
  | .corrBankSwap => Sys2Proof.Machine.execCorrBankSwap s
  | .corrDumpEnd => Sys2Proof.Machine.execCorrDumpEnd s
  | .trgConfig q => Sys2Proof.Machine.execTrgConfig q s
  | .trgArm q => Sys2Proof.Machine.execTrgArm q s
  | .groupArm m => Sys2Proof.Machine.execGroupArm m s
  | .trgDisarm q => Sys2Proof.Machine.execTrgDisarm q s
  | .groupDisarm m => Sys2Proof.Machine.execGroupDisarm m s
  | .trgForce q => Sys2Proof.Machine.execTrgForce q s
  | .forcedFire m => Sys2Proof.Machine.execForcedFire m s
  | .holdoffEnd m => Sys2Proof.Machine.execHoldoffEnd m s
  | .trigioPulseEnd pin => Sys2Proof.Machine.execTrigioPulseEnd pin s
  | .maskLoad q => Sys2Proof.Machine.execMaskLoad q s
  | .maskVersionRelease m => Sys2Proof.Machine.execMaskVersionRelease m s
  | .carConfig q => Sys2Proof.Machine.execCarConfig q s
  | .carArm q => Sys2Proof.Machine.execCarArm q s
  | .carStop q => Sys2Proof.Machine.execCarStop q s
  | .segmentStopClose c => Sys2Proof.Machine.execSegmentStopClose c s
  | .carStatus q => Sys2Proof.Machine.execCarStatus q s
  | .segmentEnd c => Sys2Proof.Machine.execSegmentEnd c s
  | .segmentGapEnd c => Sys2Proof.Machine.execSegmentGapEnd c s
  | .overflowResume c => Sys2Proof.Machine.execOverflowResume c s
  | .ppeLoad q => Sys2Proof.Machine.execPpeLoad q s
  | .ppeStart q => Sys2Proof.Machine.execPpeStart q s
  | .ppeStop q => Sys2Proof.Machine.execPpeStop q s
  | .ppeTaskSet q => Sys2Proof.Machine.execPpeTaskSet q s
  | .ppeStatus q => Sys2Proof.Machine.execPpeStatus q s
  | .ppeMemWrite q => Sys2Proof.Machine.execPpeMemWrite q s
  | .ppeMemRead q => Sys2Proof.Machine.execPpeMemRead q s
  | .ppeCluster q => Sys2Proof.Machine.execPpeCluster q s
  | .taskDispatch e => Sys2Proof.Machine.execTaskDispatch e s
  | .taskBudgetExpiry e => Sys2Proof.Machine.execTaskBudgetExpiry e s
  | .ppeBundleIssue e stall => Sys2Proof.Machine.execPpeBundleIssue e stall s
  | .ppeInterrupt e hold idle => Sys2Proof.Machine.execPpeInterrupt e hold idle s
  | .mbCtlIntake e => Sys2Proof.Machine.execMbCtlIntake e s
  | .mbCtlOutring e => Sys2Proof.Machine.execMbCtlOutring e s
  | .clusterGate c => Sys2Proof.Machine.execClusterGate c s
  | .clusterWake c => Sys2Proof.Machine.execClusterWake c s
  | .streamSet q => Sys2Proof.Machine.execStreamSet q s
  | .streamStatus q => Sys2Proof.Machine.execStreamStatus q s
  | .volFormat q => Sys2Proof.Machine.execVolFormat q s
  | .volFormatDone v => Sys2Proof.Machine.execVolFormatDone v s
  | .volStatus q => Sys2Proof.Machine.execVolStatus q s
  | .hostRingWrite stream => Sys2Proof.Machine.execHostRingWrite stream s
  | .ocHconsWrite h hi v => Sys2Proof.Machine.execOcHconsWrite h hi v s
  | .chunkWrite v => Sys2Proof.Machine.execChunkWrite v s
  | .chunkFlushTime v => Sys2Proof.Machine.execChunkFlushTime v s
  | .datagramLaunch stream tclk => Sys2Proof.Machine.execDatagramLaunch stream tclk s
  | .memRegionSet q => Sys2Proof.Machine.execMemRegionSet q s
  | .memStatus q => Sys2Proof.Machine.execMemStatus q s
  | .memRetiredRead q => Sys2Proof.Machine.execMemRetiredRead q s
  | .arbWindowEnd uses => Sys2Proof.Machine.execArbWindowEnd uses s
  | .hbmRefresh chan => Sys2Proof.Machine.execHbmRefresh chan s
  | .stackOverTemperature stack temp => Sys2Proof.Machine.execStackOverTemperature stack temp s
  | .retrain g => Sys2Proof.Machine.execRetrain g s
  | .retrainEnd chan ok => Sys2Proof.Machine.execRetrainEnd chan ok s
  | .parityError chan replays persist => Sys2Proof.Machine.execParityError chan replays persist s
  | .patrolScrub h => Sys2Proof.Machine.execPatrolScrub h s
  | .rowRepair chan page spares => Sys2Proof.Machine.execRowRepair chan page spares s
  | .bar2Access write x n bytes h => Sys2Proof.Machine.execBar2Access write x n bytes h s
  | .dmaStart q fe => Sys2Proof.Machine.execDmaStart q fe s
  | .dmaAbort q => Sys2Proof.Machine.execDmaAbort q s
  | .dmaStatus q => Sys2Proof.Machine.execDmaStatus q s
  | .dmaSramWrite q => Sys2Proof.Machine.execDmaSramWrite q s
  | .dmaCtrlStart m n v fe => Sys2Proof.Machine.execDmaCtrlStart m n v fe s
  | .dmaCtrlAbort m n v => Sys2Proof.Machine.execDmaCtrlAbort m n v s
  | .move n => Sys2Proof.Machine.execMove n s
  | .loop n fe => Sys2Proof.Machine.execLoop n fe s
  | .wait n fe => Sys2Proof.Machine.execWait n fe s
  | .waitComplete n fe => Sys2Proof.Machine.execWaitComplete n fe s
  | .waitTimeout n => Sys2Proof.Machine.execWaitTimeout n s
  | .dmaSignal n fe => Sys2Proof.Machine.execDmaSignal n fe s
  | .dmaEnd n => Sys2Proof.Machine.execDmaEnd n s
  | .burstStart n cyc => Sys2Proof.Machine.execBurstStart n cyc s
  | .burstEnd n data err h fe => Sys2Proof.Machine.execBurstEnd n data err h fe s
  | .linkStatus q => Sys2Proof.Machine.execLinkStatus q s
  | .ethMode q => Sys2Proof.Machine.execEthMode q s
  | .ethIfSet q => Sys2Proof.Machine.execEthIfSet q s
  | .ethFilterSet q => Sys2Proof.Machine.execEthFilterSet q s
  | .nbrSet q => Sys2Proof.Machine.execNbrSet q s
  | .nvmeReset q => Sys2Proof.Machine.execNvmeReset q s
  | .nvmeInfo q => Sys2Proof.Machine.execNvmeInfo q s
  | .nvmeRead q => Sys2Proof.Machine.execNvmeRead q s
  | .bisorPortSet q => Sys2Proof.Machine.execBisorPortSet q s
  | .driveBringUp port d => Sys2Proof.Machine.execDriveBringUp port d s
  | .nvmeCompletion port ok data => Sys2Proof.Machine.execNvmeCompletion port ok data s
  | .nvmeCommandTimeout port => Sys2Proof.Machine.execNvmeCommandTimeout port s
  | .nvmePortFail port => Sys2Proof.Machine.execNvmePortFail port s
  | .smartPoll port temp crit used written => Sys2Proof.Machine.execSmartPoll port temp crit used written s
  | .ethFrameReceive f => Sys2Proof.Machine.execEthFrameReceive f s
  | .ethLinkUp port => Sys2Proof.Machine.execEthLinkUp port s
  | .ethLinkDown port => Sys2Proof.Machine.execEthLinkDown port s
  | .nextHopRetry => Sys2Proof.Machine.execNextHopRetry s
  | .neighbourRefresh seconds => Sys2Proof.Machine.execNeighbourRefresh seconds s
  | .lnkEqtailWrite q v => Sys2Proof.Machine.execLnkEqtailWrite q v s
  | .txDescriptor q host frame tclk => Sys2Proof.Machine.execTxDescriptor q host frame tclk s
  | .frameLaunch q host frame tclk => Sys2Proof.Machine.execFrameLaunch q host frame tclk s
  | .tokenReceive port content cyc => Sys2Proof.Machine.execTokenReceive port content cyc s
  | .tokenPresent => Sys2Proof.Machine.execTokenPresent s
  | .gridFlitReceive port beat grid tclk stamp => Sys2Proof.Machine.execGridFlitReceive port beat grid tclk stamp s
  | .gridFlitSend => Sys2Proof.Machine.execGridFlitSend s
  | .nbrRecordReceive port record => Sys2Proof.Machine.execNbrRecordReceive port record s
  | .creditReceive port n => Sys2Proof.Machine.execCreditReceive port n s
  | .echoRequestReceive port content => Sys2Proof.Machine.execEchoRequestReceive port content s
  | .echoReplyReceive port content tclk => Sys2Proof.Machine.execEchoReplyReceive port content tclk s
  | .echoSend port tclk => Sys2Proof.Machine.execEchoSend port tclk s
  | .flitCrcFail port record token => Sys2Proof.Machine.execFlitCrcFail port record token s
  | .nbrPortUp port => Sys2Proof.Machine.execNbrPortUp port s
  | .nbrPortDown port => Sys2Proof.Machine.execNbrPortDown port s
  | .pcieHotReset flr => Sys2Proof.Machine.execPcieHotReset flr s
  | .perstAssert => Sys2Proof.Machine.execPerstAssert s
  | .perstRelease gen width => Sys2Proof.Machine.execPerstRelease gen width s
  | .pcieSurpriseDown => Sys2Proof.Machine.execPcieSurpriseDown s
  | .pcieDowntrain gen width => Sys2Proof.Machine.execPcieDowntrain gen width s
  | .msixUnmask v => Sys2Proof.Machine.execMsixUnmask v s
  | .timeGet q w => Sys2Proof.Machine.execTimeGet q w s
  | .timeStep q => Sys2Proof.Machine.execTimeStep q s
  | .timeAdjust q => Sys2Proof.Machine.execTimeAdjust q s
  | .servoSet q tclk => Sys2Proof.Machine.execServoSet q tclk s
  | .ptpSet q => Sys2Proof.Machine.execPtpSet q s
  | .ptpStatus q => Sys2Proof.Machine.execPtpStatus q s
  | .gridAlign q => Sys2Proof.Machine.execGridAlign q s
  | .gridAlignAbort => Sys2Proof.Machine.execGridAlignAbort s
  | .utcSet q => Sys2Proof.Machine.execUtcSet q s
  | .servoSample tclk => Sys2Proof.Machine.execServoSample tclk s
  | .sampleMissing tclk => Sys2Proof.Machine.execSampleMissing tclk s
  | .holdmaxExpiry => Sys2Proof.Machine.execHoldmaxExpiry s
  | .jumpApply tclk => Sys2Proof.Machine.execJumpApply tclk s
  | .ptpMessageSend kind tclk => Sys2Proof.Machine.execPtpMessageSend kind tclk s
  | .announceReceiptTimeout => Sys2Proof.Machine.execAnnounceReceiptTimeout s
  | .gridAvgWindowEnd => Sys2Proof.Machine.execGridAvgWindowEnd s
  | .gridSlewEnd => Sys2Proof.Machine.execGridSlewEnd s
  | .gridLoad tclk stamp => Sys2Proof.Machine.execGridLoad tclk stamp s
  | .leapSecond tclk => Sys2Proof.Machine.execLeapSecond tclk s
  | .ppsoutRise => Sys2Proof.Machine.execPpsoutRise s
  | .ppsoutFall => Sys2Proof.Machine.execPpsoutFall s
  | .tdcChanSet q => Sys2Proof.Machine.execTdcChanSet q s
  | .tdcCal q => Sys2Proof.Machine.execTdcCal q s
  | .tdcCalAbort q => Sys2Proof.Machine.execTdcCalAbort q s
  | .tdcRead q => Sys2Proof.Machine.execTdcRead q s
  | .freqStart q => Sys2Proof.Machine.execFreqStart q s
  | .freqStop q => Sys2Proof.Machine.execFreqStop q s
  | .freqResult q => Sys2Proof.Machine.execFreqResult q s
  | .tdcStatus q => Sys2Proof.Machine.execTdcStatus q s
  | .tdcEdge c rise tclk half code cyc => Sys2Proof.Machine.execTdcEdge c rise tclk half code cyc s
  | .blindTimeEnd c level => Sys2Proof.Machine.execBlindTimeEnd c level s
  | .widthCalEnd c hits => Sys2Proof.Machine.execWidthCalEnd c hits s
  | .tdcRecal => Sys2Proof.Machine.execTdcRecal s
  | .freqGateEnd f => Sys2Proof.Machine.execFreqGateEnd f s
  | .freqResultWrite f => Sys2Proof.Machine.execFreqResultWrite f s
  | .ocxoWarmChange level => Sys2Proof.Machine.execOcxoWarmChange level s
  | .tbWarmCriterion secs => Sys2Proof.Machine.execTbWarmCriterion secs s
  | .clkSclkSet q => Sys2Proof.Machine.execClkSclkSet q s
  | .clkBandSet q => Sys2Proof.Machine.execClkBandSet q s
  | .clkPhaseStep q => Sys2Proof.Machine.execClkPhaseStep q s
  | .clkStatus q => Sys2Proof.Machine.execClkStatus q s
  | .clkSyncArm v => Sys2Proof.Machine.execClkSyncArm v s
  | .clkSyncCancel v => Sys2Proof.Machine.execClkSyncCancel v s
  | .refinLoss cyc => Sys2Proof.Machine.execRefinLoss cyc s
  | .refinReturn => Sys2Proof.Machine.execRefinReturn s
  | .synthLossOfLock n cyc => Sys2Proof.Machine.execSynthLossOfLock n cyc s
  | .synthLock n => Sys2Proof.Machine.execSynthLock n s
  | .bypassReturn n => Sys2Proof.Machine.execBypassReturn n s
  | .bandAttemptTimeout q => Sys2Proof.Machine.execBandAttemptTimeout q s
  | .hbmPllLossOfLock n => Sys2Proof.Machine.execHbmPllLossOfLock n s
  | .sclkinLoss pin cyc => Sys2Proof.Machine.execSclkinLoss pin cyc s
  | .dspModeSet q => Sys2Proof.Machine.execDspModeSet q s
  | .dspBufReg q => Sys2Proof.Machine.execDspBufReg q s
  | .dspBufFree q => Sys2Proof.Machine.execDspBufFree q s
  | .dspCommit q => Sys2Proof.Machine.execDspCommit q s
  | .dspPalSet q => Sys2Proof.Machine.execDspPalSet q s
  | .dspAux q sink => Sys2Proof.Machine.execDspAux q sink s
  | .dspStatus q => Sys2Proof.Machine.execDspStatus q s
  | .dspCmtGo v => Sys2Proof.Machine.execDspCmtGo v s
  | .dspCmtDirty v => Sys2Proof.Machine.execDspCmtDirty v s
  | .copyPoint h => Sys2Proof.Machine.execCopyPoint h s
  | .scanoutLine under h => Sys2Proof.Machine.execScanoutLine under h s
  | .staticRefreshStretch => Sys2Proof.Machine.execStaticRefreshStretch s
  | .hpdFall => Sys2Proof.Machine.execHpdFall s
  | .hpdRise => Sys2Proof.Machine.execHpdRise s
  | .linkTrainingEnd ok adaptive => Sys2Proof.Machine.execLinkTrainingEnd ok adaptive s
  | .monCoreSet q => Sys2Proof.Machine.execMonCoreSet q s
  | .monInject q => Sys2Proof.Machine.execMonInject q s
  | .monRead q => Sys2Proof.Machine.execMonRead q s
  | .monFwSet q => Sys2Proof.Machine.execMonFwSet q s
  | .monPassStart m => Sys2Proof.Machine.execMonPassStart m s
  | .monEntryDone m codes before => Sys2Proof.Machine.execMonEntryDone m codes before s
  | .injectRequest m last => Sys2Proof.Machine.execInjectRequest m last s
  | .fastWatchSample m code skip => Sys2Proof.Machine.execFastWatchSample m code skip s
  | .pwrStateSet q => Sys2Proof.Machine.execPwrStateSet q s
  | .pwrTransitionApply us => Sys2Proof.Machine.execPwrTransitionApply us s
  | .stateEntry us => Sys2Proof.Machine.execStateEntry us s
  | .staggerStep us retOk => Sys2Proof.Machine.execStaggerStep us retOk s
  | .stepFail us => Sys2Proof.Machine.execStepFail us s
  | .runFirstBeat us => Sys2Proof.Machine.execRunFirstBeat us s
  | .pwrStatus q => Sys2Proof.Machine.execPwrStatus q s
  | .reset q => Sys2Proof.Machine.execReset q s
  | .wakePin => Sys2Proof.Machine.execWakePin s
  | .owlTimerExpiry => Sys2Proof.Machine.execOwlTimerExpiry s
  | .porstN pgood => Sys2Proof.Machine.execPorstN pgood s
  | .warmRstN refin starts => Sys2Proof.Machine.execWarmRstN refin starts s
  | .vddAonLoss => Sys2Proof.Machine.execVddAonLoss s
  | .coldBoot refin starts strap => Sys2Proof.Machine.execColdBoot refin starts strap s
  | .firmwareStart idOk => Sys2Proof.Machine.execFirmwareStart idOk s
  | .vddCoreLow => Sys2Proof.Machine.execVddCoreLow s
  | .junctionThreshold temp => Sys2Proof.Machine.execJunctionThreshold temp s
  | .thermalShutdown => Sys2Proof.Machine.execThermalShutdown s
  | .fltStatus q => Sys2Proof.Machine.execFltStatus q s
  | .fltAck q => Sys2Proof.Machine.execFltAck q s
  | .fltConfig q => Sys2Proof.Machine.execFltConfig q s
  | .logRead q => Sys2Proof.Machine.execLogRead q s
  | .logClear q => Sys2Proof.Machine.execLogClear q s
  | .fltInject q => Sys2Proof.Machine.execFltInject q s
  | .fltRelease q => Sys2Proof.Machine.execFltRelease q s
  | .fltInjectRegister v => Sys2Proof.Machine.execFltInjectRegister v s
  | .fltClspendWrite v => Sys2Proof.Machine.execFltClspendWrite v s
  | .fltStickyWrite n v => Sys2Proof.Machine.execFltStickyWrite n v s
  | .fltRailbadWrite n v => Sys2Proof.Machine.execFltRailbadWrite n v s
  | .faultReport src code cyc => Sys2Proof.Machine.execFaultReport src code cyc s
  | .railPairFail src => Sys2Proof.Machine.execRailPairFail src s
  | .fwStatus q => Sys2Proof.Machine.execFwStatus q s
  | .fwUpdate q => Sys2Proof.Machine.execFwUpdate q s
  | .fwUpdateEnd result => Sys2Proof.Machine.execFwUpdateEnd result s
  | .attest q w => Sys2Proof.Machine.execAttest q w s
  | .keyExchange q => Sys2Proof.Machine.execKeyExchange q s
  | .keyClose q => Sys2Proof.Machine.execKeyClose q s
  | .sessionIdleTimeout n => Sys2Proof.Machine.execSessionIdleTimeout n s
  | .operatorSet q => Sys2Proof.Machine.execOperatorSet q s
  | .identityGet q => Sys2Proof.Machine.execIdentityGet q s
  | .rollbackCommit q => Sys2Proof.Machine.execRollbackCommit q s
  | .ppePolicySet q => Sys2Proof.Machine.execPpePolicySet q s
  | .ownerKeySet q => Sys2Proof.Machine.execOwnerKeySet q s
  | .testUnlockChallenge q => Sys2Proof.Machine.execTestUnlockChallenge q s
  | .testUnlock q => Sys2Proof.Machine.execTestUnlock q s
  | .mbxHcdbWrite n v => Sys2Proof.Machine.execMbxHcdbWrite n v s
  | .mailboxDataWrite m addr bytes => Sys2Proof.Machine.execMailboxDataWrite m addr bytes s
  | .mailboxTake => Sys2Proof.Machine.execMailboxTake s
  | .networkPacketTake => Sys2Proof.Machine.execNetworkPacketTake s
  | .mbxHrackWrite n => Sys2Proof.Machine.execMbxHrackWrite n s
  | .mailboxTimeout box => Sys2Proof.Machine.execMailboxTimeout box s
  | .mbxCldbWrite m c v => Sys2Proof.Machine.execMbxCldbWrite m c v s
  | .mbxPestatOutack m e => Sys2Proof.Machine.execMbxPestatOutack m e s
  | .mbxCountRead m which => Sys2Proof.Machine.execMbxCountRead m which s
  | .glbLockRead n ms => Sys2Proof.Machine.execGlbLockRead n ms s
  | .glbLockRelease m n v => Sys2Proof.Machine.execGlbLockRelease m n v s
  | .pairLoRead m addr tclk => Sys2Proof.Machine.execPairLoRead m addr tclk s
  | .glbBeatLoRead m cyc => Sys2Proof.Machine.execGlbBeatLoRead m cyc s
  | .timNowLoRead m tclk => Sys2Proof.Machine.execTimNowLoRead m tclk s
  | .cnvCaltimeLoRead m core => Sys2Proof.Machine.execCnvCaltimeLoRead m core s
  | .tdcChstamp0Read m ch => Sys2Proof.Machine.execTdcChstamp0Read m ch s
  | .glbSwevtWrite m v => Sys2Proof.Machine.execGlbSwevtWrite m v s
  | .shadowRegisterWrite m addr v => Sys2Proof.Machine.execShadowRegisterWrite m addr v s
  | .registerWrite m addr bytes => Sys2Proof.Machine.execRegisterWrite m addr bytes s
  | .clusterWakeEnd c => Sys2Proof.Machine.execClusterWakeEnd c s
  | .trigioLevelChange pin level cyc => Sys2Proof.Machine.execTrigioLevelChange pin level cyc s
  | .clkPhaseStepEnd => Sys2Proof.Machine.execClkPhaseStepEnd s
  | .pcieConfigWrite bme d3 msixEn fmask mps mrrs => Sys2Proof.Machine.execPcieConfigWrite bme d3 msixEn fmask mps mrrs s
  | .aerError uncor err => Sys2Proof.Machine.execAerError uncor err s

end Sys2Proof.Machine
end

