-- ==== Sys2Proof/Safety.lean ====
section
/-! DEFINITION. What a sound state of the block is, in the terms that claims use: tables in their one canonical form, and
fuses that burn in one direction (R547). -/
namespace Sys2Proof.Machine

/-- A byte memory in canonical form: addresses rise strictly, and no entry equals what an unlisted address reads as. -/
def Memory.wf (m : List Host.Cell) : Bool := Sparse.wf byteDflt m

/-- What an unlisted word of the MSI-X table reads as: vectors are masked at reset (R376). -/
def msixDflt (a : Nat) : Word := if a % 16 = 12 then 1 else 0

/-- Every memory, register file and lock table is in canonical form, so equal contents are equal data. -/
structure Canonical (regs active inBeat : List (Nat × Word)) (mbx hbm sram flash : List (Nat × Byte))
    (slcRam msix : List (Nat × Word)) (locks : List (Nat × Nat)) : Prop where
  regs : Sparse.wf Regs.dflt regs = true
  active : Sparse.wf Regs.dflt active = true
  inBeat : Sparse.wf Regs.dflt inBeat = true
  mbx : Memory.wf mbx = true
  hbm : Memory.wf hbm = true
  sram : Memory.wf sram = true
  flash : Memory.wf flash = true
  slcRam : Sparse.wf wordDflt slcRam = true
  msix : Sparse.wf msixDflt msix = true
  locks : Sparse.wf (fun _ => 0) locks = true

def State.canonical (s : State) : Prop :=
  Canonical s.regs s.active s.inBeat s.mbx s.hbm s.sram s.flash s.slcRam s.msix s.locks

/-- The fuses `b` are the fuses `a`, or those with more of them burned: the rollback count only rises and stays within its
64 fuses, the vendor key stays revoked, a fused owner key stays the one it is, and the rest never changes (R547, R548). -/
structure Fuses.Burned (a b : Fuses) : Prop where
  id : b.id = a.id
  cap0 : b.cap0 = a.cap0
  cap1 : b.cap1 = a.cap1
  vendorHash : b.vendorHash = a.vendorHash
  svn : a.svn ≤ b.svn
  svnMax : a.svn ≤ 64 → b.svn ≤ 64
  noVendor : a.noVendor = true → b.noVendor = true
  ownerHash : ∀ h, a.ownerHash = some h → b.ownerHash = some h

/-- What a command is given to keep: the queue, and those of the memories, lock table and values in force that it is not to
touch, each with its contents. -/
structure Frame where
  queue : List Instr
  active : Option (List (Nat × Word)) := none
  mbx : Option (List (Nat × Byte)) := none
  hbm : Option (List (Nat × Byte)) := none
  sram : Option (List (Nat × Byte)) := none
  flash : Option (List (Nat × Byte)) := none
  slcRam : Option (List (Nat × Word)) := none
  msix : Option (List (Nat × Word)) := none
  locks : Option (List (Nat × Nat)) := none

/-- The tables hold what the frame names. -/
structure Frame.Holds (K : Frame) (active : List (Nat × Word)) (mbx hbm sram flash : List (Nat × Byte))
    (slcRam msix : List (Nat × Word)) (locks : List (Nat × Nat)) : Prop where
  active : ∀ m ∈ K.active, active = m
  mbx : ∀ m ∈ K.mbx, mbx = m
  hbm : ∀ m ∈ K.hbm, hbm = m
  sram : ∀ m ∈ K.sram, sram = m
  flash : ∀ m ∈ K.flash, flash = m
  slcRam : ∀ m ∈ K.slcRam, slcRam = m
  msix : ∀ m ∈ K.msix, msix = m
  locks : ∀ m ∈ K.locks, locks = m

/-- What a command leaves: the queue and the tables of its frame, the fuses or more of them burned, and canonical tables. -/
structure Kept (K : Frame) (f : Fuses) (s : State) : Prop where
  pending : s.pending = K.queue
  fuses : f.Burned s.fuses
  canonical : s.canonical
  frame : K.Holds s.active s.mbx s.hbm s.sram s.flash s.slcRam s.msix s.locks

/-- The same of an outcome. -/
def KeptOut (K : Frame) (f : Fuses) : Host.Outcome State Fault Refusal → Prop
  | .next t => Kept K f t
  | .fault _ => False
  | .refused _ => False

/-- The opcode and the request of a Bisor command (R73); none for a row that is no Bisor command. -/
def requestOf : Instr → Option (Nat × Req)
  | .ping q => some (0x0000, q)
  | .deviceIdGet q => some (0x0001, q)
  | .deviceIdSet q => some (0x0002, q)
  | .queryCaps q => some (0x0003, q)
  | .lockPeek q => some (0x0004, q)
  | .commit q _ => some (0x0100, q)
  | .commitStatus q => some (0x0101, q)
  | .commitCancel q _ => some (0x0102, q)
  | .budgetCheck q => some (0x0103, q)
  | .profileSet q _ => some (0x0104, q)
  | .profileGet q => some (0x0105, q)
  | .activeRead q _ _ => some (0x0106, q)
  | .cnvDivide q _ => some (0x0200, q)
  | .calForeground q => some (0x0201, q)
  | .calStatus q => some (0x0202, q)
  | .calAbort q => some (0x0203, q)
  | .calBackground q => some (0x0204, q)
  | .cnvStatus q => some (0x0205, q)
  | .pthConfig q => some (0x0300, q)
  | .firLoad q => some (0x0301, q)
  | .pthStatus q => some (0x0302, q)
  | .slcConfig q => some (0x0400, q)
  | .windowLoad q => some (0x0401, q)
  | .traceClear q => some (0x0402, q)
  | .slcStatus q => some (0x0403, q)
  | .denSet q => some (0x0500, q)
  | .denPathSet q => some (0x0501, q)
  | .denRegionSet q => some (0x0502, q)
  | .corrSet q => some (0x0503, q)
  | .denStatus q => some (0x0504, q)
  | .trgConfig q => some (0x0600, q)
  | .trgArm q => some (0x0601, q)
  | .trgDisarm q => some (0x0602, q)
  | .trgForce q => some (0x0603, q)
  | .maskLoad q => some (0x0604, q)
  | .carConfig q => some (0x0605, q)
  | .carArm q => some (0x0606, q)
  | .carStop q => some (0x0607, q)
  | .carStatus q => some (0x0608, q)
  | .ppeLoad q => some (0x0700, q)
  | .ppeStart q => some (0x0701, q)
  | .ppeStop q => some (0x0702, q)
  | .ppeTaskSet q => some (0x0703, q)
  | .ppeStatus q => some (0x0704, q)
  | .ppeMemWrite q => some (0x0705, q)
  | .ppeMemRead q => some (0x0706, q)
  | .ppeCluster q => some (0x0707, q)
  | .streamSet q => some (0x0800, q)
  | .streamStatus q => some (0x0801, q)
  | .volFormat q => some (0x0802, q)
  | .volStatus q => some (0x0803, q)
  | .memRegionSet q => some (0x0900, q)
  | .memStatus q => some (0x0901, q)
  | .memRetiredRead q => some (0x0902, q)
  | .dmaStart q _ => some (0x0910, q)
  | .dmaAbort q => some (0x0911, q)
  | .dmaStatus q => some (0x0912, q)
  | .dmaSramWrite q => some (0x0913, q)
  | .linkStatus q => some (0x0810, q)
  | .ethMode q => some (0x0811, q)
  | .ethIfSet q => some (0x0812, q)
  | .ethFilterSet q => some (0x0813, q)
  | .nbrSet q => some (0x0814, q)
  | .nvmeReset q => some (0x0815, q)
  | .nvmeInfo q => some (0x0816, q)
  | .nvmeRead q => some (0x0817, q)
  | .bisorPortSet q => some (0x0818, q)
  | .timeGet q _ => some (0x0A00, q)
  | .timeStep q => some (0x0A01, q)
  | .timeAdjust q => some (0x0A02, q)
  | .servoSet q _ => some (0x0A03, q)
  | .ptpSet q => some (0x0A04, q)
  | .ptpStatus q => some (0x0A05, q)
  | .gridAlign q => some (0x0A06, q)
  | .utcSet q => some (0x0A07, q)
  | .tdcChanSet q => some (0x0A10, q)
  | .tdcCal q => some (0x0A11, q)
  | .tdcCalAbort q => some (0x0A11, q)
  | .tdcRead q => some (0x0A12, q)
  | .freqStart q => some (0x0A13, q)
  | .freqStop q => some (0x0A13, q)
  | .freqResult q => some (0x0A14, q)
  | .tdcStatus q => some (0x0A15, q)
  | .clkSclkSet q => some (0x0B00, q)
  | .clkBandSet q => some (0x0B01, q)
  | .clkPhaseStep q => some (0x0B02, q)
  | .clkStatus q => some (0x0B03, q)
  | .dspModeSet q => some (0x0C00, q)
  | .dspBufReg q => some (0x0C01, q)
  | .dspBufFree q => some (0x0C02, q)
  | .dspCommit q => some (0x0C03, q)
  | .dspPalSet q => some (0x0C04, q)
  | .dspAux q _ => some (0x0C05, q)
  | .dspStatus q => some (0x0C06, q)
  | .monCoreSet q => some (0x0D00, q)
  | .monInject q => some (0x0D01, q)
  | .monRead q => some (0x0D02, q)
  | .monFwSet q => some (0x0D03, q)
  | .pwrStateSet q => some (0x0E00, q)
  | .pwrStatus q => some (0x0E01, q)
  | .reset q => some (0x0E02, q)
  | .fltStatus q => some (0x0E10, q)
  | .fltAck q => some (0x0E11, q)
  | .fltConfig q => some (0x0E12, q)
  | .logRead q => some (0x0E13, q)
  | .logClear q => some (0x0E14, q)
  | .fltInject q => some (0x0E15, q)
  | .fltRelease q => some (0x0E16, q)
  | .fwStatus q => some (0x0F00, q)
  | .fwUpdate q => some (0x0F01, q)
  | .attest q _ => some (0x0F02, q)
  | .keyExchange q => some (0x0F03, q)
  | .keyClose q => some (0x0F04, q)
  | .operatorSet q => some (0x0F05, q)
  | .identityGet q => some (0x0F06, q)
  | .rollbackCommit q => some (0x0F07, q)
  | .ppePolicySet q => some (0x0F08, q)
  | .ownerKeySet q => some (0x0F09, q)
  | .testUnlockChallenge q => some (0x0F0A, q)
  | .testUnlock q => some (0x0F0A, q)
  | _ => none

/-- The state in which a Bisor command is checked: the clocks stand at its arrival, for the commands whose arrival time
the spec uses. -/
def arrivalOf (i : Instr) (s : State) : State :=
  match i with
  | .commit _ w => arrive s w
  | .commitCancel _ w => arrive s w
  | .profileSet _ w => arrive s w
  | .cnvDivide _ w => arrive s w
  | .timeGet _ w => arrive s w
  | .attest _ w => arrive s w
  | .servoSet _ tclk => setClock s tclk
  | _ => s

/-- The commands that report and change nothing: their reply is all they do. -/
def isQuery : Instr → Bool
  | .ping _ => true
  | .deviceIdGet _ => true
  | .queryCaps _ => true
  | .lockPeek _ => true
  | .commitStatus _ => true
  | .budgetCheck _ => true
  | .profileGet _ => true
  | .activeRead _ _ _ => true
  | .calStatus _ => true
  | .cnvStatus _ => true
  | .pthStatus _ => true
  | .slcStatus _ => true
  | .denStatus _ => true
  | .carStatus _ => true
  | .ppeStatus _ => true
  | .ppeMemRead _ => true
  | .streamStatus _ => true
  | .volStatus _ => true
  | .memStatus _ => true
  | .memRetiredRead _ => true
  | .dmaStatus _ => true
  | .linkStatus _ => true
  | .nvmeInfo _ => true
  | .timeGet _ _ => true
  | .ptpStatus _ => true
  | .freqResult _ => true
  | .tdcStatus _ => true
  | .clkStatus _ => true
  | .dspStatus _ => true
  | .monRead _ => true
  | .pwrStatus _ => true
  | .fltStatus _ => true
  | .logRead _ => true
  | .fwStatus _ => true
  | .identityGet _ => true
  | _ => false

/-- The commands that may change the values in force of shadowed registers. -/
def changesActive : Instr → Bool
  | .commitCopy => true
  | .restartRunStart => true
  | .beatBoundary _ => true
  | .syncinEdge _ _ => true
  | .copyPoint _ => true
  | .staggerStep _ _ => true
  | .porstN _ => true
  | .warmRstN _ _ => true
  | .vddAonLoss => true
  | .thermalShutdown => true
  | _ => false

/-- The commands that may store to the mailbox memory, beside the replies. -/
def storesMbx : Instr → Bool
  | .commitCopy => true
  | .restartStop => true
  | .restartRunStart => true
  | .beatBoundary _ => true
  | .syncinEdge _ _ => true
  | .ppeBundleIssue _ _ => true
  | .hostRingWrite _ => true
  | .dmaCtrlStart _ _ _ _ => true
  | .dmaCtrlAbort _ _ _ => true
  | .move _ => true
  | .loop _ _ => true
  | .wait _ _ => true
  | .waitComplete _ _ => true
  | .waitTimeout _ => true
  | .dmaSignal _ _ => true
  | .dmaEnd _ => true
  | .burstEnd _ _ _ _ _ => true
  | .nvmeCompletion _ _ _ => true
  | .nvmeCommandTimeout _ => true
  | .nvmePortFail _ => true
  | .pcieHotReset _ => true
  | .perstAssert => true
  | .pcieSurpriseDown => true
  | .refinLoss _ => true
  | .synthLossOfLock _ _ => true
  | .copyPoint _ => true
  | .pwrTransitionApply _ => true
  | .stateEntry _ => true
  | .staggerStep _ _ => true
  | .runFirstBeat _ => true
  | .porstN _ => true
  | .warmRstN _ _ => true
  | .vddAonLoss => true
  | .thermalShutdown => true
  | .mailboxDataWrite _ _ _ => true
  | .mailboxTake => true
  | .networkPacketTake => true
  | .mailboxTimeout _ => true
  | .registerWrite _ _ _ => true
  | .clkPhaseStepEnd => true
  | i => (requestOf i).isSome

/-- The commands that may store to HBM. -/
def storesHbm : Instr → Bool
  | .beatBoundary _ => true
  | .syncinEdge _ _ => true
  | .densityReadoutStart => true
  | .densityReadoutEnd _ => true
  | .corrBankSwap => true
  | .corrDumpEnd => true
  | .segmentStopClose _ => true
  | .segmentEnd _ => true
  | .segmentGapEnd _ => true
  | .overflowResume _ => true
  | .bar2Access _ _ _ _ _ => true
  | .burstEnd _ _ _ _ _ => true
  | .nvmeCompletion _ _ _ => true
  | .ethFrameReceive _ => true
  | .txDescriptor _ _ _ _ => true
  | .frameLaunch _ _ _ _ => true
  | .copyPoint _ => true
  | .porstN _ => true
  | .warmRstN _ _ => true
  | .vddAonLoss => true
  | .thermalShutdown => true
  | _ => false

/-- The commands that may store to DMA SRAM. -/
def storesSram : Instr → Bool
  | .beatBoundary _ => true
  | .syncinEdge _ _ => true
  | .hostRingWrite _ => true
  | .dmaStart _ _ => true
  | .dmaAbort _ => true
  | .dmaSramWrite _ => true
  | .dmaCtrlStart _ _ _ _ => true
  | .dmaCtrlAbort _ _ _ => true
  | .move _ => true
  | .loop _ _ => true
  | .wait _ _ => true
  | .waitComplete _ _ => true
  | .waitTimeout _ => true
  | .dmaSignal _ _ => true
  | .dmaEnd _ => true
  | .burstEnd _ _ _ _ _ => true
  | .ethFrameReceive _ => true
  | .txDescriptor _ _ _ _ => true
  | .frameLaunch _ _ _ _ => true
  | .pcieHotReset _ => true
  | .perstAssert => true
  | .pcieSurpriseDown => true
  | .stateEntry _ => true
  | .staggerStep _ _ => true
  | .porstN _ => true
  | .warmRstN _ _ => true
  | .vddAonLoss => true
  | .thermalShutdown => true
  | .registerWrite _ _ _ => true
  | _ => false

/-- The commands that may store to the firmware slots of the boot flash. -/
def storesFlash : Instr → Bool
  | .fwUpdate _ => true
  | .fwUpdateEnd _ => true
  | _ => false

/-- The commands that may store to slice SRAM. -/
def storesSlcRam : Instr → Bool
  | .beatBoundary _ => true
  | .syncinEdge _ _ => true
  | .windowLoad _ => true
  | .porstN _ => true
  | .warmRstN _ _ => true
  | .vddAonLoss => true
  | .thermalShutdown => true
  | _ => false

/-- The commands that may store to the MSI-X table. -/
def storesMsix : Instr → Bool
  | .pcieHotReset _ => true
  | .perstAssert => true
  | .pcieSurpriseDown => true
  | .msixUnmask _ => true
  | .porstN _ => true
  | .warmRstN _ _ => true
  | .vddAonLoss => true
  | .thermalShutdown => true
  | .registerWrite _ _ _ => true
  | _ => false

/-- The commands that may acquire or release hardware locks. -/
def changesLocks : Instr → Bool
  | .beatBoundary _ => true
  | .syncinEdge _ _ => true
  | .ppeBundleIssue _ _ => true
  | .pcieHotReset _ => true
  | .perstAssert => true
  | .pcieSurpriseDown => true
  | .stateEntry _ => true
  | .porstN _ => true
  | .warmRstN _ _ => true
  | .vddAonLoss => true
  | .thermalShutdown => true
  | .glbLockRead _ _ => true
  | .glbLockRelease _ _ _ => true
  | .pairLoRead _ _ _ => true
  | .registerWrite _ _ _ => true
  | _ => false


/-- What a reply touches: the requester's reply mailbox with its three registers, the outputs, a pending vector, and the
list of requests in hand. Every other register, table and memory byte is as before. -/
structure OnlyReplied (q : Req) (s t : State) : Prop where
  rest : { t with regs := s.regs, mbx := s.mbx, out := s.out, pba := s.pba, inHand := s.inHand } = s
  regs : ∀ a, (∀ n, q.src = .mailbox n → a ≠ MBX_HRSTAT n ∧ a ≠ MBX_HRSEQ n ∧ a ≠ MBX_HREPOCH n) → t.rd a = s.rd a
  net : (∀ n, q.src ≠ .mailbox n) → t.mbx = s.mbx ∧ t.pba = s.pba

/-- The registers that a command may change are those of the list: every other one, and every other part of the state
beside the reply's, is as before. -/
structure OnlyRegs (ok : Nat → Bool) (s t : State) : Prop where
  rest : { t with regs := s.regs, mbx := s.mbx, out := s.out, pba := s.pba, inHand := s.inHand } = s
  regs : ∀ a, ok a = false → t.rd a = s.rd a

end Sys2Proof.Machine
end

