-- ==== Sys2Proof/Certificates/Slice0/Obligations.lean ====
section
/-! DEFINITION. The statements for the provers: what the step and reset leave (invariants), the rules of the shared
operations, and per family of commands under which conditions each command completes and with which next state. -/
section
open Sys2Proof Sys2Proof.Machine

/-- For every command c and state s whose queue is c followed by rest, step s is exec c on s with the queue rest. (log
5, spec/INDEX.md) -/
def Obligations.StepRunsFrontCommand : Prop :=
  ∀ (c : Instr) (rest : List Instr) (s : State),
  s.pending = c :: rest → step s = exec c { s with pending := rest }

/-- With no command waiting, a step answers the state unchanged. This is the model's choice, log entry 5. (log 5) -/
def Obligations.EmptyQueueIdles : Prop :=
  ∀ (s : State), s.pending = [] → step s = .next s

/-- State.reset has canonical tables, an empty queue, no session, no ticket, every lock free and a rollback count within
the 64 fuses. The device is BOOTING, no firmware runs, both epochs are 0, the fuses are those of an OT-6432 at
stepping 0 (the model's choice, log 1), every vector is masked, and every implemented fault source is enabled at its
minimum class. (R3, R93, R376, R512, R515, R520, R540, R548) -/
def Obligations.ResetStateIsSound : Prop :=
  State.reset.canonical ∧ State.reset.pending = [] ∧ State.reset.sessions = [] ∧ State.reset.tickets = [] ∧
(∀ n, lockOwner State.reset n = none) ∧ State.reset.fuses.svn ≤ 64 ∧
pwrState State.reset = PS_BOOTING ∧ fwReady State.reset = false ∧ hostEpoch State.reset = 0 ∧ fwEpoch State.reset = 0 ∧
State.reset.fuses.id = 0x00010000 ∧ State.reset.fuses.cap0 = 0x0004FF6F ∧ State.reset.fuses.cap1 = 0x000F3830 ∧
(∀ v, vectorMasked State.reset v = true) ∧
(∀ n, n < 256 → ∀ m, lookupN faultMin n = some m → srcCfg State.reset n = 128 + 16 * m + m)

/-- From every state whose tables are canonical, a step that answers a next state leaves every table canonical: keys
strictly rising and no entry equal to what an unlisted key reads as. (log 1, log 2, R14) -/
def Obligations.StepKeepsCanonicalTables : Prop :=
  ∀ (s t : State), s.canonical → step s = .next t → t.canonical

/-- From every state with canonical tables, a step leaves the fuses as they are or with more of them burned: ID, CAP0,
CAP1 and the vendor key hash are the same, the rollback count has not fallen and stays at most 64, a revoked vendor
key stays revoked, a fused owner key hash stays the same. (R547, R548, R3) -/
def Obligations.StepBurnsFusesOneWay : Prop :=
  ∀ (s t : State), s.canonical → step s = .next t → Fuses.Burned s.fuses t.fuses

/-- For every command c and state s with canonical tables, exec c s answers a next state t whose queue is that of s. A
step therefore takes exactly the front command off the queue. (log 5, R8) -/
def Obligations.EveryCommandAnswersAndKeepsTheQueue : Prop :=
  (∀ (c : Instr) (s : State), s.canonical → ∃ t, exec c s = .next t ∧ t.pending = s.pending) ∧
(∀ (s : State), s.canonical → ∃ t, step s = .next t ∧ t.pending = s.pending.tail)

/-- From every state with canonical tables, a command that answers a next state leaves unchanged: HBM, unless it is one
of BEAT_BOUNDARY, SYNCIN_EDGE, DENSITY_READOUT_START, DENSITY_READOUT_END, CORR_BANK_SWAP, CORR_DUMP_END,
SEGMENT_STOP_CLOSE, SEGMENT_END, SEGMENT_GAP_END, OVERFLOW_RESUME, BAR2_ACCESS, BURST_END, NVME_COMPLETION,
ETH_FRAME_RECEIVE, TX_DESCRIPTOR, FRAME_LAUNCH, COPY_POINT, PORST_N, WARM_RST_N, VDD_AON_LOSS, THERMAL_SHUTDOWN; DMA
SRAM, unless one of BEAT_BOUNDARY, SYNCIN_EDGE, HOST_RING_WRITE, DMA_START, DMA_ABORT, DMA_SRAM_WRITE,
DMA_CTRL_START, DMA_CTRL_ABORT, MOVE, LOOP, WAIT, WAIT_COMPLETE, WAIT_TIMEOUT, DMA_SIGNAL, DMA_END, BURST_END,
ETH_FRAME_RECEIVE, TX_DESCRIPTOR, FRAME_LAUNCH, PCIE_HOT_RESET, PERST_ASSERT, PCIE_SURPRISE_DOWN, STATE_ENTRY,
STAGGER_STEP, PORST_N, WARM_RST_N, VDD_AON_LOSS, THERMAL_SHUTDOWN, REGISTER_WRITE; the firmware slots of the boot
flash, unless one of FW_UPDATE, FW_UPDATE_END; slice SRAM, unless one of BEAT_BOUNDARY, SYNCIN_EDGE, WINDOW_LOAD,
PORST_N, WARM_RST_N, VDD_AON_LOSS, THERMAL_SHUTDOWN; the MSI-X table, unless one of PCIE_HOT_RESET, PERST_ASSERT,
PCIE_SURPRISE_DOWN, MSIX_UNMASK, PORST_N, WARM_RST_N, VDD_AON_LOSS, THERMAL_SHUTDOWN, REGISTER_WRITE; the locks,
unless one of BEAT_BOUNDARY, SYNCIN_EDGE, PPE_BUNDLE_ISSUE, PCIE_HOT_RESET, PERST_ASSERT, PCIE_SURPRISE_DOWN,
STATE_ENTRY, PORST_N, WARM_RST_N, VDD_AON_LOSS, THERMAL_SHUTDOWN, GLB_LOCK_READ, GLB_LOCK_RELEASE, PAIR_LO_READ,
REGISTER_WRITE; the values in force of shadowed registers, unless one of COMMIT_COPY, RESTART_RUN_START,
BEAT_BOUNDARY, SYNCIN_EDGE, COPY_POINT, STAGGER_STEP, PORST_N, WARM_RST_N, VDD_AON_LOSS, THERMAL_SHUTDOWN; the
mailbox memory, unless it is a Bisor command or one of those storesMbx names. (R43, R77, R93, R192, R335, R354,
R376, R542) -/
def Obligations.OnlyTheNamedCommandsTouchMemory : Prop :=
  ∀ (c : Instr) (s t : State), s.canonical → exec c s = .next t →
  (storesHbm c = false → t.hbm = s.hbm) ∧ (storesSram c = false → t.sram = s.sram) ∧
  (storesFlash c = false → t.flash = s.flash) ∧ (storesSlcRam c = false → t.slcRam = s.slcRam) ∧
  (storesMsix c = false → t.msix = s.msix) ∧ (changesLocks c = false → t.locks = s.locks) ∧
  (changesActive c = false → t.active = s.active) ∧ (storesMbx c = false → t.mbx = s.mbx)

/-- The role, network, BOOTING and length refusals come before the checks on the parameters and the state, and among
those the first that fails decides. The outcome is a bare refusal with that status; the effect is taken only when
every check passes. (R8) -/
def Obligations.FirstFailingCheckDecides : Prop :=
  ∀ (s : State) (op : Nat) (q : Req) (lenOk : Bool) (checks : List (Bool × Nat)) (effect : State),
  (∀ st, gate s op q lenOk = some st → command s op q lenOk checks effect = deny s op q st) ∧
  (∀ (a b : List (Bool × Nat)) (st : Nat), gate s op q lenOk = none → checks = a ++ (true, st) :: b → (∀ c ∈ a, c.1 = false) →
    command s op q lenOk checks effect = deny s op q st) ∧
  (gate s op q lenOk = none → (∀ c ∈ checks, c.1 = false) → command s op q lenOk checks effect = effect) ∧
  gate s op q lenOk =
    (if roleOk s op q = false then some ST_LOCKED
    else if isNet q.src = true ∧ op ∈ netLocked then some ST_LOCKED
    else if pwrState s = PS_BOOTING ∧ bootAllowed op = false then some ST_STATE
    else if lenOk = false then some ST_BAD_LENGTH else none)

/-- For every command row that is a Bisor request: when the operator's role forbids the opcode group, or the opcode is
one that is refused over the network and the request came over it (ST_LOCKED), or the device is BOOTING and the
opcode is not allowed then (ST_STATE), the outcome is that bare refusal, whatever its parameters. (R8, R513, R555) -/
def Obligations.EveryBisorCommandPassesTheGate : Prop :=
  ∀ (i : Instr) (op : Nat) (q : Req) (s : State) (st : Nat),
  requestOf i = some (op, q) → gate (arrivalOf i s) op q true = some st →
  exec i s = .next (deny (arrivalOf i s) op q st)

/-- For each of the commands named in isQuery, in every state, exec answers a next state that is the state at its
arrival with one reply to its requester: no register, table, memory or queue changes for any other reason. (R75, R5,
R43, R52, R133, R135, R167, R198, R227, R257, R331) -/
def Obligations.QueryCommandsOnlyReply : Prop :=
  ∀ (i : Instr) (op : Nat) (q : Req) (s : State),
  isQuery i = true → requestOf i = some (op, q) →
  ∃ payload, exec i s = .next (answer (arrivalOf i s) op q payload)

/-- For every reply: every register but MBX_HRSTATn, MBX_HRSEQn and MBX_HREPOCHn of its mailbox pair is unchanged; every
mailbox byte outside the written reply packet, of which at most 4,096 bytes are written (log 84), is unchanged; no
request of that source is in hand; every other field of the state is unchanged. A network reply writes no register
and no mailbox byte. (R66, R78, R72) -/
def Obligations.ReplyTouchesOnlyItsMailbox : Prop :=
  ∀ (s : State) (op : Nat) (q : Req) (payload : List Byte),
  let t := answer s op q payload
  let len := (replyPacket s op q (decide (0 < q.session)) payload).length
  OnlyReplied q s t ∧ t.inHand = s.inHand.filter (fun h => !sameSource h.req q) ∧
  (∀ n a, q.src = .mailbox n → a < 0x88000 + 0x1000 * n ∨ 0x88000 + 0x1000 * n + min 4096 len ≤ a → Mem.get t.mbx a = Mem.get s.mbx a)

/-- For a request from host mailbox n whose stamped epoch is the present host epoch, the reply packet stands from offset
0 of reply mailbox n (its first 4,096 bytes, log 84), MBX_HRSTATn is FULL with its length, MBX_HRSEQn holds the
request's sequence and MBX_HREPOCHn the firmware epoch, and the packet begins with magic, version, REPLY and the
device id. With an older epoch the reply is discarded: mailboxes, registers, vectors and outputs stay as they were.
(R66, R78, R91, R379) -/
def Obligations.ReplyLandsInItsMailbox : Prop :=
  ∀ (s : State) (op n : Nat) (q : Req) (payload : List Byte), q.src = .mailbox n →
  let t := answer s op q payload
  let pk := replyPacket s op q (decide (0 < q.session)) payload
  (q.epoch = hostEpoch s → pk.length < 65536 →
    Mem.read t.mbx (0x88000 + 0x1000 * n) (min 4096 pk.length) = pk.take 4096 ∧
    t.rf (MBX_HRSTAT n) 31 16 = pk.length ∧ t.rf (MBX_HRSTAT n) 1 0 = 1 ∧ t.rd (MBX_HRSEQ n) = q.seq ∧
    t.rd (MBX_HREPOCH n) = w32 (fwEpoch s) ∧
    pk.take 4 = b2 0xB150 ++ b1 1 ++ b1 (if 0 < q.session then 3 else 1) ∧ slice pk 4 4 = b4 (s.devId % 2 ^ 20) ∧
    slice pk 8 4 = bw q.seq ∧ slice pk 12 2 = b2 op ∧ slice pk 14 2 = b2 payload.length) ∧
  (q.epoch ≠ hostEpoch s → t = s.release q)

/-- While BOOTING, for a request whose role and source are not refused before: an opcode outside group 0x00, PWR_STATUS
and the commands of the Safety Net chapter is answered with ST_STATE whatever its length and parameters; each of the
allowed commands, when its own length and parameters pass, has exactly its effect. (R513) -/
def Obligations.BootingAnswersInTwoWays : Prop :=
  (∀ (i : Instr) (op : Nat) (q : Req) (s : State), requestOf i = some (op, q) → pwrState s = PS_BOOTING →
    roleOk (arrivalOf i s) op q = true → (isNet q.src && decide (op ∈ netLocked)) = false → bootAllowed op = false →
    exec i s = .next (deny (arrivalOf i s) op q ST_STATE)) ∧
  (∀ (s : State) (q : Req),
      pwrState s = PS_BOOTING → roleOk s 0x0000 q = true → (isNet q.src && decide (0x0000 ∈ netLocked)) = false →
      (decide (q.params.length ≤ 4068)) = true → firstFail [] = none →
      exec (.ping q) s = .next (reply s 0x0000 q ST_OK q.params)) ∧
  (∀ (s : State) (q : Req),
      pwrState s = PS_BOOTING → roleOk s 0x0001 q = true → (isNet q.src && decide (0x0001 ∈ netLocked)) = false →
      (q.params.length == 0) = true → firstFail [] = none →
      exec (.deviceIdGet q) s = .next (reply s 0x0001 q ST_OK (b4 s.devId ++ b2 (hostEpoch s) ++ b2 (fwEpoch s)))) ∧
  (∀ (s : State) (q : Req),
      let p := q.params
      pwrState s = PS_BOOTING → roleOk s 0x0002 q = true → (isNet q.src && decide (0x0002 ∈ netLocked)) = false →
      (p.length == 8) = true → firstFail [(decide (2 ^ 20 ≤ u32 p 0) || decide (2 ≤ u32 p 4), ST_BAD_PARAM)] = none →
      exec (.deviceIdSet q) s = .next (setDeviceId (reply s 0x0002 q ST_OK []) (u32 p 0) (u32 p 4 == 1))) ∧
  (∀ (s : State) (q : Req),
      pwrState s = PS_BOOTING → roleOk s 0x0003 q = true → (isNet q.src && decide (0x0003 ∈ netLocked)) = false →
      (q.params.length == 0) = true → firstFail [] = none →
      exec (.queryCaps q) s = .next (reply s 0x0003 q ST_OK (bw s.fuses.id ++ bw s.fuses.cap0 ++ bw s.fuses.cap1 ++ b4 (s.devId % 2 ^ 20) ++ b4 s.fwVersion))) ∧
  (∀ (s : State) (q : Req),
      let n := u16 q.params 0
      pwrState s = PS_BOOTING → roleOk s 0x0004 q = true → (isNet q.src && decide (0x0004 ∈ netLocked)) = false →
      (q.params.length == 4) = true → firstFail [(decide (256 ≤ n) || !zeroAt q.params 2 2, ST_BAD_PARAM)] = none →
      exec (.lockPeek q) s = .next (reply s 0x0004 q ST_OK (b4 (lockWord s n)))) ∧
  (∀ (s : State) (q : Req),
      pwrState s = PS_BOOTING → roleOk s 0x0E01 q = true → (isNet q.src && decide (0x0E01 ∈ netLocked)) = false →
      (q.params.length == 0) = true → firstFail [] = none →
      exec (.pwrStatus q) s = .next (reply s 0x0E01 q ST_OK ([PWR_STAT, PWR_WAKECFG, PWR_WAKESRC, PWR_OWLTMR, PWR_RSTCAUSE, PWR_TEMP, PWR_BOOTTIME, PWR_TRANSTIME].flatMap
            (fun a => bw (s.rd a))))) ∧
  (∀ (s : State) (q : Req),
      pwrState s = PS_BOOTING → roleOk s 0x0E10 q = true → (isNet q.src && decide (0x0E10 ∈ netLocked)) = false →
      (q.params.length == 0) = true → firstFail [] = none →
      exec (.fltStatus q) s = .next (reply s 0x0E10 q ST_OK (regsBytes s ([FLT_CLSPEND, FLT_FIRST, FLT_LOGSTAT, FLT_LOGSEQ, FLT_ESCCNT, FLT_FATALSRC] ++
            (List.range 8).map FLT_STICKY ++ (List.range 8).map FLT_RAILBAD)))) ∧
  (∀ (s : State) (q : Req),
      pwrState s = PS_BOOTING → roleOk s 0x0E11 q = true → (isNet q.src && decide (0x0E11 ∈ netLocked)) = false →
      (q.params.length == 68) = true → firstFail [(decide (16 ≤ u8 q.params 0) || !zeroAt q.params 1 3, ST_BAD_PARAM)] = none →
      exec (.fltAck q) s = .next (reply (ackEffect s q.params) 0x0E11 q ST_OK [])) ∧
  (∀ (s : State) (q : Req),
      let src := u8 q.params 0
      let v := u8 q.params 1
      pwrState s = PS_BOOTING → roleOk s 0x0E12 q = true → (isNet q.src && decide (0x0E12 ∈ netLocked)) = false →
      (q.params.length == 4) = true → firstFail [(srcAbsent s src, ST_UNIT_ABSENT), (!zeroAt q.params 2 2 || cfgByteBad src v, ST_BAD_PARAM)] = none →
      exec (.fltConfig q) s = .next (reply (setSrcCfg s src v) 0x0E12 q ST_OK [])) ∧
  (∀ (s : State) (q : Req),
      let mx := u16 q.params 4
      let r := logFrom s (u32 q.params 0) mx
      pwrState s = PS_BOOTING → roleOk s 0x0E13 q = true → (isNet q.src && decide (0x0E13 ∈ netLocked)) = false →
      (q.params.length == 8) = true → firstFail [(decide (mx < 1 ∨ 253 < mx) || !zeroAt q.params 6 2, ST_BAD_PARAM)] = none →
      exec (.logRead q) s = .next (reply s 0x0E13 q ST_OK (b4 r.1 ++ b2 r.2.length ++ b2 0 ++ r.2.flatMap entryBytes))) ∧
  (∀ (s : State) (q : Req),
      pwrState s = PS_BOOTING → roleOk s 0x0E14 q = true → (isNet q.src && decide (0x0E14 ∈ netLocked)) = false →
      (q.params.length == 0) = true → firstFail [] = none →
      exec (.logClear q) s = .next (reply (clearLog s) 0x0E14 q ST_OK [])) ∧
  (∀ (s : State) (q : Req),
      let p := q.params
      pwrState s = PS_BOOTING → roleOk s 0x0E15 q = true → (isNet q.src && decide (0x0E15 ∈ netLocked)) = false →
      (p.length == 8) = true → firstFail [(srcAbsent s (u8 p 0), ST_UNIT_ABSENT), (decide (3 < u8 p 1) || decide (1 < u32 p 4), ST_BAD_PARAM),
         (!s.rb FLT_TEST 0, ST_LOCKED)] = none →
      exec (.fltInject q) s = .next (reply (inject s (u8 p 0) (u8 p 1) (u16 p 2) (u32 p 4 == 1)) 0x0E15 q ST_OK [])) ∧
  (∀ (s : State) (q : Req),
      let l := bitList 64 (u64 q.params 0)
      pwrState s = PS_BOOTING → roleOk s 0x0E16 q = true → (isNet q.src && decide (0x0E16 ∈ netLocked)) = false →
      (q.params.length == 8) = true → firstFail [(l.any (fun e => !enginePresent s e), ST_UNIT_ABSENT)] = none →
      exec (.fltRelease q) s = .next (reply (forEach l s (fun e s => releaseEng s e)) 0x0E16 q ST_OK []))

/-- For every lock n below 256 and every reader: a lockable reader of a free lock becomes its owner and reads
0x8000_0000 | its id; a lockable reader of a held lock reads the owner's id and the owner stays, also when the
reader is the owner; any other master reads 0x7F, never acquires, and its writes are ignored. The ids are host 0,
management cores 1-4 and engines 16-79. Nothing else changes. (R94) -/
def Obligations.LockReadAcquires : Prop :=
  ∀ (s : State) (n : Nat) (m : Master), n < 256 → (m = .host → s.pci.d3 = false) →
  (∃ t, exec (.glbLockRead n [m]) s = .next t ∧
    (m ≠ .other → lockOwner s n = none →
      lockOwner t n = some (masterId m) ∧ t.out = .readData m (w32 (2 ^ 31 + masterId m)) :: s.out) ∧
    (∀ o, m ≠ .other → lockOwner s n = some o →
      lockOwner t n = some o ∧ t.out = .readData m (w32 o) :: s.out) ∧
    (m = .other → lockOwner t n = lockOwner s n ∧ t.out = .readData m 0x7F :: s.out) ∧
    (∀ k, k ≠ n → lockOwner t k = lockOwner s k) ∧ { t with locks := s.locks, out := s.out } = s) ∧
  (∀ v, exec (.glbLockRelease .other n v) s = .next s) ∧
  masterId .host = 0 ∧ (∀ i, masterId (.mgmt i) = i) ∧ (∀ e, masterId (.ppe e) = 16 + e)

/-- For every lock n below 256: a write of its own id by the owner frees the lock and changes nothing else; a write by
any other master, or of a different id, changes nothing. (R95) -/
def Obligations.LockReleaseByItsOwner : Prop :=
  ∀ (s : State) (n : Nat) (m : Master) (v : Word), n < 256 → m ≠ .other → (m = .host → s.pci.d3 = false) →
  (lockOwner s n = some (masterId m) → fld v 6 0 = masterId m →
    ∃ t, exec (.glbLockRelease m n v) s = .next t ∧ lockOwner t n = none ∧ (∀ k, k ≠ n → lockOwner t k = lockOwner s k) ∧
      { t with locks := s.locks } = s) ∧
  (lockOwner s n ≠ some (masterId m) ∨ fld v 6 0 ≠ masterId m → exec (.glbLockRelease m n v) s = .next s)

/-- For a free lock n below 256 and any readers of one cycle, among them a lockable one: the owner afterwards is a
reader, no lockable reader has a lower id, and every lockable reader reads the winner's id, with bit 31 only for the
winner itself. (R96) -/
def Obligations.LowestReaderWinsALock : Prop :=
  ∀ (s : State) (n : Nat) (ms : List Master), n < 256 → s.pci.d3 = false → lockOwner s n = none →
  (∃ m ∈ ms, m ≠ .other) →
  ∃ (t : State) (w : Master), exec (.glbLockRead n ms) s = .next t ∧ w ∈ ms ∧ w ≠ .other ∧
    lockOwner t n = some (masterId w) ∧ (∀ m ∈ ms, m ≠ .other → masterId w ≤ masterId m) ∧
    (∀ m ∈ ms, m ≠ .other →
      .readData m (if masterId m = masterId w then w32 (2 ^ 31 + masterId w) else w32 (masterId w)) ∈ t.out)

/-- With firmware ready, a doorbell of an EMPTY mailbox with a length of 24 to 4,096 makes it FULL, stamps the host
epoch and joins the queue of doorbells. Otherwise it is refused: REJECT is set in MBX_STAT and in MBX_HCSTATn,
source 228 becomes sticky unless its rail pair has failed, and neither the doorbell queue nor the mailbox state nor
its data changes. (R78, R79, R80, R81) -/
def Obligations.DoorbellTakenOrRefused : Prop :=
  ∀ (s : State) (n : Nat) (v : Word), n < 8 → s.pci.d3 = false → fwReady s = true →
  (hcFull s n = false → 24 ≤ fld v 12 0 → fld v 12 0 ≤ 4096 →
    ∃ t, exec (.mbxHcdbWrite n v) s = .next t ∧ hcFull t n = true ∧ t.rf (MBX_HCSTAT n) 31 16 = hostEpoch s ∧
      t.doorbells = s.doorbells ++ [(n, fld v 12 0)] ∧ t.mbx = s.mbx ∧
      (∀ a, a ≠ MBX_HCSTAT n → t.rd a = s.rd a) ∧ { t with regs := s.regs, doorbells := s.doorbells } = s) ∧
  (hcFull s n = true ∨ fld v 12 0 < 24 ∨ 4096 < fld v 12 0 →
    ∃ t, exec (.mbxHcdbWrite n v) s = .next t ∧ t.rb (MBX_HCSTAT n) 5 = true ∧ t.rb MBX_STAT 0 = true ∧
      (s.rb (FLT_RAILBAD 7) 4 = false → t.rb (FLT_STICKY 7) 4 = true) ∧
      hcFull t n = hcFull s n ∧ t.doorbells = s.doorbells ∧ t.mbx = s.mbx ∧ t.inHand = s.inHand)

/-- For every n below 8, the host's acknowledgement clears MBX_HRSTATn; every other register and every other part of the
state is unchanged. (R78) -/
def Obligations.AcknowledgeEmptiesTheReplyMailbox : Prop :=
  ∀ (s : State) (n : Nat), n < 8 → s.pci.d3 = false →
  ∃ t, exec (.mbxHrackWrite n) s = .next t ∧ t.rd (MBX_HRSTAT n) = 0 ∧ (∀ a, a ≠ MBX_HRSTAT n → t.rd a = s.rd a) ∧
    { t with regs := s.regs } = s

/-- For a present register of a shadow group g. When g is not locked, the write puts the writable bits of the value into
that register, clears the W1C bits written 1, keeps the reserved bits, and changes no other register and no value in
force. When g is locked an on-chip master receives a bus error and nothing else happens; a host write sets
GLB_CMTSTAT.WLOCK, source 229 becomes sticky unless its rail pair has failed, and the shadow keeps its value. (R43,
R15, R17, R49) -/
def Obligations.ShadowWriteReachesOnlyTheShadow : Prop :=
  ∀ (s : State) (m : Master) (a : Nat) (v : Word) (r : RegRow) (l : List Nat) (g : Nat),
  regAt a = some (r, l) → groupOf a = some g → addrAbsent s a = false → (m = .host → s.pci.d3 = false) →
  (groupLocked s g = false → ∃ t, exec (.shadowRegisterWrite m a v) s = .next t ∧
    t.rd a = ((s.rd a &&& ~~~ w32 r.rw) ||| (v &&& w32 r.rw)) &&& ~~~ (v &&& w32 r.w1c) ∧
    (∀ b, b ≠ a → t.rd b = s.rd b) ∧ (∀ b, t.rdA b = s.rdA b) ∧ { t with regs := s.regs } = s) ∧
  (groupLocked s g = true → m ≠ .host → exec (.shadowRegisterWrite m a v) s = .next (s.put (.busError m))) ∧
  (groupLocked s g = true → m = .host → ∃ t, exec (.shadowRegisterWrite m a v) s = .next t ∧ t.rb GLB_CMTSTAT 2 = true ∧
    (s.rb (FLT_RAILBAD 7) 5 = false → t.rb (FLT_STICKY 7) 5 = true) ∧ t.rd a = s.rd a ∧ t.active = s.active ∧ t.locked = s.locked)

/-- For each of these commands, in every state, exec answers a next state in which every register outside the unit's own
shadows (the list its chapter gives) and the mailbox registers of a reply is unchanged, no value in force changes,
and no other part of the state beside the reply's does. (R165, R195, R227, R257) -/
def Obligations.ConfigCommandsWriteOnlyTheirShadows : Prop :=
  ∀ (s : State) (q : Req),
  let p := q.params
  let ok (l : List Nat) (a : Nat) : Bool := decide (a ∈ l) || (match q.src with | .mailbox n => decide (0x40200 + 0x10 * n ≤ a ∧ a < 0x40210 + 0x10 * n) | .net _ => false)
  (∃ t, exec (.pthConfig q) s = .next t ∧ OnlyRegs (ok (pathRegs (u16 p 0))) s t) ∧
  (∃ t, exec (.slcConfig q) s = .next t ∧ OnlyRegs (ok (laneRegs (u16 p 0) (u8 p 2))) s t) ∧
  (∃ t, exec (.denSet q) s = .next t ∧ OnlyRegs (ok denSetRegs) s t) ∧
  (∃ t, exec (.denPathSet q) s = .next t ∧ OnlyRegs (ok [DEN_PCFG (u16 p 0), DEN_PMAP (u16 p 0)]) s t) ∧
  (∃ t, exec (.denRegionSet q) s = .next t ∧ OnlyRegs (ok [DEN_RGNA (u16 p 0), DEN_RGNB (u16 p 0)]) s t) ∧
  (∃ t, exec (.corrSet q) s = .next t ∧ OnlyRegs (ok corrSetRegs) s t) ∧
  (∃ t, exec (.trgConfig q) s = .next t ∧ OnlyRegs (ok (trgRegs (u16 p 0))) s t) ∧
  (∃ t, exec (.carConfig q) s = .next t ∧ OnlyRegs (ok (carRegs (u16 p 0))) s t)

/-- An accepted STREAM_SET of stream n puts the 64 bytes of its entry into shadow entry n, leaves every other shadow
entry, every entry in force and every stream's running state as they were, and answers ST_OK. While group 53 is
locked it is refused with ST_BUSY. (R331) -/
def Obligations.StreamSetWritesTheShadowOnly : Prop :=
  ∀ (s : State) (q : Req),
  let n := u16 q.params 0
  gate s 0x0800 q (q.params.length == 68) = none → n < 256 → zeroAt q.params 2 2 = true →
  (groupLocked s 53 = false → ∃ t, exec (.streamSet q) s = .next t ∧ t.entryShadow n = slice q.params 4 64 ∧
    (∀ k, k ≠ n → t.entryShadow k = s.entryShadow k) ∧ t.strActive = s.strActive ∧ t.streams = s.streams ∧
    t.active = s.active ∧ t = reply { s with strShadow := t.strShadow } 0x0800 q ST_OK []) ∧
  (groupLocked s 53 = true → exec (.streamSet q) s = .next (deny s 0x0800 q ST_BUSY))

/-- For every byte memory, address and bytes: reading the written range gives the bytes, every address outside it reads
as before, and an address that nothing has written reads 0 (log 2). (R14, log 2) -/
def Obligations.MemoryReadsWhatWasWritten : Prop :=
  ∀ (m : List Host.Cell) (a : Nat) (b : List Byte),
  Mem.read (Mem.write m a b) a b.length = b ∧
  (∀ x, x < a ∨ a + b.length ≤ x → Mem.get (Mem.write m a b) x = Mem.get m x) ∧ Mem.get [] a = 0 ∧
  (Memory.wf m = true → Memory.wf (Mem.write m a b) = true)

/-- With HBM ready: a host write of n bytes at BAR2 offset x, inside HBM, outside firmware's part and excluded pages and
in no FAILED pseudo-channel, puts them at device addresses from 0x10_0000_0000 + x and changes no other byte of HBM
(a write of part of a word when that word has no error; a write of whole words whatever the words hold); a read
returns the bytes there. An access inside HBM that reaches firmware's part or a FAILED pseudo-channel is answered
Unsupported Request and changes no byte. From 48 GiB on, a read of at least one byte returns all ones and a write
changes nothing. (R335) -/
def Obligations.Bar2MapsHbm : Prop :=
  ∀ (s : State) (x n : Nat) (b : List Byte) (h : EccHits), s.pci.d3 = false →
  (memReady s = true → x + n ≤ 48 * 2 ^ 30 → inFirmware (0x1000000000 + x) n = false → failedIn s (0x1000000000 + x) n = false →
    b.length = n → s.mem.excluded = [] →
    ((x % 8 = 0 ∧ n % 8 = 0) ∨ (h = ⟨[], []⟩ ∧ s.mem.poison = [])) →
    ∃ t, exec (.bar2Access true x n b h) s = .next t ∧ t.hbmRead (0x1000000000 + x) n = b ∧
      (∀ a, a < 0x1000000000 + x ∨ 0x1000000000 + x + n ≤ a → Mem.get t.hbm a = Mem.get s.hbm a) ∧
      { t with hbm := s.hbm, mem := s.mem } = s) ∧
  (memReady s = true → x + n ≤ 48 * 2 ^ 30 → inFirmware (0x1000000000 + x) n = false → failedIn s (0x1000000000 + x) n = false →
    s.mem.excluded = [] →
    ∃ t, exec (.bar2Access false x n [] h) s = .next t ∧ t.hbm = s.hbm ∧
      .readBytes .host (s.hbmRead (0x1000000000 + x) n) ∈ t.out) ∧
  (memReady s = true → x + n ≤ 48 * 2 ^ 30 → inFirmware (0x1000000000 + x) n = true ∨ failedIn s (0x1000000000 + x) n = true →
    ∀ w : Bool, exec (.bar2Access w x n b h) s = .next (unsupported s) ∧ (unsupported s).hbm = s.hbm) ∧
  (48 * 2 ^ 30 ≤ x → 0 < n →
    exec (.bar2Access false x n [] h) s = .next (s.put (.readBytes .host (List.replicate n 255))) ∧
    exec (.bar2Access true x n b h) s = .next s)

/-- With its length valid and no earlier refusal: when offset and length stay in DMA SRAM, the data bytes stand from the
offset, every other SRAM byte and every other part of the state beside the reply is unchanged; otherwise the answer
is ST_BAD_PARAM and SRAM is unchanged. (R373, R354) -/
def Obligations.DmaSramWriteStoresItsBytes : Prop :=
  ∀ (s : State) (q : Req),
  let p := q.params
  let o := u32 p 0
  gate s 0x0913 q (decide (4 ≤ p.length ∧ p.length ≤ 4072)) = none →
  (o + (p.length - 4) ≤ 0x80000 → ∃ t, exec (.dmaSramWrite q) s = .next t ∧ Mem.read t.sram o (p.length - 4) = p.drop 4 ∧
    (∀ a, a < o ∨ o + (p.length - 4) ≤ a → Mem.get t.sram a = Mem.get s.sram a) ∧
    t = reply { s with sram := t.sram } 0x0913 q ST_OK []) ∧
  (0x80000 < o + (p.length - 4) → exec (.dmaSramWrite q) s = .next (deny s 0x0913 q ST_BAD_PARAM) ∧
    (deny s 0x0913 q ST_BAD_PARAM).sram = s.sram)

/-- Firing a masked vector sends no message, sets its pending bit, and firing it again changes nothing more. When vector
v is the one pending vector, MSI-X is enabled and the function is not masked, a write of the host that clears its
mask sends exactly one message, to the address and with the data of its table entry, and clears the pending bit; in
D3hot the write is answered Unsupported Request. An unmasked vector sends one message at once. (R379, R376, R375) -/
def Obligations.MaskedVectorIsHeldOnce : Prop :=
  (∀ (s : State) (v : Nat), vectorMasked s v = true →
  (vector s v).out = s.out ∧ v ∈ (vector s v).pba ∧ vector (vector s v) v = vector s v ∧
  { vector s v with pba := s.pba } = s) ∧
(∀ (s : State) (v : Nat), vectorMasked s v = false →
  ∃ a d, vector s v = { s with out := .msi v a d :: s.out }) ∧
(∀ (s : State) (v : Nat), v < 2048 → s.pci.d3 = true → exec (.msixUnmask v) s = .next (unsupported s)) ∧
(∀ (s : State) (v : Nat), v < 2048 → s.pci.d3 = false → s.pba = [v] → s.pci.msixEn = true → s.pci.fmask = false →
  ∃ t, exec (.msixUnmask v) s = .next t ∧ t.pba = [] ∧ vectorMasked t v = false ∧ t.regs = s.regs ∧
    t.out = .msi v ((msixWord s v 0).toNat + 2 ^ 32 * (msixWord s v 1).toNat) (msixWord s v 2) :: s.out)

/-- When the count of TCLK cycles moves on, TIM_NOW shows the disciplined time T of the new count, to 2^-16 ns. In FREE,
a write of TIM_RATE by a management core stores the value, sets the offset to the time shown and the base to the
present count, and the disciplined time of the present count is the time shown (modulo its 2^48 s); no other
register changes. (R407, R413, R426) -/
def Obligations.RateChangeKeepsTime : Prop :=
  (∀ (s : State) (c : Nat), timeNow (setClock s c) = timeAt s (max c (s.rd64 TIM_RAW_LO))) ∧
(∀ (s : State) (b : List Byte), servo s = SV_FREE → b.length = 4 →
  ∃ t, exec (.registerWrite (.mgmt 1) TIM_RATE b) s = .next t ∧ t.rd TIM_RATE = w32 (u32 b 0) ∧
    ((timeAt t (s.rd64 TIM_RAW_LO) : Nat) : Int) = (timeNow s : Int) % timeWrap ∧ t.time.c = s.rd64 TIM_RAW_LO ∧
    (∀ a, a ≠ TIM_RATE → t.rd a = s.rd a))

/-- After PORST_N the mailbox memory and the doorbell queue are empty, every lock is free, no session or ticket is left,
every MBX register reads its reset value, DMA SRAM is empty, and the fuses, the firmware slots and FLT_FATALSRC but
for its test copy (bit 30) are what they were. (R92, R93, R515, R531, R547, R542) -/
def Obligations.PorstClearsAllButOwlState : Prop :=
  ∀ (s : State) (pgood : Bool), ∃ t, exec (.porstN pgood) s = .next t ∧ t.mbx = [] ∧ t.doorbells = [] ∧ t.inHand = [] ∧
  (∀ n, lockOwner t n = none) ∧ t.sessions = [] ∧ t.tickets = [] ∧ t.sram = [] ∧
  (∀ a, 0x40000 ≤ a → a < 0x50000 → t.rd a = Regs.dflt a) ∧
  t.fuses = s.fuses ∧ t.flash = s.flash ∧ t.rd FLT_FATALSRC = s.rd FLT_FATALSRC &&& ~~~ (0x40000000 : Word) ∧ t.pending = s.pending

/-- With the latch or its test copy set, a PWR_STATE_SET whose target is RUN or IDLE, whose length and parameters are
valid and that no earlier check refuses, is refused with ST_FAULT and does nothing else. (R531) -/
def Obligations.FatalLatchRefusesRun : Prop :=
  ∀ (s : State) (q : Req), gate s 0x0E00 q (q.params.length == 16) = none → (pwrChecks s q).head? = some (false, ST_BAD_PARAM) →
  u8 q.params 0 ≤ 1 → s.rb FLT_FATALSRC 31 = true ∨ s.rb FLT_FATALSRC 30 = true →
  exec (.pwrStateSet q) s = .next (deny s 0x0E00 q ST_FAULT)

/-- For an implemented source of a present unit whose rail pair has not failed, FAULT_REPORT sets the sticky bit. When
the source is enabled, the class of its configuration becomes pending, or the next higher one when that class was
pending already and is below FATAL; a report raised to FATAL halts the data path at the next boundary. A reserved
source or one of an absent unit changes only the cycle of the instant. (R522, R523, R524, R527, R533) -/
def Obligations.FaultReportIsRecorded : Prop :=
  ∀ (s : State) (src code cyc : Nat), src < 256 →
  (srcReserved src = false → srcAbsent s src = false → s.rb (FLT_RAILBAD (src / 32)) (src % 32) = false →
    ∃ t, exec (.faultReport src code cyc) s = .next t ∧ t.rb (FLT_STICKY (src / 32)) (src % 32) = true ∧
      (128 ≤ srcCfg s src →
        let c := srcCfg s src % 4
        let r := if s.rb FLT_CLSPEND c = true ∧ c < 3 then c + 1 else c
        t.rb FLT_CLSPEND r = true ∧ (r = 3 → t.haltDue = true))) ∧
  (srcReserved src = true ∨ srcAbsent s src = true ∨ s.rb (FLT_RAILBAD (src / 32)) (src % 32) = true →
    exec (.faultReport src code cyc) s = .next { s with cyc := cyc % 512 })

/-- For every n below 8: the register keeps the bits that the value does not name and loses those it does, every other
register but FLT_FIRST is unchanged, and FLT_FIRST is cleared exactly when no sticky bit is left. (R17, R533) -/
def Obligations.StickyWriteClearsNamedBits : Prop :=
  ∀ (s : State) (n : Nat) (v : Word), n < 8 →
  ∃ t, exec (.fltStickyWrite n v) s = .next t ∧ t.rd (FLT_STICKY n) = s.rd (FLT_STICKY n) &&& ~~~ v ∧
    (∀ a, a ≠ FLT_STICKY n → a ≠ FLT_FIRST → t.rd a = s.rd a) ∧
    (anySticky t = true → t.rd FLT_FIRST = s.rd FLT_FIRST) ∧ (anySticky t = false → t.rd FLT_FIRST = 0) ∧
    { t with regs := s.regs } = s

/-- An accepted ROLLBACK_COMMIT leaves a rollback count that is the larger of the present count and the running image's
svn held at 64, changes no other fuse and no firmware slot, and answers ST_OK with the count. (R548) -/
def Obligations.RollbackCommitBurnsToRunningSvn : Prop :=
  ∀ (s : State) (q : Req), gate s 0x0F07 q (q.params.length == 0) = none → updating s = false →
  ∃ t, exec (.rollbackCommit q) s = .next t ∧ t.fuses.svn = max s.fuses.svn (min 64 s.fwSvn) ∧
    { t.fuses with svn := s.fuses.svn } = s.fuses ∧ t.flash = s.flash ∧ t.store = s.store ∧
    (s.fuses.svn ≤ 64 → t.fuses.svn ≤ 64) ∧ (s.fwSvn ≤ s.fuses.svn → t.fuses = s.fuses)

/-- A KEY_CLOSE that is not refused before: on session 0 it is refused with ST_STATE; on an open session, the session no
longer exists afterwards and every other session is as it was. (R556, R69) -/
def Obligations.KeyCloseEndsTheSession : Prop :=
  ∀ (s : State) (q : Req), gate s 0x0F04 q (q.params.length == 0) = none →
  (q.session = 0 → exec (.keyClose q) s = .next (deny s 0x0F04 q ST_STATE)) ∧
  (q.session ≠ 0 → ∃ t, exec (.keyClose q) s = .next t ∧ t.session q.session = none ∧
    (∀ n, n ≠ q.session → t.session n = s.session n) ∧ t.fuses = s.fuses ∧ t.store = s.store)

/-- When a write becomes visible: G0 of either bank, and every special that is RO or reserved, leave the engine as it
was. A write of Gk of one bank, k from 1 to 31, is what that register then reads, and every other register of both
banks reads as before. (R268) -/
def Obligations.EngineRegisterZeroAndReservedSpecials : Prop :=
  (∀ (p : PpeSt) (w : PpeWr), w.key = 0 ∨ w.key = 128 ∨ (256 ≤ w.key ∧ w.key < 264 ∧ w.key ≠ 260) ∨ 284 ≤ w.key → ppeVisible p w = p) ∧
(∀ (p : PpeSt) (w : PpeWr), w.key < 256 → w.key % 128 ≠ 0 →
  Sparse.get (fun _ => 0) (ppeVisible p w).regs w.key = w.val ∧
  (∀ k, k ≠ w.key → Sparse.get (fun _ => 0) (ppeVisible p w).regs k = Sparse.get (fun _ => 0) p.regs k) ∧
  { ppeVisible p w with regs := p.regs } = p)

/-- For every channel n below 128 with FWOWN set, a 4-byte write of DMA_CTRL by a master other than a management core,
and a START or an ABORT by one, changes nothing. While channel n is in RUN or WAIT, a 4-byte write of DMA_PROG_LO or
DMA_PROG_HI by a master other than firmware changes nothing, and by firmware neither. (R370) -/
def Obligations.FirmwareOwnedChannelIgnoresOthers : Prop :=
  ∀ (s : State) (m : Master) (n fe : Nat) (v : Word) (b : List Byte), n < 128 → b.length = 4 → (m = .host → s.pci.d3 = false) →
  (isMgmt m = false → s.rb (DMA_CTRL n) 7 = true →
    exec (.registerWrite m (DMA_CTRL n) b) s = .next s ∧
    exec (.dmaCtrlStart m n v fe) s = .next s ∧ exec (.dmaCtrlAbort m n v) s = .next s) ∧
  (chanRuns s n = true →
    exec (.registerWrite m (DMA_PROG_LO n) b) s = .next s ∧ exec (.registerWrite m (DMA_PROG_HI n) b) s = .next s)

/-- A write of GLB_SWEVT with an event number below 512 changes nothing; with a number from 512 to 1,023 that event
fires: it is the newest event that left the block. (R589, R587) -/
def Obligations.SoftwareEventsBelow512AreIgnored : Prop :=
  ∀ (s : State) (m : Master) (v : Word), (m = .host → s.pci.d3 = false) →
  (fld v 9 0 < 512 → exec (.glbSwevtWrite m v) s = .next s) ∧
  (512 ≤ fld v 9 0 → ∃ t, exec (.glbSwevtWrite m v) s = .next t ∧ t.out = .event (fld v 9 0) :: s.out)

/-- For every mark n below 8 with FCLK running: while EN is 1 and the beat number modulo 2^PLOG equals PHASE, the mark
fires event 8+n, and that event leaves the block; while EN is 0 or at another beat it changes nothing. A 4-byte
write whose PHASE is at least 2^PLOG changes nothing. No commit group shadows a mark, and a write without that fault
reaches the register at once. (R30) -/
def Obligations.BeatMarkFires : Prop :=
  ∀ (s : State) (n : Nat), n < 8 →
  (fclkRuns s = true → s.rb (GLB_MARK n) 31 = true → s.beat % 2 ^ s.rf (GLB_MARK n) 28 24 = s.rf (GLB_MARK n) 23 0 →
    ∃ t, exec (.beatMark n) s = .next t ∧ t.out = .event (8 + n) :: s.out ∧ t.active = s.active) ∧
  (s.rb (GLB_MARK n) 31 = false ∨ s.beat % 2 ^ s.rf (GLB_MARK n) 28 24 ≠ s.rf (GLB_MARK n) 23 0 → exec (.beatMark n) s = .next s) ∧
  (∀ (m : Master) (b : List Byte), b.length = 4 → (m = .host → s.pci.d3 = false) →
    (2 ^ fld (w32 (u32 b 0)) 28 24 ≤ fld (w32 (u32 b 0)) 23 0 → exec (.registerWrite m (GLB_MARK n) b) s = .next s) ∧
    (fld (w32 (u32 b 0)) 28 24 ≤ 24 → fld (w32 (u32 b 0)) 23 0 < 2 ^ fld (w32 (u32 b 0)) 28 24 →
      ∃ t, exec (.registerWrite m (GLB_MARK n) b) s = .next t ∧ t.rd (GLB_MARK n) =
        (s.rd (GLB_MARK n) &&& 0x60000000) ||| (w32 (u32 b 0) &&& 0x9FFFFFFF))) ∧
  groupOf (GLB_MARK n) = none

/-- When the replay window of a session accepts a sequence number, the window it leaves refuses the same number at once;
and a number more than 1,023 behind the highest accepted one, or 2^31 or more ahead, is never accepted by a window
that is not empty. (R69) -/
def Obligations.AcceptedSequenceIsRefusedAgain : Prop :=
  (∀ (w w' : Session) (n : Nat), n < 2 ^ 32 → w.high < 2 ^ 32 → replayStep w n = some w' → replayStep w' n = none) ∧
(∀ (w : Session) (n : Nat), n < 2 ^ 32 → w.high < 2 ^ 32 → w.empty = false →
  1023 < (w.high + 2 ^ 32 - n) % 2 ^ 32 → 2 ^ 31 ≤ (n + 2 ^ 32 - w.high) % 2 ^ 32 → replayStep w n = none)

/-- Device, commit, profile, budget, beat and restart rows: under the conditions of their rules each of them completes,
with exactly the next state that the rules give (R75, R76, R5, R45, R52, R37, R56, R43, R103, R57, R20, R30, R454). -/
def Obligations.DeviceCommitAndBeatCommandsComplete : Prop :=
  -- PING (R75)
  (∀ (s : State) (q : Req),
      accepted s 0x0000 q (decide (q.params.length ≤ 4068)) [] = true →
      exec (.ping q) s = .next (reply s 0x0000 q ST_OK q.params)) ∧
  -- DEVICE_ID_GET (R75)
  (∀ (s : State) (q : Req),
      accepted s 0x0001 q (q.params.length == 0) [] = true →
      exec (.deviceIdGet q) s = .next (reply s 0x0001 q ST_OK (b4 s.devId ++ b2 (hostEpoch s) ++ b2 (fwEpoch s)))) ∧
  -- DEVICE_ID_SET (R76)
  (∀ (s : State) (q : Req),
      let p := q.params
      accepted s 0x0002 q (p.length == 8) [(decide (2 ^ 20 ≤ u32 p 0) || decide (2 ≤ u32 p 4), ST_BAD_PARAM)] = true →
      exec (.deviceIdSet q) s = .next (setDeviceId (reply s 0x0002 q ST_OK []) (u32 p 0) (u32 p 4 == 1))) ∧
  -- QUERY_CAPS (R5)
  (∀ (s : State) (q : Req),
      accepted s 0x0003 q (q.params.length == 0) [] = true →
      exec (.queryCaps q) s = .next (reply s 0x0003 q ST_OK (bw s.fuses.id ++ bw s.fuses.cap0 ++ bw s.fuses.cap1 ++ b4 (s.devId % 2 ^ 20) ++ b4 s.fwVersion))) ∧
  -- LOCK_PEEK (R75)
  (∀ (s : State) (q : Req),
      let n := u16 q.params 0
      accepted s 0x0004 q (q.params.length == 4) [(decide (256 ≤ n) || !zeroAt q.params 2 2, ST_BAD_PARAM)] = true →
      exec (.lockPeek q) s = .next (reply s 0x0004 q ST_OK (b4 (lockWord s n)))) ∧
  -- COMMIT (R45)
  (∀ (s : State) (q : Req) (w : At),
      let s' := arrive s w
      let p := q.params
      accepted s' 0x0100 q (p.length == 24) (commitChecks s' p) = true →
      (commitTrial s' p).excess = none →
      exec (.commit q w) s = .next (ticketAdd s' 0x0100 q (u64 p 0) (commitTarget p) (commitGap p) none false)) ∧
  -- COMMIT_COPY (R45)
  (∀ (s : State),
      exec .commitCopy s = .next (forEach (ticketOrder (copyDue s)) s (fun t s => ticketCopy s t))) ∧
  -- COMMIT_STATUS (R52)
  (∀ (s : State) (q : Req) (t : Ticket) (e : Nat),
      accepted s 0x0101 q (q.params.length == 4) [((findTicket s (u32 q.params 0)).isNone, ST_BAD_PARAM)] = true →
      findTicket s (u32 q.params 0) = some (t, e) →
      exec (.commitStatus q) s = .next (if e = 1 then deny s 0x0101 q ST_STATE else ticketReply s 0x0101 q (if e = 0 then ST_OK else ST_ACCEPTED) t)) ∧
  -- COMMIT_CANCEL (R52)
  (∀ (s : State) (q : Req) (w : At) (t : Ticket),
      let s' := arrive s w
      accepted s' 0x0102 q (q.params.length == 4) [((findTicket s' (u32 q.params 0)).isNone, ST_BAD_PARAM)] = true →
      findTicket s' (u32 q.params 0) = some (t, 3) →
      cancelLate s' t = false →
      exec (.commitCancel q w) s = .next (cancelEffect s' q t)) ∧
  -- BUDGET_CHECK (R37)
  (∀ (s : State) (q : Req),
      let p := q.params
      let o := applyTickets s (activeCfg s) s.tickets
      accepted s 0x0103 q (p.length == 16) (budgetChecks s p) = true →
      exec (.budgetCheck q) s = .next (answer s 0x0103 q (budgetBytes (usage s o (applyGroups s o (u64 p 0)) ((u32 p 8).testBit 0))))) ∧
  -- PROFILE_SET (R56)
  (∀ (s : State) (q : Req) (w : At),
      let s' := arrive s w
      accepted s' 0x0104 q (q.params.length == 24) (profileChecks s' q.params) = true →
      (profTrial s' q.params).excess = none →
      exec (.profileSet q w) s = .next (profileEffect s' q)) ∧
  -- PROFILE_GET (R56)
  (∀ (s : State) (q : Req),
      accepted s 0x0105 q (q.params.length == 0) [] = true →
      exec (.profileGet q) s = .next (reply s 0x0105 q ST_OK (slice (s.profile ++ zeros 16) 0 16 ++ b8 s.profileBeat))) ∧
  -- ACTIVE_READ (R43)
  (∀ (s : State) (q : Req) (group : Nat) (word : Nat),
      accepted s 0x0106 q true [(groupAbsent s group, ST_UNIT_ABSENT), (decide (55 < group) || decide ((groupWords s group).length ≤ word), ST_BAD_PARAM)] = true →
      exec (.activeRead q group word) s = .next (reply s 0x0106 q ST_OK (bw (nth 0 (groupWords s group) word)))) ∧
  -- CNV_DIVIDE (R103)
  (∀ (s : State) (q : Req) (w : At),
      let s' := arrive s w
      accepted s' 0x0200 q (q.params.length == 16) (divideChecks s' q.params) = true →
      exec (.cnvDivide q w) s = .next (divideEffect s' q)) ∧
  -- RESTART_STOP (R57)
  (∀ (s : State) (r : Restart),
      s.restart = some r →
      restartStopDue s r = true →
      exec .restartStop s = .next (restartStop s r)) ∧
  -- RESTART_RUN_START (R57)
  (∀ (s : State) (r : Restart),
      s.restart = some r →
      restartReady s r = true →
      exec .restartRunStart s = .next (restartRun s r)) ∧
  -- BEAT_BOUNDARY (R20)
  (∀ (s : State) (b : BeatInput),
      exec (.beatBoundary b) s = .next (boundary s b)) ∧
  -- BEAT_MARK (R30)
  (∀ (s : State) (n : Nat),
      (n < 8 ∧ markDue s n) →
      exec (.beatMark n) s = .next (fire s (8 + n))) ∧
  -- SYNCIN_EDGE (R454)
  (∀ (s : State) (rising : Bool) (b : BeatInput),
      s.rb CLK_SYNC 31 = true →
      rising ≠ s.rb CLK_SYNC 29 →
      exec (.syncinEdge rising b) s = .next (if syncinFit s then syncReset s b else s.setB CLK_SYNC 17 true))

/-- Converter calibration, background steps, power-down and over-range rows: under the conditions of their rules each of
them completes, with exactly the next state that the rules give (R131, R118, R133, R132, R134, R135, R126, R123,
R124, R130, R109). -/
def Obligations.ConverterCommandsComplete : Prop :=
  -- CAL_FOREGROUND (R131)
  (∀ (s : State) (q : Req),
      accepted s 0x0201 q (q.params.length == 4) (calFgChecks s q.params) = true →
      exec (.calForeground q) s = .next (reply (forEach (calQuads q.params) s (fun k s => fgBegin s k)) 0x0201 q ST_ACCEPTED [])) ∧
  -- FOREGROUND_CAL_END (R118)
  (∀ (s : State) (quad : Nat) (r : List FgCore),
      (fgRunning s quad ∧ quad < 4) →
      exec (.foregroundCalEnd quad r) s = .next (fgEnd s quad r)) ∧
  -- CAL_STATUS (R133)
  (∀ (s : State) (q : Req),
      accepted s 0x0202 q (q.params.length == 0) [] = true →
      exec (.calStatus q) s = .next (reply s 0x0202 q ST_OK ((List.range 4).flatMap (calStatusBytes s)))) ∧
  -- CAL_ABORT (R132)
  (∀ (s : State) (q : Req),
      accepted s 0x0203 q (q.params.length == 4) [((calQuads q.params).any (fun k => !quadPresent s k), ST_UNIT_ABSENT), (calParamBad q.params, ST_BAD_PARAM)] = true →
      exec (.calAbort q) s = .next (reply (forEach (calQuads q.params) s (fun k s => fgAbort s k 1)) 0x0203 q ST_OK [])) ∧
  -- CAL_BACKGROUND (R134)
  (∀ (s : State) (q : Req),
      let v := w32 (u32 q.params 4)
      let l := bitList 32 (u32 q.params 0)
      accepted s 0x0204 q (q.params.length == 8) [(l.any (fun n => !corePresent s n), ST_UNIT_ABSENT), (bgcalBad v || v &&& ~~~0xFFB#32 != 0, ST_BAD_PARAM)] = true →
      exec (.calBackground q) s = .next (reply (forEach l s (fun n s => bgcalWrite s n v)) 0x0204 q ST_OK [])) ∧
  -- CNV_STATUS (R135)
  (∀ (s : State) (q : Req),
      let n := u16 q.params 0
      accepted s 0x0205 q (q.params.length == 4) [(decide (n < 32) && !corePresent s n, ST_UNIT_ABSENT), (decide (32 ≤ n) || !zeroAt q.params 2 2, ST_BAD_PARAM)] = true →
      exec (.cnvStatus q) s = .next (reply s 0x0205 q ST_OK (cnvStatusBytes s n))) ∧
  -- CNV_BGCAL_WRITE (R126)
  (∀ (s : State) (m : Master) (core : Nat) (v : Word),
      (m = .host → s.pci.d3 = false) →
      core < 32 →
      corePresent s core = true →
      bgcalBad v = false →
      exec (.cnvBgcalWrite m core v) s = .next (s.wr (CNV_BGCAL core) (v &&& 0xFFB))) ∧
  -- BG_CAL_INTERVAL_END (R123)
  (∀ (s : State) (core : Nat) (e : BgEst),
      (corePresent s core ∧ core < 32 ∧ (s.core core).ivlEnd) →
      exec (.bgCalIntervalEnd core e) s = .next (bgIntervalEnd s core e)) ∧
  -- BG_STEP_LANDING (R124)
  (∀ (s : State),
      exec .bgStepLanding s = .next (forEach (allCores s) s (fun n s => landOne s n))) ∧
  -- CNV_PWRDN_WRITE (R130)
  (∀ (s : State) (m : Master) (core : Nat) (v : Word),
      (m = .host → s.pci.d3 = false) →
      (core < 32 ∧ corePresent s core) →
      exec (.cnvPwrdnWrite m core v) s = .next (pwrdnWrite s core v)) ∧
  -- CORE_READY (R130)
  (∀ (s : State) (core : Nat),
      let c := s.core core
      (c.waking ∧ !s.rb (CNV_CTRL core) 0 ∧ !fgRunning s (core / 8)) →
      exec (.coreReady core) s = .next ((s.setCore core { c with waking := false, down := false }).setF (CNV_STAT core) 1 0 2)) ∧
  -- OVER_RANGE_EPISODE (R109)
  (∀ (s : State) (core : Nat) (cyc : Nat) (ovd : Bool),
      (corePresent s core ∧ core < 32 ∧ !(s.core core).down ∧ !fgRunning s (core / 8)) →
      exec (.overRangeEpisode core cyc ovd) s = .next (overRange s core cyc ovd)) ∧
  -- OVER_RANGE_TAIL_END (R109)
  (∀ (s : State) (core : Nat) (s1 : Int),
      ((s.core core).ep) →
      exec (.overRangeTailEnd core s1) s = .next (overRangeEnd s core s1))

/-- Path conditioning and spectral engine rows: under the conditions of their rules each of them completes, with exactly
the next state that the rules give (R165, R166, R167, R156, R161, R195, R196, R197, R183, R198). -/
def Obligations.PathAndSliceCommandsComplete : Prop :=
  -- PTH_CONFIG (R165)
  (∀ (s : State) (q : Req),
      accepted s 0x0300 q (q.params.length == 36) (pthConfigChecks s q.params) = true →
      exec (.pthConfig q) s = .next (reply (writeRegs s q.params 4 (pathRegs (u16 q.params 0))) 0x0300 q ST_OK [])) ∧
  -- FIR_LOAD (R166)
  (∀ (s : State) (q : Req),
      let p := q.params
      let h := coeffs p 8 (u16 p 4)
      accepted s 0x0301 q (p.length == 8 + 4 * u16 p 4) (firChecks s p) = true →
      exec (.firLoad q) s = .next (reply (firLoad s (u16 p 0) (u8 p 2) h) 0x0301 q ST_OK (b4 (firInfo h)))) ∧
  -- PTH_STATUS (R167)
  (∀ (s : State) (q : Req),
      let n := u16 q.params 0
      accepted s 0x0302 q (q.params.length == 4) [(decide (n < 32) && !corePresent s n, ST_UNIT_ABSENT), (decide (32 ≤ n) || !zeroAt q.params 2 2, ST_BAD_PARAM)] = true →
      exec (.pthStatus q) s = .next (reply s 0x0302 q ST_OK (regsBytes s [PTH_STAT n, PTH_GRPDLY n, PTH_XFSTAT n, PTH_DCEST n, PTH_BLKTOT n, PTH_SATCNT n]))) ∧
  -- FADE_START (R156)
  (∀ (s : State) (path : Nat) (b x : Nat),
      path < 32 →
      (s.path path).fade = none →
      (s.path path).queued = some (b, x) →
      b ≠ (s.path path).bankNow →
      exec (.fadeStart path) s = .next (showXf (s.setPath path { s.path path with queued := none, fade := some ⟨(s.path path).bankNow, b, x, x⟩ }) path)) ∧
  -- FADE_END (R156)
  (∀ (s : State) (path : Nat) (f : Fade),
      path < 32 →
      (s.path path).fade = some f →
      f.left = 0 →
      exec (.fadeEnd path) s = .next (
        let t := (s.setPath path { s.path path with fade := none, bankNow := f.tgt })
        let t := (t.setF (PTH_XFSTAT path) 31 30 1).setB (PTH_STAT path) 3 true
        fire (showXf (t.wr (PTH_GRPDLY path) (w32 (grpDly t path f.tgt (pathNext t path)))) path) (288 + path))) ∧
  -- COARSE_TO_FINE (R161)
  (∀ (s : State) (path : Nat),
      let p := s.path path
      (p.fineDue) →
      exec (.coarseToFine path) s = .next (fire ((s.setPath path { p with fineDue := false }).setB (PTH_STAT path) 4 true) (288 + path))) ∧
  -- SLC_CONFIG (R195)
  (∀ (s : State) (q : Req),
      let p := q.params
      let k := u16 p 0
      accepted s 0x0400 q (p.length == 52) [(decide (k < 16) && !slicePresent s k, ST_UNIT_ABSENT),
         (decide (16 ≤ k) || decide (2 ≤ u8 p 2) || !zeroAt p 3 1 || reservedSet p 4 laneRegMasks, ST_BAD_PARAM),
         (groupLocked s (32 + k), ST_BUSY)] = true →
      exec (.slcConfig q) s = .next (reply (writeRegs s p 4 (laneRegs k (u8 p 2))) 0x0400 q ST_OK [])) ∧
  -- WINDOW_LOAD (R196)
  (∀ (s : State) (q : Req),
      let ok := decide (16 ≤ q.params.length) && q.params.length == 16 + 4 * u16 q.params 12
      accepted (if ok then winInvalid s q else s) 0x0401 q ok (windowChecks s q) = true →
      exec (.windowLoad q) s = .next (windowLoad s q)) ∧
  -- WINDOW_LOAD_ABANDON (R196)
  (∀ (s : State) (slice : Nat) (bank : Nat) (x : WinLoad),
      slice < 16 →
      bank < 2 →
      winLoad s slice bank = some x →
      exec (.windowLoadAbandon slice bank) s = .next ((setWinLoad s slice bank none).setF (winInfoReg slice bank) 31 30 0)) ∧
  -- TRACE_CLEAR (R197)
  (∀ (s : State) (q : Req),
      let p := q.params
      let k := u16 p 0
      let key := laneKey k (u8 p 2)
      accepted s 0x0402 q (p.length == 4) [(decide (k < 16) && !slicePresent s k, ST_UNIT_ABSENT),
         (decide (16 ≤ k ∨ 2 ≤ u8 p 2 ∨ 16 ≤ u8 p 3), ST_BAD_PARAM)] = true →
      exec (.traceClear q) s = .next (reply { s with traceClr := Sparse.set (fun _ => 0) s.traceClr key (Sparse.get (fun _ => 0) s.traceClr key ||| u8 p 3) }
            0x0402 q ST_OK [])) ∧
  -- TRACE_RESTART (R183)
  (∀ (s : State) (slice : Nat) (lane : Nat) (traces : Nat),
      let key := laneKey slice lane
      let get := fun (k : Nat) => Sparse.get (fun _ => 0) s.traceClr k
      let put := fun (l : List (Nat × Nat)) (k v : Nat) => Sparse.set (fun _ => 0) l k v
      let due := get key &&& traces
      (¬(due = 0 ∨ 16 ≤ slice ∨ 2 ≤ lane)) →
      exec (.traceRestart slice lane traces) s = .next ({ s with traceClr := put (put s.traceClr key (get key ^^^ due)) (32 + key) (get (32 + key) ||| due) })) ∧
  -- SLC_STATUS (R198)
  (∀ (s : State) (q : Req),
      let k := u16 q.params 0
      accepted s 0x0403 q (q.params.length == 4) [(decide (k < 16) && !slicePresent s k, ST_UNIT_ABSENT), (decide (16 ≤ k) || !zeroAt q.params 2 2, ST_BAD_PARAM)] = true →
      exec (.slcStatus q) s = .next (reply s 0x0403 q ST_OK (regsBytes s [SLC_STAT k, SLC_SATCNT k, SLC_ANCHOR_LO k, SLC_ANCHOR_HI k, SLC_LLAST_LO k 0,
            SLC_LLAST_HI k 0, SLC_LLAST_LO k 1, SLC_LLAST_HI k 1, SLC_LRFITOT k 0, SLC_LRFITOT k 1, SLC_LMSKCNT k 0, SLC_LMSKCNT k 1])))

/-- Density histogram and correlation array rows: under the conditions of their rules each of them completes, with
exactly the next state that the rules give (R227, R208, R209, R215, R223, R224, R226). -/
def Obligations.DensityAndCorrelationCommandsComplete : Prop :=
  -- DEN_SET (R227)
  (∀ (s : State) (q : Req),
      accepted s 0x0500 q (q.params.length == 16) [(reservedSet q.params 0 [0xFFFF, 0xFFFFF000, 0xFF, 0x1FF], ST_BAD_PARAM), (groupLocked s 48, ST_BUSY)] = true →
      exec (.denSet q) s = .next (reply (writeRegs s q.params 0 denSetRegs) 0x0500 q ST_OK [])) ∧
  -- DEN_PATH_SET (R227)
  (∀ (s : State) (q : Req),
      let p := u16 q.params 0
      accepted s 0x0501 q (q.params.length == 12) [(decide (p < 32) && !corePresent s p, ST_UNIT_ABSENT),
         (decide (32 ≤ p) || !zeroAt q.params 2 2 || reservedSet q.params 4 [0xFFFFFFF1, 0xFFFFFFFF], ST_BAD_PARAM), (groupLocked s 48, ST_BUSY)] = true →
      exec (.denPathSet q) s = .next (reply (writeRegs s q.params 4 [DEN_PCFG p, DEN_PMAP p]) 0x0501 q ST_OK [])) ∧
  -- DEN_REGION_SET (R227)
  (∀ (s : State) (q : Req),
      let n := u16 q.params 0
      accepted s 0x0502 q (q.params.length == 12) [(decide (16 ≤ n) || !zeroAt q.params 2 2 || reservedSet q.params 4 [0x9F0FFFFF, 0xFFFF], ST_BAD_PARAM), (groupLocked s 48, ST_BUSY)] = true →
      exec (.denRegionSet q) s = .next (reply (writeRegs s q.params 4 [DEN_RGNA n, DEN_RGNB n]) 0x0502 q ST_OK [])) ∧
  -- CORR_SET (R227)
  (∀ (s : State) (q : Req),
      accepted s 0x0503 q (q.params.length == 52) [(!corrPresent s, ST_UNIT_ABSENT),
         (reservedSet q.params 0 ([0xF0001, 0x1FFFFFF, 0xFFFFF000, 0xFF, 0x1FF] ++ List.replicate 8 0xFFFFFFFF), ST_BAD_PARAM), (groupLocked s 49, ST_BUSY)] = true →
      exec (.corrSet q) s = .next (reply (writeRegs s q.params 0 corrSetRegs) 0x0503 q ST_OK [])) ∧
  -- DEN_STATUS (R227)
  (∀ (s : State) (q : Req),
      accepted s 0x0504 q (q.params.length == 0) [] = true →
      exec (.denStatus q) s = .next (reply s 0x0504 q ST_OK (regsBytes s [DEN_STAT, DEN_SATCNT, DEN_LATECNT, DEN_LASTFLUSH_LO, DEN_LASTFLUSH_HI,
            CORR_STAT, CORR_LATECNT, CORR_LASTEND_LO, CORR_LASTEND_HI]))) ∧
  -- DENSITY_FLUSH (R208)
  (∀ (s : State),
      let fp := s.af DEN_CTRL 15 0
      (fclkRuns s ∧ fp ≠ 0 ∧ s.beat % fp = 0 ∧ !s.denMarks.contains 0) →
      exec .densityFlush s = .next (
        let s := { s with denMarks := 0 :: s.denMarks }
        if s.running ∧ enabledPaths s ≠ [] then flushNow s else s)) ∧
  -- DENSITY_READOUT_START (R209)
  (∀ (s : State) (f : Flush) (t : List Flush),
      let f' := { f with
        modes := f.paths.map (fun p => (p, s.rdA (DEN_PCFG p))), slots := f.paths.map (fun p => (p, denSlot s p)), start := s.beat }
      s.denRun = none →
      s.denWait = f :: t →
      f.due = true →
      exec .densityReadoutStart s = .next (showDen (forEach f'.slots { s with denRun := some f', denWait := t }
          (fun x s => s.unitWrite x.2 (leBytes 8 (2 ^ 64 - 1)))))) ∧
  -- DENSITY_READOUT_END (R215)
  (∀ (s : State) (spans : List (Nat × Nat)) (f : Flush),
      s.denRun = some f →
      exec (.densityReadoutEnd spans) s = .next (showDen ((readAll f f.paths spans { s with denRun := none }).wr64 DEN_LASTFLUSH_LO f.r))) ∧
  -- CORR_INTEGRATION_END (R223)
  (∀ (s : State) (c : CorrSt),
      s.corr = some c →
      s.ab CORR_CTRL 0 = false →
      exec .corrIntegrationEnd s = .next (corrFinal s)) ∧
  -- CORR_INTEGRATION_END (R223)
  (∀ (s : State) (c : CorrSt),
      let per := fld (nth 0 c.cfg 1) 24 0
      s.corr = some c →
      c.ended = none →
      c.age ≠ 0 →
      s.ab CORR_CTRL 0 = true →
      per ≠ 0 →
      s.beat % per = 0 →
      (c.late && s.corrDump.isSome) = false →
      exec .corrIntegrationEnd s = .next ({ s with corr := some { c with ended := some s.beat, endAge := 0, time := (boundaryTime s s.beat).1, tf := (boundaryTime s s.beat).2 }, corrNext := some (corrNew s) }.setB
          CORR_STAT 3 true)) ∧
  -- CORR_BANK_SWAP (R224)
  (∀ (s : State) (c : CorrSt) (r : Nat),
      s.corr = some c →
      c.ended = some r →
      c.endAge ≠ 0 →
      s.corrDump = none →
      exec .corrBankSwap s = .next (corrSwap s c)) ∧
  -- CORR_BANK_SWAP (R224)
  (∀ (s : State) (c d : CorrSt) (r : Nat),
      s.corr = some c →
      c.ended = some r →
      c.endAge ≠ 0 →
      s.corrDump = some d →
      c.final = false →
      exec .corrBankSwap s = .next (corrDefer s c)) ∧
  -- CORR_DUMP_END (R226)
  (∀ (s : State) (c : CorrSt),
      s.corrDump = some c →
      exec .corrDumpEnd s = .next (
        let a := corrSlot s c
        let t := ((s.unitWrite (a + 0x1000) (corrWeights c)).unitWrite (a + 0x5000) (corrData c)).unitWrite a (corrHeader s c)
        let r := match c.ended with | some r => r | none => 0
        let t := forEach (liveStreams t 4) t (fun n t =>
          hbmObject t n ⟨4, c.flags, 0, r, c.time, c.tf, c.paths.length, c.count⟩ (units64 (t.hbmRead a (0x5000 + (corrData c).length))) (src64 a (0x5000 + (corrData c).length)))
        let t := (t.wr64 CORR_LASTEND_LO r).setB CORR_STAT 2 false
        { t with corrDump := none, corrF := t.corrF + 1 }))

/-- Ringmaster trigger and Carousel capture rows: under the conditions of their rules each of them completes, with
exactly the next state that the rules give (R257, R258, R231, R233, R232, R239, R256, R251, R249, R254). -/
def Obligations.TriggerAndCarouselCommandsComplete : Prop :=
  -- TRG_CONFIG (R257)
  (∀ (s : State) (q : Req),
      let u := u16 q.params 0
      accepted s 0x0600 q (q.params.length == 48) [(decide (32 ≤ u) || !zeroAt q.params 2 2 || reservedSet q.params 4 trgMasks, ST_BAD_PARAM), (groupLocked s 50, ST_BUSY)] = true →
      exec (.trgConfig q) s = .next (reply (writeRegs s q.params 4 (trgRegs u)) 0x0600 q ST_OK [])) ∧
  -- TRG_ARM (R258)
  (∀ (s : State) (q : Req),
      let p := q.params
      let l := masterList p
      let abs := u32 p 4 == 1
      let target := if abs then u64 p 8 else s.beat + 1
      accepted s 0x0601 q (p.length == 16) [(decide (2 ≤ u32 p 4) || notMaster s p, ST_BAD_PARAM), (r503 s || (abs && decide (target ≤ s.beat)), ST_STATE)] = true →
      exec (.trgArm q) s = .next (reply (forEach l s (fun m s => if (s.unit m).st = 1 then s else armLater s m target))
            0x0601 q ST_OK (b8 (armBeatOf s l target)))) ∧
  -- GROUP_ARM (R231)
  (∀ (s : State) (m : Nat),
      isMaster s.rdA m = true →
      dueReq s s.armReq m = true →
      (s.unit m).st ≠ 1 →
      exec (.groupArm m) s = .next (armGroup { s with armReq := laterReq s s.armReq m } m)) ∧
  -- TRG_DISARM (R258)
  (∀ (s : State) (q : Req),
      let p := q.params
      accepted s 0x0602 q (p.length == 8) [(!zeroAt p 4 4 || notMaster s p, ST_BAD_PARAM)] = true →
      exec (.trgDisarm q) s = .next (reply (forEach (masterList p) s (fun m s =>
            if (s.unit m).st = 0 then s else { s with disReq := dropReq s.disReq m ++ [(m, s.beat + 1)] })) 0x0602 q ST_OK (b8 (s.beat + 1)))) ∧
  -- GROUP_DISARM (R258)
  (∀ (s : State) (m : Nat),
      (m < 32 ∧ dueReq s s.disReq m) →
      exec (.groupDisarm m) s = .next (showGroup ({ s with disReq := dropReq s.disReq m }.setUnit m { s.unit m with st := 0 }) m)) ∧
  -- TRG_FORCE (R258)
  (∀ (s : State) (q : Req),
      let p := q.params
      accepted s 0x0603 q (p.length == 8) [(!zeroAt p 4 4 || notMaster s p, ST_BAD_PARAM), (r503 s || (masterList p).any (fun m => (s.unit m).st != 1), ST_STATE)] = true →
      exec (.trgForce q) s = .next (reply (forEach (masterList p) s (fun m s => { s with forceReq := dropReq s.forceReq m ++ [(m, s.beat + 1)] }))
            0x0603 q ST_OK (b8 (s.beat + 1)))) ∧
  -- FORCED_FIRE (R258)
  (∀ (s : State) (m : Nat),
      isMaster s.rdA m = true →
      dueReq s s.forceReq m = true →
      (s.unit m).st = 1 →
      dueReq s s.disReq m = false →
      exec (.forcedFire m) s = .next (groupFire { s with forceReq := dropReq s.forceReq m } m 0xFF [] ⟨m, s.beat, 0, s.beat, 0, none, false, 0⟩ false)) ∧
  -- HOLDOFF_END (R233)
  (∀ (s : State) (m : Nat),
      let x := s.unit m
      let due := if bit (s.rdA (TRG_HOLD m)) 31 then x.holdLeft == 0 && decide (x.holdTo ≤ s.beat) else decide (x.holdTo ≤ s.beat)
      (isMaster s.rdA m ∧ x.st = 2 ∧ due) →
      exec (.holdoffEnd m) s = .next (armGroup s m)) ∧
  -- TRIGIO_PULSE_END (R232)
  (∀ (s : State) (pin : Nat),
      let past (p : Nat × Nat) : Bool := p.1 == pin && decide (p.2 + 1 ≤ s.beat)
      (s.pulses.any past) →
      exec (.trigioPulseEnd pin) s = .next (
        let s := { s with pulses := s.pulses.filter (fun p => !past p) }
        if s.pulses.any (fun p => p.1 == pin && decide (p.2 ≤ s.beat)) then s else s.put (.pin (16 + pin) true))) ∧
  -- MASK_LOAD (R239)
  (∀ (s : State) (q : Req),
      let p := q.params
      accepted s 0x0604 q (decide (4 ≤ p.length) && p.length == 4 + 4 * u16 p 2) [(decide (63 < u8 p 0 ∨ 1 < u8 p 1 ∨ 256 < u16 p 2) || !ascending (maskVerts p), ST_BAD_PARAM), (maskBusy s (u8 p 0), ST_BUSY)] = true →
      exec (.maskLoad q) s = .next (reply (maskLoad s (u8 p 0) (u8 p 1) (maskVerts p)) 0x0604 q ST_OK (b8 (s.beat + 1)))) ∧
  -- MASK_VERSION_RELEASE (R239)
  (∀ (s : State) (m : Nat),
      (m < 64 ∧ (maskOf s m).fromBeat ≤ s.beat ∧ (List.range 32).all (laneTested s m (maskOf s m).fromBeat) ∧
          s.maskRes.all (fun r => decide ((maskOf s m).fromBeat ≤ r.posBeat))) →
      exec (.maskVersionRelease m) s = .next (
        let x := maskOf s m
        { s with masks := Sparse.set (fun _ => {}) s.masks m { x with oldDir := x.dir, old := x.verts } }.setB (busyReg m) (m % 32) false)) ∧
  -- CAR_CONFIG (R257)
  (∀ (s : State) (q : Req),
      let c := u16 q.params 0
      accepted s 0x0605 q (q.params.length == 36) [(decide (4 ≤ c) || !zeroAt q.params 2 2 || reservedSet q.params 4 carConfigMasks, ST_BAD_PARAM), (groupLocked s 51, ST_BUSY)] = true →
      exec (.carConfig q) s = .next (reply (writeRegs s q.params 4 (carRegs c)) 0x0605 q ST_OK [])) ∧
  -- CAR_ARM (R258)
  (∀ (s : State) (q : Req),
      let l := chMask q.params
      accepted s 0x0606 q (q.params.length == 4) [(decide (16 ≤ u32 q.params 0), ST_BAD_PARAM), (r503 s || l.any (fun c => !carEn s.rdA c), ST_STATE)] = true →
      exec (.carArm q) s = .next (reply (forEach l s (fun c s =>
            let x := s.car c
            if x.st = 1 ∨ x.st = 2 ∨ x.st = 3 ∨ x.armAt.isSome then s else s.setCar c { x with armAt := some (s.beat + 1) }))
            0x0606 q ST_OK (b8 (s.beat + 1)))) ∧
  -- CAR_STOP (R256)
  (∀ (s : State) (q : Req),
      accepted s 0x0607 q (q.params.length == 4) [(decide (16 ≤ u32 q.params 0), ST_BAD_PARAM)] = true →
      exec (.carStop q) s = .next (reply (forEach (chMask q.params) s (fun c s =>
            let x := s.car c
            if carActive x || x.armAt.isSome || x.resume then s.setCar c { x with stopAt := some (s.beat + 1) } else s)) 0x0607 q ST_OK (b8 (s.beat + 1)))) ∧
  -- SEGMENT_STOP_CLOSE (R256)
  (∀ (s : State) (c : Nat) (b : Nat),
      (s.car c).stopAt = some b →
      c < 4 →
      b ≤ s.beat →
      exec (.segmentStopClose c) s = .next (carStopNow s c 1 true)) ∧
  -- CAR_STATUS (R257)
  (∀ (s : State) (q : Req),
      let c := u16 q.params 0
      accepted s 0x0608 q (q.params.length == 4) [(decide (4 ≤ c) || !zeroAt q.params 2 2, ST_BAD_PARAM)] = true →
      exec (.carStatus q) s = .next (reply s 0x0608 q ST_OK (regsBytes s [CAR_CHSTAT c, CAR_CHSEGCNT_LO c, CAR_CHSEGCNT_HI c, CAR_CHCAP c, CAR_CHMISS c, CAR_CHFILL c, CAR_STAT]))) ∧
  -- SEGMENT_END (R251)
  (∀ (s : State) (c : Nat),
      let x := s.car c
      (¬(4 ≤ c ∨ x.st ≠ 2 ∨ !segFull s c)) →
      exec (.segmentEnd c) s = .next (
        let stopv : Bool := match x.fire with | some f => f.stopv | none => false
        let s := segClose s c false
        let x := s.car c
        let full := carFull s c
        if stopv ∨ full then
          carEvent (showCar (carCause (s.setCar c { x with st := 4, fire := none }) c (if stopv then 3 else 2)) c) c 2
        else showCar (s.setCar c { x with st := 3, fire := none }) c)) ∧
  -- SEGMENT_GAP_END (R249)
  (∀ (s : State) (c : Nat),
      let x := s.car c
      (c < 4 ∧ x.st = 3 ∧ x.gapAt < s.beat) →
      exec (.segmentGapEnd c) s = .next (segAgain s c)) ∧
  -- OVERFLOW_RESUME (R254)
  (∀ (s : State) (c : Nat),
      let x := s.car c
      (c < 4 ∧ x.st = 4 ∧ x.resume ∧ x.fill = 0) →
      exec (.overflowResume c) s = .next (segAgain (s.setCar c { x with resume := false }) c))

/-- Post-processing engine commands: under the conditions of their rules each of them completes, with exactly the next
state that the rules give (R293, R298). -/
def Obligations.EngineCommandsComplete : Prop :=
  -- PPE_LOAD (R293)
  (∀ (s : State) (q : Req),
      let es := bitList 64 (u64 q.params 0)
      let a := u64 q.params 8
      let len := u32 q.params 16
      let b := s.hbmRead a (min len 328192)
      let i := imageOf b
      accepted s 0x0700 q (q.params.length == 24) [(es.any (fun e => !enginePresent s e), ST_UNIT_ABSENT),
          (es == [] || a % 8 != 0 || !inHbm a len || !zeroAt q.params 20 4 || imageMalformed b len, ST_BAD_PARAM)] = true →
      policyRefusal s i = none →
      (r503 s || es.any (fun e => decide (2 ≤ ppeState s e))) = false →
      es.any (taskHeld s) = false →
      es.any (loadFails s) = false →
      exec (.ppeLoad q) s = .next (
        if imageDigestBad b then deny s 0x0700 q ST_BAD_PARAM
        else reply (forEach es s (fun e s => loadCopy s e i)) 0x0700 q ST_OK (b4 i.holdoff ++ i.digest))) ∧
  -- PPE_START (R298)
  (∀ (s : State) (q : Req),
      let es := bitList 64 (u64 q.params 0)
      accepted s 0x0701 q (q.params.length == 8) [(es.any (fun e => !enginePresent s e), ST_UNIT_ABSENT),
         (r503 s || es.any (fun e => ppeState s e == 0 || ppeState s e == 3), ST_STATE)] = true →
      exec (.ppeStart q) s = .next (reply (forEach es s (fun e s => startEngine s e)) 0x0701 q ST_OK [])) ∧
  -- PPE_STOP (R298)
  (∀ (s : State) (q : Req),
      let es := bitList 64 (u64 q.params 0)
      accepted s 0x0702 q (q.params.length == 8) [(es.any (fun e => !enginePresent s e), ST_UNIT_ABSENT), (es.any (taskHeld s), ST_IN_USE)] = true →
      exec (.ppeStop q) s = .next (reply (forEach es s (fun e s => stopEngine s e)) 0x0702 q ST_OK [])) ∧
  -- PPE_TASK_SET (R298)
  (∀ (s : State) (q : Req),
      let p := q.params
      let e := u16 p 0
      let w0 := u32 p 4
      let w1 := u32 p 8
      accepted s 0x0703 q (p.length == 12) [(!enginePresent s e, ST_UNIT_ABSENT),
         (decide (7 < u8 p 2) || !zeroAt p 3 1 || bitsOf w0 29 28 != 0 || bitsOf w0 23 21 != 0 || decide (1024 ≤ w1), ST_BAD_PARAM),
         (s.locked.contains 52, ST_BUSY)] = true →
      exec (.ppeTaskSet q) s = .next (reply (setTask s e (u8 p 2) w0 w1) 0x0703 q ST_OK [])) ∧
  -- PPE_STATUS (R298)
  (∀ (s : State) (q : Req),
      let e := u16 q.params 0
      accepted s 0x0704 q (q.params.length == 4) [(!enginePresent s e, ST_UNIT_ABSENT), (decide (1 < u16 q.params 2), ST_BAD_PARAM)] = true →
      exec (.ppeStatus q) s = .next (reply s 0x0704 q ST_OK (statusBytes s e (u16 q.params 2 == 1)))) ∧
  -- PPE_MEM_WRITE (R298)
  (∀ (s : State) (q : Req),
      let p := q.params
      let e := u16 p 0
      let sp := u8 p 2
      accepted s 0x0705 q (decide (8 ≤ p.length ∧ p.length ≤ 4072)) [(!enginePresent s e, ST_UNIT_ABSENT),
         (decide (1 < sp) || !zeroAt p 3 1 || decide (spaceSize sp < u32 p 4 + (p.length - 8)), ST_BAD_PARAM),
         (sp == 0 && ppeState s e != 1, ST_STATE)] = true →
      exec (.ppeMemWrite q) s = .next (reply (pmWrite (clusterNeeded s (e / 8)) (spaceBase e sp + u32 p 4) (p.drop 8)) 0x0705 q ST_OK [])) ∧
  -- PPE_MEM_READ (R298)
  (∀ (s : State) (q : Req),
      let p := q.params
      let e := u16 p 0
      let sp := u8 p 2
      let n := u32 p 8
      accepted s 0x0706 q (p.length == 12) [(!enginePresent s e, ST_UNIT_ABSENT),
         (decide (1 < sp) || !zeroAt p 3 1 || decide (4064 < n) || decide (spaceSize sp < u32 p 4 + n), ST_BAD_PARAM)] = true →
      exec (.ppeMemRead q) s = .next (reply s 0x0706 q ST_OK (pmRead s (spaceBase e sp + u32 p 4) n))) ∧
  -- PPE_CLUSTER (R298)
  (∀ (s : State) (q : Req),
      let p := q.params
      let c := u8 p 0
      let s' := setGate s c (u8 p 1 == 1)
      accepted s 0x0707 q (p.length == 4) [(!clusterPresent s c, ST_UNIT_ABSENT), (decide (1 < u8 p 1) || !zeroAt p 2 2, ST_BAD_PARAM)] = true →
      exec (.ppeCluster q) s = .next (reply s' 0x0707 q ST_OK (b4 (s'.rf (PPE_CLSTAT c) 1 0))))

/-- Engine dispatch, bundles, interrupts, mailbox control and cluster gating rows: under the conditions of their rules
each of them completes, with exactly the next state that the rules give (R283, R285, R270, R280, R291, R294, R295). -/
def Obligations.EngineActivityCompletes : Prop :=
  -- TASK_DISPATCH (R283)
  (∀ (s : State) (e : Nat) (t : Nat) (rest : List Nat),
      e < 64 →
      (s.ppeEng e).due = t :: rest →
      (s.ppeEng e).task = none →
      ppeState s e = 2 →
      engFenced s e = false →
      clusterOn s (e / 8) = true →
      exec (.taskDispatch e) s = .next (taskStart s e t rest)) ∧
  -- TASK_BUDGET_EXPIRY (R285)
  (∀ (s : State) (e : Nat) (t : Nat),
      let p := s.ppeEng e
      p.task = some t →
      ppeState s e = 2 →
      (taskBudget p.table t ≤ p.cyc ∨ p.taskBeat ≠ s.beat ∨ (p.ctx.getD {}).waiting = true) →
      exec (.taskBudgetExpiry e) s = .next (taskStop s e t)) ∧
  -- PPE_BUNDLE_ISSUE (R270)
  (∀ (s : State) (e : Nat) (stall : Nat) (c0 : PpeCtx) (x : Nat) (s2 : State) (wr : List PpeWr),
      let c := if c0.ieNext then { c0 with ie := true, ieNext := false } else c0
      let s1 := (visibleNow s (s.ppeEng e)).1
      let p := { (visibleNow s (s.ppeEng e)).2 with ctx := some c }
      let w := Sparse.get (fun _ => 0) s1.pm.code (8192 * e + c.pc)
      let t := (s1.setPpe e p).setF (PPE_PC e) 12 0 c.pc
      let oa := (decodeSlot (w % 2 ^ 32)).getD .nop
      let ob := (decodeSlot (w / 2 ^ 32)).getD .nop
      let a := slotAct t p false c.pc oa
      let b := slotAct t p true c.pc ob
      issueable s e = some c0 →
      bundleIllegal c (decodeSlot (w % 2 ^ 32)) (decodeSlot (w / 2 ^ 32)) = none →
      twoWindows a b = false →
      (a.accErr || b.accErr) = false →
      extraCycles t e p oa = some x →
      bundleMemory t p e oa ob a b = some (s2, wr) →
      exec (.ppeBundleIssue e stall) s = .next (bundleDo s2 e p c stall x oa (emitBytes t e p oa) a b wr)) ∧
  -- PPE_INTERRUPT (R280)
  (∀ (s : State) (e : Nat) (hold : Nat) (idle : Nat) (c : PpeCtx),
      (s.ppeEng e).ctx = some c →
      ppeLive s e = true →
      takeable (s.ppeEng e) c = true →
      exec (.ppeInterrupt e hold idle) s = .next (takeInterrupt s e hold idle c)) ∧
  -- MB_CTL_INTAKE (R291)
  (∀ (s : State) (e : Nat),
      ppeLive s e = true →
      inFull s e = true →
      exec (.mbCtlIntake e) s = .next (setIn s e false)) ∧
  -- MB_CTL_OUTRING (R291)
  (∀ (s : State) (e : Nat),
      ppeLive s e = true →
      outFull s e = false →
      exec (.mbCtlOutring e) s = .next (outRing s e)) ∧
  -- CLUSTER_GATE (R294)
  (∀ (s : State) (c : Nat),
      (clusterPresent s c && clusterOn s c && s.rb (PPE_CLCTRL c) 0 && decide (250 ≤ idleBeats s c) && clusterIdle s c) →
      exec (.clusterGate c) s = .next ((setIdleBeats s c 0).setF (PPE_CLSTAT c) 1 0 1)) ∧
  -- CLUSTER_WAKE (R295)
  (∀ (s : State) (c : Nat),
      (clusterPresent s c && s.rf (PPE_CLSTAT c) 1 0 == 1 && (s.wakeReq.contains c || !s.rb (PPE_CLCTRL c) 0)) →
      exec (.clusterWake c) s = .next (((s.setF (PPE_CLSTAT c) 1 0 2).addR (PPE_CLWAKECNT c) 1))) ∧
  -- CLUSTER_WAKE_END (R295)
  (∀ (s : State) (c : Nat),
      (clusterPresent s c && s.rf (PPE_CLSTAT c) 1 0 == 2) →
      exec (.clusterWakeEnd c) s = .next (clusterUp s c))

/-- Stream, volume, chunk and datagram rows: under the conditions of their rules each of them completes, with exactly
the next state that the rules give (R331, R322, R323, R325, R329). -/
def Obligations.StreamCommandsComplete : Prop :=
  -- STREAM_SET (R331)
  (∀ (s : State) (q : Req),
      let n := u16 q.params 0
      accepted s 0x0800 q (q.params.length == 68) [(decide (256 ≤ n) || !zeroAt q.params 2 2, ST_BAD_PARAM), (groupLocked s 53, ST_BUSY)] = true →
      exec (.streamSet q) s = .next (reply (setShadow s n (slice q.params 4 64)) 0x0800 q ST_OK [])) ∧
  -- STREAM_STATUS (R331)
  (∀ (s : State) (q : Req),
      accepted s 0x0801 q (q.params.length == 4) [(decide (256 ≤ u16 q.params 0) || decide (1 < u16 q.params 2), ST_BAD_PARAM)] = true →
      exec (.streamStatus q) s = .next (reply s 0x0801 q ST_OK (streamStatus s (u16 q.params 0) (u16 q.params 2 == 1)))) ∧
  -- VOL_FORMAT (R331)
  (∀ (s : State) (q : Req),
      accepted s 0x0802 q (q.params.length == 8) (volFormatChecks s q.params) = true →
      exec (.volFormat q) s = .next (reply (volFormat s q.params) 0x0802 q ST_ACCEPTED [])) ∧
  -- VOL_FORMAT_DONE (R331)
  (∀ (s : State) (v : Nat),
      ((s.volume v).state = 1) →
      exec (.volFormatDone v) s = .next (s.setVolume v { s.volume v with state := 2 })) ∧
  -- VOL_STATUS (R331)
  (∀ (s : State) (q : Req),
      let v := s.volume (u8 q.params 0)
      accepted s 0x0803 q (q.params.length == 4) [(nvmePorts s == 0, ST_UNIT_ABSENT), (decide (3 < u8 q.params 0) || !zeroAt q.params 1 3, ST_BAD_PARAM)] = true →
      exec (.volStatus q) s = .next (reply s 0x0803 q ST_OK (b4 v.state ++ b4 v.drives.length ++ b8 v.cserial ++ b8 (volChunks v)))) ∧
  -- HOST_RING_WRITE (R322)
  (∀ (s : State) (stream : Nat) (r : QRec),
      let e := outEntry s stream
      let t := s.stream stream
      let size := 2 ^ u8 e 33
      let off := t.prod % size
      let skip := if size < off + r.bytes.length then size - off else 0
      headRec s stream = some r →
      carries s stream 0 = true →
      s.pci.bme = true →
      t.prod + skip + r.bytes.length ≤ size + t.cons →
      exec (.hostRingWrite stream) s = .next (ringWrite s stream r.bytes)) ∧
  -- OC_HCONS_WRITE (R323)
  (∀ (s : State) (h : Nat) (hi : Bool) (v : Word),
      s.pci.d3 = false →
      h < 32 →
      hi = false →
      exec (.ocHconsWrite h hi v) s = .next ({ s with hconsLo := Sparse.set wordDflt s.hconsLo h v })) ∧
  -- OC_HCONS_WRITE (R323)
  (∀ (s : State) (h : Nat) (hi : Bool) (v : Word) (n : Nat),
      let c := v.toNat * 2 ^ 32 + (Sparse.get wordDflt s.hconsLo h).toNat
      s.pci.d3 = false →
      h < 32 →
      hi = true →
      ringOf s h = some n →
      (s.stream n).cons ≤ c →
      c ≤ (s.stream n).prod →
      exec (.ocHconsWrite h hi v) s = .next ((s.setStream n { s.stream n with cons := c }).wr64 (OC_HCONS_LO h) c)) ∧
  -- CHUNK_WRITE (R325)
  (∀ (s : State) (v : Nat) (c : Chunk),
      let s' := chunkFill s v
      (s'.volume v).chunks.find? (fun c => c.closed) = some c →
      (s'.volume v).state = 2 →
      exec (.chunkWrite v) s = .next (chunkWrite s' v c)) ∧
  -- CHUNK_FLUSH_TIME (R325)
  (∀ (s : State) (v : Nat) (c : Chunk),
      let s' := chunksDue (chunkFill s v) v
      (s'.volume v).chunks.find? (fun c => c.closed) = some c →
      (s'.volume v).state = 2 →
      exec (.chunkFlushTime v) s = .next (chunkWrite s' v c)) ∧
  -- DATAGRAM_LAUNCH (R329)
  (∀ (s : State) (stream : Nat) (tclk : Nat) (r : QRec) (rest : List QRec) (x : Nat × Nat),
      let s' := setClock s tclk
      let e := outEntry s' stream
      let u := datagramMove s' stream e x r
      carries s' stream 2 = true →
      enLaunch e = true →
      (s'.stream stream).queue = r :: rest →
      wayOf s' e = some x →
      ctxEmpty s' e = true →
      launchDue e r.bytes ≤ timeNow s' →
      exec (.datagramLaunch stream tclk) s = .next (
        match txFirst u (ethCtx (dgPort e) (enChan e)), wayOf u e with
        | some b, some y => if launchDue e b ≤ timeNow u then datagramOut u e y true else u
        | some _, none => datagramAsk u e
        | none, _ => u)) ∧
  -- DATAGRAM_LAUNCH (R329)
  (∀ (s : State) (stream : Nat) (tclk : Nat) (b : List Byte) (x : Nat × Nat),
      let s' := setClock s tclk
      let e := outEntry s' stream
      carries s' stream 2 = true →
      enLaunch e = true →
      ctxEmpty s' e = false →
      txFirst s' (ethCtx (dgPort e) (enChan e)) = some b →
      wayOf s' e = some x →
      launchDue e b ≤ timeNow s' →
      exec (.datagramLaunch stream tclk) s = .next (datagramOut s' e x true))

/-- HBM capture memory rows: under the conditions of their rules each of them completes, with exactly the next state
that the rules give (R350, R340, R342, R343, R344, R346, R347, R335). -/
def Obligations.CaptureMemoryCommandsComplete : Prop :=
  -- MEM_REGION_SET (R350)
  (∀ (s : State) (q : Req),
      let s' := regionSet s q.params
      accepted s 0x0900 q (q.params.length == 24) [(regionBad q.params, ST_BAD_PARAM), (carsBusy s || anyStream s, ST_STATE)] = true →
      exec (.memRegionSet q) s = .next (reply s' 0x0900 q ST_OK (bw (s'.rd MEM_CARSIZE) ++ bw (s'.rd MEM_STRSIZE)))) ∧
  -- MEM_STATUS (R350)
  (∀ (s : State) (q : Req),
      accepted s 0x0901 q (q.params.length == 0) [] = true →
      exec (.memStatus q) s = .next (reply s 0x0901 q ST_OK (regsBytes s [MEM_STAT, MEM_CAPACITY, MEM_RETCNT, MEM_CARBASE, MEM_CARSIZE, MEM_CARSPARE, MEM_STRBASE,
            MEM_STRSIZE, MEM_STRSPARE, MEM_CECNT, MEM_UECNT, MEM_CAPARCNT, MEM_REPCNT]))) ∧
  -- MEM_RETIRED_READ (R350)
  (∀ (s : State) (q : Req),
      let l := ((s.store.retired.drop (u32 q.params 0)).take 1015)
      accepted s 0x0902 q (q.params.length == 4) [] = true →
      exec (.memRetiredRead q) s = .next (reply s 0x0902 q ST_OK (b4 s.store.retired.length ++ b4 l.length ++ l.flatMap (retiredEntry s)))) ∧
  -- ARB_WINDOW_END (R340)
  (∀ (s : State) (uses : List ArbUse),
      (beatOrTick s % 16 = 0 ∧ memReady s) →
      exec (.arbWindowEnd uses) s = .next (forEach ((List.range 64).filter (fun c => s.rf (MEM_PCSTAT c) 31 30 != 3)) s (fun c s =>
            arbEnd s ((uses.find? (fun u => u.chan == c)).getD ⟨c, [], [], []⟩)))) ∧
  -- HBM_REFRESH (R342)
  (∀ (s : State) (chan : Nat),
      (memReady s ∧ chan < 64 ∧ s.rf (MEM_PCSTAT chan) 31 30 ≠ 3 ∧ !s.rb MEM_STAT 1) →
      exec (.hbmRefresh chan) s = .next (s.put (.flow 1 (2 * chan + (if 85 < stackTemp s (chan / 32) then 1 else 0))))) ∧
  -- STACK_OVER_TEMPERATURE (R342)
  (∀ (s : State) (stack : Nat) (temp : Int),
      (stack < 2) →
      exec (.stackOverTemperature stack temp) s = .next (
        let s := s.setF MEM_TEMP (8 * stack + 7) (8 * stack) (lowBits 8 temp)
        if 95 < stackTemp s stack then report s 102 stack else s)) ∧
  -- RETRAIN (R343)
  (∀ (s : State) (g : Nat),
      (g < 16 ∧ beatOrTick s % 80000 = 5000 * g ∧ pwrState s ∈ [PS_RUN, PS_IDLE, PS_STANDBY] ∧ !s.rb MEM_STAT 1) →
      exec (.retrain g) s = .next (forEach (List.range 4) s (fun j s => if pcState s (4 * g + j) = 1 then s.setF (MEM_PCSTAT (4 * g + j)) 31 30 2 else s))) ∧
  -- RETRAIN_END (R343)
  (∀ (s : State) (chan : Nat) (ok : Bool),
      (¬(64 ≤ chan ∨ (pcState s chan ≠ 0 ∧ pcState s chan ≠ 2))) →
      exec (.retrainEnd chan ok) s = .next (
        let first := pcState s chan == 0
        let again := s.mem.retried.contains chan
        let s := setMem s { s.mem with retried := s.mem.retried.filter (fun c => c != chan) }
        let s := if ok then s.setF (MEM_PCSTAT chan) 31 30 1
          else if again then chanFail s chan else setMem s { s.mem with retried := chan :: s.mem.retried }
        if first && allTrained s then (s.setB MEM_STAT 0 true).setB MEM_STAT 1 false else s)) ∧
  -- PARITY_ERROR (R344)
  (∀ (s : State) (chan : Nat) (replays : Nat) (persist : Bool),
      (¬(64 ≤ chan ∨ pcState s chan = 3)) →
      exec (.parityError chan replays persist) s = .next (
        let s := (s.addR MEM_CAPARCNT (1 + min replays 3 + (if 3 ≤ replays ∧ persist then 1 else 0))).setB MEM_STAT 2 true
        if replays < 3 then s
        else
          let s := report s 98 chan
          if persist then chanFail s chan else if pcState s chan = 1 then s.setF (MEM_PCSTAT chan) 31 30 2 else s)) ∧
  -- PATROL_SCRUB (R346)
  (∀ (s : State) (h : EccHits),
      (s.rb MEM_CTRL 0 && memReady s && !s.rb MEM_STAT 1) →
      exec (.patrolScrub h) s = .next (forEach (scrubbed s h.ue) (forEach (scrubbed s h.ce) s (fun x s => eccCe s x)) (fun x s => eccUe s x))) ∧
  -- ROW_REPAIR (R347)
  (∀ (s : State) (chan : Nat) (page : Nat) (spares : Nat),
      (¬(!s.mem.failing.contains (chan, page) ∨ !memReady s ∨ s.rb MEM_STAT 1 ∨ pcState s chan = 3 ∨
          (List.range 64).any (fun c => pcState s c == 2))) →
      exec (.rowRepair chan page spares) s = .next (rowRepair s chan page spares)) ∧
  -- BAR2_ACCESS (R335)
  (∀ (s : State) (write : Bool) (x : Nat) (n : Nat) (bytes : List Byte) (h : EccHits),
      s.pci.d3 = false →
      memReady s = true →
      x + n ≤ 48 * 2 ^ 30 →
      inFirmware (HBM0 + x) n = false →
      failedIn s (HBM0 + x) n = false →
      write = true →
      exec (.bar2Access write x n bytes h) s = .next (bar2Write s (HBM0 + x) bytes h)) ∧
  -- BAR2_ACCESS (R335)
  (∀ (s : State) (write : Bool) (x : Nat) (n : Nat) (bytes : List Byte) (h : EccHits),
      s.pci.d3 = false →
      memReady s = true →
      x + n ≤ 48 * 2 ^ 30 →
      inFirmware (HBM0 + x) n = false →
      failedIn s (HBM0 + x) n = false →
      write = false →
      exec (.bar2Access write x n bytes h) s = .next (bar2Read s (HBM0 + x) n h))

/-- DMA commands, channel instructions and bursts: under the conditions of their rules each of them completes, with
exactly the next state that the rules give (R373, R369, R368, R357, R358, R359, R360, R364, R362). -/
def Obligations.DmaCommandsAndInstructionsComplete : Prop :=
  -- DMA_START (R373)
  (∀ (s : State) (q : Req) (fe : Nat),
      let p := q.params
      let n := u16 p 0
      let prog := u64 p 4
      let fl := u16 p 2
      let sp := Mem.read s.sram (blockOf n + 0x20) 4
      accepted s 0x0910 q (p.length == 12) [(decide (128 ≤ n) || !progOk prog || sp.any (fun b => decide (5 < b.toNat)) || bitsOf fl 3 1 != 0 || decide (128 ≤ fl), ST_BAD_PARAM),
         (chanRuns s n, ST_STATE), (fwOwn s n, ST_IN_USE)] = true →
      exec (.dmaStart q fe) s = .next (
        let s := (s.setF (DMA_CTRL n) 6 4 (bitsOf fl 6 4)).setB (DMA_CTRL n) 2 (fl.testBit 0)
        let s := (s.setF (DMA_PROG_LO n) 31 4 (prog / 16 % 2 ^ 28)).setF (DMA_PROG_HI n) 7 0 (prog / 2 ^ 32)
        reply (dmaStart s n FW_MASTER fe) 0x0910 q ST_OK [])) ∧
  -- DMA_ABORT (R373)
  (∀ (s : State) (q : Req),
      let l := maskChans q.params
      accepted s 0x0911 q (q.params.length == 16) [(l.any (fwOwn s), ST_IN_USE)] = true →
      exec (.dmaAbort q) s = .next (abortAll s q l)) ∧
  -- DMA_STATUS (R373)
  (∀ (s : State) (q : Req),
      let n := u16 q.params 0
      accepted s 0x0912 q (q.params.length == 4) [(decide (128 ≤ n) || !zeroAt q.params 2 2, ST_BAD_PARAM)] = true →
      exec (.dmaStatus q) s = .next (reply s 0x0912 q ST_OK (bw (s.rd (DMA_CTRL n)) ++ bw (s.rd (DMA_STAT n)) ++ bw (s.rd (DMA_PROG_LO n)) ++
            bw (s.rd (DMA_PROG_HI n)) ++ Mem.read s.sram (blockOf n + 0x30) 16))) ∧
  -- DMA_SRAM_WRITE (R373)
  (∀ (s : State) (q : Req),
      let p := q.params
      accepted s 0x0913 q (decide (4 ≤ p.length ∧ p.length ≤ 4072)) [(decide (0x80000 < u32 p 0 + (p.length - 4)), ST_BAD_PARAM)] = true →
      exec (.dmaSramWrite q) s = .next (reply (s.sramWrite (u32 p 0) (p.drop 4)) 0x0913 q ST_OK [])) ∧
  -- DMA_CTRL_START (R369)
  (∀ (s : State) (m : Master) (n : Nat) (v : Word) (fe : Nat),
      let w := putBit v 0 true
      (m = .host → s.pci.d3 = false) →
      n < 128 →
      (fwOwn s n = true → isMgmt m = true) →
      chanRuns s n = false →
      bit w 1 = false →
      exec (.dmaCtrlStart m n v fe) s = .next (dmaStart ((s.setF (DMA_CTRL n) 6 4 (fld w 6 4)).setB (DMA_CTRL n) 2 (bit w 2)) n (masterId m) fe)) ∧
  -- DMA_CTRL_ABORT (R368)
  (∀ (s : State) (m : Master) (n : Nat) (v : Word),
      let w := putBit v 1 true
      (m = .host → s.pci.d3 = false) →
      n < 128 →
      (fwOwn s n = true → isMgmt m = true) →
      chanRuns s n = true →
      bit w 0 = false →
      exec (.dmaCtrlAbort m n v) s = .next (dmaAbort ((s.setF (DMA_CTRL n) 6 4 (fld w 6 4)).setB (DMA_CTRL n) 2 (bit w 2)) n)) ∧
  -- MOVE (R357)
  (∀ (s : State) (n : Nat),
      let d := s.dmaCh n
      let m0 : DmaMove := { bucket := 4 * mvBurst d.instr, bucketAt := cycleNow s s.cyc }
      let m' := { m0 with on := mvPace d.instr == 1 && fillOn s d m0 }
      issues s n 1 = true →
      moveIllegal d = false →
      paceBad s d = false →
      exec (.move n) s = .next ((s.setDma n { d with mv := some m' }).setB (DMA_STAT n) 24 (paced s d m' (cycleNow s s.cyc)))) ∧
  -- LOOP (R358)
  (∀ (s : State) (n : Nat) (fe : Nat),
      issues s n 2 = true →
      loopIllegal s n (s.dmaCh n).instr = false →
      exec (.loop n fe) s = .next (loopStep s n fe)) ∧
  -- WAIT (R359)
  (∀ (s : State) (n : Nat) (fe : Nat),
      let d := s.dmaCh n
      let i := d.instr
      issues s n 3 = true →
      wtN i ≠ 0 →
      bitsOf i 81 0 = 0 →
      exec (.wait n fe) s = .next (
        let d := if wtEvent i = d.wev then d else { d with wev := wtEvent i, ecnt := 0 }
        let t := s.setDma n { d with waitAt := beatOrTick s }
        if wtN i ≤ d.ecnt then waitDone t n fe else t.setF (DMA_STAT n) 31 29 2)) ∧
  -- WAIT_COMPLETE (R359)
  (∀ (s : State) (n : Nat) (fe : Nat),
      (n < 128 ∧ chanState s n = 2 ∧ wtN (s.dmaCh n).instr ≤ (s.dmaCh n).ecnt) →
      exec (.waitComplete n fe) s = .next (waitDone s n fe)) ∧
  -- WAIT_TIMEOUT (R359)
  (∀ (s : State) (n : Nat),
      let d := s.dmaCh n
      (n < 128 ∧ chanState s n = 2 ∧ d.ecnt < wtN d.instr ∧ wtTmo d.instr ≠ 0 ∧ d.waitAt + (wtTmo d.instr : Int) ≤ (beatOrTick s : Int)) →
      exec (.waitTimeout n) s = .next (dmaErr s n 5 0)) ∧
  -- DMA_SIGNAL (R360)
  (∀ (s : State) (n : Nat) (fe : Nat),
      let i := (s.dmaCh n).instr
      issues s n 4 = true →
      signalIllegal i = false →
      exec (.dmaSignal n fe) s = .next (
        let t := if i.testBit 122 then fire s (bitsOf i 121 112) else s
        dmaNext (vectorIf t (i.testBit 123 && t.rb (DMA_CTRL n) 2) (16 + n)) n fe)) ∧
  -- DMA_END (R360)
  (∀ (s : State) (n : Nat),
      issues s n 5 = true →
      bitsOf (s.dmaCh n).instr 123 0 = 0 →
      exec (.dmaEnd n) s = .next (dmaStop s n 3 0 0)) ∧
  -- BURST_START (R364)
  (∀ (s : State) (n : Nat) (cyc : Nat) (m : DmaMove),
      let s' := { s with cyc := cyc % 512 }
      let d := s'.dmaCh n
      let now := cycleNow s' (cyc % 512)
      d.mv = some m →
      n < 128 →
      chanState s' n = 1 →
      m.inFlight = 0 →
      d.abort = false →
      paced s' d m now = false →
      destReady s' d = true →
      hasTurn s' n (cyc % 512) = true →
      exec (.burstStart n cyc) s = .next (
        let size := burstSize d m.pos
        let m' := { m with
          inFlight := size, tries := 0, on := m.on || mvPace d.instr == 1,
          bucket := (if mvPace d.instr = 2 then tokens d m now - 4 * size else m.bucket), bucketAt := now }
        let t := { s' with bt := { s'.bt with mover := n } }
        (t.setDma n { d with mv := some m', retries := 0 }).setB (DMA_STAT n) 24 false)) ∧
  -- BURST_END (R362)
  (∀ (s : State) (n : Nat) (data : List Byte) (err : Bool) (h : EccHits) (fe : Nat) (m : DmaMove),
      let d := s.dmaCh n
      let src := burstSource d m
      let hbm := mvSrcSpace d == 0 && decide (dmaSpace src.1 = some .hbm)
      let r := if hbm then eccRead s src.1 src.2 h else (s, false)
      let byte : Nat → Byte := fun k => if mvSrcSpace d = 0 then devByte r.1 (mvSrc d + k) else BitVec.ofNat 8 (byteAt data k)
      d.mv = some m →
      n < 128 →
      chanState s n = 1 →
      m.inFlight ≠ 0 →
      err = false →
      sideOk s (mvSrcSpace d) (devReadable s n src.1 src.2) = true →
      sideOk s (mvDstSpace d) (devWritable s n ((mvDst d + m.pos) % 2 ^ 64) m.inFlight) = true →
      r.2 = false →
      exec (.burstEnd n data err h fe) s = .next (burstDone r.1 n fe d m ((List.range m.inFlight).map (fun j => movedByte d.instr byte (m.pos + j)))))

/-- Link commands and NVMe drive rows: under the conditions of their rules each of them completes, with exactly the next
state that the rules give (R403, R383, R326, R385, R386). -/
def Obligations.LinkCommandsAndDrivesComplete : Prop :=
  -- LINK_STATUS (R403)
  (∀ (s : State) (q : Req),
      accepted s 0x0810 q (q.params.length == 0) [] = true →
      exec (.linkStatus q) s = .next (reply s 0x0810 q ST_OK (regsBytes s ([LNK_PCISTAT, LNK_ETHMODE] ++ (List.range 8).map LNK_ETHSTAT ++
            (List.range 2).map LNK_NBSTAT ++ (List.range 2).map LNK_NBRTT ++ (List.range 4).map LNK_NVSTAT)))) ∧
  -- ETH_MODE (R403)
  (∀ (s : State) (q : Req),
      let p := q.params
      accepted s 0x0811 q (p.length == 4) [(decide (2 < u8 p 0) || decide (1 < u8 p 1) || !zeroAt p 2 2, ST_BAD_PARAM), (ethModeInUse s, ST_IN_USE)] = true →
      exec (.ethMode q) s = .next (
        let s := setMode s (u8 p 0)
        reply (if u8 p 1 = 1 then { s with store := { s.store with ethMode := some (u8 p 0) } } else s) 0x0811 q ST_OK [])) ∧
  -- ETH_IF_SET (R403)
  (∀ (s : State) (q : Req),
      let p := q.params
      accepted s 0x0812 q (p.length == 52) (ethIfChecks s p) = true →
      exec (.ethIfSet q) s = .next (
        let s := s.setEthIf (4 * u8 p 0 + u8 p 1) (ifFrom p)
        reply (if (u16 p 2).testBit 3 then storeIf s p else s) 0x0812 q ST_OK [])) ∧
  -- ETH_FILTER_SET (R403)
  (∀ (s : State) (q : Req),
      let p := q.params
      accepted s 0x0813 q (p.length == 28) [(decide (31 < u8 p 0) || decide (3 < u8 p 2) || decide (3 < u8 p 3) || decide (u8 p 4 < 8 ∨ 15 < u8 p 4) || u8 p 5 != 0 ||
          !zeroAt p 10 2 || s.rf (LNK_EQCTRL (u8 p 4)) 19 16 != u8 p 1, ST_BAD_PARAM)] = true →
      exec (.ethFilterSet q) s = .next (reply (s.setFilter (u8 p 0) (filterFrom p)) 0x0813 q ST_OK [])) ∧
  -- NBR_SET (R403)
  (∀ (s : State) (q : Req),
      let p := q.params
      accepted s 0x0814 q (p.length == 4) [(decide (1 < u8 p 0) || decide (1 < u8 p 1) || !zeroAt p 2 2, ST_BAD_PARAM)] = true →
      exec (.nbrSet q) s = .next (reply (nbrEnable s (u8 p 0) (u8 p 1 == 1)) 0x0814 q ST_OK [])) ∧
  -- NVME_RESET (R403)
  (∀ (s : State) (q : Req),
      let l := maskPorts q.params
      accepted s 0x0815 q (q.params.length == 4) [(nvmePorts s == 0, ST_UNIT_ABSENT), (decide (16 ≤ u8 q.params 0) || !zeroAt q.params 1 3, ST_BAD_PARAM),
         (l.any (fun d => (portVolumes s d).any (fun v => volStreams s v != [])), ST_IN_USE)] = true →
      exec (.nvmeReset q) s = .next (reply (forEach l s (fun d s => setNv (dropCmds s d) d 1)) 0x0815 q ST_ACCEPTED [])) ∧
  -- NVME_INFO (R403)
  (∀ (s : State) (q : Req),
      let p := u8 q.params 0
      let d := s.drive p
      accepted s 0x0816 q (q.params.length == 4) [(nvmePorts s == 0, ST_UNIT_ABSENT), (decide (3 < p) || !zeroAt q.params 1 3, ST_BAD_PARAM)] = true →
      exec (.nvmeInfo q) s = .next (reply s 0x0816 q ST_OK (b4 (nvState s p) ++ b4 d.lba ++ b4 d.mdts ++ b8 d.cap ++ b2 d.temp ++ b1 d.crit ++ b1 d.used ++
            leBytes 16 d.written ++ padTo 20 d.serial ++ padTo 40 d.model))) ∧
  -- NVME_READ (R403)
  (∀ (s : State) (q : Req),
      let p := q.params
      accepted s 0x0817 q (p.length == 24) (nvReadChecks s p) = true →
      exec (.nvmeRead q) s = .next (nvIssue s ⟨u8 p 0, 2, 0, false, u64 p 16, some q, b8 (u64 p 4) ++ b4 (u32 p 12), u64 p 4 * (s.drive (u8 p 0)).lba⟩)) ∧
  -- BISOR_PORT_SET (R403)
  (∀ (s : State) (q : Req),
      let p := q.params
      accepted s 0x0818 q (p.length == 4) [(decide (1 < u16 p 2), ST_BAD_PARAM)] = true →
      exec (.bisorPortSet q) s = .next (
        let s := s.wr LNK_BISORPORT (w32 (u16 p 0))
        reply (if u16 p 2 = 1 then { s with store := { s.store with bisorPort := some (u16 p 0) } } else s) 0x0818 q ST_OK [])) ∧
  -- DRIVE_BRING_UP (R383)
  (∀ (s : State) (port : Nat) (d : DriveReport),
      (¬(nvmePorts s ≤ port ∨ nvState s port ≠ 1)) →
      exec (.driveBringUp port d) s = .next (
        let s := (s.setF (LNK_NVSTAT port) 23 20 d.width).setF (LNK_NVSTAT port) 19 16 d.speed
        let s := nvAdmin s port [(8, 1), (9, 1), (9, 0)]
        if driveFit d then
          setNv (nvAdmin (s.setDrive port { s.drive port with lba := d.lba, mdts := d.mdts, cap := d.cap, serial := d.serial, model := d.model }) port nvQueues) port 2
        else setNv s port 3)) ∧
  -- NVME_COMPLETION (R326)
  (∀ (s : State) (port : Nat) (ok : Bool) (data : List Byte) (c : NvCmd) (s' : State),
      nvTake s port = some (c, s') →
      exec (.nvmeCompletion port ok data) s = .next (if ok then nvDone s' c data else nvError s' c)) ∧
  -- NVME_COMMAND_TIMEOUT (R385)
  (∀ (s : State) (port : Nat) (c : NvCmd) (s' : State),
      nvTake s port = some (c, s') →
      exec (.nvmeCommandTimeout port) s = .next (nvError (if c.kind < 2 ∧ !c.again then nvAdmin s' port ([(8, 0), (8, 1)] ++ nvQueues.drop 1) else s') c)) ∧
  -- NVME_PORT_FAIL (R385)
  (∀ (s : State) (port : Nat),
      (¬(nvmePorts s ≤ port ∨ nvState s port = 0 ∨ nvState s port = 4)) →
      exec (.nvmePortFail port) s = .next (
        let s := report (setNv (dropCmds s port) port 4) 131 port
        forEach (portVolumes s port) s (fun v s => volumeFail s v))) ∧
  -- SMART_POLL (R386)
  (∀ (s : State) (port : Nat) (temp : Nat) (crit : Nat) (used : Nat) (written : Nat),
      (¬(nvmePorts s ≤ port ∨ nvState s port ≠ 2)) →
      exec (.smartPoll port temp crit used written) s = .next (
        let s := nvAdmin s port [(13, 2)]
        let s := s.setDrive port { s.drive port with temp := temp, crit := crit, used := used, written := written }
        if crit = 0 then s else report (s.setB (LNK_NVSTAT port) 1 true) 132 port))

/-- Ethernet frame and queue rows and neighbour port rows: under the conditions of their rules each of them completes,
with exactly the next state that the rules give (R389, R390, R405, R393, R394, R245, R246, R411, R399, R400, R398). -/
def Obligations.EthernetAndNeighbourTrafficCompletes : Prop :=
  -- ETH_FRAME_RECEIVE (R389)
  (∀ (s : State) (f : RxFrame) (i : Nat),
      let t := takeApart f.bytes
      let s' := if f.fecOk then s else s.setB (LNK_ETHSTAT f.port) 1 true
      ethUp s f.port = true →
      step1Bad s' f t = false →
      ifOfVlan s' f.port (t.tci % 4096) = some i →
      exec (.ethFrameReceive f) s = .next (
        match firmwareFrame s' f.port i f.bytes t with
        | some u => u
        | none => deliver s' f i t)) ∧
  -- ETH_LINK_UP (R390)
  (∀ (s : State) (port : Nat),
      (¬(ethPorts s ≤ port)) →
      exec (.ethLinkUp port) s = .next (
        let s := (s.setF (LNK_ETHSTAT port) 31 30 2).setF (LNK_ETHSTAT port) 29 28 (1 + s.rf LNK_ETHMODE 1 0)
        forEach (ifsOn s port) s (fun i s => announceIf s port i))) ∧
  -- ETH_LINK_DOWN (R405)
  (∀ (s : State) (port : Nat),
      exec (.ethLinkDown port) s = .next (ethDown s port)) ∧
  -- NEXT_HOP_RETRY (R390)
  (∀ (s : State),
      exec .nextHopRetry s = .next (forEach (s.hops.filter (fun h => h.mac.isNone)) s (fun h s => askHop s h))) ∧
  -- NEIGHBOUR_REFRESH (R390)
  (∀ (s : State) (seconds : Nat),
      let s' := { s with hops := s.hops.map (fun h => { h with age := h.age + seconds }) }
      exec (.neighbourRefresh seconds) s = .next (forEach (s'.hops.filter (fun h => h.mac.isSome && decide (300 < h.age))) s' (fun h s' => askHop s' h))) ∧
  -- LNK_EQTAIL_WRITE (R393)
  (∀ (s : State) (q : Nat) (v : Word),
      (q < 16) →
      exec (.lnkEqtailWrite q v) s = .next (s.wr (LNK_EQTAIL q) (w32 (fld v 11 0)))) ∧
  -- TX_DESCRIPTOR (R394)
  (∀ (s : State) (q : Nat) (host : List Byte) (frame : List Byte) (tclk : Nat),
      let s' := setClock s tclk
      let d := descAt s' q host
      let b := if (u8 d 12).testBit 0 then padTo (u16 d 8) frame else deviceBytes s' (u64 d 0) (u16 d 8)
      txReady s' q d = true →
      s'.txDue.any (fun x => x.1 == q) = false →
      txRefused d = false →
      ethUp s' (s'.rf (LNK_EQCTRL q) 19 16) = true →
      exec (.txDescriptor q host frame tclk) s = .next (
        if (u8 d 12).testBit 2 then
          (if descTime d < timeNow s' then txSend s' q d b 1 else { s' with txDue := (q, descTime d) :: s'.txDue })
        else txSend s' q d b 0)) ∧
  -- FRAME_LAUNCH (R394)
  (∀ (s : State) (q : Nat) (host : List Byte) (frame : List Byte) (tclk : Nat),
      let s' := setClock s tclk
      let d := descAt s' q host
      let b := if (u8 d 12).testBit 0 then padTo (u16 d 8) frame else deviceBytes s' (u64 d 0) (u16 d 8)
      txReady s' q d = true →
      s'.txDue.any (fun x => x.1 == q) = true →
      txRefused d = false →
      ethUp s' (s'.rf (LNK_EQCTRL q) 19 16) = true →
      (u8 d 12).testBit 2 = true →
      descTime d ≤ timeNow s' →
      exec (.frameLaunch q host frame tclk) s = .next (txSend s' q d b 0)) ∧
  -- TOKEN_RECEIVE (R245)
  (∀ (s : State) (port : Nat) (content : List Byte) (cyc : Nat),
      let s' := { s with cyc := cyc % 512 }
      port < 2 →
      nbrUp s' port = true →
      tokenBad content = false →
      exec (.tokenReceive port content cyc) s = .next (tokenReceive s' port content (cyc % 512))) ∧
  -- TOKEN_PRESENT (R246)
  (∀ (s : State),
      let now := s.tokens.filter (fun t => decide (t.2.1 ≤ s.beat + 1))
      exec .tokenPresent s = .next (forEach now { s with tokens := s.tokens.filter (fun t => decide (s.beat + 1 < t.2.1)) } (fun t s => tokenPresent s t.1 t.2.2))) ∧
  -- GRID_FLIT_RECEIVE (R411)
  (∀ (s : State) (port : Nat) (beat : Nat) (grid : Bool) (tclk : Nat) (stamp : Int),
      let s' := setClock s tclk
      (port < 2 ∧ nbrUp s' port ∧ grid ∧ servoSrc s' = 3 + port) →
      exec (.gridFlitReceive port beat grid tclk stamp) s = .next (
        let ref : Int := (beat * beatLen + 40 * 65536 + nbrDelay s' port : Nat)
        let x : ServoIn := ⟨3 + port, (timeNow s' : Int) + stamp - ref, 1000000000, true, true⟩
        setTime s' { s'.time with samples := s'.time.samples ++ [x] })) ∧
  -- GRID_FLIT_SEND (R399)
  (∀ (s : State),
      (fclkRuns s ∧ s.beat % 2500000 = 0 ∧ !halted s) →
      exec .gridFlitSend s = .next (forEach ((List.range 2).filter (nbrUp s)) s (fun p s =>
            sendFlit s p 0x20 (b8 s.beat ++ b1 (if gridOn s then 1 else 0) ++ b4 (s.devId % 2 ^ 20))))) ∧
  -- NBR_RECORD_RECEIVE (R399)
  (∀ (s : State) (port : Nat) (record : List Byte) (n : Nat),
      let s' := sendFlit s port 0x40 (b2 (kib record))
      port < 2 →
      nbrUp s port = true →
      halted s' = false →
      forwardOf s' port (u16 record 6) = some n →
      queueFill (s'.stream n) + record.length ≤ enQueue (s'.entry n) →
      volBlocked s' (s'.entry n) = false →
      exec (.nbrRecordReceive port record) s = .next (forwardRecord s' n record)) ∧
  -- CREDIT_RECEIVE (R399)
  (∀ (s : State) (port : Nat) (n : Nat),
      (port < 2 ∧ nbrUp s port) →
      exec (.creditReceive port n) s = .next (portDrain (s.setNbr port { credit := min 1024 ((s.nbrPort port).credit + n) }) port)) ∧
  -- ECHO_REQUEST_RECEIVE (R399)
  (∀ (s : State) (port : Nat) (content : List Byte),
      (port < 2 ∧ nbrUp s port ∧ !halted s) →
      exec (.echoRequestReceive port content) s = .next (sendFlit s port 0x51 content)) ∧
  -- ECHO_REPLY_RECEIVE (R400)
  (∀ (s : State) (port : Nat) (content : List Byte) (tclk : Nat),
      let s' := setClock s tclk
      (port < 2 ∧ nbrUp s' port) →
      exec (.echoReplyReceive port content tclk) s = .next (
        let sent := (leAt content 0 6 * 1000000000 + u32 content 6) * 65536 + u16 content 10
        s'.wr (LNK_NBRTT port) (w32 (min (2 ^ 20 - 1) ((timeNow s' - sent + 2048) / 4096))))) ∧
  -- ECHO_SEND (R400)
  (∀ (s : State) (port : Nat) (tclk : Nat),
      let s' := setClock s tclk
      (port < 2 ∧ nbrUp s' port ∧ !halted s') →
      exec (.echoSend port tclk) s = .next (sendFlit s' port 0x50 (timeBytes (timeNow s')))) ∧
  -- FLIT_CRC_FAIL (R400)
  (∀ (s : State) (port : Nat) (record : Bool) (token : Bool),
      (¬(2 ≤ port)) →
      exec (.flitCrcFail port record token) s = .next (
        let s := (s.addR LNK_NBCRCCNT 1).setB (LNK_NBSTAT port) 2 true
        let s := if token then s.addR TRG_TOKERRCNT 1 else s
        if record then report (s.setB (LNK_NBSTAT port) 3 true) 135 port else s)) ∧
  -- NBR_PORT_UP (R398)
  (∀ (s : State) (port : Nat),
      (port < 2 ∧ nbrEn s port ∧ !nbrUp s port) →
      exec (.nbrPortUp port) s = .next (portDrain ((s.setF (LNK_NBSTAT port) 31 30 2).setNbr port { credit := 1024 }) port)) ∧
  -- NBR_PORT_DOWN (R398)
  (∀ (s : State) (port : Nat),
      exec (.nbrPortDown port) s = .next (nbrDown s port))

/-- PCIe reset, link, vector, configuration and error rows: under the conditions of their rules each of them completes,
with exactly the next state that the rules give (R91, R381, R510, R379, R375, R380). -/
def Obligations.PcieEventsComplete : Prop :=
  -- PCIE_HOT_RESET (R91)
  (∀ (s : State) (flr : Bool),
      exec (.pcieHotReset flr) s = .next ((hostReset s).setB LNK_PCISTAT (if flr then 3 else 2) true)) ∧
  -- PERST_ASSERT (R381)
  (∀ (s : State),
      (¬(s.pci.perst)) →
      exec .perstAssert s = .next (
        let s := (showLink (hostReset s) 0 0).setB LNK_PCISTAT 4 true
        setPci s { s.pci with perst := true, up := false })) ∧
  -- PERST_RELEASE (R510)
  (∀ (s : State) (gen : Nat) (width : Nat),
      (¬(!s.pci.perst)) →
      exec (.perstRelease gen width) s = .next (
        let s := setPci s { s.pci with perst := false, trainTo := (if linkOk gen width then (gen, width) else s.pci.trainTo) }
        wake (if s.rf (PWR_STEP 4) 31 30 = 1 ∧ linkOk gen width then trained s gen width else s) 1)) ∧
  -- PCIE_SURPRISE_DOWN (R381)
  (∀ (s : State),
      exec .pcieSurpriseDown s = .next (report ((hostReset s).setB LNK_PCISTAT 2 true) 138 0xFFFF)) ∧
  -- PCIE_DOWNTRAIN (R381)
  (∀ (s : State) (gen : Nat) (width : Nat),
      (linkOk gen width && !s.pci.perst && (decide (gen < s.rf LNK_PCISTAT 31 28) || decide (width < s.rf LNK_PCISTAT 27 23))) →
      exec (.pcieDowntrain gen width) s = .next (report ((trained s gen width).setB LNK_PCISTAT 1 true) 136 0xFFFF)) ∧
  -- MSIX_UNMASK (R379)
  (∀ (s : State) (v : Nat),
      (v < 2048) →
      exec (.msixUnmask v) s = .next (onBar s .host (msixWrite s (16 * v + 12) 0))) ∧
  -- PCIE_CONFIG_WRITE (R375)
  (∀ (s : State) (bme : Bool) (d3 : Bool) (msixEn : Bool) (fmask : Bool) (mps : Nat) (mrrs : Nat),
      (¬(s.pci.perst)) →
      exec (.pcieConfigWrite bme d3 msixEn fmask mps mrrs) s = .next (
        let p := s.pci
        sendPending (setPci s { p with bme := bme, d3 := d3, msixEn := msixEn, fmask := fmask, up := true, mps := (if mps ∈ [128, 256, 512] then mps else p.mps), mrrs := (if mrrs ∈ [128, 256, 512, 1024, 2048, 4096] then mrrs else p.mrrs) }))) ∧
  -- AER_ERROR (R380)
  (∀ (s : State) (uncor : Bool) (err : Nat),
      uncor = true →
      err < 10 →
      exec (.aerError uncor err) s = .next (report (setPci s { s.pci with aerUnc := s.pci.aerUnc ||| 2 ^ err }) 137 0xFFFF)) ∧
  -- AER_ERROR (R380)
  (∀ (s : State) (uncor : Bool) (err : Nat),
      uncor = false →
      err < 8 →
      exec (.aerError uncor err) s = .next (setPci s { s.pci with aerCor := s.pci.aerCor ||| 2 ^ err }))

/-- Disciplined time, grid alignment and PTP rows: under the conditions of their rules each of them completes, with
exactly the next state that the rules give (R425, R421, R423, R412, R411, R413, R415, R420, R418, R572, R416). -/
def Obligations.TimeAndPtpCommandsComplete : Prop :=
  -- TIME_GET (R425)
  (∀ (s : State) (q : Req) (w : At),
      let s' := setClock { s with cyc := w.cyc % 512 } w.tclk
      accepted s' 0x0A00 q (q.params.length == 4) [(decide (2 ≤ u32 q.params 0), ST_BAD_PARAM)] = true →
      exec (.timeGet q w) s = .next (reply s' 0x0A00 q ST_OK (timeGetBytes s' (u32 q.params 0 == 1) s'.cyc))) ∧
  -- TIME_STEP (R425)
  (∀ (s : State) (q : Req),
      accepted s 0x0A01 q (q.params.length == 16) (timeStepChecks q.params) = true →
      exec (.timeStep q) s = .next (reply (pushJump s (timeStepJump q.params)) 0x0A01 q ST_OK (b8 (nextBoundary s)))) ∧
  -- TIME_ADJUST (R425)
  (∀ (s : State) (q : Req),
      accepted s 0x0A02 q (q.params.length == 4) [(adjustBig s q.params, ST_BAD_PARAM), (servo s != SV_FREE || gridOn s, ST_STATE)] = true →
      adjustBig s q.params = false →
      exec (.timeAdjust q) s = .next (reply (pushJump s ⟨1, adjustBy q.params, false⟩) 0x0A02 q ST_OK (b8 (nextBoundary s)))) ∧
  -- SERVO_SET (R425)
  (∀ (s : State) (q : Req) (tclk : Nat),
      let s' := setClock s tclk
      accepted s' 0x0A03 q (q.params.length == 24) (servoChecks q.params) = true →
      exec (.servoSet q tclk) s = .next (reply (servoWrite s' q.params) 0x0A03 q ST_OK [])) ∧
  -- GRID_ALIGN (R421)
  (∀ (s : State) (q : Req),
      accepted s 0x0A06 q (q.params.length == 4) (gridAlignChecks s q.params) = true →
      exec (.gridAlign q) s = .next (
        if u32 q.params 0 = 1 then reply (gridAbort s) 0x0A06 q ST_OK []
        else if gridOn s then reply s 0x0A06 q ST_OK []
        else reply (gridStart s) 0x0A06 q ST_ACCEPTED [])) ∧
  -- GRID_ALIGN_ABORT (R423)
  (∀ (s : State),
      exec .gridAlignAbort s = .next (gridAbort s)) ∧
  -- UTC_SET (R425)
  (∀ (s : State) (q : Req),
      let p := q.params
      accepted s 0x0A07 q (p.length == 4) [(decide (3 < u16 p 2), ST_BAD_PARAM), (s.ptp.port == 9 && s.ptp.flags.testBit 0, ST_STATE)] = true →
      exec (.utcSet q) s = .next (reply (s.wr TIM_UTCOFF (w32 (u16 p 0 + u16 p 2 * 65536))) 0x0A07 q ST_OK [])) ∧
  -- SERVO_SAMPLE (R412)
  (∀ (s : State) (tclk : Nat) (x : ServoIn) (t : List ServoIn),
      let s' := setClock (setTime s { s.time with samples := t }) tclk
      s.time.samples = x :: t →
      x.src = servoSrc s' →
      0 < x.tau →
      exec (.servoSample tclk) s = .next (servoSample s' x)) ∧
  -- SAMPLE_MISSING (R411)
  (∀ (s : State) (tclk : Nat),
      (¬(servoSrc s = 0)) →
      exec (.sampleMissing tclk) s = .next (sampleMissing (setClock s tclk))) ∧
  -- HOLDMAX_EXPIRY (R413)
  (∀ (s : State),
      (servo s = SV_HOLDOVER) →
      exec .holdmaxExpiry s = .next (taiUpdate (setTime s { s.time with held := true }))) ∧
  -- JUMP_APPLY (R415)
  (∀ (s : State) (tclk : Nat),
      (¬(s.time.jumps = [])) →
      exec (.jumpApply tclk) s = .next (applyJumps (setClock s tclk))) ∧
  -- GRID_AVG_WINDOW_END (R420)
  (∀ (s : State) (sum : Int) (n b : Nat),
      let g := rdiv (sum * 15625) (1024 * n)
      let s' := setTime s { s.time with gDone := none }
      s.time.gDone = some (sum, n, b) →
      exec .gridAvgWindowEnd s = .next (gridWindow (s'.wr TIM_GRIDERR (i32 (satI 32 g))) g (decide (s'.time.gFrom ≤ b)))) ∧
  -- GRID_SLEW_END (R421)
  (∀ (s : State),
      (gridState s = G_SLEW ∧ s.time.slew.natAbs ≤ stepRoom s) →
      exec .gridSlewEnd s = .next (slewEnd s)) ∧
  -- GRID_LOAD (R421)
  (∀ (s : State) (tclk : Nat) (stamp : Int),
      (s.time.loadDue ∧ gridState s = G_VERIFY ∧ s.resetAt = none ∧ pwrState s ≠ PS_ENTERING) →
      exec (.gridLoad tclk stamp) s = .next (
        let s := setClock s tclk
        let k := gridNumber ((timeNow s : Int) + stamp).toNat
        let s := setTime s { s.time with loadDue := false, loadTo := some k, gLost := 0, track := 0, drift := 0 }
        let s := setGrid ((s.setB GLB_BEATSTAT 0 true).setB GLB_BEATSTAT 1 true) G_TRACK
        timCause { s with evtPend := 2 :: s.evtPend } 7)) ∧
  -- LEAP_SECOND (R418)
  (∀ (s : State) (tclk : Nat),
      let s' := setClock s tclk
      s'.rb TIM_UTCOFF 16 = true →
      utcSecond s' = 0 →
      exec (.leapSecond tclk) s = .next (
        let t := (s'.setF TIM_UTCOFF 15 0 (lowBits 16 (utcOff s' + 1))).setB TIM_UTCOFF 16 false
        setTime t { t.time with leapAt := some (timeNow t / 65536000000000) })) ∧
  -- LEAP_SECOND (R418)
  (∀ (s : State) (tclk : Nat),
      let s' := setClock s tclk
      s'.rb TIM_UTCOFF 16 = false →
      s'.rb TIM_UTCOFF 17 = true →
      utcSecond s' = 86399 →
      exec (.leapSecond tclk) s = .next ((s'.setF TIM_UTCOFF 15 0 (lowBits 16 (utcOff s' - 1))).setB TIM_UTCOFF 17 false)) ∧
  -- PPSOUT_RISE (R572)
  (∀ (s : State),
      (s.rb GLB_PINCTRL 30 ∧ timeIsSet s ∧ pwrState s ≠ PS_HIBERNATE) →
      exec .ppsoutRise s = .next (setTime (s.put (.pin 1 true)) { s.time with pps := true })) ∧
  -- PPSOUT_FALL (R572)
  (∀ (s : State),
      (s.time.pps) →
      exec .ppsoutFall s = .next (setTime (s.put (.pin 1 false)) { s.time with pps := false })) ∧
  -- PTP_SET (R425)
  (∀ (s : State) (q : Req),
      accepted s 0x0A04 q (q.params.length == 12) (ptpSetChecks s q.params) = true →
      exec (.ptpSet q) s = .next (reply (setPtp s (ptpConfig q.params)) 0x0A04 q ST_OK [])) ∧
  -- PTP_STATUS (R425)
  (∀ (s : State) (q : Req),
      accepted s 0x0A05 q (q.params.length == 0) [] = true →
      exec (.ptpStatus q) s = .next (reply s 0x0A05 q ST_OK (ptpStatusBytes s))) ∧
  -- PTP_MESSAGE_SEND (R416)
  (∀ (s : State) (kind : Nat) (tclk : Nat),
      let s' := ptpWake (setClock s tclk)
      s'.ptp.on = true →
      kind = 0 →
      s'.ptp.port = PT_MASTER →
      exec (.ptpMessageSend kind tclk) s = .next (ptpSync s')) ∧
  -- PTP_MESSAGE_SEND (R416)
  (∀ (s : State) (kind : Nat) (tclk : Nat),
      let s' := ptpWake (setClock s tclk)
      s'.ptp.on = true →
      kind = 1 →
      s'.ptp.port = PT_MASTER →
      exec (.ptpMessageSend kind tclk) s = .next (ptpAnnounce s')) ∧
  -- PTP_MESSAGE_SEND (R416)
  (∀ (s : State) (kind : Nat) (tclk : Nat),
      let s' := ptpWake (setClock s tclk)
      s'.ptp.on = true →
      2 ≤ kind →
      (s'.ptp.p2p = true ∨ s'.ptp.port ∈ [PT_UNCAL, PT_SLAVE]) →
      exec (.ptpMessageSend kind tclk) s = .next (ptpRequest s')) ∧
  -- ANNOUNCE_RECEIPT_TIMEOUT (R416)
  (∀ (s : State),
      let p := s.ptp
      (p.on ∧ p.port ∈ [PT_LISTENING, PT_PASSIVE, PT_UNCAL, PT_SLAVE]) →
      exec .announceReceiptTimeout s = .next (setPtp s { p with master := none, flags := 0, port := (if p.slaveOnly then PT_LISTENING else PT_MASTER) }))

/-- Edge time-stamping and frequency measurement rows: under the conditions of their rules each of them completes, with
exactly the next state that the rules give (R441, R436, R439, R428, R429, R437, R438, R440, R242). -/
def Obligations.TimeStampCommandsComplete : Prop :=
  -- TDC_CHAN_SET (R441)
  (∀ (s : State) (q : Req),
      let p := q.params
      let v := w32 (u32 p 4)
      accepted s 0x0A10 q (p.length == 8) [(decide (16 < u16 p 0) || !zeroAt p 2 2 || chctrlBad v, ST_BAD_PARAM)] = true →
      exec (.tdcChanSet q) s = .next (reply (s.wr (TDC_CHCTRL (u16 p 0)) v) 0x0A10 q ST_OK [])) ∧
  -- TDC_CAL (R436)
  (∀ (s : State) (q : Req),
      let l := bitList 17 (u32 q.params 0)
      accepted s 0x0A11 q (q.params.length == 8) [(decide (2 ^ 17 ≤ u32 q.params 0) || decide (1 < u32 q.params 4), ST_BAD_PARAM),
          (!(u32 q.params 4 == 1) && l.any (calibrating s), ST_BUSY), (!(u32 q.params 4 == 1) && l.contains 16 && ppsInUse s, ST_IN_USE)] = true →
      u32 q.params 4 = 0 →
      exec (.tdcCal q) s = .next (reply (forEach l s (fun c s => calStart s c)) 0x0A11 q ST_ACCEPTED [])) ∧
  -- TDC_CAL_ABORT (R436)
  (∀ (s : State) (q : Req),
      let l := bitList 17 (u32 q.params 0)
      accepted s 0x0A11 q (q.params.length == 8) [(decide (2 ^ 17 ≤ u32 q.params 0) || decide (1 < u32 q.params 4), ST_BAD_PARAM),
          (!(u32 q.params 4 == 1) && l.any (calibrating s), ST_BUSY), (!(u32 q.params 4 == 1) && l.contains 16 && ppsInUse s, ST_IN_USE)] = true →
      u32 q.params 4 = 1 →
      exec (.tdcCalAbort q) s = .next (reply (forEach l s (fun c s => if calibrating s c then calFail s c 3 else s)) 0x0A11 q ST_OK [])) ∧
  -- TDC_READ (R441)
  (∀ (s : State) (q : Req),
      let p := q.params
      let c := u16 p 0
      let r := tdcPop s c (u16 p 2)
      accepted s 0x0A12 q (p.length == 4) [(decide (16 < c) || decide (u16 p 2 < 1 ∨ 254 < u16 p 2), ST_BAD_PARAM), ((takerOf s c).isSome, ST_IN_USE)] = true →
      exec (.tdcRead q) s = .next (reply r.2 0x0A12 q ST_OK (b2 r.1.length ++ b2 0 ++ r.1.flatMap (stampBytes c)))) ∧
  -- FREQ_START (R439)
  (∀ (s : State) (q : Req),
      let p := q.params
      let start := if (u8 p 1).testBit 1 then u64 p 12 else beatOrTick s + 1
      accepted s 0x0A13 q (p.length == 20) [(freqBad p, ST_BAD_PARAM),
          ((u8 p 1).testBit 1 && decide (u64 p 12 ≤ beatOrTick s), ST_STATE)] = true →
      (u8 p 1).testBit 3 = false →
      exec (.freqStart q) s = .next (reply (freqGo s p start) 0x0A13 q ST_OK (b8 start))) ∧
  -- FREQ_STOP (R441)
  (∀ (s : State) (q : Req),
      let p := q.params
      let u := freqUnit s (u8 p 0)
      let stop := beatOrTick s + 1
      accepted s 0x0A13 q (p.length == 20) [(freqBad p, ST_BAD_PARAM)] = true →
      (u8 p 1).testBit 3 = true →
      exec (.freqStop q) s = .next (reply (setFreq s (u8 p 0) { u with endAt := some stop, stop := min u.stop stop }) 0x0A13 q ST_OK (b8 stop))) ∧
  -- FREQ_RESULT (R441)
  (∀ (s : State) (q : Req),
      let f := u8 q.params 0
      accepted s 0x0A14 q (q.params.length == 4) [(decide (3 < f) || !zeroAt q.params 1 3, ST_BAD_PARAM)] = true →
      exec (.freqResult q) s = .next (reply s 0x0A14 q ST_OK (b8 (s.rd64 (TDC_FRES_LO f)) ++ bw (s.rd (TDC_FRMS f)) ++ bw (s.rd (TDC_FN f)) ++ b8 (freqUnit s f).shown))) ∧
  -- TDC_STATUS (R441)
  (∀ (s : State) (q : Req),
      let c := u16 q.params 0
      accepted s 0x0A15 q (q.params.length == 4) [(decide (16 < c) || !zeroAt q.params 2 2, ST_BAD_PARAM)] = true →
      exec (.tdcStatus q) s = .next (reply s 0x0A15 q ST_OK ([TDC_CHSTAT c, TDC_CHQFILL c, TDC_CHSTAMPCNT c, TDC_CHLOSTCNT c, TDC_CHDEADCNT c, TDC_CHCALSTAT c, TDC_WARM].flatMap
            (fun a => bw (s.rd a))))) ∧
  -- TDC_EDGE (R428)
  (∀ (s : State) (c : Nat) (rise : Bool) (tclk : Nat) (half : Bool) (code : Nat) (cyc : Nat),
      let s' := setClock { s with cyc := cyc % 512 } tclk
      let t := stampTime s' c tclk half (code % 1024)
      (¬(17 ≤ c ∨ !tdcOn s ∨ calibrating s c ∨ blind s' c t)) →
      exec (.tdcEdge c rise tclk half code cyc) s = .next (
        let s' := stampOut s' c t rise false s.beat (cyc % 512)
        setTdcCh s' c { tdcCh s' c with last := some (t, rise, cyc % 512, s.beat) })) ∧
  -- BLIND_TIME_END (R429)
  (∀ (s : State) (c : Nat) (level : Bool) (t : Nat) (rise : Bool) (cyc b : Nat),
      let s' := setTdcCh s c { tdcCh s c with last := none }
      let p := beatOf s' (t + 4 * 65536)
      (tdcCh s c).last = some (t, rise, cyc, b) →
      level ≠ rise →
      tdcOn s' = true →
      calibrating s' c = false →
      exec (.blindTimeEnd c level) s = .next (stampOut s' c (t + 4 * 65536) level true p.1 (p.2 / 2 ^ 15))) ∧
  -- WIDTH_CAL_END (R436)
  (∀ (s : State) (c : Nat) (hits : List Nat),
      c < 17 →
      calibrating s c = true →
      histBad hits = false →
      exec (.widthCalEnd c hits) s = .next (
        let s := setTdcCh s c { tdcCh s c with table := hits.take 1024 }
        let s := (s.setB (TDC_CHSTAT c) 1 false).wr (TDC_CHCALSTAT c) (w32 (s.beat % 2 ^ 30 * 4 + 1))
        fire (tdcCause s 21) 357)) ∧
  -- WIDTH_CAL_END (R436)
  (∀ (s : State) (c : Nat) (hits : List Nat),
      c < 17 →
      calibrating s c = true →
      histBad hits = true →
      exec (.widthCalEnd c hits) s = .next (calFail s c 2)) ∧
  -- TDC_RECAL (R437)
  (∀ (s : State),
      let c := if s.ext.tdc.next % 17 = 16 ∧ ppsInUse s then 0 else s.ext.tdc.next % 17
      let s' := setTdc s { s.ext.tdc with next := (c + 1) % 17 }
      s.rf TDC_CTRL 15 0 ≠ 0 →
      calibrating s' c = false →
      exec .tdcRecal s = .next (calStart s' c)) ∧
  -- FREQ_GATE_END (R438)
  (∀ (s : State) (f : Nat),
      let u := freqUnit s f
      (¬(4 ≤ f ∨ !u.run ∨ u.endAt.isSome ∨ beatOrTick s < u.stop)) →
      exec (.freqGateEnd f) s = .next (
        let r := gateResult s f u
        let s := r.1
        if s.rb (TDC_FCTRL f) 30 then
          let v : FreqUnit := { start := u.stop, since := u.stop, stop := u.stop + 2500 * s.rf (TDC_FGATE f) 19 0, run := true, opened := true, jump := s.time.jumpNo, startTime := boundaryTime s s.beat, result := some r.2, shown := u.shown }
          setFreq s f v
        else
          let v : FreqUnit := { result := some r.2, shown := u.shown }
          (setFreq s f v).setB (TDC_FCTRL f) 31 false)) ∧
  -- FREQ_RESULT_WRITE (R439)
  (∀ (s : State) (f : Nat) (r : FreqRes),
      let t0 := setFreq s f { freqUnit s f with result := none, shown := r.start }
      let t1 := ((t0.wr64 (TDC_FRES_LO f) r.fres).wr (TDC_FRMS f) (w32 r.frms)).wr (TDC_FN f) (w32 r.fn)
      let t := fire (tdcCause t1 (17 + f)) (353 + f)
      (freqUnit s f).result = some r →
      f < 4 →
      r.due ≤ beatOrTick s →
      exec (.freqResultWrite f) s = .next (
        if !r.record then t
        else
          match resultStream t f with
          | some n =>
            if r.start < (t.stream n).since then t
            else sealUnits t n (t.entry n) ⟨8, (if r.byp then F_BYP else 0), 0, r.start, r.time, r.tf, r.chan + 256, t.rdN (TDC_CHLOSTCNT r.chan)⟩
              [b8 r.fres ++ b4 r.frms ++ b4 r.fn ++ b8 r.start ++ b8 r.stop] false false
          | none => t)) ∧
  -- OCXO_WARM_CHANGE (R440)
  (∀ (s : State) (level : Bool),
      exec (.ocxoWarmChange level) s = .next (warmFollow (setTdc s { s.ext.tdc with ocxo := level }))) ∧
  -- TB_WARM_CRITERION (R440)
  (∀ (s : State) (secs : Nat),
      let steady := decide (16 ≤ s.time.rates.length) && decide (rateSpread s.time.rates * 1000000000 ≤ (s.rf TDC_WARM 15 0 : Int) * 2 ^ 40)
      (s.rb TDC_WARM 30 && rpllLocked s && decide (s.rf TDC_WARM 28 16 ≤ secs) && (servoSrc s == 0 || steady)) →
      exec (.tbWarmCriterion secs) s = .next (setWarm s true)) ∧
  -- TRIGIO_LEVEL_CHANGE (R242)
  (∀ (s : State) (pin : Nat) (level : Bool) (cyc : Nat),
      (pin < 32 ∧ fclkRuns s) →
      exec (.trigioLevelChange pin level cyc) s = .next (trigioLevel s pin level (cyc % 512)))

/-- Clock synthesis rows: under the conditions of their rules each of them completes, with exactly the next state that
the rules give (R462, R463, R461, R454, R464, R448, R459, R455, R456, R450, R458, R451). -/
def Obligations.ClockCommandsComplete : Prop :=
  -- CLK_SCLK_SET (R462)
  (∀ (s : State) (q : Req),
      let p := q.params
      let t := u64 p 8
      accepted s 0x0B00 q (p.length == 16) [(sclkBad s p, ST_BAD_PARAM), (r503 s || s.coolMode || restarting s || (t != 0 && decide (t ≤ s.beat)), ST_STATE),
         (anyFg s || aligning s, ST_BUSY)] = true →
      exec (.clkSclkSet q) s = .next (restartBegin s 3 0x0B00 q 0 (if t = 0 then s.beat else t - 1) 0)) ∧
  -- CLK_BAND_SET (R463)
  (∀ (s : State) (q : Req),
      let p := q.params
      let v := w32 (u32 p 4)
      accepted s 0x0B01 q (p.length == 8) [(!quadPresent s (u8 p 0), ST_UNIT_ABSENT),
         (decide (31 < u8 p 1) || !zeroAt p 2 2 || bit v 30 || decide (fld v 23 12 < fld v 11 0), ST_BAD_PARAM)] = true →
      exec (.clkBandSet q) s = .next (reply (s.wr (CLK_BAND (u8 p 0) (u8 p 1)) v) 0x0B01 q ST_OK [])) ∧
  -- CLK_PHASE_STEP (R463)
  (∀ (s : State) (q : Req),
      let p := q.params
      let qs := bitList 4 (u8 p 0)
      accepted s 0x0B02 q (p.length == 4) [(qs.any (fun k => !quadPresent s k), ST_UNIT_ABSENT),
         (decide (16 ≤ u8 p 0) || !zeroAt p 1 1 || u16 p 2 == 0x8000, ST_BAD_PARAM),
         (clkSrc s == 1 || qs.any (quadBypass s), ST_STATE), (gridState s != G_OFF || s.rb CLK_SYNC 31, ST_BUSY)] = true →
      exec (.clkPhaseStep q) s = .next (setClk s { s.ext.clk with phases := s.ext.clk.phases ++ [⟨q, qs, sext 16 (u16 p 2), phaseFrom s qs⟩] })) ∧
  -- CLK_STATUS (R461)
  (∀ (s : State) (q : Req),
      accepted s 0x0B03 q (q.params.length == 0) [] = true →
      exec (.clkStatus q) s = .next (reply s 0x0B03 q ST_OK (([CLK_STAT, CLK_LOCK, CLK_BYP, CLK_LOL, CLK_RPLL] ++ (List.range 4).map CLK_SMDLL ++
            (List.range 4).map CLK_PHOFF ++ [CLK_SYNC, CLK_VCLK]).flatMap (fun a => bw (regShown s a))))) ∧
  -- CLK_SYNC_ARM (R454)
  (∀ (s : State) (v : Word),
      exec (.clkSyncArm v) s = .next (syncWrite s (putBit v 31 true))) ∧
  -- CLK_SYNC_CANCEL (R464)
  (∀ (s : State) (v : Word),
      exec (.clkSyncCancel v) s = .next (syncWrite s (putBit v 30 true))) ∧
  -- REFIN_LOSS (R448)
  (∀ (s : State) (cyc : Nat),
      let s' := { s with cyc := cyc % 512 }
      (s'.rb CLK_STAT 7) →
      exec (.refinLoss cyc) s = .next (
        let s' := s'.setB CLK_STAT 7 false
        if locked s' 0 then lossOfLock s' 0 else report s' 0 0)) ∧
  -- REFIN_RETURN (R459)
  (∀ (s : State),
      exec .refinReturn s = .next (s.setB CLK_STAT 7 true)) ∧
  -- SYNTH_LOSS_OF_LOCK (R455)
  (∀ (s : State) (n : Nat) (cyc : Nat),
      (n < 12 ∧ synthPresent s n ∧ locked s n) →
      exec (.synthLossOfLock n cyc) s = .next (lossOfLock { s with cyc := cyc % 512 } n)) ∧
  -- SYNTH_LOCK (R456)
  (∀ (s : State) (n : Nat),
      (n < 16 ∧ synthPresent s n ∧ !locked s n ∧ mayLock s n) →
      exec (.synthLock n) s = .next (
        let s := s.setB CLK_LOCK n true
        let s := if n = 0 then warmFollow s else s
        if 1 ≤ n ∧ n ≤ 4 then s.wr (CLK_PHOFF (n - 1)) 0 else s)) ∧
  -- BYPASS_RETURN (R456)
  (∀ (s : State) (n : Nat),
      (n < 12 ∧ onBypass s n ∧ locked s (lockOf s n) ∧ refGood s n) →
      exec (.bypassReturn n) s = .next (
        let s := s.setB CLK_BYP n false
        if n = 0 then mdllsTry s
        else if n ≤ 4 then
          let q := n - 1
          let s := s.setF (CLK_SMDLL q) 2 1 (if clkSrc s = 1 then 3 else 0)
          let s := forEach (quadCores q) s (fun k s => if s.rf (CNV_STAT k) 1 0 = 3 then s.setF (CNV_STAT k) 1 0 2 else s)
          if restartCal s then fgBegin s q else s
        else s)) ∧
  -- BAND_ATTEMPT_TIMEOUT (R450)
  (∀ (s : State) (q : Nat),
      (q < 4 ∧ s.rf (CLK_SMDLL q) 2 1 = 1 ∧ !locked s (1 + q)) →
      exec (.bandAttemptTimeout q) s = .next (tryBand s q (s.rf (CLK_SMDLL q) 12 8 + 1))) ∧
  -- HBM_PLL_LOSS_OF_LOCK (R458)
  (∀ (s : State) (n : Nat),
      (n < 2 ∧ locked s (14 + n)) →
      exec (.hbmPllLossOfLock n) s = .next (report ((s.setB CLK_LOCK (14 + n) false).setB CLK_LOL (14 + n) true) 4 n)) ∧
  -- SCLKIN_LOSS (R451)
  (∀ (s : State) (pin : Nat) (cyc : Nat),
      (pin < 2 ∧ locked s (12 + pin)) →
      exec (.sclkinLoss pin cyc) s = .next (
        let s := { s with cyc := cyc % 512 }
        let s := (s.setB CLK_LOCK (12 + pin) false).setB CLK_LOL (12 + pin) true
        let s := if clkSrc s = 1 then toBypass s ([1 + 2 * pin, 2 + 2 * pin].filter (synthPresent s)) else s
        report s 5 pin)) ∧
  -- CLK_PHASE_STEP_END (R463)
  (∀ (s : State) (r : PhaseRun),
      phaseEnding s = some r →
      exec .clkPhaseStepEnd s = .next (reply (phoffAdd (setClk s { s.ext.clk with phases := s.ext.clk.phases.erase r }) r.quads r.steps) 0x0B02 r.req ST_OK (b8 s.beat)))

/-- Display scan-out rows: under the conditions of their rules each of them completes, with exactly the next state that
the rules give (R469, R479, R477, R482, R478, R476, R470). -/
def Obligations.DisplayCommandsComplete : Prop :=
  -- DSP_MODE_SET (R469)
  (∀ (s : State) (q : Req),
      let p := q.params
      accepted s 0x0C00 q (p.length == 24) [(!displayPresent s, ST_UNIT_ABSENT), (modeBad p, ST_BAD_PARAM), (r503 s, ST_STATE)] = true →
      exec (.dspModeSet q) s = .next (reply (setDsp s { s.dsp with modeReq := p }) 0x0C00 q ST_ACCEPTED [])) ∧
  -- DSP_BUF_REG (R479)
  (∀ (s : State) (q : Req),
      let p := q.params
      let b : DspBuf := ⟨u64 p 0, u32 p 8, u8 p 12, u16 p 14, u16 p 16, u16 p 18, w32 (u32 p 20), !isNet q.src⟩
      accepted s 0x0C01 q (p.length == 24) [(!displayPresent s, ST_UNIT_ABSENT), (!zeroAt p 13 1 || bufBad s b, ST_BAD_PARAM), (decide (64 ≤ s.dsp.bufs.length), ST_BUSY)] = true →
      exec (.dspBufReg q) s = .next (
        let h := newHandle s
        let s := s.useFree
        reply (setDsp s { s.dsp with bufs := Sparse.ins s.dsp.bufs h b }) 0x0C01 q ST_OK (b4 h))) ∧
  -- DSP_BUF_FREE (R479)
  (∀ (s : State) (q : Req),
      let h := u32 q.params 0
      accepted s 0x0C02 q (q.params.length == 4) [(!displayPresent s, ST_UNIT_ABSENT), ((bufOf s h).isNone, ST_BAD_PARAM), (handleInUse s h, ST_IN_USE)] = true →
      exec (.dspBufFree q) s = .next (reply (freeHandle s h) 0x0C02 q ST_OK [])) ∧
  -- DSP_COMMIT (R477)
  (∀ (s : State) (q : Req),
      accepted s 0x0C03 q (q.params.length == 0) [(!displayPresent s, ST_UNIT_ABSENT), (r503 s, ST_STATE)] = true →
      exec (.dspCommit q) s = .next (
        let s := askCopy s
        setDsp s { s.dsp with waiting := s.dsp.waiting ++ [q] })) ∧
  -- DSP_PAL_SET (R482)
  (∀ (s : State) (q : Req),
      let p := q.params
      let n := u16 p 4
      accepted s 0x0C04 q (decide (8 ≤ p.length) && p.length == 8 + n * (if u8 p 0 = 0 then 1 else 2)) [(!displayPresent s, ST_UNIT_ABSENT),
         (decide (1 < u8 p 0) || !zeroAt p 1 1 || !zeroAt p 6 2 || decide (256 < u16 p 2 + n), ST_BAD_PARAM)] = true →
      exec (.dspPalSet q) s = .next (reply (palWrite s (u8 p 0) (u16 p 2) (p.drop 8)) 0x0C04 q ST_OK [])) ∧
  -- DSP_AUX (R482)
  (∀ (s : State) (q : Req) (sink : Option (List Byte)) (b : List Byte),
      let p := q.params
      let n := u8 p 1
      let s' := s.put (.aux (u8 p 0) (u32 p 2) (if u8 p 0 % 2 = 1 then p.drop 6 else []))
      accepted s 0x0C05 q (decide (6 ≤ p.length) && p.length == 6 + n) [(!displayPresent s, ST_UNIT_ABSENT), (decide (3 < u8 p 0) || n == 0 || decide (16 < n), ST_BAD_PARAM), (!s.rb DSP_STAT 8, ST_STATE)] = true →
      sink = some b →
      exec (.dspAux q sink) s = .next (reply s' 0x0C05 q ST_OK (if u8 p 0 % 2 = 1 then p.drop 6 else (b ++ zeros n).take n))) ∧
  -- DSP_STATUS (R482)
  (∀ (s : State) (q : Req),
      accepted s 0x0C06 q (q.params.length == 0) [(!displayPresent s, ST_UNIT_ABSENT)] = true →
      exec (.dspStatus q) s = .next (reply s 0x0C06 q ST_OK ([DSP_STAT, DSP_FRAME_LO, DSP_FRAME_HI, DSP_UNDCNT, DSP_TORNCNT].flatMap (fun a => bw (s.rd a))))) ∧
  -- DSP_CMT_GO (R477)
  (∀ (s : State) (v : Word),
      let t := if bit (putBit v 0 true) 1 then endStretch (setDsp s { s.dsp with dirty := true }) else s
      displayPresent s = true →
      exec (.dspCmtGo v) s = .next (askCopy t)) ∧
  -- DSP_CMT_DIRTY (R478)
  (∀ (s : State) (v : Word),
      let t := endStretch (setDsp s { s.dsp with dirty := true })
      displayPresent s = true →
      exec (.dspCmtDirty v) s = .next (if bit (putBit v 1 true) 0 then askCopy t else t)) ∧
  -- COPY_POINT (R477)
  (∀ (s : State) (h : EccHits),
      (dspAwake s && atCopy s.dsp) →
      exec (.copyPoint h) s = .next (copyPoint s h)) ∧
  -- SCANOUT_LINE (R476)
  (∀ (s : State) (under : List (Nat × Nat)) (h : EccHits),
      (dspAwake s && s.dsp.mode != [] && !atCopy s.dsp) →
      exec (.scanoutLine under h) s = .next (scanLine s under h)) ∧
  -- STATIC_REFRESH_STRETCH (R478)
  (∀ (s : State),
      (dspAwake s && s.dsp.mode != [] && mayStretch s && !s.rb DSP_STAT 9 && !s.dsp.copied) →
      exec .staticRefreshStretch s = .next ((setDsp s { s.dsp with vtot := max s.dsp.vtot (stretchedTotal s.dsp) }).setB DSP_STAT 9 true)) ∧
  -- HPD_FALL (R470)
  (∀ (s : State),
      (displayPresent s ∧ s.rb DSP_STAT 8) →
      exec .hpdFall s = .next (linkFail (setDsp (s.setB DSP_STAT 8 false) { s.dsp with retrain := false }))) ∧
  -- HPD_RISE (R470)
  (∀ (s : State),
      (displayPresent s) →
      exec .hpdRise s = .next (setDsp (s.setB DSP_STAT 8 true) { s.dsp with retrain := (s.dsp.mode != [] && dspLink s == 0) })) ∧
  -- LINK_TRAINING_END (R469)
  (∀ (s : State) (ok : Bool) (adaptive : Bool),
      (¬(dspLink s ≠ 1)) →
      exec (.linkTrainingEnd ok adaptive) s = .next (if ok then setDsp (s.setF DSP_STAT 1 0 2) { s.dsp with async := adaptive } else linkFail s))

/-- Badger monitor rows: under the conditions of their rules each of them completes, with exactly the next state that
the rules give (R497, R489, R487, R492, R495). -/
def Obligations.MonitorCommandsComplete : Prop :=
  -- MON_CORE_SET (R497)
  (∀ (s : State) (q : Req),
      let p := q.params
      let ws := monWords p (u8 p 0)
      accepted s 0x0D00 q (p.length == 208) [(decide (3 < u8 p 0) || !zeroAt p 1 3 || ws.any (fun r => r.1.2.2 r.2 || r.2 &&& ~~~ w32 r.1.2.1 != 0), ST_BAD_PARAM)] = true →
      exec (.monCoreSet q) s = .next (reply (forEach ws s (fun r s => s.wr r.1.1 r.2)) 0x0D00 q ST_OK [])) ∧
  -- MON_INJECT (R497)
  (∀ (s : State) (q : Req),
      accepted s 0x0D01 q (q.params.length == 4) [(decide (16 ≤ u32 q.params 0), ST_BAD_PARAM)] = true →
      exec (.monInject q) s = .next (reply (setMon s { s.ext.mon with req := s.ext.mon.req ++ bitList 4 (u32 q.params 0) }) 0x0D01 q ST_OK [])) ∧
  -- MON_READ (R497)
  (∀ (s : State) (q : Req),
      let m := u8 q.params 0
      accepted s 0x0D02 q (q.params.length == 4) [(decide (3 < m) || !zeroAt q.params 1 3, ST_BAD_PARAM)] = true →
      exec (.monRead q) s = .next (reply s 0x0D02 q ST_OK (([MON_STAT m] ++ (List.range 20).map (fun k => MON_RES m k)).flatMap (fun a => bw (s.rd a))))) ∧
  -- MON_FW_SET (R497)
  (∀ (s : State) (q : Req),
      let p := q.params
      let v := w32 (u32 p 0)
      accepted s 0x0D03 q (p.length == 20) [(fwBad v || v &&& ~~~ 0xC000FEFE#32 != 0, ST_BAD_PARAM)] = true →
      exec (.monFwSet q) s = .next (reply (fwctrlWrite (forEach [0, 1, 2, 3] s (fun m s => s.wr (MON_FWCAL m) (w32 (u32 p (4 + 4 * m))))) v) 0x0D03 q ST_OK [])) ∧
  -- MON_PASS_START (R489)
  (∀ (s : State) (m : Nat),
      let c := monCore s m
      let v := s.rd (MON_CTRL m)
      let now := beatOrTick s
      m < 4 →
      monAwake s = true →
      bit v 31 = true →
      fastOn s (pairOf m) = false →
      (bit v 30 = true → now % 2 ^ fld v 21 17 = 0 ∧ c.startAt ≠ some now) →
      c.pass = none →
      exec (.monPassStart m) s = .next (
        let t := setMonCore s m { c with ctrl := v, pass := some 0, startAt := (if bit v 30 then some now else c.startAt) }
        if c.inj.isSome then t else resume t m)) ∧
  -- MON_ENTRY_DONE (R487)
  (∀ (s : State) (m : Nat) (codes : List Nat) (before : Bool) (x : Nat × Word × Word) (t : List (Nat × Word × Word)),
      let s' := if (monCore s m).flight = [] then moveOn s m true else s
      m < 4 →
      (monCore s' m).flight = x :: t →
      exec (.monEntryDone m codes before) s = .next (resultWord (setMonCore s' m { monCore s' m with flight := t }) m x codes (if before then s'.beat - 1 else s'.beat))) ∧
  -- INJECT_REQUEST (R492)
  (∀ (s : State) (m : Nat) (last : Bool),
      (m < 4 ∧ s.ext.mon.req.contains m ∧ monAwake s) →
      exec (.injectRequest m last) s = .next (injectRequest s m last)) ∧
  -- FAST_WATCH_SAMPLE (R495)
  (∀ (s : State) (m : Nat) (code : Nat) (skip : Nat),
      let p := pairOf m
      let i := Sparse.get (fun _ => 0) s.ext.mon.fwIdx p + skip
      m < 4 →
      fastOn s p = true →
      (monCore s (2 * p)).inj = none →
      (monCore s (2 * p + 1)).inj = none →
      monAwake s = true →
      i % 2 = m % 2 →
      exec (.fastWatchSample m code skip) s = .next (fastSample s m code skip))

/-- Power state, staggered start and reset rows: under the conditions of their rules each of them completes, with
exactly the next state that the rules give (R519, R502, R508, R504, R506, R507, R516, R510, R515, R512, R521, R580). -/
def Obligations.PowerAndResetCommandsComplete : Prop :=
  -- PWR_STATE_SET (R519)
  (∀ (s : State) (q : Req),
      accepted s 0x0E00 q (q.params.length == 16) (pwrChecks s q) = true →
      exec (.pwrStateSet q) s = .next (pwrEffect s q)) ∧
  -- PWR_TRANSITION_APPLY (R502)
  (∀ (s : State) (us : Nat) (c b : Nat),
      s.pwrAt = some (c, b) →
      b ≤ s.beat + 1 →
      s.haltDue = false →
      exec (.pwrTransitionApply us) s = .next (pwrApply s c b us)) ∧
  -- STATE_ENTRY (R508)
  (∀ (s : State) (us : Nat),
      (entryMay s) →
      exec (.stateEntry us) s = .next (stateEntry s us)) ∧
  -- STAGGER_STEP (R504)
  (∀ (s : State) (us : Nat) (retOk : Bool),
      let s' := skipAbsent 40 s
      stepMay s = true →
      s.haltDue = false →
      s'.stepNo < 40 →
      exec (.staggerStep us retOk) s = .next (staggerStep s' us retOk)) ∧
  -- STEP_FAIL (R506)
  (∀ (s : State) (us : Nat),
      let s' := skipAbsent 40 s
      (stepMay s ∧ s'.stepNo < 40) →
      exec (.stepFail us) s = .next (report ((stepStarted s' s'.stepNo 2 (stepTime s' s'.stepNo us)).setB PWR_STAT 2 true) 8 s'.stepNo)) ∧
  -- RUN_FIRST_BEAT (R507)
  (∀ (s : State) (us : Nat),
      fclkRuns s = true →
      s.firstRunAt = some (s.beat + 1) →
      waking s = true →
      exec (.runFirstBeat us) s = .next (wakeDone s us)) ∧
  -- RUN_FIRST_BEAT (R507)
  (∀ (s : State) (us : Nat),
      fclkRuns s = true →
      s.firstRunAt = some (s.beat + 1) →
      waking s = false →
      pwrState s = PS_BOOTING →
      exec (.runFirstBeat us) s = .next (fgAll { s with firstRunAt := none, bt := { s.bt with runNext := true } })) ∧
  -- PWR_STATUS (R519)
  (∀ (s : State) (q : Req),
      accepted s 0x0E01 q (q.params.length == 0) [] = true →
      exec (.pwrStatus q) s = .next (reply s 0x0E01 q ST_OK ([PWR_STAT, PWR_WAKECFG, PWR_WAKESRC, PWR_OWLTMR, PWR_RSTCAUSE, PWR_TEMP, PWR_BOOTTIME, PWR_TRANSTIME].flatMap
            (fun a => bw (s.rd a))))) ∧
  -- RESET (R516)
  (∀ (s : State) (q : Req),
      let p := q.params
      accepted s 0x0E02 q (p.length == 4) [(decide (2 < u8 p 0) || !zeroAt p 1 3, ST_BAD_PARAM), (decide (pwrState s ∉ [PS_RUN, PS_IDLE]), ST_STATE),
         (s.resetAt.isSome || inTransition s || restarting s, ST_BUSY)] = true →
      exec (.reset q) s = .next ({ s with resetAt := some (u8 p 0), pwrReply := some (0x0E02, q, 0) })) ∧
  -- WAKE_PIN (R510)
  (∀ (s : State),
      s.rb PWR_WAKECFG 0 = true →
      pwrState s = PS_ENTERING →
      exec .wakePin s = .next ({ s with wakeHeld := s.wakeHeld ||| 2 ^ 0 })) ∧
  -- WAKE_PIN (R510)
  (∀ (s : State),
      s.rb PWR_WAKECFG 0 = true →
      pwrState s = PS_STANDBY →
      wakeTo s ≠ PS_STANDBY →
      latchSet s = false →
      exec .wakePin s = .next (leaveBegin (s.orR PWR_WAKESRC (2 ^ 0)) 16 (wakeTo (s.orR PWR_WAKESRC (2 ^ 0))))) ∧
  -- WAKE_PIN (R510)
  (∀ (s : State),
      s.rb PWR_WAKECFG 0 = true →
      pwrState s = PS_HIBERNATE →
      exec .wakePin s = .next (wakeNow s (2 ^ 0))) ∧
  -- OWL_TIMER_EXPIRY (R510)
  (∀ (s : State),
      (decide (pwrState s ∈ [PS_STANDBY, PS_HIBERNATE]) && s.rd PWR_OWLTMR != 0) →
      exec .owlTimerExpiry s = .next (wake (s.wr PWR_OWLTMR 0) 2)) ∧
  -- PORST_N (R515)
  (∀ (s : State) (pgood : Bool),
      exec (.porstN pgood) s = .next (faultEdge s (porst s (if pgood then 2 else 1)))) ∧
  -- WARM_RST_N (R515)
  (∀ (s : State) (refin : Option Nat) (starts : List Nat),
      (¬(s.bt.porst || s.bt.off)) →
      exec (.warmRstN refin starts) s = .next (faultEdge s (bootEarly (warmReset s) refin starts))) ∧
  -- VDD_AON_LOSS (R515)
  (∀ (s : State),
      exec .vddAonLoss s = .next (faultEdge s ((cleared s).wr PWR_RSTCAUSE 1))) ∧
  -- COLD_BOOT (R512)
  (∀ (s : State) (refin : Option Nat) (starts : List Nat) (strap : Bool),
      (s.bt.porst) →
      exec (.coldBoot refin starts strap) s = .next (bootEarly (s.setB FLT_TEST 1 strap) refin starts)) ∧
  -- FIRMWARE_START (R512)
  (∀ (s : State) (idOk : Bool),
      (¬(s.bt.porst || s.bt.off || fwReady s || !bootedSlot s || decide (s.stepNo < 5))) →
      exec (.firmwareStart idOk) s = .next (
        if s.hibernated then fwStart (commandsLost s) idOk
        else
          let s := tdcBoot (bandsLoad (fwStart (memoryPowerOn s) idOk))
          let s := if s.fromWarm then s else { s with store := { s.store with repairs := [], hard := s.store.hard ++ s.store.repairs } }
          s.setF PWR_STAT 31 29 PS_BOOTING)) ∧
  -- VDD_CORE_LOW (R521)
  (∀ (s : State),
      exec .vddCoreLow s = .next (report s 9 0xFFFF)) ∧
  -- JUNCTION_THRESHOLD (R521)
  (∀ (s : State) (temp : Int),
      exec (.junctionThreshold temp) s = .next (junction s temp)) ∧
  -- THERMAL_SHUTDOWN (R580)
  (∀ (s : State),
      let n := keepLatch s (cleared s)
      let n := forEach [PWR_WAKECFG, PWR_OWLTMR, PWR_RSTCAUSE] n (fun a n => n.wr a (s.rd a))
      exec .thermalShutdown s = .next (faultEdge s { n with bt := { n.bt with porst := false, off := true }, faultLow := true }))

/-- Safety Net fault and trouble log rows: under the conditions of their rules each of them completes, with exactly the
next state that the rules give (R539, R536, R538, R532, R527, R526, R523, R528). -/
def Obligations.FaultCommandsComplete : Prop :=
  -- FLT_STATUS (R539)
  (∀ (s : State) (q : Req),
      accepted s 0x0E10 q (q.params.length == 0) [] = true →
      exec (.fltStatus q) s = .next (reply s 0x0E10 q ST_OK (regsBytes s ([FLT_CLSPEND, FLT_FIRST, FLT_LOGSTAT, FLT_LOGSEQ, FLT_ESCCNT, FLT_FATALSRC] ++
            (List.range 8).map FLT_STICKY ++ (List.range 8).map FLT_RAILBAD)))) ∧
  -- FLT_ACK (R539)
  (∀ (s : State) (q : Req),
      accepted s 0x0E11 q (q.params.length == 68) [(decide (16 ≤ u8 q.params 0) || !zeroAt q.params 1 3, ST_BAD_PARAM)] = true →
      exec (.fltAck q) s = .next (reply (ackEffect s q.params) 0x0E11 q ST_OK [])) ∧
  -- FLT_CONFIG (R539)
  (∀ (s : State) (q : Req),
      let src := u8 q.params 0
      let v := u8 q.params 1
      accepted s 0x0E12 q (q.params.length == 4) [(srcAbsent s src, ST_UNIT_ABSENT), (!zeroAt q.params 2 2 || cfgByteBad src v, ST_BAD_PARAM)] = true →
      exec (.fltConfig q) s = .next (reply (setSrcCfg s src v) 0x0E12 q ST_OK [])) ∧
  -- LOG_READ (R539)
  (∀ (s : State) (q : Req),
      let mx := u16 q.params 4
      let r := logFrom s (u32 q.params 0) mx
      accepted s 0x0E13 q (q.params.length == 8) [(decide (mx < 1 ∨ 253 < mx) || !zeroAt q.params 6 2, ST_BAD_PARAM)] = true →
      exec (.logRead q) s = .next (reply s 0x0E13 q ST_OK (b4 r.1 ++ b2 r.2.length ++ b2 0 ++ r.2.flatMap entryBytes))) ∧
  -- LOG_CLEAR (R536)
  (∀ (s : State) (q : Req),
      accepted s 0x0E14 q (q.params.length == 0) [] = true →
      exec (.logClear q) s = .next (reply (clearLog s) 0x0E14 q ST_OK [])) ∧
  -- FLT_INJECT (R538)
  (∀ (s : State) (q : Req),
      let p := q.params
      accepted s 0x0E15 q (p.length == 8) [(srcAbsent s (u8 p 0), ST_UNIT_ABSENT), (decide (3 < u8 p 1) || decide (1 < u32 p 4), ST_BAD_PARAM),
         (!s.rb FLT_TEST 0, ST_LOCKED)] = true →
      exec (.fltInject q) s = .next (reply (inject s (u8 p 0) (u8 p 1) (u16 p 2) (u32 p 4 == 1)) 0x0E15 q ST_OK [])) ∧
  -- FLT_RELEASE (R532)
  (∀ (s : State) (q : Req),
      let l := bitList 64 (u64 q.params 0)
      accepted s 0x0E16 q (q.params.length == 8) [(l.any (fun e => !enginePresent s e), ST_UNIT_ABSENT)] = true →
      exec (.fltRelease q) s = .next (reply (forEach l s (fun e s => releaseEng s e)) 0x0E16 q ST_OK [])) ∧
  -- FLT_INJECT_REGISTER (R538)
  (∀ (s : State) (v : Word),
      (s.rb FLT_TEST 0) →
      exec (.fltInjectRegister v) s = .next (inject s (fld v 7 0) (fld v 9 8) (fld v 31 16) (bit v 10))) ∧
  -- FLT_CLSPEND_WRITE (R527)
  (∀ (s : State) (v : Word),
      exec (.fltClspendWrite v) s = .next (ackClasses s v)) ∧
  -- FLT_STICKY_WRITE (R526)
  (∀ (s : State) (n : Nat) (v : Word),
      (n < 8) →
      exec (.fltStickyWrite n v) s = .next (clearSticky s n v)) ∧
  -- FLT_RAILBAD_WRITE (R523)
  (∀ (s : State) (n : Nat) (v : Word),
      (n < 8) →
      exec (.fltRailbadWrite n v) s = .next (s.w1c (FLT_RAILBAD n) 0xFFFFFFFF v)) ∧
  -- FAULT_REPORT (R528)
  (∀ (s : State) (src : Nat) (code : Nat) (cyc : Nat),
      let s' := { s with cyc := cyc % 512 }
      srcReserved src = false →
      srcAbsent s' src = false →
      s'.rb (FLT_RAILBAD (src / 32)) (src % 32) = false →
      exec (.faultReport src code cyc) s = .next (raise s' src code (srcCfg s' src % 4) false)) ∧
  -- RAIL_PAIR_FAIL (R523)
  (∀ (s : State) (src : Nat),
      (src < 256) →
      exec (.railPairFail src) s = .next (railFail s src))

/-- Secure boot, identity, session and attestation rows: under the conditions of their rules each of them completes,
with exactly the next state that the rules give (R560, R549, R552, R556, R557, R555, R548, R558, R547, R559). -/
def Obligations.SecurityCommandsComplete : Prop :=
  -- FW_STATUS (R560)
  (∀ (s : State) (q : Req),
      accepted s 0x0F00 q (q.params.length == 0) [] = true →
      exec (.fwStatus q) s = .next (reply s 0x0F00 q ST_OK (bw (s.rd SEC_BOOT) ++ bw (s.rd SEC_FUSE) ++ bw (s.rd SEC_UPDATE) ++ slotBytes s 0 ++ slotBytes s 1))) ∧
  -- FW_UPDATE (R549)
  (∀ (s : State) (q : Req),
      let p := q.params
      let h := fuHeader s p
      let c := imageCause s h (fuBody s p)
      accepted s 0x0F01 q (p.length == 16) [(fuAddr p % 4096 != 0 || !zeroAt p 12 4 || decide (fuLength p ≤ 4096) || decide (0x3000000 < fuLength p) ||
          !inGeneral s (fuAddr p) (fuLength p), ST_BAD_PARAM), (updating s, ST_BUSY)] = true →
      exec (.fwUpdate q) s = .next (
        match firstFail [(c == 1 || c == 2 || c == 3, ST_SIG_FAIL), (c == 4, ST_ROLLBACK),
              (!headerForm h || fuLength p != 4096 + hdLength h, ST_BAD_PARAM)] with
        | some st => deny s 0x0F01 q st
        | none => fuEffect s q)) ∧
  -- FW_UPDATE_END (R549)
  (∀ (s : State) (result : Nat) (u : Update),
      s.update = some u →
      exec (.fwUpdateEnd result) s = .next (updateEnd s u result)) ∧
  -- ATTEST (R552)
  (∀ (s : State) (q : Req) (w : At),
      let s' := setClock { s with cyc := w.cyc % 512 } w.tclk
      let m := quote s' q.params
      accepted s' 0x0F02 q (q.params.length == 32) [(s'.identBad, ST_HW_ERROR)] = true →
      exec (.attest q w) s = .next (reply s'.useFree 0x0F02 q ST_OK (m ++ signature s'.free m))) ∧
  -- KEY_EXCHANGE (R556)
  (∀ (s : State) (q : Req) (n : Nat),
      accepted s 0x0F03 q true [] = true →
      q.params.length = 780 →
      kxSlot s (kxOp q.params) = some n →
      exec (.keyExchange q) s = .next (
        match kxFail s q with
        | some st => kxRefuse s q st
        | none => kxOpen s q n)) ∧
  -- KEY_CLOSE (R557)
  (∀ (s : State) (q : Req),
      accepted s 0x0F04 q (q.params.length == 0) [(q.session == 0, ST_STATE)] = true →
      exec (.keyClose q) s = .next (closeSession (reply s 0x0F04 q ST_OK []) q.session)) ∧
  -- SESSION_IDLE_TIMEOUT (R557)
  (∀ (s : State) (n : Nat),
      ((s.session n).isSome) →
      exec (.sessionIdleTimeout n) s = .next (closeSession s n)) ∧
  -- OPERATOR_SET (R555)
  (∀ (s : State) (q : Req),
      let p := q.params
      accepted s 0x0F05 q (p.length == 392) [(decide (7 < u8 p 0) || u8 p 1 != 0, ST_BAD_PARAM)] = true →
      exec (.operatorSet q) s = .next (closeOf (setOperator (reply s 0x0F05 q ST_OK []) (u8 p 0) (operatorNew p)) (u8 p 0))) ∧
  -- IDENTITY_GET (R560)
  (∀ (s : State) (q : Req),
      accepted s 0x0F06 q (q.params.length == 0) [] = true →
      exec (.identityGet q) s = .next (reply s 0x0F06 q ST_OK (b4 Config.identCert.length ++ Config.identCert))) ∧
  -- ROLLBACK_COMMIT (R548)
  (∀ (s : State) (q : Req),
      accepted s 0x0F07 q (q.params.length == 0) [(updating s, ST_BUSY)] = true →
      exec (.rollbackCommit q) s = .next (reply (rollbackCommit s) 0x0F07 q ST_OK (b4 (max s.fuses.svn (min 64 s.fwSvn))))) ∧
  -- PPE_POLICY_SET (R558)
  (∀ (s : State) (q : Req),
      let n := u8 q.params 0
      accepted s 0x0F08 q (q.params.length == 4) [(decide (2 < n) || !zeroAt q.params 1 3, ST_BAD_PARAM), (n == 2 && s.fuses.ownerHash.isNone, ST_STATE)] = true →
      exec (.ppePolicySet q) s = .next (reply (policySet s n) 0x0F08 q ST_OK [])) ∧
  -- OWNER_KEY_SET (R547)
  (∀ (s : State) (q : Req),
      accepted s 0x0F09 q (q.params.length == 392) (okChecks s q.params) = true →
      exec (.ownerKeySet q) s = .next (reply (ownerKeySet s q.params) 0x0F09 q ST_OK [])) ∧
  -- TEST_UNLOCK_CHALLENGE (R559)
  (∀ (s : State) (q : Req),
      accepted s 0x0F0A q true [(tuLocked s, ST_LOCKED)] = true →
      q.params = [] →
      exec (.testUnlockChallenge q) s = .next (tuChallenge s q)) ∧
  -- TEST_UNLOCK (R559)
  (∀ (s : State) (q : Req) (c : BitVec 256),
      accepted s 0x0F0A q true [(tuLocked s, ST_LOCKED)] = true →
      q.params.length = 384 →
      s.challenge = some c →
      exec (.testUnlock q) s = .next (if tuOk s q.params then tuUnlock s q else deny s 0x0F0A q ST_SIG_FAIL))

/-- Mailbox, doorbell and hardware lock rows: under the conditions of their rules each of them completes, with exactly
the next state that the rules give (R78, R81, R71, R89, R83, R84, R85, R94, R95). -/
def Obligations.MailboxAndLockAccessesComplete : Prop :=
  -- MBX_HCDB_WRITE (R78)
  (∀ (s : State) (n : Nat) (v : Word),
      s.pci.d3 = false →
      n < 8 →
      fwReady s = true →
      hcFull s n = false →
      24 ≤ fld v 12 0 →
      fld v 12 0 ≤ 4096 →
      exec (.mbxHcdbWrite n v) s = .next (
        let t := (s.setF (MBX_HCSTAT n) 1 0 1).setF (MBX_HCSTAT n) 31 16 (hostEpoch s)
        { t with doorbells := t.doorbells ++ [(n, fld v 12 0)] })) ∧
  -- MAILBOX_DATA_WRITE (R81)
  (∀ (s : State) (m : Master) (addr : Nat) (bytes : List Byte),
      m = .host →
      s.pci.d3 = false →
      bytes ≠ [] →
      addr + bytes.length ≤ boxEnd addr →
      0x80000 ≤ addr →
      addr < 0x88000 →
      fwReady s = true →
      hcFull s ((addr - 0x80000) / 0x1000) = false →
      exec (.mailboxDataWrite m addr bytes) s = .next (s.mbxWrite addr bytes)) ∧
  -- MAILBOX_DATA_WRITE (R81)
  (∀ (s : State) (m : Master) (addr : Nat) (bytes : List Byte) (i : Nat),
      m = .mgmt i →
      bytes ≠ [] →
      addr + bytes.length ≤ boxEnd addr →
      0x88000 ≤ addr →
      addr < 0x90000 →
      fwReady s = true →
      hrFull s ((addr - 0x88000) / 0x1000) = false →
      exec (.mailboxDataWrite m addr bytes) s = .next (s.mbxWrite addr bytes)) ∧
  -- MAILBOX_DATA_WRITE (R81)
  (∀ (s : State) (m : Master) (addr : Nat) (bytes : List Byte),
      let e := (addr - 0x90000) / 0x1000
      bytes ≠ [] →
      addr + bytes.length ≤ boxEnd addr →
      0x90000 ≤ addr →
      addr < 0xD0000 →
      engFenced s e = false →
      0x800 ≤ (addr - 0x90000) % 0x1000 →
      m = .ppe e →
      outFull s e = false →
      exec (.mailboxDataWrite m addr bytes) s = .next (s.mbxWrite addr bytes)) ∧
  -- MAILBOX_DATA_WRITE (R81)
  (∀ (s : State) (m : Master) (addr : Nat) (bytes : List Byte),
      let e := (addr - 0x90000) / 0x1000
      m = .host →
      s.pci.d3 = false →
      bytes ≠ [] →
      addr + bytes.length ≤ boxEnd addr →
      0x90000 ≤ addr →
      addr < 0xD0000 →
      engFenced s e = false →
      (addr - 0x90000) % 0x1000 < 0x800 →
      inFull s e = false →
      exec (.mailboxDataWrite m addr bytes) s = .next (s.mbxWrite addr bytes)) ∧
  -- MAILBOX_DATA_WRITE (R81)
  (∀ (s : State) (m : Master) (addr : Nat) (bytes : List Byte) (i : Nat),
      let e := (addr - 0x90000) / 0x1000
      m = .mgmt i →
      bytes ≠ [] →
      addr + bytes.length ≤ boxEnd addr →
      0x90000 ≤ addr →
      addr < 0xD0000 →
      engFenced s e = false →
      (addr - 0x90000) % 0x1000 < 0x800 →
      inFull s e = false →
      exec (.mailboxDataWrite m addr bytes) s = .next (s.mbxWrite addr bytes)) ∧
  -- MAILBOX_TAKE (R78)
  (∀ (s : State) (n len : Nat),
      nextDoorbell s = some (n, len) →
      fwReady s = true →
      exec .mailboxTake s = .next (takeMailbox s n len)) ∧
  -- NETWORK_PACKET_TAKE (R71)
  (∀ (s : State) (p : Peer) (pk : List Byte) (t : State),
      let s' := { s with netQueue := s.netQueue.erase (p, pk) }
      let q := pkReq pk (.net p) 0
      s.netQueue.find? (netFree s) = some (p, pk) →
      fwReady s = true →
      headerCheck s' pk = some 0 →
      authOk s' pk true = true →
      replayCheck s' q.session q.seq.toNat = some t →
      exec .networkPacketTake s = .next (intoHand t (pkOpcode pk) q)) ∧
  -- MBX_HRACK_WRITE (R78)
  (∀ (s : State) (n : Nat),
      s.pci.d3 = false →
      (n < 8) →
      exec (.mbxHrackWrite n) s = .next (s.wr (MBX_HRSTAT n) 0)) ∧
  -- MAILBOX_TIMEOUT (R89)
  (∀ (s : State) (box : Nat),
      s.rf MBX_TMO 15 0 ≠ 0 →
      box < 8 →
      hcFull s box = true →
      exec (.mailboxTimeout box) s = .next (
        let t := { s with doorbells := s.doorbells.filter (fun d => d.1 != box) }
        let t := (t.setF (MBX_HCSTAT box) 1 0 0).setB (MBX_HCSTAT box) 4 true
        pairVector (mbxEvent t 2 box) box)) ∧
  -- MAILBOX_TIMEOUT (R89)
  (∀ (s : State) (box : Nat),
      let e := box - 16
      let host := s.rf (MBX_PESTAT e) 15 9 == 0
      let sent := s.bt.fwMsgs.filter (fun x => x.1 == e)
      let t := (setIn { s with bt := { s.bt with fwMsgs := s.bt.fwMsgs.filter (fun x => x.1 != e) } } e false).setB (MBX_PESTAT e) 6 true
      s.rf MBX_TMO 15 0 ≠ 0 →
      16 ≤ box →
      box < 80 →
      inFull s e = true →
      exec (.mailboxTimeout box) s = .next (forEach sent (if host then mbxEvent t 2 box else t) (fun x s => if s.inHand.contains x.2 then deny s x.2.op x.2.req ST_TIMEOUT else s))) ∧
  -- MBX_CLDB_WRITE (R83)
  (∀ (s : State) (m : Master) (c : Nat) (v : Word),
      let l := (bitList 8 v.toNat).map (fun j => 8 * c + j)
      (m = .host → s.pci.d3 = false) →
      c < 8 →
      clusterPresent s c = true →
      mayRing m = true →
      (∀ e ∈ l, engFenced s e = false ∧ inFull s e = false) →
      exec (.mbxCldbWrite m c v) s = .next (forEach l s (fun e s => ringEngine s m e))) ∧
  -- MBX_PESTAT_OUTACK (R84)
  (∀ (s : State) (m : Master) (e : Nat),
      (m = .host → s.pci.d3 = false) →
      (e < 64 ∧ enginePresent s e ∧ outFull s e) →
      exec (.mbxPestatOutack m e) s = .next (engineIrq (setOut s e false) e 1)) ∧
  -- MBX_COUNT_READ (R85)
  (∀ (s : State) (m : Master) (which : Nat),
      let a := if which = 0 then MBX_DROPCNT else if which = 1 then MBX_AUTHCNT else MBX_REPLAYCNT
      (m = .host → s.pci.d3 = false) →
      exec (.mbxCountRead m which) s = .next ((s.put (.readData m (s.rd a))).wr a 0)) ∧
  -- GLB_LOCK_READ (R94)
  (∀ (s : State) (n : Nat) (ms : List Master),
      let up := ms.filter (fun m => !(decide (m = .host) && s.pci.d3))
      n < 256 →
      exec (.glbLockRead n ms) s = .next (lockRead (if up = ms then s else unsupported s) n up)) ∧
  -- GLB_LOCK_RELEASE (R95)
  (∀ (s : State) (m : Master) (n : Nat) (v : Word),
      (m = .host → s.pci.d3 = false) →
      (lockable m ∧ lockOwner s n = some (masterId m) ∧ fld v 6 0 = masterId m) →
      exec (.glbLockRelease m n v) s = .next (setLock s n none))

/-- Register read and write rows: under the conditions of their rules each of them completes, with exactly the next
state that the rules give (R16, R24, R409, R136, R433, R586, R49, R17). -/
def Obligations.RegisterAccessesComplete : Prop :=
  -- PAIR_LO_READ (R16)
  (∀ (s : State) (m : Master) (addr : Span) (tclk : Nat),
      (m = .host → s.pci.d3 = false) →
      addr.base = TIM_RAW_LO →
      addr.len = 4 →
      exec (.pairLoRead m addr tclk) s = .next (readReg s m TIM_RAW_LO tclk)) ∧
  -- PAIR_LO_READ (R16)
  (∀ (s : State) (m : Master) (addr : Span) (tclk : Nat),
      (m = .host → s.pci.d3 = false) →
      addr.base % 4 = 0 →
      addr.len = 4 →
      inWindow addr.base = false →
      (0x1710000 ≤ addr.base → 0x1720000 ≤ addr.base) →
      exec (.pairLoRead m addr tclk) s = .next (readReg s m addr.base tclk)) ∧
  -- PAIR_LO_READ (R16)
  (∀ (s : State) (m : Master) (addr : Span) (tclk : Nat),
      (m = .host → s.pci.d3 = false) →
      addr.base % 4 = 0 →
      addr.len = 4 →
      0x1710000 ≤ addr.base →
      addr.base < 0x1720000 →
      exec (.pairLoRead m addr tclk) s = .next (s.put (.readData m (maskWord s (addr.base - 0x1710000))))) ∧
  -- PAIR_LO_READ (R16)
  (∀ (s : State) (m : Master) (addr : Span) (tclk : Nat),
      (m = .host → s.pci.d3 = false) →
      inWindow addr.base = true →
      windowOk s m addr.len s.pci.mrrs = true →
      exec (.pairLoRead m addr tclk) s = .next (windowRead s m addr.base addr.len)) ∧
  -- GLB_BEAT_LO_READ (R24)
  (∀ (s : State) (m : Master) (cyc : Nat),
      (m = .host → s.pci.d3 = false) →
      exec (.glbBeatLoRead m cyc) s = .next (beatRead s m (if fclkRuns s then cyc % 512 else s.cyc))) ∧
  -- TIM_NOW_LO_READ (R409)
  (∀ (s : State) (m : Master) (tclk : Nat),
      (m = .host → s.pci.d3 = false) →
      exec (.timNowLoRead m tclk) s = .next (nowRead s m tclk)) ∧
  -- CNV_CALTIME_LO_READ (R136)
  (∀ (s : State) (m : Master) (core : Nat),
      (core < 32) →
      exec (.cnvCaltimeLoRead m core) s = .next (onBar s m (calRead s m core))) ∧
  -- TDC_CHSTAMP0_READ (R433)
  (∀ (s : State) (m : Master) (ch : Nat),
      (ch < 17) →
      exec (.tdcChstamp0Read m ch) s = .next (onBar s m (stampRead s m ch))) ∧
  -- GLB_SWEVT_WRITE (R586)
  (∀ (s : State) (m : Master) (v : Word),
      (m = .host → s.pci.d3 = false) →
      512 ≤ fld v 9 0 →
      exec (.glbSwevtWrite m v) s = .next (fire s (fld v 9 0))) ∧
  -- SHADOW_REGISTER_WRITE (R49)
  (∀ (s : State) (m : Master) (addr : Nat) (v : Word) (r : RegRow) (l : List Nat) (g : Nat),
      (m = .host → s.pci.d3 = false) →
      regAt addr = some (r, l) →
      groupOf addr = some g →
      addrAbsent s addr = false →
      groupLocked s g = false →
      exec (.shadowRegisterWrite m addr v) s = .next (fieldsWrite s addr r v)) ∧
  -- REGISTER_WRITE (R17)
  (∀ (s : State) (m : Master) (addr : Nat) (bytes : List Byte),
      (m = .host → s.pci.d3 = false) →
      inWindow addr = false →
      addr % 4 = 0 →
      bytes.length = 4 →
      exec (.registerWrite m addr bytes) s = .next (registerWrite s m addr (w32 (u32 bytes 0)))) ∧
  -- REGISTER_WRITE (R17)
  (∀ (s : State) (m : Master) (addr : Nat) (bytes : List Byte),
      (m = .host → s.pci.d3 = false) →
      inWindow addr = false →
      addr % 4 = 0 →
      bytes.length = 8 →
      exec (.registerWrite m addr bytes) s = .next (registerWrite (registerWrite s m addr (w32 (u32 bytes 0))) m (addr + 4) (w32 (u32 bytes 4)))) ∧
  -- REGISTER_WRITE (R17)
  (∀ (s : State) (m : Master) (addr : Nat) (bytes : List Byte),
      (m = .host → s.pci.d3 = false) →
      inWindow addr = true →
      windowOk s m bytes.length s.pci.mps = true →
      exec (.registerWrite m addr bytes) s = .next (windowWrite s m addr bytes))

end
end

