-- ==== Sys2Proof/Laws/Sparse.lean ====
section
/-! SUPPORT. The laws of sparse tables and of the byte memories built from them: read after write, writes leave every other
key alone, and every operation keeps the canonical form. -/
namespace Sys2Proof.Machine.Sparse

variable {α : Type}

theorem above_mono {j k : Nat} {m : List (Nat × α)} (h : j ≤ k) (ha : above k m = true) : above j m = true := by
  simp only [above, List.all_eq_true, decide_eq_true_eq] at ha ⊢
  intro p hp
  exact Nat.lt_of_le_of_lt h (ha p hp)

theorem above_cons {k a : Nat} {v : α} {m : List (Nat × α)} : above k ((a, v) :: m) = (decide (k < a) && above k m) := by
  simp [above]

theorem above_filter {k : Nat} {m : List (Nat × α)} (p : Nat × α → Bool) (h : above k m = true) :
    above k (m.filter p) = true := by
  simp only [above, List.all_eq_true, List.mem_filter] at h ⊢
  exact fun x hx => h x hx.1

/-- Below all keys of a table every key reads as its default. -/
theorem get_above {d : Nat → α} {k : Nat} : ∀ {m : List (Nat × α)}, above k m = true → get d m k = d k
  | [], _ => rfl
  | (a, v) :: t, h => by
    simp only [above_cons, Bool.and_eq_true, decide_eq_true_eq] at h
    simp only [get]
    rw [if_neg (by omega), get_above h.2]

theorem get_ins {d : Nat → α} (k : Nat) (v : α) (j : Nat) :
    ∀ m : List (Nat × α), get d (ins m k v) j = if j = k then v else get d m j
  | [] => by
    by_cases h : j = k
    · simp [ins, get, h]
    · simp [ins, get, h, Ne.symm h]
  | (a, w) :: t => by
    have ih := get_ins (d := d) k v j t
    by_cases hak : a = k
    · subst hak
      by_cases haj : a = j
      · simp [ins, get, haj]
      · simp [ins, get, haj, Ne.symm haj]
    · by_cases hka : k < a
      · by_cases hjk : j = k
        · simp [ins, get, hak, hka, hjk]
        · simp [ins, get, hak, hka, hjk, Ne.symm hjk]
      · by_cases haj : a = j
        · subst haj
          simp [ins, get, hak, hka]
        · simp [ins, get, hak, hka, haj, ih]

theorem get_del {d : Nat → α} (k j : Nat) : ∀ m : List (Nat × α), get d (del m k) j = if j = k then d k else get d m j
  | [] => by by_cases h : j = k <;> simp [del, get, h]
  | (a, w) :: t => by
    have ih := get_del (d := d) k j t
    by_cases hjk : j = k <;> by_cases hak : a = k <;> by_cases haj : a = j <;> simp_all [del, get]

/-- Read after write. -/
theorem get_set [DecidableEq α] {d : Nat → α} (m : List (Nat × α)) (k : Nat) (v : α) (j : Nat) :
    get d (set d m k v) j = if j = k then v else get d m j := by
  simp only [set]
  split
  · rename_i h; rw [get_del]; split <;> simp_all
  · rw [get_ins]

theorem above_ins {a k : Nat} {v : α} : ∀ {m : List (Nat × α)}, a < k → above a m = true → above a (ins m k v) = true
  | [], h, _ => by simp [ins, above, h]
  | (b, w) :: t, h, hm => by
    simp only [above_cons, Bool.and_eq_true, decide_eq_true_eq] at hm
    simp only [ins]
    split
    · simp [above_cons, h, hm.2]
    · split
      · simp [above_cons, h, hm]
      · simp [above_cons, hm.1, above_ins h hm.2]

theorem wf_filter [DecidableEq α] {d : Nat → α} (p : Nat × α → Bool) :
    ∀ {m : List (Nat × α)}, wf d m = true → wf d (m.filter p) = true
  | [], _ => rfl
  | (a, v) :: t, h => by
    simp only [wf, Bool.and_eq_true] at h
    simp only [List.filter_cons]
    split
    · simp only [wf, Bool.and_eq_true]
      exact ⟨⟨above_filter p h.1.1, h.1.2⟩, wf_filter p h.2⟩
    · exact wf_filter p h.2

theorem wf_ins [DecidableEq α] {d : Nat → α} {k : Nat} {v : α} (hv : v ≠ d k) :
    ∀ {m : List (Nat × α)}, wf d m = true → wf d (ins m k v) = true
  | [], _ => by simp [ins, wf, above, hv]
  | (a, w) :: t, h => by
    simp only [wf, Bool.and_eq_true] at h
    simp only [ins]
    split
    · rename_i e; subst e; simp [wf, h, hv]
    · split
      · rename_i hlt
        simp only [wf, Bool.and_eq_true]
        exact ⟨⟨by simp [above_cons, hlt, above_mono (Nat.le_of_lt hlt) h.1.1], by simp [hv]⟩, h.1, h.2⟩
      · simp only [wf, Bool.and_eq_true]
        exact ⟨⟨above_ins (by omega) h.1.1, h.1.2⟩, wf_ins hv h.2⟩

/-- A write keeps the canonical form. -/
theorem wf_set [DecidableEq α] {d : Nat → α} {m : List (Nat × α)} (k : Nat) (v : α) (h : wf d m = true) :
    wf d (set d m k v) = true := by
  simp only [set]
  split
  · exact wf_filter _ h
  · rename_i hv; exact wf_ins hv h

/-- Canonical tables that read alike are the same table. -/
theorem wf_ext [DecidableEq α] {d : Nat → α} : ∀ {m n : List (Nat × α)}, wf d m = true → wf d n = true →
    (∀ k, get d m k = get d n k) → m = n
  | [], [], _, _, _ => rfl
  | [], (a, v) :: t, _, hn, e => by
    have := e a
    simp [get, wf] at this hn
    exact absurd this.symm hn.1.2
  | (a, v) :: t, [], hm, _, e => by
    have := e a
    simp [get, wf] at this hm
    exact absurd this hm.1.2
  | (a, v) :: t, (b, w) :: u, hm, hn, e => by
    simp only [wf, Bool.and_eq_true, decide_eq_true_eq] at hm hn
    have hab : a = b := by
      rcases Nat.lt_trichotomy a b with h | h | h
      · have := e a
        rw [get_above (m := (b, w) :: u) (by simp [above_cons, h, above_mono (Nat.le_of_lt h) hn.1.1])] at this
        simp [get] at this
        exact absurd this hm.1.2
      · exact h
      · have := e b
        rw [get_above (m := (a, v) :: t) (by simp [above_cons, h, above_mono (Nat.le_of_lt h) hm.1.1])] at this
        simp [get] at this
        exact absurd this.symm hn.1.2
    subst hab
    have hv : v = w := by simpa [get] using e a
    subst hv
    have : t = u := wf_ext hm.2 hn.2 (fun k => by
      by_cases hk : a = k
      · subst hk; rw [get_above hm.1.1, get_above hn.1.1]
      · simpa [get, hk] using e k)
    rw [this]

end Sys2Proof.Machine.Sparse

namespace Sys2Proof.Machine

theorem Mem.get_set (m : List Host.Cell) (a : Nat) (b : Byte) (j : Nat) :
    Mem.get (Mem.set m a b) j = if j = a then b else Mem.get m j := Sparse.get_set m a b j

theorem Memory.wf_set {m : List Host.Cell} (a : Nat) (b : Byte) (h : Memory.wf m = true) :
    Memory.wf (Mem.set m a b) = true := Sparse.wf_set a b h

theorem Memory.wf_write : ∀ (bs : List Byte) {m : List Host.Cell} (a : Nat), Memory.wf m = true →
    Memory.wf (Mem.write m a bs) = true
  | [], _, _, h => h
  | b :: t, _, a, h => Memory.wf_write t (a + 1) (Memory.wf_set a b h)

theorem Memory.wf_writeKept (ex : List Nat) : ∀ (bs : List Byte) {m : List Host.Cell} (a : Nat), Memory.wf m = true →
    Memory.wf (writeKept ex m a bs) = true
  | [], _, _, h => h
  | b :: t, m, a, h => by
    simp only [writeKept]
    split
    · exact Memory.wf_writeKept ex t (a + 1) h
    · exact Memory.wf_writeKept ex t (a + 1) (Memory.wf_set a b h)

/-- A write leaves every byte outside its range alone. -/
theorem Mem.get_write_of_lt : ∀ (bs : List Byte) (m : List Host.Cell) (a j : Nat), j < a →
    Mem.get (Mem.write m a bs) j = Mem.get m j
  | [], _, _, _, _ => rfl
  | b :: t, m, a, j, h => by
    simp only [Mem.write]
    rw [Mem.get_write_of_lt t _ (a + 1) j (by omega), Mem.get_set, if_neg (by omega)]

theorem Mem.get_write : ∀ (bs : List Byte) (m : List Host.Cell) (a j : Nat),
    Mem.get (Mem.write m a bs) j = if a ≤ j ∧ j < a + bs.length then bs.getD (j - a) 0 else Mem.get m j
  | [], _, a, j => by
    simp only [Mem.write, List.length_nil]
    rw [if_neg (by omega)]
  | b :: t, m, a, j => by
    simp only [Mem.write]
    rw [Mem.get_write t _ (a + 1) j, Mem.get_set]
    by_cases h0 : j = a
    · subst h0
      rw [if_neg (by omega), if_pos rfl, if_pos ⟨Nat.le_refl _, by simp⟩]
      simp
    · by_cases h1 : a + 1 ≤ j ∧ j < a + 1 + t.length
      · rw [if_pos h1, if_pos (by simp only [List.length_cons]; omega)]
        have : j - a = (j - (a + 1)) + 1 := by omega
        rw [this]
        simp
      · rw [if_neg h1, if_neg h0, if_neg (by simp only [List.length_cons]; omega)]

/-- What a read of `n` bytes returns, byte by byte. -/
theorem Mem.read_length : ∀ (n : Nat) (m : List Host.Cell) (a : Nat), (Mem.read m a n).length = n
  | 0, _, _ => rfl
  | n + 1, m, a => by simp [Mem.read, Mem.read_length n]

theorem Mem.read_congr {m n : List Host.Cell} : ∀ (k a : Nat), (∀ j, a ≤ j → j < a + k → Mem.get m j = Mem.get n j) →
    Mem.read m a k = Mem.read n a k
  | 0, _, _ => rfl
  | k + 1, a, h => by
    simp only [Mem.read]
    rw [h a (Nat.le_refl _) (by omega), Mem.read_congr k (a + 1) (fun j h1 h2 => h j (by omega) (by omega))]

end Sys2Proof.Machine
end

