-- ==== Sys2Proof/Laws/State.lean ====
section
/-! SUPPORT. The laws of State: for every update of one table, every other field is as before (one rule per field, in one
statement per update, each true by rfl), and what a register reads after it. Cited by simp, so that no proof unfolds a
record update. -/
namespace Sys2Proof.Machine
variable (s : State)

/-- A register reads what was last written to it, and every other one what it read before. -/
@[simp] theorem State.rd_wr (a b : Nat) (v : Word) : (s.wr a v).rd b = if b = a then v else s.rd b := by
  simp [State.rd, State.wr, Sparse.get_set]
@[simp] theorem State.rdA_wr (a b : Nat) (v : Word) : (s.wr a v).rdA b = s.rdA b := rfl
@[simp] theorem State.rdB_wr (a b : Nat) (v : Word) : (s.wr a v).rdB b = s.rdB b := rfl
@[simp] theorem State.rdA_wrA (a b : Nat) (v : Word) : (s.wrA a v).rdA b = if b = a then v else s.rdA b := by
  simp [State.rdA, State.wrA, Sparse.get_set]
@[simp] theorem State.rd_wrA (a b : Nat) (v : Word) : (s.wrA a v).rd b = s.rd b := rfl
@[simp] theorem State.rdB_wrA (a b : Nat) (v : Word) : (s.wrA a v).rdB b = s.rdB b := rfl

/-- The updates of a register's fields are writes of the whole register. -/
theorem State.setF_eq (a hi lo x : Nat) : s.setF a hi lo x = s.wr a (setFld (s.rd a) hi lo x) := rfl
theorem State.setB_eq (a i : Nat) (b : Bool) : s.setB a i b = s.wr a (putBit (s.rd a) i b) := rfl
theorem State.orR_eq (a m : Nat) : s.orR a m = s.wr a (s.rd a ||| w32 m) := rfl
theorem State.addR_eq (a n : Nat) : s.addR a n = s.wr a (s.rd a + w32 n) := rfl
theorem State.addSat_eq (a m n : Nat) : s.addSat a m n = s.wr a (w32 (min m (s.rdN a + n))) := rfl
theorem State.w1c_eq (a : Nat) (m v : Word) : s.w1c a m v = s.wr a (s.rd a &&& ~~~ (v &&& m)) := rfl
theorem State.wr64_eq (a v : Nat) : s.wr64 a v = (s.wr a (w32 v)).wr (a + 4) (w32 (v / 2 ^ 32)) := rfl

@[simp] theorem State.wr_frame (a : Nat) (v : Word) :
    (s.wr a v).pending = s.pending ∧ (s.wr a v).out = s.out ∧ (s.wr a v).free = s.free ∧
    (s.wr a v).active = s.active ∧ (s.wr a v).inBeat = s.inBeat ∧ (s.wr a v).latch = s.latch ∧
    (s.wr a v).latched = s.latched ∧ (s.wr a v).locks = s.locks ∧ (s.wr a v).mbx = s.mbx ∧ (s.wr a v).hbm = s.hbm ∧
    (s.wr a v).sram = s.sram ∧ (s.wr a v).msix = s.msix ∧ (s.wr a v).pba = s.pba ∧ (s.wr a v).fuses = s.fuses ∧
    (s.wr a v).store = s.store ∧ (s.wr a v).flash = s.flash ∧ (s.wr a v).devId = s.devId ∧
    (s.wr a v).devIdRec = s.devIdRec ∧ (s.wr a v).fwVersion = s.fwVersion ∧ (s.wr a v).fwSvn = s.fwSvn ∧
    (s.wr a v).doorbells = s.doorbells ∧ (s.wr a v).inHand = s.inHand ∧ (s.wr a v).netQueue = s.netQueue ∧
    (s.wr a v).tick = s.tick ∧ (s.wr a v).tickets = s.tickets ∧ (s.wr a v).past = s.past ∧
    (s.wr a v).ticketNo = s.ticketNo ∧ (s.wr a v).locked = s.locked ∧ (s.wr a v).profile = s.profile ∧
    (s.wr a v).profileBeat = s.profileBeat ∧ (s.wr a v).layoutDense = s.layoutDense ∧
    (s.wr a v).coolMode = s.coolMode ∧ (s.wr a v).restart = s.restart ∧ (s.wr a v).running = s.running ∧
    (s.wr a v).runBeat = s.runBeat ∧ (s.wr a v).haltDue = s.haltDue ∧ (s.wr a v).cfgBeat = s.cfgBeat ∧
    (s.wr a v).evtPend = s.evtPend ∧ (s.wr a v).cores = s.cores ∧ (s.wr a v).bypBeat = s.bypBeat ∧
    (s.wr a v).fgStart = s.fgStart ∧ (s.wr a v).paths = s.paths ∧ (s.wr a v).lanes = s.lanes ∧
    (s.wr a v).winLoads = s.winLoads ∧ (s.wr a v).slcRam = s.slcRam ∧ (s.wr a v).prods = s.prods ∧
    (s.wr a v).specs = s.specs ∧ (s.wr a v).maskRes = s.maskRes ∧ (s.wr a v).gapNow = s.gapNow ∧
    (s.wr a v).masks = s.masks ∧ (s.wr a v).traceClr = s.traceClr ∧ (s.wr a v).beatTimes = s.beatTimes ∧
    (s.wr a v).emits = s.emits ∧ (s.wr a v).strShadow = s.strShadow ∧ (s.wr a v).strActive = s.strActive ∧
    (s.wr a v).streams = s.streams ∧ (s.wr a v).hconsLo = s.hconsLo ∧ (s.wr a v).volumes = s.volumes ∧
    (s.wr a v).pci = s.pci ∧ (s.wr a v).drives = s.drives ∧ (s.wr a v).nvCmds = s.nvCmds ∧ (s.wr a v).ifs = s.ifs ∧
    (s.wr a v).filters = s.filters ∧ (s.wr a v).hops = s.hops ∧ (s.wr a v).nbr = s.nbr ∧ (s.wr a v).txCtx = s.txCtx ∧
    (s.wr a v).txDue = s.txDue ∧ (s.wr a v).log = s.log ∧ (s.wr a v).lastCls = s.lastCls ∧
    (s.wr a v).isolated = s.isolated ∧ (s.wr a v).faultLow = s.faultLow ∧ (s.wr a v).stepNo = s.stepNo ∧
    (s.wr a v).wakeHeld = s.wakeHeld ∧ (s.wr a v).pwrReply = s.pwrReply ∧ (s.wr a v).pwrAt = s.pwrAt ∧
    (s.wr a v).resetAt = s.resetAt ∧ (s.wr a v).hibernated = s.hibernated ∧ (s.wr a v).fromWarm = s.fromWarm ∧
    (s.wr a v).firstRunAt = s.firstRunAt ∧ (s.wr a v).sessions = s.sessions ∧ (s.wr a v).sessNo = s.sessNo ∧
    (s.wr a v).update = s.update ∧ (s.wr a v).challenge = s.challenge ∧ (s.wr a v).identBad = s.identBad ∧
    (s.wr a v).ownerRunning = s.ownerRunning ∧ (s.wr a v).cyc = s.cyc ∧ (s.wr a v).ppe = s.ppe ∧
    (s.wr a v).dma = s.dma ∧ (s.wr a v).wakeReq = s.wakeReq ∧ (s.wr a v).units = s.units ∧
    (s.wr a v).conds = s.conds ∧ (s.wr a v).armReq = s.armReq ∧ (s.wr a v).disReq = s.disReq ∧
    (s.wr a v).forceReq = s.forceReq ∧ (s.wr a v).pulses = s.pulses ∧ (s.wr a v).patWords = s.patWords ∧
    (s.wr a v).patHist = s.patHist ∧ (s.wr a v).ppeTrig = s.ppeTrig ∧ (s.wr a v).figures = s.figures ∧
    (s.wr a v).cars = s.cars ∧ (s.wr a v).carIn = s.carIn ∧ (s.wr a v).timeJump = s.timeJump ∧
    (s.wr a v).denCells = s.denCells ∧ (s.wr a v).den = s.den ∧ (s.wr a v).denWait = s.denWait ∧
    (s.wr a v).denRun = s.denRun ∧ (s.wr a v).denMarks = s.denMarks ∧ (s.wr a v).denF = s.denF ∧
    (s.wr a v).denSat = s.denSat ∧ (s.wr a v).rgnPast = s.rgnPast ∧ (s.wr a v).corr = s.corr ∧
    (s.wr a v).corrNext = s.corrNext ∧ (s.wr a v).corrDump = s.corrDump ∧ (s.wr a v).corrF = s.corrF ∧
    (s.wr a v).time = s.time ∧ (s.wr a v).vecPend = s.vecPend ∧ (s.wr a v).ptp = s.ptp ∧ (s.wr a v).mem = s.mem ∧
    (s.wr a v).tokens = s.tokens ∧ (s.wr a v).echoes = s.echoes ∧ (s.wr a v).pm = s.pm ∧ (s.wr a v).bt = s.bt ∧
    (s.wr a v).ext = s.ext :=
  by and_intros <;> first | rfl | exact fun _ => rfl

@[simp] theorem State.wrA_frame (a : Nat) (v : Word) :
    (s.wrA a v).pending = s.pending ∧ (s.wrA a v).out = s.out ∧ (s.wrA a v).free = s.free ∧
    (s.wrA a v).regs = s.regs ∧ (s.wrA a v).inBeat = s.inBeat ∧ (s.wrA a v).latch = s.latch ∧
    (s.wrA a v).latched = s.latched ∧ (s.wrA a v).locks = s.locks ∧ (s.wrA a v).mbx = s.mbx ∧
    (s.wrA a v).hbm = s.hbm ∧ (s.wrA a v).sram = s.sram ∧ (s.wrA a v).msix = s.msix ∧ (s.wrA a v).pba = s.pba ∧
    (s.wrA a v).fuses = s.fuses ∧ (s.wrA a v).store = s.store ∧ (s.wrA a v).flash = s.flash ∧
    (s.wrA a v).devId = s.devId ∧ (s.wrA a v).devIdRec = s.devIdRec ∧ (s.wrA a v).fwVersion = s.fwVersion ∧
    (s.wrA a v).fwSvn = s.fwSvn ∧ (s.wrA a v).doorbells = s.doorbells ∧ (s.wrA a v).inHand = s.inHand ∧
    (s.wrA a v).netQueue = s.netQueue ∧ (s.wrA a v).tick = s.tick ∧ (s.wrA a v).tickets = s.tickets ∧
    (s.wrA a v).past = s.past ∧ (s.wrA a v).ticketNo = s.ticketNo ∧ (s.wrA a v).locked = s.locked ∧
    (s.wrA a v).profile = s.profile ∧ (s.wrA a v).profileBeat = s.profileBeat ∧
    (s.wrA a v).layoutDense = s.layoutDense ∧ (s.wrA a v).coolMode = s.coolMode ∧ (s.wrA a v).restart = s.restart ∧
    (s.wrA a v).running = s.running ∧ (s.wrA a v).runBeat = s.runBeat ∧ (s.wrA a v).haltDue = s.haltDue ∧
    (s.wrA a v).cfgBeat = s.cfgBeat ∧ (s.wrA a v).evtPend = s.evtPend ∧ (s.wrA a v).cores = s.cores ∧
    (s.wrA a v).bypBeat = s.bypBeat ∧ (s.wrA a v).fgStart = s.fgStart ∧ (s.wrA a v).paths = s.paths ∧
    (s.wrA a v).lanes = s.lanes ∧ (s.wrA a v).winLoads = s.winLoads ∧ (s.wrA a v).slcRam = s.slcRam ∧
    (s.wrA a v).prods = s.prods ∧ (s.wrA a v).specs = s.specs ∧ (s.wrA a v).maskRes = s.maskRes ∧
    (s.wrA a v).gapNow = s.gapNow ∧ (s.wrA a v).masks = s.masks ∧ (s.wrA a v).traceClr = s.traceClr ∧
    (s.wrA a v).beatTimes = s.beatTimes ∧ (s.wrA a v).emits = s.emits ∧ (s.wrA a v).strShadow = s.strShadow ∧
    (s.wrA a v).strActive = s.strActive ∧ (s.wrA a v).streams = s.streams ∧ (s.wrA a v).hconsLo = s.hconsLo ∧
    (s.wrA a v).volumes = s.volumes ∧ (s.wrA a v).pci = s.pci ∧ (s.wrA a v).drives = s.drives ∧
    (s.wrA a v).nvCmds = s.nvCmds ∧ (s.wrA a v).ifs = s.ifs ∧ (s.wrA a v).filters = s.filters ∧
    (s.wrA a v).hops = s.hops ∧ (s.wrA a v).nbr = s.nbr ∧ (s.wrA a v).txCtx = s.txCtx ∧ (s.wrA a v).txDue = s.txDue ∧
    (s.wrA a v).log = s.log ∧ (s.wrA a v).lastCls = s.lastCls ∧ (s.wrA a v).isolated = s.isolated ∧
    (s.wrA a v).faultLow = s.faultLow ∧ (s.wrA a v).stepNo = s.stepNo ∧ (s.wrA a v).wakeHeld = s.wakeHeld ∧
    (s.wrA a v).pwrReply = s.pwrReply ∧ (s.wrA a v).pwrAt = s.pwrAt ∧ (s.wrA a v).resetAt = s.resetAt ∧
    (s.wrA a v).hibernated = s.hibernated ∧ (s.wrA a v).fromWarm = s.fromWarm ∧
    (s.wrA a v).firstRunAt = s.firstRunAt ∧ (s.wrA a v).sessions = s.sessions ∧ (s.wrA a v).sessNo = s.sessNo ∧
    (s.wrA a v).update = s.update ∧ (s.wrA a v).challenge = s.challenge ∧ (s.wrA a v).identBad = s.identBad ∧
    (s.wrA a v).ownerRunning = s.ownerRunning ∧ (s.wrA a v).cyc = s.cyc ∧ (s.wrA a v).ppe = s.ppe ∧
    (s.wrA a v).dma = s.dma ∧ (s.wrA a v).wakeReq = s.wakeReq ∧ (s.wrA a v).units = s.units ∧
    (s.wrA a v).conds = s.conds ∧ (s.wrA a v).armReq = s.armReq ∧ (s.wrA a v).disReq = s.disReq ∧
    (s.wrA a v).forceReq = s.forceReq ∧ (s.wrA a v).pulses = s.pulses ∧ (s.wrA a v).patWords = s.patWords ∧
    (s.wrA a v).patHist = s.patHist ∧ (s.wrA a v).ppeTrig = s.ppeTrig ∧ (s.wrA a v).figures = s.figures ∧
    (s.wrA a v).cars = s.cars ∧ (s.wrA a v).carIn = s.carIn ∧ (s.wrA a v).timeJump = s.timeJump ∧
    (s.wrA a v).denCells = s.denCells ∧ (s.wrA a v).den = s.den ∧ (s.wrA a v).denWait = s.denWait ∧
    (s.wrA a v).denRun = s.denRun ∧ (s.wrA a v).denMarks = s.denMarks ∧ (s.wrA a v).denF = s.denF ∧
    (s.wrA a v).denSat = s.denSat ∧ (s.wrA a v).rgnPast = s.rgnPast ∧ (s.wrA a v).corr = s.corr ∧
    (s.wrA a v).corrNext = s.corrNext ∧ (s.wrA a v).corrDump = s.corrDump ∧ (s.wrA a v).corrF = s.corrF ∧
    (s.wrA a v).time = s.time ∧ (s.wrA a v).vecPend = s.vecPend ∧ (s.wrA a v).ptp = s.ptp ∧ (s.wrA a v).mem = s.mem ∧
    (s.wrA a v).tokens = s.tokens ∧ (s.wrA a v).echoes = s.echoes ∧ (s.wrA a v).pm = s.pm ∧ (s.wrA a v).bt = s.bt ∧
    (s.wrA a v).ext = s.ext ∧ (∀ r, (s.wrA a v).rd r = s.rd r) :=
  by and_intros <;> first | rfl | exact fun _ => rfl

@[simp] theorem State.put_frame (o : Out) :
    (s.put o).pending = s.pending ∧ (s.put o).free = s.free ∧ (s.put o).regs = s.regs ∧ (s.put o).active = s.active ∧
    (s.put o).inBeat = s.inBeat ∧ (s.put o).latch = s.latch ∧ (s.put o).latched = s.latched ∧
    (s.put o).locks = s.locks ∧ (s.put o).mbx = s.mbx ∧ (s.put o).hbm = s.hbm ∧ (s.put o).sram = s.sram ∧
    (s.put o).msix = s.msix ∧ (s.put o).pba = s.pba ∧ (s.put o).fuses = s.fuses ∧ (s.put o).store = s.store ∧
    (s.put o).flash = s.flash ∧ (s.put o).devId = s.devId ∧ (s.put o).devIdRec = s.devIdRec ∧
    (s.put o).fwVersion = s.fwVersion ∧ (s.put o).fwSvn = s.fwSvn ∧ (s.put o).doorbells = s.doorbells ∧
    (s.put o).inHand = s.inHand ∧ (s.put o).netQueue = s.netQueue ∧ (s.put o).tick = s.tick ∧
    (s.put o).tickets = s.tickets ∧ (s.put o).past = s.past ∧ (s.put o).ticketNo = s.ticketNo ∧
    (s.put o).locked = s.locked ∧ (s.put o).profile = s.profile ∧ (s.put o).profileBeat = s.profileBeat ∧
    (s.put o).layoutDense = s.layoutDense ∧ (s.put o).coolMode = s.coolMode ∧ (s.put o).restart = s.restart ∧
    (s.put o).running = s.running ∧ (s.put o).runBeat = s.runBeat ∧ (s.put o).haltDue = s.haltDue ∧
    (s.put o).cfgBeat = s.cfgBeat ∧ (s.put o).evtPend = s.evtPend ∧ (s.put o).cores = s.cores ∧
    (s.put o).bypBeat = s.bypBeat ∧ (s.put o).fgStart = s.fgStart ∧ (s.put o).paths = s.paths ∧
    (s.put o).lanes = s.lanes ∧ (s.put o).winLoads = s.winLoads ∧ (s.put o).slcRam = s.slcRam ∧
    (s.put o).prods = s.prods ∧ (s.put o).specs = s.specs ∧ (s.put o).maskRes = s.maskRes ∧
    (s.put o).gapNow = s.gapNow ∧ (s.put o).masks = s.masks ∧ (s.put o).traceClr = s.traceClr ∧
    (s.put o).beatTimes = s.beatTimes ∧ (s.put o).emits = s.emits ∧ (s.put o).strShadow = s.strShadow ∧
    (s.put o).strActive = s.strActive ∧ (s.put o).streams = s.streams ∧ (s.put o).hconsLo = s.hconsLo ∧
    (s.put o).volumes = s.volumes ∧ (s.put o).pci = s.pci ∧ (s.put o).drives = s.drives ∧
    (s.put o).nvCmds = s.nvCmds ∧ (s.put o).ifs = s.ifs ∧ (s.put o).filters = s.filters ∧ (s.put o).hops = s.hops ∧
    (s.put o).nbr = s.nbr ∧ (s.put o).txCtx = s.txCtx ∧ (s.put o).txDue = s.txDue ∧ (s.put o).log = s.log ∧
    (s.put o).lastCls = s.lastCls ∧ (s.put o).isolated = s.isolated ∧ (s.put o).faultLow = s.faultLow ∧
    (s.put o).stepNo = s.stepNo ∧ (s.put o).wakeHeld = s.wakeHeld ∧ (s.put o).pwrReply = s.pwrReply ∧
    (s.put o).pwrAt = s.pwrAt ∧ (s.put o).resetAt = s.resetAt ∧ (s.put o).hibernated = s.hibernated ∧
    (s.put o).fromWarm = s.fromWarm ∧ (s.put o).firstRunAt = s.firstRunAt ∧ (s.put o).sessions = s.sessions ∧
    (s.put o).sessNo = s.sessNo ∧ (s.put o).update = s.update ∧ (s.put o).challenge = s.challenge ∧
    (s.put o).identBad = s.identBad ∧ (s.put o).ownerRunning = s.ownerRunning ∧ (s.put o).cyc = s.cyc ∧
    (s.put o).ppe = s.ppe ∧ (s.put o).dma = s.dma ∧ (s.put o).wakeReq = s.wakeReq ∧ (s.put o).units = s.units ∧
    (s.put o).conds = s.conds ∧ (s.put o).armReq = s.armReq ∧ (s.put o).disReq = s.disReq ∧
    (s.put o).forceReq = s.forceReq ∧ (s.put o).pulses = s.pulses ∧ (s.put o).patWords = s.patWords ∧
    (s.put o).patHist = s.patHist ∧ (s.put o).ppeTrig = s.ppeTrig ∧ (s.put o).figures = s.figures ∧
    (s.put o).cars = s.cars ∧ (s.put o).carIn = s.carIn ∧ (s.put o).timeJump = s.timeJump ∧
    (s.put o).denCells = s.denCells ∧ (s.put o).den = s.den ∧ (s.put o).denWait = s.denWait ∧
    (s.put o).denRun = s.denRun ∧ (s.put o).denMarks = s.denMarks ∧ (s.put o).denF = s.denF ∧
    (s.put o).denSat = s.denSat ∧ (s.put o).rgnPast = s.rgnPast ∧ (s.put o).corr = s.corr ∧
    (s.put o).corrNext = s.corrNext ∧ (s.put o).corrDump = s.corrDump ∧ (s.put o).corrF = s.corrF ∧
    (s.put o).time = s.time ∧ (s.put o).vecPend = s.vecPend ∧ (s.put o).ptp = s.ptp ∧ (s.put o).mem = s.mem ∧
    (s.put o).tokens = s.tokens ∧ (s.put o).echoes = s.echoes ∧ (s.put o).pm = s.pm ∧ (s.put o).bt = s.bt ∧
    (s.put o).ext = s.ext ∧ (∀ r, (s.put o).rd r = s.rd r) ∧ (∀ r, (s.put o).rdA r = s.rdA r) :=
  by and_intros <;> first | rfl | exact fun _ => rfl

@[simp] theorem State.useFree_frame :
    (s.useFree).pending = s.pending ∧ (s.useFree).out = s.out ∧ (s.useFree).regs = s.regs ∧
    (s.useFree).active = s.active ∧ (s.useFree).inBeat = s.inBeat ∧ (s.useFree).latch = s.latch ∧
    (s.useFree).latched = s.latched ∧ (s.useFree).locks = s.locks ∧ (s.useFree).mbx = s.mbx ∧
    (s.useFree).hbm = s.hbm ∧ (s.useFree).sram = s.sram ∧ (s.useFree).msix = s.msix ∧ (s.useFree).pba = s.pba ∧
    (s.useFree).fuses = s.fuses ∧ (s.useFree).store = s.store ∧ (s.useFree).flash = s.flash ∧
    (s.useFree).devId = s.devId ∧ (s.useFree).devIdRec = s.devIdRec ∧ (s.useFree).fwVersion = s.fwVersion ∧
    (s.useFree).fwSvn = s.fwSvn ∧ (s.useFree).doorbells = s.doorbells ∧ (s.useFree).inHand = s.inHand ∧
    (s.useFree).netQueue = s.netQueue ∧ (s.useFree).tick = s.tick ∧ (s.useFree).tickets = s.tickets ∧
    (s.useFree).past = s.past ∧ (s.useFree).ticketNo = s.ticketNo ∧ (s.useFree).locked = s.locked ∧
    (s.useFree).profile = s.profile ∧ (s.useFree).profileBeat = s.profileBeat ∧
    (s.useFree).layoutDense = s.layoutDense ∧ (s.useFree).coolMode = s.coolMode ∧ (s.useFree).restart = s.restart ∧
    (s.useFree).running = s.running ∧ (s.useFree).runBeat = s.runBeat ∧ (s.useFree).haltDue = s.haltDue ∧
    (s.useFree).cfgBeat = s.cfgBeat ∧ (s.useFree).evtPend = s.evtPend ∧ (s.useFree).cores = s.cores ∧
    (s.useFree).bypBeat = s.bypBeat ∧ (s.useFree).fgStart = s.fgStart ∧ (s.useFree).paths = s.paths ∧
    (s.useFree).lanes = s.lanes ∧ (s.useFree).winLoads = s.winLoads ∧ (s.useFree).slcRam = s.slcRam ∧
    (s.useFree).prods = s.prods ∧ (s.useFree).specs = s.specs ∧ (s.useFree).maskRes = s.maskRes ∧
    (s.useFree).gapNow = s.gapNow ∧ (s.useFree).masks = s.masks ∧ (s.useFree).traceClr = s.traceClr ∧
    (s.useFree).beatTimes = s.beatTimes ∧ (s.useFree).emits = s.emits ∧ (s.useFree).strShadow = s.strShadow ∧
    (s.useFree).strActive = s.strActive ∧ (s.useFree).streams = s.streams ∧ (s.useFree).hconsLo = s.hconsLo ∧
    (s.useFree).volumes = s.volumes ∧ (s.useFree).pci = s.pci ∧ (s.useFree).drives = s.drives ∧
    (s.useFree).nvCmds = s.nvCmds ∧ (s.useFree).ifs = s.ifs ∧ (s.useFree).filters = s.filters ∧
    (s.useFree).hops = s.hops ∧ (s.useFree).nbr = s.nbr ∧ (s.useFree).txCtx = s.txCtx ∧ (s.useFree).txDue = s.txDue ∧
    (s.useFree).log = s.log ∧ (s.useFree).lastCls = s.lastCls ∧ (s.useFree).isolated = s.isolated ∧
    (s.useFree).faultLow = s.faultLow ∧ (s.useFree).stepNo = s.stepNo ∧ (s.useFree).wakeHeld = s.wakeHeld ∧
    (s.useFree).pwrReply = s.pwrReply ∧ (s.useFree).pwrAt = s.pwrAt ∧ (s.useFree).resetAt = s.resetAt ∧
    (s.useFree).hibernated = s.hibernated ∧ (s.useFree).fromWarm = s.fromWarm ∧
    (s.useFree).firstRunAt = s.firstRunAt ∧ (s.useFree).sessions = s.sessions ∧ (s.useFree).sessNo = s.sessNo ∧
    (s.useFree).update = s.update ∧ (s.useFree).challenge = s.challenge ∧ (s.useFree).identBad = s.identBad ∧
    (s.useFree).ownerRunning = s.ownerRunning ∧ (s.useFree).cyc = s.cyc ∧ (s.useFree).ppe = s.ppe ∧
    (s.useFree).dma = s.dma ∧ (s.useFree).wakeReq = s.wakeReq ∧ (s.useFree).units = s.units ∧
    (s.useFree).conds = s.conds ∧ (s.useFree).armReq = s.armReq ∧ (s.useFree).disReq = s.disReq ∧
    (s.useFree).forceReq = s.forceReq ∧ (s.useFree).pulses = s.pulses ∧ (s.useFree).patWords = s.patWords ∧
    (s.useFree).patHist = s.patHist ∧ (s.useFree).ppeTrig = s.ppeTrig ∧ (s.useFree).figures = s.figures ∧
    (s.useFree).cars = s.cars ∧ (s.useFree).carIn = s.carIn ∧ (s.useFree).timeJump = s.timeJump ∧
    (s.useFree).denCells = s.denCells ∧ (s.useFree).den = s.den ∧ (s.useFree).denWait = s.denWait ∧
    (s.useFree).denRun = s.denRun ∧ (s.useFree).denMarks = s.denMarks ∧ (s.useFree).denF = s.denF ∧
    (s.useFree).denSat = s.denSat ∧ (s.useFree).rgnPast = s.rgnPast ∧ (s.useFree).corr = s.corr ∧
    (s.useFree).corrNext = s.corrNext ∧ (s.useFree).corrDump = s.corrDump ∧ (s.useFree).corrF = s.corrF ∧
    (s.useFree).time = s.time ∧ (s.useFree).vecPend = s.vecPend ∧ (s.useFree).ptp = s.ptp ∧ (s.useFree).mem = s.mem ∧
    (s.useFree).tokens = s.tokens ∧ (s.useFree).echoes = s.echoes ∧ (s.useFree).pm = s.pm ∧ (s.useFree).bt = s.bt ∧
    (s.useFree).ext = s.ext ∧ (∀ r, (s.useFree).rd r = s.rd r) ∧ (∀ r, (s.useFree).rdA r = s.rdA r) :=
  by and_intros <;> first | rfl | exact fun _ => rfl

@[simp] theorem State.release_frame (q : Req) :
    (s.release q).pending = s.pending ∧ (s.release q).out = s.out ∧ (s.release q).free = s.free ∧
    (s.release q).regs = s.regs ∧ (s.release q).active = s.active ∧ (s.release q).inBeat = s.inBeat ∧
    (s.release q).latch = s.latch ∧ (s.release q).latched = s.latched ∧ (s.release q).locks = s.locks ∧
    (s.release q).mbx = s.mbx ∧ (s.release q).hbm = s.hbm ∧ (s.release q).sram = s.sram ∧
    (s.release q).msix = s.msix ∧ (s.release q).pba = s.pba ∧ (s.release q).fuses = s.fuses ∧
    (s.release q).store = s.store ∧ (s.release q).flash = s.flash ∧ (s.release q).devId = s.devId ∧
    (s.release q).devIdRec = s.devIdRec ∧ (s.release q).fwVersion = s.fwVersion ∧ (s.release q).fwSvn = s.fwSvn ∧
    (s.release q).doorbells = s.doorbells ∧ (s.release q).netQueue = s.netQueue ∧ (s.release q).tick = s.tick ∧
    (s.release q).tickets = s.tickets ∧ (s.release q).past = s.past ∧ (s.release q).ticketNo = s.ticketNo ∧
    (s.release q).locked = s.locked ∧ (s.release q).profile = s.profile ∧ (s.release q).profileBeat = s.profileBeat ∧
    (s.release q).layoutDense = s.layoutDense ∧ (s.release q).coolMode = s.coolMode ∧
    (s.release q).restart = s.restart ∧ (s.release q).running = s.running ∧ (s.release q).runBeat = s.runBeat ∧
    (s.release q).haltDue = s.haltDue ∧ (s.release q).cfgBeat = s.cfgBeat ∧ (s.release q).evtPend = s.evtPend ∧
    (s.release q).cores = s.cores ∧ (s.release q).bypBeat = s.bypBeat ∧ (s.release q).fgStart = s.fgStart ∧
    (s.release q).paths = s.paths ∧ (s.release q).lanes = s.lanes ∧ (s.release q).winLoads = s.winLoads ∧
    (s.release q).slcRam = s.slcRam ∧ (s.release q).prods = s.prods ∧ (s.release q).specs = s.specs ∧
    (s.release q).maskRes = s.maskRes ∧ (s.release q).gapNow = s.gapNow ∧ (s.release q).masks = s.masks ∧
    (s.release q).traceClr = s.traceClr ∧ (s.release q).beatTimes = s.beatTimes ∧ (s.release q).emits = s.emits ∧
    (s.release q).strShadow = s.strShadow ∧ (s.release q).strActive = s.strActive ∧
    (s.release q).streams = s.streams ∧ (s.release q).hconsLo = s.hconsLo ∧ (s.release q).volumes = s.volumes ∧
    (s.release q).pci = s.pci ∧ (s.release q).drives = s.drives ∧ (s.release q).nvCmds = s.nvCmds ∧
    (s.release q).ifs = s.ifs ∧ (s.release q).filters = s.filters ∧ (s.release q).hops = s.hops ∧
    (s.release q).nbr = s.nbr ∧ (s.release q).txCtx = s.txCtx ∧ (s.release q).txDue = s.txDue ∧
    (s.release q).log = s.log ∧ (s.release q).lastCls = s.lastCls ∧ (s.release q).isolated = s.isolated ∧
    (s.release q).faultLow = s.faultLow ∧ (s.release q).stepNo = s.stepNo ∧ (s.release q).wakeHeld = s.wakeHeld ∧
    (s.release q).pwrReply = s.pwrReply ∧ (s.release q).pwrAt = s.pwrAt ∧ (s.release q).resetAt = s.resetAt ∧
    (s.release q).hibernated = s.hibernated ∧ (s.release q).fromWarm = s.fromWarm ∧
    (s.release q).firstRunAt = s.firstRunAt ∧ (s.release q).sessions = s.sessions ∧ (s.release q).sessNo = s.sessNo ∧
    (s.release q).update = s.update ∧ (s.release q).challenge = s.challenge ∧ (s.release q).identBad = s.identBad ∧
    (s.release q).ownerRunning = s.ownerRunning ∧ (s.release q).cyc = s.cyc ∧ (s.release q).ppe = s.ppe ∧
    (s.release q).dma = s.dma ∧ (s.release q).wakeReq = s.wakeReq ∧ (s.release q).units = s.units ∧
    (s.release q).conds = s.conds ∧ (s.release q).armReq = s.armReq ∧ (s.release q).disReq = s.disReq ∧
    (s.release q).forceReq = s.forceReq ∧ (s.release q).pulses = s.pulses ∧ (s.release q).patWords = s.patWords ∧
    (s.release q).patHist = s.patHist ∧ (s.release q).ppeTrig = s.ppeTrig ∧ (s.release q).figures = s.figures ∧
    (s.release q).cars = s.cars ∧ (s.release q).carIn = s.carIn ∧ (s.release q).timeJump = s.timeJump ∧
    (s.release q).denCells = s.denCells ∧ (s.release q).den = s.den ∧ (s.release q).denWait = s.denWait ∧
    (s.release q).denRun = s.denRun ∧ (s.release q).denMarks = s.denMarks ∧ (s.release q).denF = s.denF ∧
    (s.release q).denSat = s.denSat ∧ (s.release q).rgnPast = s.rgnPast ∧ (s.release q).corr = s.corr ∧
    (s.release q).corrNext = s.corrNext ∧ (s.release q).corrDump = s.corrDump ∧ (s.release q).corrF = s.corrF ∧
    (s.release q).time = s.time ∧ (s.release q).vecPend = s.vecPend ∧ (s.release q).ptp = s.ptp ∧
    (s.release q).mem = s.mem ∧ (s.release q).tokens = s.tokens ∧ (s.release q).echoes = s.echoes ∧
    (s.release q).pm = s.pm ∧ (s.release q).bt = s.bt ∧ (s.release q).ext = s.ext ∧
    (∀ r, (s.release q).rd r = s.rd r) ∧ (∀ r, (s.release q).rdA r = s.rdA r) :=
  by and_intros <;> first | rfl | exact fun _ => rfl

@[simp] theorem State.mbxWrite_frame (a : Nat) (b : List Byte) :
    (s.mbxWrite a b).pending = s.pending ∧ (s.mbxWrite a b).out = s.out ∧ (s.mbxWrite a b).free = s.free ∧
    (s.mbxWrite a b).regs = s.regs ∧ (s.mbxWrite a b).active = s.active ∧ (s.mbxWrite a b).inBeat = s.inBeat ∧
    (s.mbxWrite a b).latch = s.latch ∧ (s.mbxWrite a b).latched = s.latched ∧ (s.mbxWrite a b).locks = s.locks ∧
    (s.mbxWrite a b).hbm = s.hbm ∧ (s.mbxWrite a b).sram = s.sram ∧ (s.mbxWrite a b).msix = s.msix ∧
    (s.mbxWrite a b).pba = s.pba ∧ (s.mbxWrite a b).fuses = s.fuses ∧ (s.mbxWrite a b).store = s.store ∧
    (s.mbxWrite a b).flash = s.flash ∧ (s.mbxWrite a b).devId = s.devId ∧ (s.mbxWrite a b).devIdRec = s.devIdRec ∧
    (s.mbxWrite a b).fwVersion = s.fwVersion ∧ (s.mbxWrite a b).fwSvn = s.fwSvn ∧
    (s.mbxWrite a b).doorbells = s.doorbells ∧ (s.mbxWrite a b).inHand = s.inHand ∧
    (s.mbxWrite a b).netQueue = s.netQueue ∧ (s.mbxWrite a b).tick = s.tick ∧ (s.mbxWrite a b).tickets = s.tickets ∧
    (s.mbxWrite a b).past = s.past ∧ (s.mbxWrite a b).ticketNo = s.ticketNo ∧ (s.mbxWrite a b).locked = s.locked ∧
    (s.mbxWrite a b).profile = s.profile ∧ (s.mbxWrite a b).profileBeat = s.profileBeat ∧
    (s.mbxWrite a b).layoutDense = s.layoutDense ∧ (s.mbxWrite a b).coolMode = s.coolMode ∧
    (s.mbxWrite a b).restart = s.restart ∧ (s.mbxWrite a b).running = s.running ∧
    (s.mbxWrite a b).runBeat = s.runBeat ∧ (s.mbxWrite a b).haltDue = s.haltDue ∧
    (s.mbxWrite a b).cfgBeat = s.cfgBeat ∧ (s.mbxWrite a b).evtPend = s.evtPend ∧ (s.mbxWrite a b).cores = s.cores ∧
    (s.mbxWrite a b).bypBeat = s.bypBeat ∧ (s.mbxWrite a b).fgStart = s.fgStart ∧ (s.mbxWrite a b).paths = s.paths ∧
    (s.mbxWrite a b).lanes = s.lanes ∧ (s.mbxWrite a b).winLoads = s.winLoads ∧ (s.mbxWrite a b).slcRam = s.slcRam ∧
    (s.mbxWrite a b).prods = s.prods ∧ (s.mbxWrite a b).specs = s.specs ∧ (s.mbxWrite a b).maskRes = s.maskRes ∧
    (s.mbxWrite a b).gapNow = s.gapNow ∧ (s.mbxWrite a b).masks = s.masks ∧ (s.mbxWrite a b).traceClr = s.traceClr ∧
    (s.mbxWrite a b).beatTimes = s.beatTimes ∧ (s.mbxWrite a b).emits = s.emits ∧
    (s.mbxWrite a b).strShadow = s.strShadow ∧ (s.mbxWrite a b).strActive = s.strActive ∧
    (s.mbxWrite a b).streams = s.streams ∧ (s.mbxWrite a b).hconsLo = s.hconsLo ∧
    (s.mbxWrite a b).volumes = s.volumes ∧ (s.mbxWrite a b).pci = s.pci ∧ (s.mbxWrite a b).drives = s.drives ∧
    (s.mbxWrite a b).nvCmds = s.nvCmds ∧ (s.mbxWrite a b).ifs = s.ifs ∧ (s.mbxWrite a b).filters = s.filters ∧
    (s.mbxWrite a b).hops = s.hops ∧ (s.mbxWrite a b).nbr = s.nbr ∧ (s.mbxWrite a b).txCtx = s.txCtx ∧
    (s.mbxWrite a b).txDue = s.txDue ∧ (s.mbxWrite a b).log = s.log ∧ (s.mbxWrite a b).lastCls = s.lastCls ∧
    (s.mbxWrite a b).isolated = s.isolated ∧ (s.mbxWrite a b).faultLow = s.faultLow ∧
    (s.mbxWrite a b).stepNo = s.stepNo ∧ (s.mbxWrite a b).wakeHeld = s.wakeHeld ∧
    (s.mbxWrite a b).pwrReply = s.pwrReply ∧ (s.mbxWrite a b).pwrAt = s.pwrAt ∧
    (s.mbxWrite a b).resetAt = s.resetAt ∧ (s.mbxWrite a b).hibernated = s.hibernated ∧
    (s.mbxWrite a b).fromWarm = s.fromWarm ∧ (s.mbxWrite a b).firstRunAt = s.firstRunAt ∧
    (s.mbxWrite a b).sessions = s.sessions ∧ (s.mbxWrite a b).sessNo = s.sessNo ∧
    (s.mbxWrite a b).update = s.update ∧ (s.mbxWrite a b).challenge = s.challenge ∧
    (s.mbxWrite a b).identBad = s.identBad ∧ (s.mbxWrite a b).ownerRunning = s.ownerRunning ∧
    (s.mbxWrite a b).cyc = s.cyc ∧ (s.mbxWrite a b).ppe = s.ppe ∧ (s.mbxWrite a b).dma = s.dma ∧
    (s.mbxWrite a b).wakeReq = s.wakeReq ∧ (s.mbxWrite a b).units = s.units ∧ (s.mbxWrite a b).conds = s.conds ∧
    (s.mbxWrite a b).armReq = s.armReq ∧ (s.mbxWrite a b).disReq = s.disReq ∧
    (s.mbxWrite a b).forceReq = s.forceReq ∧ (s.mbxWrite a b).pulses = s.pulses ∧
    (s.mbxWrite a b).patWords = s.patWords ∧ (s.mbxWrite a b).patHist = s.patHist ∧
    (s.mbxWrite a b).ppeTrig = s.ppeTrig ∧ (s.mbxWrite a b).figures = s.figures ∧ (s.mbxWrite a b).cars = s.cars ∧
    (s.mbxWrite a b).carIn = s.carIn ∧ (s.mbxWrite a b).timeJump = s.timeJump ∧
    (s.mbxWrite a b).denCells = s.denCells ∧ (s.mbxWrite a b).den = s.den ∧ (s.mbxWrite a b).denWait = s.denWait ∧
    (s.mbxWrite a b).denRun = s.denRun ∧ (s.mbxWrite a b).denMarks = s.denMarks ∧ (s.mbxWrite a b).denF = s.denF ∧
    (s.mbxWrite a b).denSat = s.denSat ∧ (s.mbxWrite a b).rgnPast = s.rgnPast ∧ (s.mbxWrite a b).corr = s.corr ∧
    (s.mbxWrite a b).corrNext = s.corrNext ∧ (s.mbxWrite a b).corrDump = s.corrDump ∧
    (s.mbxWrite a b).corrF = s.corrF ∧ (s.mbxWrite a b).time = s.time ∧ (s.mbxWrite a b).vecPend = s.vecPend ∧
    (s.mbxWrite a b).ptp = s.ptp ∧ (s.mbxWrite a b).mem = s.mem ∧ (s.mbxWrite a b).tokens = s.tokens ∧
    (s.mbxWrite a b).echoes = s.echoes ∧ (s.mbxWrite a b).pm = s.pm ∧ (s.mbxWrite a b).bt = s.bt ∧
    (s.mbxWrite a b).ext = s.ext ∧ (∀ r, (s.mbxWrite a b).rd r = s.rd r) ∧ (∀ r, (s.mbxWrite a b).rdA r = s.rdA r) :=
  by and_intros <;> first | rfl | exact fun _ => rfl

@[simp] theorem State.sramWrite_frame (a : Nat) (b : List Byte) :
    (s.sramWrite a b).pending = s.pending ∧ (s.sramWrite a b).out = s.out ∧ (s.sramWrite a b).free = s.free ∧
    (s.sramWrite a b).regs = s.regs ∧ (s.sramWrite a b).active = s.active ∧ (s.sramWrite a b).inBeat = s.inBeat ∧
    (s.sramWrite a b).latch = s.latch ∧ (s.sramWrite a b).latched = s.latched ∧ (s.sramWrite a b).locks = s.locks ∧
    (s.sramWrite a b).mbx = s.mbx ∧ (s.sramWrite a b).hbm = s.hbm ∧ (s.sramWrite a b).msix = s.msix ∧
    (s.sramWrite a b).pba = s.pba ∧ (s.sramWrite a b).fuses = s.fuses ∧ (s.sramWrite a b).store = s.store ∧
    (s.sramWrite a b).flash = s.flash ∧ (s.sramWrite a b).devId = s.devId ∧ (s.sramWrite a b).devIdRec = s.devIdRec ∧
    (s.sramWrite a b).fwVersion = s.fwVersion ∧ (s.sramWrite a b).fwSvn = s.fwSvn ∧
    (s.sramWrite a b).doorbells = s.doorbells ∧ (s.sramWrite a b).inHand = s.inHand ∧
    (s.sramWrite a b).netQueue = s.netQueue ∧ (s.sramWrite a b).tick = s.tick ∧
    (s.sramWrite a b).tickets = s.tickets ∧ (s.sramWrite a b).past = s.past ∧
    (s.sramWrite a b).ticketNo = s.ticketNo ∧ (s.sramWrite a b).locked = s.locked ∧
    (s.sramWrite a b).profile = s.profile ∧ (s.sramWrite a b).profileBeat = s.profileBeat ∧
    (s.sramWrite a b).layoutDense = s.layoutDense ∧ (s.sramWrite a b).coolMode = s.coolMode ∧
    (s.sramWrite a b).restart = s.restart ∧ (s.sramWrite a b).running = s.running ∧
    (s.sramWrite a b).runBeat = s.runBeat ∧ (s.sramWrite a b).haltDue = s.haltDue ∧
    (s.sramWrite a b).cfgBeat = s.cfgBeat ∧ (s.sramWrite a b).evtPend = s.evtPend ∧
    (s.sramWrite a b).cores = s.cores ∧ (s.sramWrite a b).bypBeat = s.bypBeat ∧
    (s.sramWrite a b).fgStart = s.fgStart ∧ (s.sramWrite a b).paths = s.paths ∧ (s.sramWrite a b).lanes = s.lanes ∧
    (s.sramWrite a b).winLoads = s.winLoads ∧ (s.sramWrite a b).slcRam = s.slcRam ∧
    (s.sramWrite a b).prods = s.prods ∧ (s.sramWrite a b).specs = s.specs ∧ (s.sramWrite a b).maskRes = s.maskRes ∧
    (s.sramWrite a b).gapNow = s.gapNow ∧ (s.sramWrite a b).masks = s.masks ∧
    (s.sramWrite a b).traceClr = s.traceClr ∧ (s.sramWrite a b).beatTimes = s.beatTimes ∧
    (s.sramWrite a b).emits = s.emits ∧ (s.sramWrite a b).strShadow = s.strShadow ∧
    (s.sramWrite a b).strActive = s.strActive ∧ (s.sramWrite a b).streams = s.streams ∧
    (s.sramWrite a b).hconsLo = s.hconsLo ∧ (s.sramWrite a b).volumes = s.volumes ∧ (s.sramWrite a b).pci = s.pci ∧
    (s.sramWrite a b).drives = s.drives ∧ (s.sramWrite a b).nvCmds = s.nvCmds ∧ (s.sramWrite a b).ifs = s.ifs ∧
    (s.sramWrite a b).filters = s.filters ∧ (s.sramWrite a b).hops = s.hops ∧ (s.sramWrite a b).nbr = s.nbr ∧
    (s.sramWrite a b).txCtx = s.txCtx ∧ (s.sramWrite a b).txDue = s.txDue ∧ (s.sramWrite a b).log = s.log ∧
    (s.sramWrite a b).lastCls = s.lastCls ∧ (s.sramWrite a b).isolated = s.isolated ∧
    (s.sramWrite a b).faultLow = s.faultLow ∧ (s.sramWrite a b).stepNo = s.stepNo ∧
    (s.sramWrite a b).wakeHeld = s.wakeHeld ∧ (s.sramWrite a b).pwrReply = s.pwrReply ∧
    (s.sramWrite a b).pwrAt = s.pwrAt ∧ (s.sramWrite a b).resetAt = s.resetAt ∧
    (s.sramWrite a b).hibernated = s.hibernated ∧ (s.sramWrite a b).fromWarm = s.fromWarm ∧
    (s.sramWrite a b).firstRunAt = s.firstRunAt ∧ (s.sramWrite a b).sessions = s.sessions ∧
    (s.sramWrite a b).sessNo = s.sessNo ∧ (s.sramWrite a b).update = s.update ∧
    (s.sramWrite a b).challenge = s.challenge ∧ (s.sramWrite a b).identBad = s.identBad ∧
    (s.sramWrite a b).ownerRunning = s.ownerRunning ∧ (s.sramWrite a b).cyc = s.cyc ∧ (s.sramWrite a b).ppe = s.ppe ∧
    (s.sramWrite a b).dma = s.dma ∧ (s.sramWrite a b).wakeReq = s.wakeReq ∧ (s.sramWrite a b).units = s.units ∧
    (s.sramWrite a b).conds = s.conds ∧ (s.sramWrite a b).armReq = s.armReq ∧ (s.sramWrite a b).disReq = s.disReq ∧
    (s.sramWrite a b).forceReq = s.forceReq ∧ (s.sramWrite a b).pulses = s.pulses ∧
    (s.sramWrite a b).patWords = s.patWords ∧ (s.sramWrite a b).patHist = s.patHist ∧
    (s.sramWrite a b).ppeTrig = s.ppeTrig ∧ (s.sramWrite a b).figures = s.figures ∧ (s.sramWrite a b).cars = s.cars ∧
    (s.sramWrite a b).carIn = s.carIn ∧ (s.sramWrite a b).timeJump = s.timeJump ∧
    (s.sramWrite a b).denCells = s.denCells ∧ (s.sramWrite a b).den = s.den ∧ (s.sramWrite a b).denWait = s.denWait ∧
    (s.sramWrite a b).denRun = s.denRun ∧ (s.sramWrite a b).denMarks = s.denMarks ∧ (s.sramWrite a b).denF = s.denF ∧
    (s.sramWrite a b).denSat = s.denSat ∧ (s.sramWrite a b).rgnPast = s.rgnPast ∧ (s.sramWrite a b).corr = s.corr ∧
    (s.sramWrite a b).corrNext = s.corrNext ∧ (s.sramWrite a b).corrDump = s.corrDump ∧
    (s.sramWrite a b).corrF = s.corrF ∧ (s.sramWrite a b).time = s.time ∧ (s.sramWrite a b).vecPend = s.vecPend ∧
    (s.sramWrite a b).ptp = s.ptp ∧ (s.sramWrite a b).mem = s.mem ∧ (s.sramWrite a b).tokens = s.tokens ∧
    (s.sramWrite a b).echoes = s.echoes ∧ (s.sramWrite a b).pm = s.pm ∧ (s.sramWrite a b).bt = s.bt ∧
    (s.sramWrite a b).ext = s.ext ∧ (∀ r, (s.sramWrite a b).rd r = s.rd r) ∧
    (∀ r, (s.sramWrite a b).rdA r = s.rdA r) :=
  by and_intros <;> first | rfl | exact fun _ => rfl

@[simp] theorem State.hbmWrite_frame (a : Nat) (b : List Byte) :
    (s.hbmWrite a b).pending = s.pending ∧ (s.hbmWrite a b).out = s.out ∧ (s.hbmWrite a b).free = s.free ∧
    (s.hbmWrite a b).regs = s.regs ∧ (s.hbmWrite a b).active = s.active ∧ (s.hbmWrite a b).inBeat = s.inBeat ∧
    (s.hbmWrite a b).latch = s.latch ∧ (s.hbmWrite a b).latched = s.latched ∧ (s.hbmWrite a b).locks = s.locks ∧
    (s.hbmWrite a b).mbx = s.mbx ∧ (s.hbmWrite a b).sram = s.sram ∧ (s.hbmWrite a b).msix = s.msix ∧
    (s.hbmWrite a b).pba = s.pba ∧ (s.hbmWrite a b).fuses = s.fuses ∧ (s.hbmWrite a b).store = s.store ∧
    (s.hbmWrite a b).flash = s.flash ∧ (s.hbmWrite a b).devId = s.devId ∧ (s.hbmWrite a b).devIdRec = s.devIdRec ∧
    (s.hbmWrite a b).fwVersion = s.fwVersion ∧ (s.hbmWrite a b).fwSvn = s.fwSvn ∧
    (s.hbmWrite a b).doorbells = s.doorbells ∧ (s.hbmWrite a b).inHand = s.inHand ∧
    (s.hbmWrite a b).netQueue = s.netQueue ∧ (s.hbmWrite a b).tick = s.tick ∧ (s.hbmWrite a b).tickets = s.tickets ∧
    (s.hbmWrite a b).past = s.past ∧ (s.hbmWrite a b).ticketNo = s.ticketNo ∧ (s.hbmWrite a b).locked = s.locked ∧
    (s.hbmWrite a b).profile = s.profile ∧ (s.hbmWrite a b).profileBeat = s.profileBeat ∧
    (s.hbmWrite a b).layoutDense = s.layoutDense ∧ (s.hbmWrite a b).coolMode = s.coolMode ∧
    (s.hbmWrite a b).restart = s.restart ∧ (s.hbmWrite a b).running = s.running ∧
    (s.hbmWrite a b).runBeat = s.runBeat ∧ (s.hbmWrite a b).haltDue = s.haltDue ∧
    (s.hbmWrite a b).cfgBeat = s.cfgBeat ∧ (s.hbmWrite a b).evtPend = s.evtPend ∧ (s.hbmWrite a b).cores = s.cores ∧
    (s.hbmWrite a b).bypBeat = s.bypBeat ∧ (s.hbmWrite a b).fgStart = s.fgStart ∧ (s.hbmWrite a b).paths = s.paths ∧
    (s.hbmWrite a b).lanes = s.lanes ∧ (s.hbmWrite a b).winLoads = s.winLoads ∧ (s.hbmWrite a b).slcRam = s.slcRam ∧
    (s.hbmWrite a b).prods = s.prods ∧ (s.hbmWrite a b).specs = s.specs ∧ (s.hbmWrite a b).maskRes = s.maskRes ∧
    (s.hbmWrite a b).gapNow = s.gapNow ∧ (s.hbmWrite a b).masks = s.masks ∧ (s.hbmWrite a b).traceClr = s.traceClr ∧
    (s.hbmWrite a b).beatTimes = s.beatTimes ∧ (s.hbmWrite a b).emits = s.emits ∧
    (s.hbmWrite a b).strShadow = s.strShadow ∧ (s.hbmWrite a b).strActive = s.strActive ∧
    (s.hbmWrite a b).streams = s.streams ∧ (s.hbmWrite a b).hconsLo = s.hconsLo ∧
    (s.hbmWrite a b).volumes = s.volumes ∧ (s.hbmWrite a b).pci = s.pci ∧ (s.hbmWrite a b).drives = s.drives ∧
    (s.hbmWrite a b).nvCmds = s.nvCmds ∧ (s.hbmWrite a b).ifs = s.ifs ∧ (s.hbmWrite a b).filters = s.filters ∧
    (s.hbmWrite a b).hops = s.hops ∧ (s.hbmWrite a b).nbr = s.nbr ∧ (s.hbmWrite a b).txCtx = s.txCtx ∧
    (s.hbmWrite a b).txDue = s.txDue ∧ (s.hbmWrite a b).log = s.log ∧ (s.hbmWrite a b).lastCls = s.lastCls ∧
    (s.hbmWrite a b).isolated = s.isolated ∧ (s.hbmWrite a b).faultLow = s.faultLow ∧
    (s.hbmWrite a b).stepNo = s.stepNo ∧ (s.hbmWrite a b).wakeHeld = s.wakeHeld ∧
    (s.hbmWrite a b).pwrReply = s.pwrReply ∧ (s.hbmWrite a b).pwrAt = s.pwrAt ∧
    (s.hbmWrite a b).resetAt = s.resetAt ∧ (s.hbmWrite a b).hibernated = s.hibernated ∧
    (s.hbmWrite a b).fromWarm = s.fromWarm ∧ (s.hbmWrite a b).firstRunAt = s.firstRunAt ∧
    (s.hbmWrite a b).sessions = s.sessions ∧ (s.hbmWrite a b).sessNo = s.sessNo ∧
    (s.hbmWrite a b).update = s.update ∧ (s.hbmWrite a b).challenge = s.challenge ∧
    (s.hbmWrite a b).identBad = s.identBad ∧ (s.hbmWrite a b).ownerRunning = s.ownerRunning ∧
    (s.hbmWrite a b).cyc = s.cyc ∧ (s.hbmWrite a b).ppe = s.ppe ∧ (s.hbmWrite a b).dma = s.dma ∧
    (s.hbmWrite a b).wakeReq = s.wakeReq ∧ (s.hbmWrite a b).units = s.units ∧ (s.hbmWrite a b).conds = s.conds ∧
    (s.hbmWrite a b).armReq = s.armReq ∧ (s.hbmWrite a b).disReq = s.disReq ∧
    (s.hbmWrite a b).forceReq = s.forceReq ∧ (s.hbmWrite a b).pulses = s.pulses ∧
    (s.hbmWrite a b).patWords = s.patWords ∧ (s.hbmWrite a b).patHist = s.patHist ∧
    (s.hbmWrite a b).ppeTrig = s.ppeTrig ∧ (s.hbmWrite a b).figures = s.figures ∧ (s.hbmWrite a b).cars = s.cars ∧
    (s.hbmWrite a b).carIn = s.carIn ∧ (s.hbmWrite a b).timeJump = s.timeJump ∧
    (s.hbmWrite a b).denCells = s.denCells ∧ (s.hbmWrite a b).den = s.den ∧ (s.hbmWrite a b).denWait = s.denWait ∧
    (s.hbmWrite a b).denRun = s.denRun ∧ (s.hbmWrite a b).denMarks = s.denMarks ∧ (s.hbmWrite a b).denF = s.denF ∧
    (s.hbmWrite a b).denSat = s.denSat ∧ (s.hbmWrite a b).rgnPast = s.rgnPast ∧ (s.hbmWrite a b).corr = s.corr ∧
    (s.hbmWrite a b).corrNext = s.corrNext ∧ (s.hbmWrite a b).corrDump = s.corrDump ∧
    (s.hbmWrite a b).corrF = s.corrF ∧ (s.hbmWrite a b).time = s.time ∧ (s.hbmWrite a b).vecPend = s.vecPend ∧
    (s.hbmWrite a b).ptp = s.ptp ∧ (s.hbmWrite a b).tokens = s.tokens ∧ (s.hbmWrite a b).echoes = s.echoes ∧
    (s.hbmWrite a b).pm = s.pm ∧ (s.hbmWrite a b).bt = s.bt ∧ (s.hbmWrite a b).ext = s.ext ∧
    (∀ r, (s.hbmWrite a b).rd r = s.rd r) ∧ (∀ r, (s.hbmWrite a b).rdA r = s.rdA r) :=
  by and_intros <;> first | rfl | exact fun _ => rfl

@[simp] theorem State.slcWrite_frame (a : Nat) (v : Word) :
    (s.slcWrite a v).pending = s.pending ∧ (s.slcWrite a v).out = s.out ∧ (s.slcWrite a v).free = s.free ∧
    (s.slcWrite a v).regs = s.regs ∧ (s.slcWrite a v).active = s.active ∧ (s.slcWrite a v).inBeat = s.inBeat ∧
    (s.slcWrite a v).latch = s.latch ∧ (s.slcWrite a v).latched = s.latched ∧ (s.slcWrite a v).locks = s.locks ∧
    (s.slcWrite a v).mbx = s.mbx ∧ (s.slcWrite a v).hbm = s.hbm ∧ (s.slcWrite a v).sram = s.sram ∧
    (s.slcWrite a v).msix = s.msix ∧ (s.slcWrite a v).pba = s.pba ∧ (s.slcWrite a v).fuses = s.fuses ∧
    (s.slcWrite a v).store = s.store ∧ (s.slcWrite a v).flash = s.flash ∧ (s.slcWrite a v).devId = s.devId ∧
    (s.slcWrite a v).devIdRec = s.devIdRec ∧ (s.slcWrite a v).fwVersion = s.fwVersion ∧
    (s.slcWrite a v).fwSvn = s.fwSvn ∧ (s.slcWrite a v).doorbells = s.doorbells ∧
    (s.slcWrite a v).inHand = s.inHand ∧ (s.slcWrite a v).netQueue = s.netQueue ∧ (s.slcWrite a v).tick = s.tick ∧
    (s.slcWrite a v).tickets = s.tickets ∧ (s.slcWrite a v).past = s.past ∧ (s.slcWrite a v).ticketNo = s.ticketNo ∧
    (s.slcWrite a v).locked = s.locked ∧ (s.slcWrite a v).profile = s.profile ∧
    (s.slcWrite a v).profileBeat = s.profileBeat ∧ (s.slcWrite a v).layoutDense = s.layoutDense ∧
    (s.slcWrite a v).coolMode = s.coolMode ∧ (s.slcWrite a v).restart = s.restart ∧
    (s.slcWrite a v).running = s.running ∧ (s.slcWrite a v).runBeat = s.runBeat ∧
    (s.slcWrite a v).haltDue = s.haltDue ∧ (s.slcWrite a v).cfgBeat = s.cfgBeat ∧
    (s.slcWrite a v).evtPend = s.evtPend ∧ (s.slcWrite a v).cores = s.cores ∧ (s.slcWrite a v).bypBeat = s.bypBeat ∧
    (s.slcWrite a v).fgStart = s.fgStart ∧ (s.slcWrite a v).paths = s.paths ∧ (s.slcWrite a v).lanes = s.lanes ∧
    (s.slcWrite a v).winLoads = s.winLoads ∧ (s.slcWrite a v).prods = s.prods ∧ (s.slcWrite a v).specs = s.specs ∧
    (s.slcWrite a v).maskRes = s.maskRes ∧ (s.slcWrite a v).gapNow = s.gapNow ∧ (s.slcWrite a v).masks = s.masks ∧
    (s.slcWrite a v).traceClr = s.traceClr ∧ (s.slcWrite a v).beatTimes = s.beatTimes ∧
    (s.slcWrite a v).emits = s.emits ∧ (s.slcWrite a v).strShadow = s.strShadow ∧
    (s.slcWrite a v).strActive = s.strActive ∧ (s.slcWrite a v).streams = s.streams ∧
    (s.slcWrite a v).hconsLo = s.hconsLo ∧ (s.slcWrite a v).volumes = s.volumes ∧ (s.slcWrite a v).pci = s.pci ∧
    (s.slcWrite a v).drives = s.drives ∧ (s.slcWrite a v).nvCmds = s.nvCmds ∧ (s.slcWrite a v).ifs = s.ifs ∧
    (s.slcWrite a v).filters = s.filters ∧ (s.slcWrite a v).hops = s.hops ∧ (s.slcWrite a v).nbr = s.nbr ∧
    (s.slcWrite a v).txCtx = s.txCtx ∧ (s.slcWrite a v).txDue = s.txDue ∧ (s.slcWrite a v).log = s.log ∧
    (s.slcWrite a v).lastCls = s.lastCls ∧ (s.slcWrite a v).isolated = s.isolated ∧
    (s.slcWrite a v).faultLow = s.faultLow ∧ (s.slcWrite a v).stepNo = s.stepNo ∧
    (s.slcWrite a v).wakeHeld = s.wakeHeld ∧ (s.slcWrite a v).pwrReply = s.pwrReply ∧
    (s.slcWrite a v).pwrAt = s.pwrAt ∧ (s.slcWrite a v).resetAt = s.resetAt ∧
    (s.slcWrite a v).hibernated = s.hibernated ∧ (s.slcWrite a v).fromWarm = s.fromWarm ∧
    (s.slcWrite a v).firstRunAt = s.firstRunAt ∧ (s.slcWrite a v).sessions = s.sessions ∧
    (s.slcWrite a v).sessNo = s.sessNo ∧ (s.slcWrite a v).update = s.update ∧
    (s.slcWrite a v).challenge = s.challenge ∧ (s.slcWrite a v).identBad = s.identBad ∧
    (s.slcWrite a v).ownerRunning = s.ownerRunning ∧ (s.slcWrite a v).cyc = s.cyc ∧ (s.slcWrite a v).ppe = s.ppe ∧
    (s.slcWrite a v).dma = s.dma ∧ (s.slcWrite a v).wakeReq = s.wakeReq ∧ (s.slcWrite a v).units = s.units ∧
    (s.slcWrite a v).conds = s.conds ∧ (s.slcWrite a v).armReq = s.armReq ∧ (s.slcWrite a v).disReq = s.disReq ∧
    (s.slcWrite a v).forceReq = s.forceReq ∧ (s.slcWrite a v).pulses = s.pulses ∧
    (s.slcWrite a v).patWords = s.patWords ∧ (s.slcWrite a v).patHist = s.patHist ∧
    (s.slcWrite a v).ppeTrig = s.ppeTrig ∧ (s.slcWrite a v).figures = s.figures ∧ (s.slcWrite a v).cars = s.cars ∧
    (s.slcWrite a v).carIn = s.carIn ∧ (s.slcWrite a v).timeJump = s.timeJump ∧
    (s.slcWrite a v).denCells = s.denCells ∧ (s.slcWrite a v).den = s.den ∧ (s.slcWrite a v).denWait = s.denWait ∧
    (s.slcWrite a v).denRun = s.denRun ∧ (s.slcWrite a v).denMarks = s.denMarks ∧ (s.slcWrite a v).denF = s.denF ∧
    (s.slcWrite a v).denSat = s.denSat ∧ (s.slcWrite a v).rgnPast = s.rgnPast ∧ (s.slcWrite a v).corr = s.corr ∧
    (s.slcWrite a v).corrNext = s.corrNext ∧ (s.slcWrite a v).corrDump = s.corrDump ∧
    (s.slcWrite a v).corrF = s.corrF ∧ (s.slcWrite a v).time = s.time ∧ (s.slcWrite a v).vecPend = s.vecPend ∧
    (s.slcWrite a v).ptp = s.ptp ∧ (s.slcWrite a v).mem = s.mem ∧ (s.slcWrite a v).tokens = s.tokens ∧
    (s.slcWrite a v).echoes = s.echoes ∧ (s.slcWrite a v).pm = s.pm ∧ (s.slcWrite a v).bt = s.bt ∧
    (s.slcWrite a v).ext = s.ext ∧ (∀ r, (s.slcWrite a v).rd r = s.rd r) ∧ (∀ r, (s.slcWrite a v).rdA r = s.rdA r) :=
  by and_intros <;> first | rfl | exact fun _ => rfl

@[simp] theorem State.setCore_frame (n : Nat) (x : CoreSt) :
    (s.setCore n x).pending = s.pending ∧ (s.setCore n x).out = s.out ∧ (s.setCore n x).free = s.free ∧
    (s.setCore n x).regs = s.regs ∧ (s.setCore n x).active = s.active ∧ (s.setCore n x).inBeat = s.inBeat ∧
    (s.setCore n x).latch = s.latch ∧ (s.setCore n x).latched = s.latched ∧ (s.setCore n x).locks = s.locks ∧
    (s.setCore n x).mbx = s.mbx ∧ (s.setCore n x).hbm = s.hbm ∧ (s.setCore n x).sram = s.sram ∧
    (s.setCore n x).msix = s.msix ∧ (s.setCore n x).pba = s.pba ∧ (s.setCore n x).fuses = s.fuses ∧
    (s.setCore n x).store = s.store ∧ (s.setCore n x).flash = s.flash ∧ (s.setCore n x).devId = s.devId ∧
    (s.setCore n x).devIdRec = s.devIdRec ∧ (s.setCore n x).fwVersion = s.fwVersion ∧
    (s.setCore n x).fwSvn = s.fwSvn ∧ (s.setCore n x).doorbells = s.doorbells ∧ (s.setCore n x).inHand = s.inHand ∧
    (s.setCore n x).netQueue = s.netQueue ∧ (s.setCore n x).tick = s.tick ∧ (s.setCore n x).tickets = s.tickets ∧
    (s.setCore n x).past = s.past ∧ (s.setCore n x).ticketNo = s.ticketNo ∧ (s.setCore n x).locked = s.locked ∧
    (s.setCore n x).profile = s.profile ∧ (s.setCore n x).profileBeat = s.profileBeat ∧
    (s.setCore n x).layoutDense = s.layoutDense ∧ (s.setCore n x).coolMode = s.coolMode ∧
    (s.setCore n x).restart = s.restart ∧ (s.setCore n x).running = s.running ∧ (s.setCore n x).runBeat = s.runBeat ∧
    (s.setCore n x).haltDue = s.haltDue ∧ (s.setCore n x).cfgBeat = s.cfgBeat ∧ (s.setCore n x).evtPend = s.evtPend ∧
    (s.setCore n x).bypBeat = s.bypBeat ∧ (s.setCore n x).fgStart = s.fgStart ∧ (s.setCore n x).paths = s.paths ∧
    (s.setCore n x).lanes = s.lanes ∧ (s.setCore n x).winLoads = s.winLoads ∧ (s.setCore n x).slcRam = s.slcRam ∧
    (s.setCore n x).prods = s.prods ∧ (s.setCore n x).specs = s.specs ∧ (s.setCore n x).maskRes = s.maskRes ∧
    (s.setCore n x).gapNow = s.gapNow ∧ (s.setCore n x).masks = s.masks ∧ (s.setCore n x).traceClr = s.traceClr ∧
    (s.setCore n x).beatTimes = s.beatTimes ∧ (s.setCore n x).emits = s.emits ∧
    (s.setCore n x).strShadow = s.strShadow ∧ (s.setCore n x).strActive = s.strActive ∧
    (s.setCore n x).streams = s.streams ∧ (s.setCore n x).hconsLo = s.hconsLo ∧ (s.setCore n x).volumes = s.volumes ∧
    (s.setCore n x).pci = s.pci ∧ (s.setCore n x).drives = s.drives ∧ (s.setCore n x).nvCmds = s.nvCmds ∧
    (s.setCore n x).ifs = s.ifs ∧ (s.setCore n x).filters = s.filters ∧ (s.setCore n x).hops = s.hops ∧
    (s.setCore n x).nbr = s.nbr ∧ (s.setCore n x).txCtx = s.txCtx ∧ (s.setCore n x).txDue = s.txDue ∧
    (s.setCore n x).log = s.log ∧ (s.setCore n x).lastCls = s.lastCls ∧ (s.setCore n x).isolated = s.isolated ∧
    (s.setCore n x).faultLow = s.faultLow ∧ (s.setCore n x).stepNo = s.stepNo ∧
    (s.setCore n x).wakeHeld = s.wakeHeld ∧ (s.setCore n x).pwrReply = s.pwrReply ∧ (s.setCore n x).pwrAt = s.pwrAt ∧
    (s.setCore n x).resetAt = s.resetAt ∧ (s.setCore n x).hibernated = s.hibernated ∧
    (s.setCore n x).fromWarm = s.fromWarm ∧ (s.setCore n x).firstRunAt = s.firstRunAt ∧
    (s.setCore n x).sessions = s.sessions ∧ (s.setCore n x).sessNo = s.sessNo ∧ (s.setCore n x).update = s.update ∧
    (s.setCore n x).challenge = s.challenge ∧ (s.setCore n x).identBad = s.identBad ∧
    (s.setCore n x).ownerRunning = s.ownerRunning ∧ (s.setCore n x).cyc = s.cyc ∧ (s.setCore n x).ppe = s.ppe ∧
    (s.setCore n x).dma = s.dma ∧ (s.setCore n x).wakeReq = s.wakeReq ∧ (s.setCore n x).units = s.units ∧
    (s.setCore n x).conds = s.conds ∧ (s.setCore n x).armReq = s.armReq ∧ (s.setCore n x).disReq = s.disReq ∧
    (s.setCore n x).forceReq = s.forceReq ∧ (s.setCore n x).pulses = s.pulses ∧
    (s.setCore n x).patWords = s.patWords ∧ (s.setCore n x).patHist = s.patHist ∧
    (s.setCore n x).ppeTrig = s.ppeTrig ∧ (s.setCore n x).figures = s.figures ∧ (s.setCore n x).cars = s.cars ∧
    (s.setCore n x).carIn = s.carIn ∧ (s.setCore n x).timeJump = s.timeJump ∧ (s.setCore n x).denCells = s.denCells ∧
    (s.setCore n x).den = s.den ∧ (s.setCore n x).denWait = s.denWait ∧ (s.setCore n x).denRun = s.denRun ∧
    (s.setCore n x).denMarks = s.denMarks ∧ (s.setCore n x).denF = s.denF ∧ (s.setCore n x).denSat = s.denSat ∧
    (s.setCore n x).rgnPast = s.rgnPast ∧ (s.setCore n x).corr = s.corr ∧ (s.setCore n x).corrNext = s.corrNext ∧
    (s.setCore n x).corrDump = s.corrDump ∧ (s.setCore n x).corrF = s.corrF ∧ (s.setCore n x).time = s.time ∧
    (s.setCore n x).vecPend = s.vecPend ∧ (s.setCore n x).ptp = s.ptp ∧ (s.setCore n x).mem = s.mem ∧
    (s.setCore n x).tokens = s.tokens ∧ (s.setCore n x).echoes = s.echoes ∧ (s.setCore n x).pm = s.pm ∧
    (s.setCore n x).bt = s.bt ∧ (s.setCore n x).ext = s.ext ∧ (∀ r, (s.setCore n x).rd r = s.rd r) ∧
    (∀ r, (s.setCore n x).rdA r = s.rdA r) :=
  by and_intros <;> first | rfl | exact fun _ => rfl

@[simp] theorem State.setPath_frame (n : Nat) (x : PathSt) :
    (s.setPath n x).pending = s.pending ∧ (s.setPath n x).out = s.out ∧ (s.setPath n x).free = s.free ∧
    (s.setPath n x).regs = s.regs ∧ (s.setPath n x).active = s.active ∧ (s.setPath n x).inBeat = s.inBeat ∧
    (s.setPath n x).latch = s.latch ∧ (s.setPath n x).latched = s.latched ∧ (s.setPath n x).locks = s.locks ∧
    (s.setPath n x).mbx = s.mbx ∧ (s.setPath n x).hbm = s.hbm ∧ (s.setPath n x).sram = s.sram ∧
    (s.setPath n x).msix = s.msix ∧ (s.setPath n x).pba = s.pba ∧ (s.setPath n x).fuses = s.fuses ∧
    (s.setPath n x).store = s.store ∧ (s.setPath n x).flash = s.flash ∧ (s.setPath n x).devId = s.devId ∧
    (s.setPath n x).devIdRec = s.devIdRec ∧ (s.setPath n x).fwVersion = s.fwVersion ∧
    (s.setPath n x).fwSvn = s.fwSvn ∧ (s.setPath n x).doorbells = s.doorbells ∧ (s.setPath n x).inHand = s.inHand ∧
    (s.setPath n x).netQueue = s.netQueue ∧ (s.setPath n x).tick = s.tick ∧ (s.setPath n x).tickets = s.tickets ∧
    (s.setPath n x).past = s.past ∧ (s.setPath n x).ticketNo = s.ticketNo ∧ (s.setPath n x).locked = s.locked ∧
    (s.setPath n x).profile = s.profile ∧ (s.setPath n x).profileBeat = s.profileBeat ∧
    (s.setPath n x).layoutDense = s.layoutDense ∧ (s.setPath n x).coolMode = s.coolMode ∧
    (s.setPath n x).restart = s.restart ∧ (s.setPath n x).running = s.running ∧ (s.setPath n x).runBeat = s.runBeat ∧
    (s.setPath n x).haltDue = s.haltDue ∧ (s.setPath n x).cfgBeat = s.cfgBeat ∧ (s.setPath n x).evtPend = s.evtPend ∧
    (s.setPath n x).cores = s.cores ∧ (s.setPath n x).bypBeat = s.bypBeat ∧ (s.setPath n x).fgStart = s.fgStart ∧
    (s.setPath n x).lanes = s.lanes ∧ (s.setPath n x).winLoads = s.winLoads ∧ (s.setPath n x).slcRam = s.slcRam ∧
    (s.setPath n x).prods = s.prods ∧ (s.setPath n x).specs = s.specs ∧ (s.setPath n x).maskRes = s.maskRes ∧
    (s.setPath n x).gapNow = s.gapNow ∧ (s.setPath n x).masks = s.masks ∧ (s.setPath n x).traceClr = s.traceClr ∧
    (s.setPath n x).beatTimes = s.beatTimes ∧ (s.setPath n x).emits = s.emits ∧
    (s.setPath n x).strShadow = s.strShadow ∧ (s.setPath n x).strActive = s.strActive ∧
    (s.setPath n x).streams = s.streams ∧ (s.setPath n x).hconsLo = s.hconsLo ∧ (s.setPath n x).volumes = s.volumes ∧
    (s.setPath n x).pci = s.pci ∧ (s.setPath n x).drives = s.drives ∧ (s.setPath n x).nvCmds = s.nvCmds ∧
    (s.setPath n x).ifs = s.ifs ∧ (s.setPath n x).filters = s.filters ∧ (s.setPath n x).hops = s.hops ∧
    (s.setPath n x).nbr = s.nbr ∧ (s.setPath n x).txCtx = s.txCtx ∧ (s.setPath n x).txDue = s.txDue ∧
    (s.setPath n x).log = s.log ∧ (s.setPath n x).lastCls = s.lastCls ∧ (s.setPath n x).isolated = s.isolated ∧
    (s.setPath n x).faultLow = s.faultLow ∧ (s.setPath n x).stepNo = s.stepNo ∧
    (s.setPath n x).wakeHeld = s.wakeHeld ∧ (s.setPath n x).pwrReply = s.pwrReply ∧ (s.setPath n x).pwrAt = s.pwrAt ∧
    (s.setPath n x).resetAt = s.resetAt ∧ (s.setPath n x).hibernated = s.hibernated ∧
    (s.setPath n x).fromWarm = s.fromWarm ∧ (s.setPath n x).firstRunAt = s.firstRunAt ∧
    (s.setPath n x).sessions = s.sessions ∧ (s.setPath n x).sessNo = s.sessNo ∧ (s.setPath n x).update = s.update ∧
    (s.setPath n x).challenge = s.challenge ∧ (s.setPath n x).identBad = s.identBad ∧
    (s.setPath n x).ownerRunning = s.ownerRunning ∧ (s.setPath n x).cyc = s.cyc ∧ (s.setPath n x).ppe = s.ppe ∧
    (s.setPath n x).dma = s.dma ∧ (s.setPath n x).wakeReq = s.wakeReq ∧ (s.setPath n x).units = s.units ∧
    (s.setPath n x).conds = s.conds ∧ (s.setPath n x).armReq = s.armReq ∧ (s.setPath n x).disReq = s.disReq ∧
    (s.setPath n x).forceReq = s.forceReq ∧ (s.setPath n x).pulses = s.pulses ∧
    (s.setPath n x).patWords = s.patWords ∧ (s.setPath n x).patHist = s.patHist ∧
    (s.setPath n x).ppeTrig = s.ppeTrig ∧ (s.setPath n x).figures = s.figures ∧ (s.setPath n x).cars = s.cars ∧
    (s.setPath n x).carIn = s.carIn ∧ (s.setPath n x).timeJump = s.timeJump ∧ (s.setPath n x).denCells = s.denCells ∧
    (s.setPath n x).den = s.den ∧ (s.setPath n x).denWait = s.denWait ∧ (s.setPath n x).denRun = s.denRun ∧
    (s.setPath n x).denMarks = s.denMarks ∧ (s.setPath n x).denF = s.denF ∧ (s.setPath n x).denSat = s.denSat ∧
    (s.setPath n x).rgnPast = s.rgnPast ∧ (s.setPath n x).corr = s.corr ∧ (s.setPath n x).corrNext = s.corrNext ∧
    (s.setPath n x).corrDump = s.corrDump ∧ (s.setPath n x).corrF = s.corrF ∧ (s.setPath n x).time = s.time ∧
    (s.setPath n x).vecPend = s.vecPend ∧ (s.setPath n x).ptp = s.ptp ∧ (s.setPath n x).mem = s.mem ∧
    (s.setPath n x).tokens = s.tokens ∧ (s.setPath n x).echoes = s.echoes ∧ (s.setPath n x).pm = s.pm ∧
    (s.setPath n x).bt = s.bt ∧ (s.setPath n x).ext = s.ext ∧ (∀ r, (s.setPath n x).rd r = s.rd r) ∧
    (∀ r, (s.setPath n x).rdA r = s.rdA r) :=
  by and_intros <;> first | rfl | exact fun _ => rfl

@[simp] theorem State.setLane_frame (n : Nat) (x : LaneSt) :
    (s.setLane n x).pending = s.pending ∧ (s.setLane n x).out = s.out ∧ (s.setLane n x).free = s.free ∧
    (s.setLane n x).regs = s.regs ∧ (s.setLane n x).active = s.active ∧ (s.setLane n x).inBeat = s.inBeat ∧
    (s.setLane n x).latch = s.latch ∧ (s.setLane n x).latched = s.latched ∧ (s.setLane n x).locks = s.locks ∧
    (s.setLane n x).mbx = s.mbx ∧ (s.setLane n x).hbm = s.hbm ∧ (s.setLane n x).sram = s.sram ∧
    (s.setLane n x).msix = s.msix ∧ (s.setLane n x).pba = s.pba ∧ (s.setLane n x).fuses = s.fuses ∧
    (s.setLane n x).store = s.store ∧ (s.setLane n x).flash = s.flash ∧ (s.setLane n x).devId = s.devId ∧
    (s.setLane n x).devIdRec = s.devIdRec ∧ (s.setLane n x).fwVersion = s.fwVersion ∧
    (s.setLane n x).fwSvn = s.fwSvn ∧ (s.setLane n x).doorbells = s.doorbells ∧ (s.setLane n x).inHand = s.inHand ∧
    (s.setLane n x).netQueue = s.netQueue ∧ (s.setLane n x).tick = s.tick ∧ (s.setLane n x).tickets = s.tickets ∧
    (s.setLane n x).past = s.past ∧ (s.setLane n x).ticketNo = s.ticketNo ∧ (s.setLane n x).locked = s.locked ∧
    (s.setLane n x).profile = s.profile ∧ (s.setLane n x).profileBeat = s.profileBeat ∧
    (s.setLane n x).layoutDense = s.layoutDense ∧ (s.setLane n x).coolMode = s.coolMode ∧
    (s.setLane n x).restart = s.restart ∧ (s.setLane n x).running = s.running ∧ (s.setLane n x).runBeat = s.runBeat ∧
    (s.setLane n x).haltDue = s.haltDue ∧ (s.setLane n x).cfgBeat = s.cfgBeat ∧ (s.setLane n x).evtPend = s.evtPend ∧
    (s.setLane n x).cores = s.cores ∧ (s.setLane n x).bypBeat = s.bypBeat ∧ (s.setLane n x).fgStart = s.fgStart ∧
    (s.setLane n x).paths = s.paths ∧ (s.setLane n x).winLoads = s.winLoads ∧ (s.setLane n x).slcRam = s.slcRam ∧
    (s.setLane n x).prods = s.prods ∧ (s.setLane n x).specs = s.specs ∧ (s.setLane n x).maskRes = s.maskRes ∧
    (s.setLane n x).gapNow = s.gapNow ∧ (s.setLane n x).masks = s.masks ∧ (s.setLane n x).traceClr = s.traceClr ∧
    (s.setLane n x).beatTimes = s.beatTimes ∧ (s.setLane n x).emits = s.emits ∧
    (s.setLane n x).strShadow = s.strShadow ∧ (s.setLane n x).strActive = s.strActive ∧
    (s.setLane n x).streams = s.streams ∧ (s.setLane n x).hconsLo = s.hconsLo ∧ (s.setLane n x).volumes = s.volumes ∧
    (s.setLane n x).pci = s.pci ∧ (s.setLane n x).drives = s.drives ∧ (s.setLane n x).nvCmds = s.nvCmds ∧
    (s.setLane n x).ifs = s.ifs ∧ (s.setLane n x).filters = s.filters ∧ (s.setLane n x).hops = s.hops ∧
    (s.setLane n x).nbr = s.nbr ∧ (s.setLane n x).txCtx = s.txCtx ∧ (s.setLane n x).txDue = s.txDue ∧
    (s.setLane n x).log = s.log ∧ (s.setLane n x).lastCls = s.lastCls ∧ (s.setLane n x).isolated = s.isolated ∧
    (s.setLane n x).faultLow = s.faultLow ∧ (s.setLane n x).stepNo = s.stepNo ∧
    (s.setLane n x).wakeHeld = s.wakeHeld ∧ (s.setLane n x).pwrReply = s.pwrReply ∧ (s.setLane n x).pwrAt = s.pwrAt ∧
    (s.setLane n x).resetAt = s.resetAt ∧ (s.setLane n x).hibernated = s.hibernated ∧
    (s.setLane n x).fromWarm = s.fromWarm ∧ (s.setLane n x).firstRunAt = s.firstRunAt ∧
    (s.setLane n x).sessions = s.sessions ∧ (s.setLane n x).sessNo = s.sessNo ∧ (s.setLane n x).update = s.update ∧
    (s.setLane n x).challenge = s.challenge ∧ (s.setLane n x).identBad = s.identBad ∧
    (s.setLane n x).ownerRunning = s.ownerRunning ∧ (s.setLane n x).cyc = s.cyc ∧ (s.setLane n x).ppe = s.ppe ∧
    (s.setLane n x).dma = s.dma ∧ (s.setLane n x).wakeReq = s.wakeReq ∧ (s.setLane n x).units = s.units ∧
    (s.setLane n x).conds = s.conds ∧ (s.setLane n x).armReq = s.armReq ∧ (s.setLane n x).disReq = s.disReq ∧
    (s.setLane n x).forceReq = s.forceReq ∧ (s.setLane n x).pulses = s.pulses ∧
    (s.setLane n x).patWords = s.patWords ∧ (s.setLane n x).patHist = s.patHist ∧
    (s.setLane n x).ppeTrig = s.ppeTrig ∧ (s.setLane n x).figures = s.figures ∧ (s.setLane n x).cars = s.cars ∧
    (s.setLane n x).carIn = s.carIn ∧ (s.setLane n x).timeJump = s.timeJump ∧ (s.setLane n x).denCells = s.denCells ∧
    (s.setLane n x).den = s.den ∧ (s.setLane n x).denWait = s.denWait ∧ (s.setLane n x).denRun = s.denRun ∧
    (s.setLane n x).denMarks = s.denMarks ∧ (s.setLane n x).denF = s.denF ∧ (s.setLane n x).denSat = s.denSat ∧
    (s.setLane n x).rgnPast = s.rgnPast ∧ (s.setLane n x).corr = s.corr ∧ (s.setLane n x).corrNext = s.corrNext ∧
    (s.setLane n x).corrDump = s.corrDump ∧ (s.setLane n x).corrF = s.corrF ∧ (s.setLane n x).time = s.time ∧
    (s.setLane n x).vecPend = s.vecPend ∧ (s.setLane n x).ptp = s.ptp ∧ (s.setLane n x).mem = s.mem ∧
    (s.setLane n x).tokens = s.tokens ∧ (s.setLane n x).echoes = s.echoes ∧ (s.setLane n x).pm = s.pm ∧
    (s.setLane n x).bt = s.bt ∧ (s.setLane n x).ext = s.ext ∧ (∀ r, (s.setLane n x).rd r = s.rd r) ∧
    (∀ r, (s.setLane n x).rdA r = s.rdA r) :=
  by and_intros <;> first | rfl | exact fun _ => rfl

@[simp] theorem State.setStream_frame (n : Nat) (x : StreamSt) :
    (s.setStream n x).pending = s.pending ∧ (s.setStream n x).out = s.out ∧ (s.setStream n x).free = s.free ∧
    (s.setStream n x).regs = s.regs ∧ (s.setStream n x).active = s.active ∧ (s.setStream n x).inBeat = s.inBeat ∧
    (s.setStream n x).latch = s.latch ∧ (s.setStream n x).latched = s.latched ∧ (s.setStream n x).locks = s.locks ∧
    (s.setStream n x).mbx = s.mbx ∧ (s.setStream n x).hbm = s.hbm ∧ (s.setStream n x).sram = s.sram ∧
    (s.setStream n x).msix = s.msix ∧ (s.setStream n x).pba = s.pba ∧ (s.setStream n x).fuses = s.fuses ∧
    (s.setStream n x).store = s.store ∧ (s.setStream n x).flash = s.flash ∧ (s.setStream n x).devId = s.devId ∧
    (s.setStream n x).devIdRec = s.devIdRec ∧ (s.setStream n x).fwVersion = s.fwVersion ∧
    (s.setStream n x).fwSvn = s.fwSvn ∧ (s.setStream n x).doorbells = s.doorbells ∧
    (s.setStream n x).inHand = s.inHand ∧ (s.setStream n x).netQueue = s.netQueue ∧ (s.setStream n x).tick = s.tick ∧
    (s.setStream n x).tickets = s.tickets ∧ (s.setStream n x).past = s.past ∧
    (s.setStream n x).ticketNo = s.ticketNo ∧ (s.setStream n x).locked = s.locked ∧
    (s.setStream n x).profile = s.profile ∧ (s.setStream n x).profileBeat = s.profileBeat ∧
    (s.setStream n x).layoutDense = s.layoutDense ∧ (s.setStream n x).coolMode = s.coolMode ∧
    (s.setStream n x).restart = s.restart ∧ (s.setStream n x).running = s.running ∧
    (s.setStream n x).runBeat = s.runBeat ∧ (s.setStream n x).haltDue = s.haltDue ∧
    (s.setStream n x).cfgBeat = s.cfgBeat ∧ (s.setStream n x).evtPend = s.evtPend ∧
    (s.setStream n x).cores = s.cores ∧ (s.setStream n x).bypBeat = s.bypBeat ∧
    (s.setStream n x).fgStart = s.fgStart ∧ (s.setStream n x).paths = s.paths ∧ (s.setStream n x).lanes = s.lanes ∧
    (s.setStream n x).winLoads = s.winLoads ∧ (s.setStream n x).slcRam = s.slcRam ∧
    (s.setStream n x).prods = s.prods ∧ (s.setStream n x).specs = s.specs ∧ (s.setStream n x).maskRes = s.maskRes ∧
    (s.setStream n x).gapNow = s.gapNow ∧ (s.setStream n x).masks = s.masks ∧
    (s.setStream n x).traceClr = s.traceClr ∧ (s.setStream n x).beatTimes = s.beatTimes ∧
    (s.setStream n x).emits = s.emits ∧ (s.setStream n x).strShadow = s.strShadow ∧
    (s.setStream n x).strActive = s.strActive ∧ (s.setStream n x).hconsLo = s.hconsLo ∧
    (s.setStream n x).volumes = s.volumes ∧ (s.setStream n x).pci = s.pci ∧ (s.setStream n x).drives = s.drives ∧
    (s.setStream n x).nvCmds = s.nvCmds ∧ (s.setStream n x).ifs = s.ifs ∧ (s.setStream n x).filters = s.filters ∧
    (s.setStream n x).hops = s.hops ∧ (s.setStream n x).nbr = s.nbr ∧ (s.setStream n x).txCtx = s.txCtx ∧
    (s.setStream n x).txDue = s.txDue ∧ (s.setStream n x).log = s.log ∧ (s.setStream n x).lastCls = s.lastCls ∧
    (s.setStream n x).isolated = s.isolated ∧ (s.setStream n x).faultLow = s.faultLow ∧
    (s.setStream n x).stepNo = s.stepNo ∧ (s.setStream n x).wakeHeld = s.wakeHeld ∧
    (s.setStream n x).pwrReply = s.pwrReply ∧ (s.setStream n x).pwrAt = s.pwrAt ∧
    (s.setStream n x).resetAt = s.resetAt ∧ (s.setStream n x).hibernated = s.hibernated ∧
    (s.setStream n x).fromWarm = s.fromWarm ∧ (s.setStream n x).firstRunAt = s.firstRunAt ∧
    (s.setStream n x).sessions = s.sessions ∧ (s.setStream n x).sessNo = s.sessNo ∧
    (s.setStream n x).update = s.update ∧ (s.setStream n x).challenge = s.challenge ∧
    (s.setStream n x).identBad = s.identBad ∧ (s.setStream n x).ownerRunning = s.ownerRunning ∧
    (s.setStream n x).cyc = s.cyc ∧ (s.setStream n x).ppe = s.ppe ∧ (s.setStream n x).dma = s.dma ∧
    (s.setStream n x).wakeReq = s.wakeReq ∧ (s.setStream n x).units = s.units ∧ (s.setStream n x).conds = s.conds ∧
    (s.setStream n x).armReq = s.armReq ∧ (s.setStream n x).disReq = s.disReq ∧
    (s.setStream n x).forceReq = s.forceReq ∧ (s.setStream n x).pulses = s.pulses ∧
    (s.setStream n x).patWords = s.patWords ∧ (s.setStream n x).patHist = s.patHist ∧
    (s.setStream n x).ppeTrig = s.ppeTrig ∧ (s.setStream n x).figures = s.figures ∧ (s.setStream n x).cars = s.cars ∧
    (s.setStream n x).carIn = s.carIn ∧ (s.setStream n x).timeJump = s.timeJump ∧
    (s.setStream n x).denCells = s.denCells ∧ (s.setStream n x).den = s.den ∧ (s.setStream n x).denWait = s.denWait ∧
    (s.setStream n x).denRun = s.denRun ∧ (s.setStream n x).denMarks = s.denMarks ∧ (s.setStream n x).denF = s.denF ∧
    (s.setStream n x).denSat = s.denSat ∧ (s.setStream n x).rgnPast = s.rgnPast ∧ (s.setStream n x).corr = s.corr ∧
    (s.setStream n x).corrNext = s.corrNext ∧ (s.setStream n x).corrDump = s.corrDump ∧
    (s.setStream n x).corrF = s.corrF ∧ (s.setStream n x).time = s.time ∧ (s.setStream n x).vecPend = s.vecPend ∧
    (s.setStream n x).ptp = s.ptp ∧ (s.setStream n x).mem = s.mem ∧ (s.setStream n x).tokens = s.tokens ∧
    (s.setStream n x).echoes = s.echoes ∧ (s.setStream n x).pm = s.pm ∧ (s.setStream n x).bt = s.bt ∧
    (s.setStream n x).ext = s.ext ∧ (∀ r, (s.setStream n x).rd r = s.rd r) ∧
    (∀ r, (s.setStream n x).rdA r = s.rdA r) :=
  by and_intros <;> first | rfl | exact fun _ => rfl

@[simp] theorem State.setVolume_frame (n : Nat) (x : Volume) :
    (s.setVolume n x).pending = s.pending ∧ (s.setVolume n x).out = s.out ∧ (s.setVolume n x).free = s.free ∧
    (s.setVolume n x).regs = s.regs ∧ (s.setVolume n x).active = s.active ∧ (s.setVolume n x).inBeat = s.inBeat ∧
    (s.setVolume n x).latch = s.latch ∧ (s.setVolume n x).latched = s.latched ∧ (s.setVolume n x).locks = s.locks ∧
    (s.setVolume n x).mbx = s.mbx ∧ (s.setVolume n x).hbm = s.hbm ∧ (s.setVolume n x).sram = s.sram ∧
    (s.setVolume n x).msix = s.msix ∧ (s.setVolume n x).pba = s.pba ∧ (s.setVolume n x).fuses = s.fuses ∧
    (s.setVolume n x).store = s.store ∧ (s.setVolume n x).flash = s.flash ∧ (s.setVolume n x).devId = s.devId ∧
    (s.setVolume n x).devIdRec = s.devIdRec ∧ (s.setVolume n x).fwVersion = s.fwVersion ∧
    (s.setVolume n x).fwSvn = s.fwSvn ∧ (s.setVolume n x).doorbells = s.doorbells ∧
    (s.setVolume n x).inHand = s.inHand ∧ (s.setVolume n x).netQueue = s.netQueue ∧ (s.setVolume n x).tick = s.tick ∧
    (s.setVolume n x).tickets = s.tickets ∧ (s.setVolume n x).past = s.past ∧
    (s.setVolume n x).ticketNo = s.ticketNo ∧ (s.setVolume n x).locked = s.locked ∧
    (s.setVolume n x).profile = s.profile ∧ (s.setVolume n x).profileBeat = s.profileBeat ∧
    (s.setVolume n x).layoutDense = s.layoutDense ∧ (s.setVolume n x).coolMode = s.coolMode ∧
    (s.setVolume n x).restart = s.restart ∧ (s.setVolume n x).running = s.running ∧
    (s.setVolume n x).runBeat = s.runBeat ∧ (s.setVolume n x).haltDue = s.haltDue ∧
    (s.setVolume n x).cfgBeat = s.cfgBeat ∧ (s.setVolume n x).evtPend = s.evtPend ∧
    (s.setVolume n x).cores = s.cores ∧ (s.setVolume n x).bypBeat = s.bypBeat ∧
    (s.setVolume n x).fgStart = s.fgStart ∧ (s.setVolume n x).paths = s.paths ∧ (s.setVolume n x).lanes = s.lanes ∧
    (s.setVolume n x).winLoads = s.winLoads ∧ (s.setVolume n x).slcRam = s.slcRam ∧
    (s.setVolume n x).prods = s.prods ∧ (s.setVolume n x).specs = s.specs ∧ (s.setVolume n x).maskRes = s.maskRes ∧
    (s.setVolume n x).gapNow = s.gapNow ∧ (s.setVolume n x).masks = s.masks ∧
    (s.setVolume n x).traceClr = s.traceClr ∧ (s.setVolume n x).beatTimes = s.beatTimes ∧
    (s.setVolume n x).emits = s.emits ∧ (s.setVolume n x).strShadow = s.strShadow ∧
    (s.setVolume n x).strActive = s.strActive ∧ (s.setVolume n x).streams = s.streams ∧
    (s.setVolume n x).hconsLo = s.hconsLo ∧ (s.setVolume n x).pci = s.pci ∧ (s.setVolume n x).drives = s.drives ∧
    (s.setVolume n x).nvCmds = s.nvCmds ∧ (s.setVolume n x).ifs = s.ifs ∧ (s.setVolume n x).filters = s.filters ∧
    (s.setVolume n x).hops = s.hops ∧ (s.setVolume n x).nbr = s.nbr ∧ (s.setVolume n x).txCtx = s.txCtx ∧
    (s.setVolume n x).txDue = s.txDue ∧ (s.setVolume n x).log = s.log ∧ (s.setVolume n x).lastCls = s.lastCls ∧
    (s.setVolume n x).isolated = s.isolated ∧ (s.setVolume n x).faultLow = s.faultLow ∧
    (s.setVolume n x).stepNo = s.stepNo ∧ (s.setVolume n x).wakeHeld = s.wakeHeld ∧
    (s.setVolume n x).pwrReply = s.pwrReply ∧ (s.setVolume n x).pwrAt = s.pwrAt ∧
    (s.setVolume n x).resetAt = s.resetAt ∧ (s.setVolume n x).hibernated = s.hibernated ∧
    (s.setVolume n x).fromWarm = s.fromWarm ∧ (s.setVolume n x).firstRunAt = s.firstRunAt ∧
    (s.setVolume n x).sessions = s.sessions ∧ (s.setVolume n x).sessNo = s.sessNo ∧
    (s.setVolume n x).update = s.update ∧ (s.setVolume n x).challenge = s.challenge ∧
    (s.setVolume n x).identBad = s.identBad ∧ (s.setVolume n x).ownerRunning = s.ownerRunning ∧
    (s.setVolume n x).cyc = s.cyc ∧ (s.setVolume n x).ppe = s.ppe ∧ (s.setVolume n x).dma = s.dma ∧
    (s.setVolume n x).wakeReq = s.wakeReq ∧ (s.setVolume n x).units = s.units ∧ (s.setVolume n x).conds = s.conds ∧
    (s.setVolume n x).armReq = s.armReq ∧ (s.setVolume n x).disReq = s.disReq ∧
    (s.setVolume n x).forceReq = s.forceReq ∧ (s.setVolume n x).pulses = s.pulses ∧
    (s.setVolume n x).patWords = s.patWords ∧ (s.setVolume n x).patHist = s.patHist ∧
    (s.setVolume n x).ppeTrig = s.ppeTrig ∧ (s.setVolume n x).figures = s.figures ∧ (s.setVolume n x).cars = s.cars ∧
    (s.setVolume n x).carIn = s.carIn ∧ (s.setVolume n x).timeJump = s.timeJump ∧
    (s.setVolume n x).denCells = s.denCells ∧ (s.setVolume n x).den = s.den ∧ (s.setVolume n x).denWait = s.denWait ∧
    (s.setVolume n x).denRun = s.denRun ∧ (s.setVolume n x).denMarks = s.denMarks ∧ (s.setVolume n x).denF = s.denF ∧
    (s.setVolume n x).denSat = s.denSat ∧ (s.setVolume n x).rgnPast = s.rgnPast ∧ (s.setVolume n x).corr = s.corr ∧
    (s.setVolume n x).corrNext = s.corrNext ∧ (s.setVolume n x).corrDump = s.corrDump ∧
    (s.setVolume n x).corrF = s.corrF ∧ (s.setVolume n x).time = s.time ∧ (s.setVolume n x).vecPend = s.vecPend ∧
    (s.setVolume n x).ptp = s.ptp ∧ (s.setVolume n x).mem = s.mem ∧ (s.setVolume n x).tokens = s.tokens ∧
    (s.setVolume n x).echoes = s.echoes ∧ (s.setVolume n x).pm = s.pm ∧ (s.setVolume n x).bt = s.bt ∧
    (s.setVolume n x).ext = s.ext ∧ (∀ r, (s.setVolume n x).rd r = s.rd r) ∧
    (∀ r, (s.setVolume n x).rdA r = s.rdA r) :=
  by and_intros <;> first | rfl | exact fun _ => rfl

@[simp] theorem State.setDrive_frame (n : Nat) (x : Drive) :
    (s.setDrive n x).pending = s.pending ∧ (s.setDrive n x).out = s.out ∧ (s.setDrive n x).free = s.free ∧
    (s.setDrive n x).regs = s.regs ∧ (s.setDrive n x).active = s.active ∧ (s.setDrive n x).inBeat = s.inBeat ∧
    (s.setDrive n x).latch = s.latch ∧ (s.setDrive n x).latched = s.latched ∧ (s.setDrive n x).locks = s.locks ∧
    (s.setDrive n x).mbx = s.mbx ∧ (s.setDrive n x).hbm = s.hbm ∧ (s.setDrive n x).sram = s.sram ∧
    (s.setDrive n x).msix = s.msix ∧ (s.setDrive n x).pba = s.pba ∧ (s.setDrive n x).fuses = s.fuses ∧
    (s.setDrive n x).store = s.store ∧ (s.setDrive n x).flash = s.flash ∧ (s.setDrive n x).devId = s.devId ∧
    (s.setDrive n x).devIdRec = s.devIdRec ∧ (s.setDrive n x).fwVersion = s.fwVersion ∧
    (s.setDrive n x).fwSvn = s.fwSvn ∧ (s.setDrive n x).doorbells = s.doorbells ∧
    (s.setDrive n x).inHand = s.inHand ∧ (s.setDrive n x).netQueue = s.netQueue ∧ (s.setDrive n x).tick = s.tick ∧
    (s.setDrive n x).tickets = s.tickets ∧ (s.setDrive n x).past = s.past ∧ (s.setDrive n x).ticketNo = s.ticketNo ∧
    (s.setDrive n x).locked = s.locked ∧ (s.setDrive n x).profile = s.profile ∧
    (s.setDrive n x).profileBeat = s.profileBeat ∧ (s.setDrive n x).layoutDense = s.layoutDense ∧
    (s.setDrive n x).coolMode = s.coolMode ∧ (s.setDrive n x).restart = s.restart ∧
    (s.setDrive n x).running = s.running ∧ (s.setDrive n x).runBeat = s.runBeat ∧
    (s.setDrive n x).haltDue = s.haltDue ∧ (s.setDrive n x).cfgBeat = s.cfgBeat ∧
    (s.setDrive n x).evtPend = s.evtPend ∧ (s.setDrive n x).cores = s.cores ∧ (s.setDrive n x).bypBeat = s.bypBeat ∧
    (s.setDrive n x).fgStart = s.fgStart ∧ (s.setDrive n x).paths = s.paths ∧ (s.setDrive n x).lanes = s.lanes ∧
    (s.setDrive n x).winLoads = s.winLoads ∧ (s.setDrive n x).slcRam = s.slcRam ∧ (s.setDrive n x).prods = s.prods ∧
    (s.setDrive n x).specs = s.specs ∧ (s.setDrive n x).maskRes = s.maskRes ∧ (s.setDrive n x).gapNow = s.gapNow ∧
    (s.setDrive n x).masks = s.masks ∧ (s.setDrive n x).traceClr = s.traceClr ∧
    (s.setDrive n x).beatTimes = s.beatTimes ∧ (s.setDrive n x).emits = s.emits ∧
    (s.setDrive n x).strShadow = s.strShadow ∧ (s.setDrive n x).strActive = s.strActive ∧
    (s.setDrive n x).streams = s.streams ∧ (s.setDrive n x).hconsLo = s.hconsLo ∧
    (s.setDrive n x).volumes = s.volumes ∧ (s.setDrive n x).pci = s.pci ∧ (s.setDrive n x).nvCmds = s.nvCmds ∧
    (s.setDrive n x).ifs = s.ifs ∧ (s.setDrive n x).filters = s.filters ∧ (s.setDrive n x).hops = s.hops ∧
    (s.setDrive n x).nbr = s.nbr ∧ (s.setDrive n x).txCtx = s.txCtx ∧ (s.setDrive n x).txDue = s.txDue ∧
    (s.setDrive n x).log = s.log ∧ (s.setDrive n x).lastCls = s.lastCls ∧ (s.setDrive n x).isolated = s.isolated ∧
    (s.setDrive n x).faultLow = s.faultLow ∧ (s.setDrive n x).stepNo = s.stepNo ∧
    (s.setDrive n x).wakeHeld = s.wakeHeld ∧ (s.setDrive n x).pwrReply = s.pwrReply ∧
    (s.setDrive n x).pwrAt = s.pwrAt ∧ (s.setDrive n x).resetAt = s.resetAt ∧
    (s.setDrive n x).hibernated = s.hibernated ∧ (s.setDrive n x).fromWarm = s.fromWarm ∧
    (s.setDrive n x).firstRunAt = s.firstRunAt ∧ (s.setDrive n x).sessions = s.sessions ∧
    (s.setDrive n x).sessNo = s.sessNo ∧ (s.setDrive n x).update = s.update ∧
    (s.setDrive n x).challenge = s.challenge ∧ (s.setDrive n x).identBad = s.identBad ∧
    (s.setDrive n x).ownerRunning = s.ownerRunning ∧ (s.setDrive n x).cyc = s.cyc ∧ (s.setDrive n x).ppe = s.ppe ∧
    (s.setDrive n x).dma = s.dma ∧ (s.setDrive n x).wakeReq = s.wakeReq ∧ (s.setDrive n x).units = s.units ∧
    (s.setDrive n x).conds = s.conds ∧ (s.setDrive n x).armReq = s.armReq ∧ (s.setDrive n x).disReq = s.disReq ∧
    (s.setDrive n x).forceReq = s.forceReq ∧ (s.setDrive n x).pulses = s.pulses ∧
    (s.setDrive n x).patWords = s.patWords ∧ (s.setDrive n x).patHist = s.patHist ∧
    (s.setDrive n x).ppeTrig = s.ppeTrig ∧ (s.setDrive n x).figures = s.figures ∧ (s.setDrive n x).cars = s.cars ∧
    (s.setDrive n x).carIn = s.carIn ∧ (s.setDrive n x).timeJump = s.timeJump ∧
    (s.setDrive n x).denCells = s.denCells ∧ (s.setDrive n x).den = s.den ∧ (s.setDrive n x).denWait = s.denWait ∧
    (s.setDrive n x).denRun = s.denRun ∧ (s.setDrive n x).denMarks = s.denMarks ∧ (s.setDrive n x).denF = s.denF ∧
    (s.setDrive n x).denSat = s.denSat ∧ (s.setDrive n x).rgnPast = s.rgnPast ∧ (s.setDrive n x).corr = s.corr ∧
    (s.setDrive n x).corrNext = s.corrNext ∧ (s.setDrive n x).corrDump = s.corrDump ∧
    (s.setDrive n x).corrF = s.corrF ∧ (s.setDrive n x).time = s.time ∧ (s.setDrive n x).vecPend = s.vecPend ∧
    (s.setDrive n x).ptp = s.ptp ∧ (s.setDrive n x).mem = s.mem ∧ (s.setDrive n x).tokens = s.tokens ∧
    (s.setDrive n x).echoes = s.echoes ∧ (s.setDrive n x).pm = s.pm ∧ (s.setDrive n x).bt = s.bt ∧
    (s.setDrive n x).ext = s.ext ∧ (∀ r, (s.setDrive n x).rd r = s.rd r) ∧ (∀ r, (s.setDrive n x).rdA r = s.rdA r) :=
  by and_intros <;> first | rfl | exact fun _ => rfl

@[simp] theorem State.setEthIf_frame (n : Nat) (x : EthIf) :
    (s.setEthIf n x).pending = s.pending ∧ (s.setEthIf n x).out = s.out ∧ (s.setEthIf n x).free = s.free ∧
    (s.setEthIf n x).regs = s.regs ∧ (s.setEthIf n x).active = s.active ∧ (s.setEthIf n x).inBeat = s.inBeat ∧
    (s.setEthIf n x).latch = s.latch ∧ (s.setEthIf n x).latched = s.latched ∧ (s.setEthIf n x).locks = s.locks ∧
    (s.setEthIf n x).mbx = s.mbx ∧ (s.setEthIf n x).hbm = s.hbm ∧ (s.setEthIf n x).sram = s.sram ∧
    (s.setEthIf n x).msix = s.msix ∧ (s.setEthIf n x).pba = s.pba ∧ (s.setEthIf n x).fuses = s.fuses ∧
    (s.setEthIf n x).store = s.store ∧ (s.setEthIf n x).flash = s.flash ∧ (s.setEthIf n x).devId = s.devId ∧
    (s.setEthIf n x).devIdRec = s.devIdRec ∧ (s.setEthIf n x).fwVersion = s.fwVersion ∧
    (s.setEthIf n x).fwSvn = s.fwSvn ∧ (s.setEthIf n x).doorbells = s.doorbells ∧
    (s.setEthIf n x).inHand = s.inHand ∧ (s.setEthIf n x).netQueue = s.netQueue ∧ (s.setEthIf n x).tick = s.tick ∧
    (s.setEthIf n x).tickets = s.tickets ∧ (s.setEthIf n x).past = s.past ∧ (s.setEthIf n x).ticketNo = s.ticketNo ∧
    (s.setEthIf n x).locked = s.locked ∧ (s.setEthIf n x).profile = s.profile ∧
    (s.setEthIf n x).profileBeat = s.profileBeat ∧ (s.setEthIf n x).layoutDense = s.layoutDense ∧
    (s.setEthIf n x).coolMode = s.coolMode ∧ (s.setEthIf n x).restart = s.restart ∧
    (s.setEthIf n x).running = s.running ∧ (s.setEthIf n x).runBeat = s.runBeat ∧
    (s.setEthIf n x).haltDue = s.haltDue ∧ (s.setEthIf n x).cfgBeat = s.cfgBeat ∧
    (s.setEthIf n x).evtPend = s.evtPend ∧ (s.setEthIf n x).cores = s.cores ∧ (s.setEthIf n x).bypBeat = s.bypBeat ∧
    (s.setEthIf n x).fgStart = s.fgStart ∧ (s.setEthIf n x).paths = s.paths ∧ (s.setEthIf n x).lanes = s.lanes ∧
    (s.setEthIf n x).winLoads = s.winLoads ∧ (s.setEthIf n x).slcRam = s.slcRam ∧ (s.setEthIf n x).prods = s.prods ∧
    (s.setEthIf n x).specs = s.specs ∧ (s.setEthIf n x).maskRes = s.maskRes ∧ (s.setEthIf n x).gapNow = s.gapNow ∧
    (s.setEthIf n x).masks = s.masks ∧ (s.setEthIf n x).traceClr = s.traceClr ∧
    (s.setEthIf n x).beatTimes = s.beatTimes ∧ (s.setEthIf n x).emits = s.emits ∧
    (s.setEthIf n x).strShadow = s.strShadow ∧ (s.setEthIf n x).strActive = s.strActive ∧
    (s.setEthIf n x).streams = s.streams ∧ (s.setEthIf n x).hconsLo = s.hconsLo ∧
    (s.setEthIf n x).volumes = s.volumes ∧ (s.setEthIf n x).pci = s.pci ∧ (s.setEthIf n x).drives = s.drives ∧
    (s.setEthIf n x).nvCmds = s.nvCmds ∧ (s.setEthIf n x).filters = s.filters ∧ (s.setEthIf n x).hops = s.hops ∧
    (s.setEthIf n x).nbr = s.nbr ∧ (s.setEthIf n x).txCtx = s.txCtx ∧ (s.setEthIf n x).txDue = s.txDue ∧
    (s.setEthIf n x).log = s.log ∧ (s.setEthIf n x).lastCls = s.lastCls ∧ (s.setEthIf n x).isolated = s.isolated ∧
    (s.setEthIf n x).faultLow = s.faultLow ∧ (s.setEthIf n x).stepNo = s.stepNo ∧
    (s.setEthIf n x).wakeHeld = s.wakeHeld ∧ (s.setEthIf n x).pwrReply = s.pwrReply ∧
    (s.setEthIf n x).pwrAt = s.pwrAt ∧ (s.setEthIf n x).resetAt = s.resetAt ∧
    (s.setEthIf n x).hibernated = s.hibernated ∧ (s.setEthIf n x).fromWarm = s.fromWarm ∧
    (s.setEthIf n x).firstRunAt = s.firstRunAt ∧ (s.setEthIf n x).sessions = s.sessions ∧
    (s.setEthIf n x).sessNo = s.sessNo ∧ (s.setEthIf n x).update = s.update ∧
    (s.setEthIf n x).challenge = s.challenge ∧ (s.setEthIf n x).identBad = s.identBad ∧
    (s.setEthIf n x).ownerRunning = s.ownerRunning ∧ (s.setEthIf n x).cyc = s.cyc ∧ (s.setEthIf n x).ppe = s.ppe ∧
    (s.setEthIf n x).dma = s.dma ∧ (s.setEthIf n x).wakeReq = s.wakeReq ∧ (s.setEthIf n x).units = s.units ∧
    (s.setEthIf n x).conds = s.conds ∧ (s.setEthIf n x).armReq = s.armReq ∧ (s.setEthIf n x).disReq = s.disReq ∧
    (s.setEthIf n x).forceReq = s.forceReq ∧ (s.setEthIf n x).pulses = s.pulses ∧
    (s.setEthIf n x).patWords = s.patWords ∧ (s.setEthIf n x).patHist = s.patHist ∧
    (s.setEthIf n x).ppeTrig = s.ppeTrig ∧ (s.setEthIf n x).figures = s.figures ∧ (s.setEthIf n x).cars = s.cars ∧
    (s.setEthIf n x).carIn = s.carIn ∧ (s.setEthIf n x).timeJump = s.timeJump ∧
    (s.setEthIf n x).denCells = s.denCells ∧ (s.setEthIf n x).den = s.den ∧ (s.setEthIf n x).denWait = s.denWait ∧
    (s.setEthIf n x).denRun = s.denRun ∧ (s.setEthIf n x).denMarks = s.denMarks ∧ (s.setEthIf n x).denF = s.denF ∧
    (s.setEthIf n x).denSat = s.denSat ∧ (s.setEthIf n x).rgnPast = s.rgnPast ∧ (s.setEthIf n x).corr = s.corr ∧
    (s.setEthIf n x).corrNext = s.corrNext ∧ (s.setEthIf n x).corrDump = s.corrDump ∧
    (s.setEthIf n x).corrF = s.corrF ∧ (s.setEthIf n x).time = s.time ∧ (s.setEthIf n x).vecPend = s.vecPend ∧
    (s.setEthIf n x).ptp = s.ptp ∧ (s.setEthIf n x).mem = s.mem ∧ (s.setEthIf n x).tokens = s.tokens ∧
    (s.setEthIf n x).echoes = s.echoes ∧ (s.setEthIf n x).pm = s.pm ∧ (s.setEthIf n x).bt = s.bt ∧
    (s.setEthIf n x).ext = s.ext ∧ (∀ r, (s.setEthIf n x).rd r = s.rd r) ∧ (∀ r, (s.setEthIf n x).rdA r = s.rdA r) :=
  by and_intros <;> first | rfl | exact fun _ => rfl

@[simp] theorem State.setFilter_frame (n : Nat) (x : EthFilter) :
    (s.setFilter n x).pending = s.pending ∧ (s.setFilter n x).out = s.out ∧ (s.setFilter n x).free = s.free ∧
    (s.setFilter n x).regs = s.regs ∧ (s.setFilter n x).active = s.active ∧ (s.setFilter n x).inBeat = s.inBeat ∧
    (s.setFilter n x).latch = s.latch ∧ (s.setFilter n x).latched = s.latched ∧ (s.setFilter n x).locks = s.locks ∧
    (s.setFilter n x).mbx = s.mbx ∧ (s.setFilter n x).hbm = s.hbm ∧ (s.setFilter n x).sram = s.sram ∧
    (s.setFilter n x).msix = s.msix ∧ (s.setFilter n x).pba = s.pba ∧ (s.setFilter n x).fuses = s.fuses ∧
    (s.setFilter n x).store = s.store ∧ (s.setFilter n x).flash = s.flash ∧ (s.setFilter n x).devId = s.devId ∧
    (s.setFilter n x).devIdRec = s.devIdRec ∧ (s.setFilter n x).fwVersion = s.fwVersion ∧
    (s.setFilter n x).fwSvn = s.fwSvn ∧ (s.setFilter n x).doorbells = s.doorbells ∧
    (s.setFilter n x).inHand = s.inHand ∧ (s.setFilter n x).netQueue = s.netQueue ∧ (s.setFilter n x).tick = s.tick ∧
    (s.setFilter n x).tickets = s.tickets ∧ (s.setFilter n x).past = s.past ∧
    (s.setFilter n x).ticketNo = s.ticketNo ∧ (s.setFilter n x).locked = s.locked ∧
    (s.setFilter n x).profile = s.profile ∧ (s.setFilter n x).profileBeat = s.profileBeat ∧
    (s.setFilter n x).layoutDense = s.layoutDense ∧ (s.setFilter n x).coolMode = s.coolMode ∧
    (s.setFilter n x).restart = s.restart ∧ (s.setFilter n x).running = s.running ∧
    (s.setFilter n x).runBeat = s.runBeat ∧ (s.setFilter n x).haltDue = s.haltDue ∧
    (s.setFilter n x).cfgBeat = s.cfgBeat ∧ (s.setFilter n x).evtPend = s.evtPend ∧
    (s.setFilter n x).cores = s.cores ∧ (s.setFilter n x).bypBeat = s.bypBeat ∧
    (s.setFilter n x).fgStart = s.fgStart ∧ (s.setFilter n x).paths = s.paths ∧ (s.setFilter n x).lanes = s.lanes ∧
    (s.setFilter n x).winLoads = s.winLoads ∧ (s.setFilter n x).slcRam = s.slcRam ∧
    (s.setFilter n x).prods = s.prods ∧ (s.setFilter n x).specs = s.specs ∧ (s.setFilter n x).maskRes = s.maskRes ∧
    (s.setFilter n x).gapNow = s.gapNow ∧ (s.setFilter n x).masks = s.masks ∧
    (s.setFilter n x).traceClr = s.traceClr ∧ (s.setFilter n x).beatTimes = s.beatTimes ∧
    (s.setFilter n x).emits = s.emits ∧ (s.setFilter n x).strShadow = s.strShadow ∧
    (s.setFilter n x).strActive = s.strActive ∧ (s.setFilter n x).streams = s.streams ∧
    (s.setFilter n x).hconsLo = s.hconsLo ∧ (s.setFilter n x).volumes = s.volumes ∧ (s.setFilter n x).pci = s.pci ∧
    (s.setFilter n x).drives = s.drives ∧ (s.setFilter n x).nvCmds = s.nvCmds ∧ (s.setFilter n x).ifs = s.ifs ∧
    (s.setFilter n x).hops = s.hops ∧ (s.setFilter n x).nbr = s.nbr ∧ (s.setFilter n x).txCtx = s.txCtx ∧
    (s.setFilter n x).txDue = s.txDue ∧ (s.setFilter n x).log = s.log ∧ (s.setFilter n x).lastCls = s.lastCls ∧
    (s.setFilter n x).isolated = s.isolated ∧ (s.setFilter n x).faultLow = s.faultLow ∧
    (s.setFilter n x).stepNo = s.stepNo ∧ (s.setFilter n x).wakeHeld = s.wakeHeld ∧
    (s.setFilter n x).pwrReply = s.pwrReply ∧ (s.setFilter n x).pwrAt = s.pwrAt ∧
    (s.setFilter n x).resetAt = s.resetAt ∧ (s.setFilter n x).hibernated = s.hibernated ∧
    (s.setFilter n x).fromWarm = s.fromWarm ∧ (s.setFilter n x).firstRunAt = s.firstRunAt ∧
    (s.setFilter n x).sessions = s.sessions ∧ (s.setFilter n x).sessNo = s.sessNo ∧
    (s.setFilter n x).update = s.update ∧ (s.setFilter n x).challenge = s.challenge ∧
    (s.setFilter n x).identBad = s.identBad ∧ (s.setFilter n x).ownerRunning = s.ownerRunning ∧
    (s.setFilter n x).cyc = s.cyc ∧ (s.setFilter n x).ppe = s.ppe ∧ (s.setFilter n x).dma = s.dma ∧
    (s.setFilter n x).wakeReq = s.wakeReq ∧ (s.setFilter n x).units = s.units ∧ (s.setFilter n x).conds = s.conds ∧
    (s.setFilter n x).armReq = s.armReq ∧ (s.setFilter n x).disReq = s.disReq ∧
    (s.setFilter n x).forceReq = s.forceReq ∧ (s.setFilter n x).pulses = s.pulses ∧
    (s.setFilter n x).patWords = s.patWords ∧ (s.setFilter n x).patHist = s.patHist ∧
    (s.setFilter n x).ppeTrig = s.ppeTrig ∧ (s.setFilter n x).figures = s.figures ∧ (s.setFilter n x).cars = s.cars ∧
    (s.setFilter n x).carIn = s.carIn ∧ (s.setFilter n x).timeJump = s.timeJump ∧
    (s.setFilter n x).denCells = s.denCells ∧ (s.setFilter n x).den = s.den ∧ (s.setFilter n x).denWait = s.denWait ∧
    (s.setFilter n x).denRun = s.denRun ∧ (s.setFilter n x).denMarks = s.denMarks ∧ (s.setFilter n x).denF = s.denF ∧
    (s.setFilter n x).denSat = s.denSat ∧ (s.setFilter n x).rgnPast = s.rgnPast ∧ (s.setFilter n x).corr = s.corr ∧
    (s.setFilter n x).corrNext = s.corrNext ∧ (s.setFilter n x).corrDump = s.corrDump ∧
    (s.setFilter n x).corrF = s.corrF ∧ (s.setFilter n x).time = s.time ∧ (s.setFilter n x).vecPend = s.vecPend ∧
    (s.setFilter n x).ptp = s.ptp ∧ (s.setFilter n x).mem = s.mem ∧ (s.setFilter n x).tokens = s.tokens ∧
    (s.setFilter n x).echoes = s.echoes ∧ (s.setFilter n x).pm = s.pm ∧ (s.setFilter n x).bt = s.bt ∧
    (s.setFilter n x).ext = s.ext ∧ (∀ r, (s.setFilter n x).rd r = s.rd r) ∧
    (∀ r, (s.setFilter n x).rdA r = s.rdA r) :=
  by and_intros <;> first | rfl | exact fun _ => rfl

@[simp] theorem State.setNbr_frame (n : Nat) (x : NbrSt) :
    (s.setNbr n x).pending = s.pending ∧ (s.setNbr n x).out = s.out ∧ (s.setNbr n x).free = s.free ∧
    (s.setNbr n x).regs = s.regs ∧ (s.setNbr n x).active = s.active ∧ (s.setNbr n x).inBeat = s.inBeat ∧
    (s.setNbr n x).latch = s.latch ∧ (s.setNbr n x).latched = s.latched ∧ (s.setNbr n x).locks = s.locks ∧
    (s.setNbr n x).mbx = s.mbx ∧ (s.setNbr n x).hbm = s.hbm ∧ (s.setNbr n x).sram = s.sram ∧
    (s.setNbr n x).msix = s.msix ∧ (s.setNbr n x).pba = s.pba ∧ (s.setNbr n x).fuses = s.fuses ∧
    (s.setNbr n x).store = s.store ∧ (s.setNbr n x).flash = s.flash ∧ (s.setNbr n x).devId = s.devId ∧
    (s.setNbr n x).devIdRec = s.devIdRec ∧ (s.setNbr n x).fwVersion = s.fwVersion ∧ (s.setNbr n x).fwSvn = s.fwSvn ∧
    (s.setNbr n x).doorbells = s.doorbells ∧ (s.setNbr n x).inHand = s.inHand ∧
    (s.setNbr n x).netQueue = s.netQueue ∧ (s.setNbr n x).tick = s.tick ∧ (s.setNbr n x).tickets = s.tickets ∧
    (s.setNbr n x).past = s.past ∧ (s.setNbr n x).ticketNo = s.ticketNo ∧ (s.setNbr n x).locked = s.locked ∧
    (s.setNbr n x).profile = s.profile ∧ (s.setNbr n x).profileBeat = s.profileBeat ∧
    (s.setNbr n x).layoutDense = s.layoutDense ∧ (s.setNbr n x).coolMode = s.coolMode ∧
    (s.setNbr n x).restart = s.restart ∧ (s.setNbr n x).running = s.running ∧ (s.setNbr n x).runBeat = s.runBeat ∧
    (s.setNbr n x).haltDue = s.haltDue ∧ (s.setNbr n x).cfgBeat = s.cfgBeat ∧ (s.setNbr n x).evtPend = s.evtPend ∧
    (s.setNbr n x).cores = s.cores ∧ (s.setNbr n x).bypBeat = s.bypBeat ∧ (s.setNbr n x).fgStart = s.fgStart ∧
    (s.setNbr n x).paths = s.paths ∧ (s.setNbr n x).lanes = s.lanes ∧ (s.setNbr n x).winLoads = s.winLoads ∧
    (s.setNbr n x).slcRam = s.slcRam ∧ (s.setNbr n x).prods = s.prods ∧ (s.setNbr n x).specs = s.specs ∧
    (s.setNbr n x).maskRes = s.maskRes ∧ (s.setNbr n x).gapNow = s.gapNow ∧ (s.setNbr n x).masks = s.masks ∧
    (s.setNbr n x).traceClr = s.traceClr ∧ (s.setNbr n x).beatTimes = s.beatTimes ∧ (s.setNbr n x).emits = s.emits ∧
    (s.setNbr n x).strShadow = s.strShadow ∧ (s.setNbr n x).strActive = s.strActive ∧
    (s.setNbr n x).streams = s.streams ∧ (s.setNbr n x).hconsLo = s.hconsLo ∧ (s.setNbr n x).volumes = s.volumes ∧
    (s.setNbr n x).pci = s.pci ∧ (s.setNbr n x).drives = s.drives ∧ (s.setNbr n x).nvCmds = s.nvCmds ∧
    (s.setNbr n x).ifs = s.ifs ∧ (s.setNbr n x).filters = s.filters ∧ (s.setNbr n x).hops = s.hops ∧
    (s.setNbr n x).txCtx = s.txCtx ∧ (s.setNbr n x).txDue = s.txDue ∧ (s.setNbr n x).log = s.log ∧
    (s.setNbr n x).lastCls = s.lastCls ∧ (s.setNbr n x).isolated = s.isolated ∧
    (s.setNbr n x).faultLow = s.faultLow ∧ (s.setNbr n x).stepNo = s.stepNo ∧ (s.setNbr n x).wakeHeld = s.wakeHeld ∧
    (s.setNbr n x).pwrReply = s.pwrReply ∧ (s.setNbr n x).pwrAt = s.pwrAt ∧ (s.setNbr n x).resetAt = s.resetAt ∧
    (s.setNbr n x).hibernated = s.hibernated ∧ (s.setNbr n x).fromWarm = s.fromWarm ∧
    (s.setNbr n x).firstRunAt = s.firstRunAt ∧ (s.setNbr n x).sessions = s.sessions ∧
    (s.setNbr n x).sessNo = s.sessNo ∧ (s.setNbr n x).update = s.update ∧ (s.setNbr n x).challenge = s.challenge ∧
    (s.setNbr n x).identBad = s.identBad ∧ (s.setNbr n x).ownerRunning = s.ownerRunning ∧
    (s.setNbr n x).cyc = s.cyc ∧ (s.setNbr n x).ppe = s.ppe ∧ (s.setNbr n x).dma = s.dma ∧
    (s.setNbr n x).wakeReq = s.wakeReq ∧ (s.setNbr n x).units = s.units ∧ (s.setNbr n x).conds = s.conds ∧
    (s.setNbr n x).armReq = s.armReq ∧ (s.setNbr n x).disReq = s.disReq ∧ (s.setNbr n x).forceReq = s.forceReq ∧
    (s.setNbr n x).pulses = s.pulses ∧ (s.setNbr n x).patWords = s.patWords ∧ (s.setNbr n x).patHist = s.patHist ∧
    (s.setNbr n x).ppeTrig = s.ppeTrig ∧ (s.setNbr n x).figures = s.figures ∧ (s.setNbr n x).cars = s.cars ∧
    (s.setNbr n x).carIn = s.carIn ∧ (s.setNbr n x).timeJump = s.timeJump ∧ (s.setNbr n x).denCells = s.denCells ∧
    (s.setNbr n x).den = s.den ∧ (s.setNbr n x).denWait = s.denWait ∧ (s.setNbr n x).denRun = s.denRun ∧
    (s.setNbr n x).denMarks = s.denMarks ∧ (s.setNbr n x).denF = s.denF ∧ (s.setNbr n x).denSat = s.denSat ∧
    (s.setNbr n x).rgnPast = s.rgnPast ∧ (s.setNbr n x).corr = s.corr ∧ (s.setNbr n x).corrNext = s.corrNext ∧
    (s.setNbr n x).corrDump = s.corrDump ∧ (s.setNbr n x).corrF = s.corrF ∧ (s.setNbr n x).time = s.time ∧
    (s.setNbr n x).vecPend = s.vecPend ∧ (s.setNbr n x).ptp = s.ptp ∧ (s.setNbr n x).mem = s.mem ∧
    (s.setNbr n x).tokens = s.tokens ∧ (s.setNbr n x).echoes = s.echoes ∧ (s.setNbr n x).pm = s.pm ∧
    (s.setNbr n x).bt = s.bt ∧ (s.setNbr n x).ext = s.ext ∧ (∀ r, (s.setNbr n x).rd r = s.rd r) ∧
    (∀ r, (s.setNbr n x).rdA r = s.rdA r) :=
  by and_intros <;> first | rfl | exact fun _ => rfl

@[simp] theorem State.setSession_frame (n : Nat) (x : Option Session) :
    (s.setSession n x).pending = s.pending ∧ (s.setSession n x).out = s.out ∧ (s.setSession n x).free = s.free ∧
    (s.setSession n x).regs = s.regs ∧ (s.setSession n x).active = s.active ∧ (s.setSession n x).inBeat = s.inBeat ∧
    (s.setSession n x).latch = s.latch ∧ (s.setSession n x).latched = s.latched ∧
    (s.setSession n x).locks = s.locks ∧ (s.setSession n x).mbx = s.mbx ∧ (s.setSession n x).hbm = s.hbm ∧
    (s.setSession n x).sram = s.sram ∧ (s.setSession n x).msix = s.msix ∧ (s.setSession n x).pba = s.pba ∧
    (s.setSession n x).fuses = s.fuses ∧ (s.setSession n x).store = s.store ∧ (s.setSession n x).flash = s.flash ∧
    (s.setSession n x).devId = s.devId ∧ (s.setSession n x).devIdRec = s.devIdRec ∧
    (s.setSession n x).fwVersion = s.fwVersion ∧ (s.setSession n x).fwSvn = s.fwSvn ∧
    (s.setSession n x).doorbells = s.doorbells ∧ (s.setSession n x).inHand = s.inHand ∧
    (s.setSession n x).netQueue = s.netQueue ∧ (s.setSession n x).tick = s.tick ∧
    (s.setSession n x).tickets = s.tickets ∧ (s.setSession n x).past = s.past ∧
    (s.setSession n x).ticketNo = s.ticketNo ∧ (s.setSession n x).locked = s.locked ∧
    (s.setSession n x).profile = s.profile ∧ (s.setSession n x).profileBeat = s.profileBeat ∧
    (s.setSession n x).layoutDense = s.layoutDense ∧ (s.setSession n x).coolMode = s.coolMode ∧
    (s.setSession n x).restart = s.restart ∧ (s.setSession n x).running = s.running ∧
    (s.setSession n x).runBeat = s.runBeat ∧ (s.setSession n x).haltDue = s.haltDue ∧
    (s.setSession n x).cfgBeat = s.cfgBeat ∧ (s.setSession n x).evtPend = s.evtPend ∧
    (s.setSession n x).cores = s.cores ∧ (s.setSession n x).bypBeat = s.bypBeat ∧
    (s.setSession n x).fgStart = s.fgStart ∧ (s.setSession n x).paths = s.paths ∧
    (s.setSession n x).lanes = s.lanes ∧ (s.setSession n x).winLoads = s.winLoads ∧
    (s.setSession n x).slcRam = s.slcRam ∧ (s.setSession n x).prods = s.prods ∧ (s.setSession n x).specs = s.specs ∧
    (s.setSession n x).maskRes = s.maskRes ∧ (s.setSession n x).gapNow = s.gapNow ∧
    (s.setSession n x).masks = s.masks ∧ (s.setSession n x).traceClr = s.traceClr ∧
    (s.setSession n x).beatTimes = s.beatTimes ∧ (s.setSession n x).emits = s.emits ∧
    (s.setSession n x).strShadow = s.strShadow ∧ (s.setSession n x).strActive = s.strActive ∧
    (s.setSession n x).streams = s.streams ∧ (s.setSession n x).hconsLo = s.hconsLo ∧
    (s.setSession n x).volumes = s.volumes ∧ (s.setSession n x).pci = s.pci ∧ (s.setSession n x).drives = s.drives ∧
    (s.setSession n x).nvCmds = s.nvCmds ∧ (s.setSession n x).ifs = s.ifs ∧ (s.setSession n x).filters = s.filters ∧
    (s.setSession n x).hops = s.hops ∧ (s.setSession n x).nbr = s.nbr ∧ (s.setSession n x).txCtx = s.txCtx ∧
    (s.setSession n x).txDue = s.txDue ∧ (s.setSession n x).log = s.log ∧ (s.setSession n x).lastCls = s.lastCls ∧
    (s.setSession n x).isolated = s.isolated ∧ (s.setSession n x).faultLow = s.faultLow ∧
    (s.setSession n x).stepNo = s.stepNo ∧ (s.setSession n x).wakeHeld = s.wakeHeld ∧
    (s.setSession n x).pwrReply = s.pwrReply ∧ (s.setSession n x).pwrAt = s.pwrAt ∧
    (s.setSession n x).resetAt = s.resetAt ∧ (s.setSession n x).hibernated = s.hibernated ∧
    (s.setSession n x).fromWarm = s.fromWarm ∧ (s.setSession n x).firstRunAt = s.firstRunAt ∧
    (s.setSession n x).sessNo = s.sessNo ∧ (s.setSession n x).update = s.update ∧
    (s.setSession n x).challenge = s.challenge ∧ (s.setSession n x).identBad = s.identBad ∧
    (s.setSession n x).ownerRunning = s.ownerRunning ∧ (s.setSession n x).cyc = s.cyc ∧
    (s.setSession n x).ppe = s.ppe ∧ (s.setSession n x).dma = s.dma ∧ (s.setSession n x).wakeReq = s.wakeReq ∧
    (s.setSession n x).units = s.units ∧ (s.setSession n x).conds = s.conds ∧ (s.setSession n x).armReq = s.armReq ∧
    (s.setSession n x).disReq = s.disReq ∧ (s.setSession n x).forceReq = s.forceReq ∧
    (s.setSession n x).pulses = s.pulses ∧ (s.setSession n x).patWords = s.patWords ∧
    (s.setSession n x).patHist = s.patHist ∧ (s.setSession n x).ppeTrig = s.ppeTrig ∧
    (s.setSession n x).figures = s.figures ∧ (s.setSession n x).cars = s.cars ∧ (s.setSession n x).carIn = s.carIn ∧
    (s.setSession n x).timeJump = s.timeJump ∧ (s.setSession n x).denCells = s.denCells ∧
    (s.setSession n x).den = s.den ∧ (s.setSession n x).denWait = s.denWait ∧ (s.setSession n x).denRun = s.denRun ∧
    (s.setSession n x).denMarks = s.denMarks ∧ (s.setSession n x).denF = s.denF ∧
    (s.setSession n x).denSat = s.denSat ∧ (s.setSession n x).rgnPast = s.rgnPast ∧
    (s.setSession n x).corr = s.corr ∧ (s.setSession n x).corrNext = s.corrNext ∧
    (s.setSession n x).corrDump = s.corrDump ∧ (s.setSession n x).corrF = s.corrF ∧
    (s.setSession n x).time = s.time ∧ (s.setSession n x).vecPend = s.vecPend ∧ (s.setSession n x).ptp = s.ptp ∧
    (s.setSession n x).mem = s.mem ∧ (s.setSession n x).tokens = s.tokens ∧ (s.setSession n x).echoes = s.echoes ∧
    (s.setSession n x).pm = s.pm ∧ (s.setSession n x).bt = s.bt ∧ (s.setSession n x).ext = s.ext ∧
    (∀ r, (s.setSession n x).rd r = s.rd r) ∧ (∀ r, (s.setSession n x).rdA r = s.rdA r) :=
  by and_intros <;> first | rfl | exact fun _ => rfl

@[simp] theorem State.setDma_frame (n : Nat) (x : DmaSt) :
    (s.setDma n x).pending = s.pending ∧ (s.setDma n x).out = s.out ∧ (s.setDma n x).free = s.free ∧
    (s.setDma n x).regs = s.regs ∧ (s.setDma n x).active = s.active ∧ (s.setDma n x).inBeat = s.inBeat ∧
    (s.setDma n x).latch = s.latch ∧ (s.setDma n x).latched = s.latched ∧ (s.setDma n x).locks = s.locks ∧
    (s.setDma n x).mbx = s.mbx ∧ (s.setDma n x).hbm = s.hbm ∧ (s.setDma n x).sram = s.sram ∧
    (s.setDma n x).msix = s.msix ∧ (s.setDma n x).pba = s.pba ∧ (s.setDma n x).fuses = s.fuses ∧
    (s.setDma n x).store = s.store ∧ (s.setDma n x).flash = s.flash ∧ (s.setDma n x).devId = s.devId ∧
    (s.setDma n x).devIdRec = s.devIdRec ∧ (s.setDma n x).fwVersion = s.fwVersion ∧ (s.setDma n x).fwSvn = s.fwSvn ∧
    (s.setDma n x).doorbells = s.doorbells ∧ (s.setDma n x).inHand = s.inHand ∧
    (s.setDma n x).netQueue = s.netQueue ∧ (s.setDma n x).tick = s.tick ∧ (s.setDma n x).tickets = s.tickets ∧
    (s.setDma n x).past = s.past ∧ (s.setDma n x).ticketNo = s.ticketNo ∧ (s.setDma n x).locked = s.locked ∧
    (s.setDma n x).profile = s.profile ∧ (s.setDma n x).profileBeat = s.profileBeat ∧
    (s.setDma n x).layoutDense = s.layoutDense ∧ (s.setDma n x).coolMode = s.coolMode ∧
    (s.setDma n x).restart = s.restart ∧ (s.setDma n x).running = s.running ∧ (s.setDma n x).runBeat = s.runBeat ∧
    (s.setDma n x).haltDue = s.haltDue ∧ (s.setDma n x).cfgBeat = s.cfgBeat ∧ (s.setDma n x).evtPend = s.evtPend ∧
    (s.setDma n x).cores = s.cores ∧ (s.setDma n x).bypBeat = s.bypBeat ∧ (s.setDma n x).fgStart = s.fgStart ∧
    (s.setDma n x).paths = s.paths ∧ (s.setDma n x).lanes = s.lanes ∧ (s.setDma n x).winLoads = s.winLoads ∧
    (s.setDma n x).slcRam = s.slcRam ∧ (s.setDma n x).prods = s.prods ∧ (s.setDma n x).specs = s.specs ∧
    (s.setDma n x).maskRes = s.maskRes ∧ (s.setDma n x).gapNow = s.gapNow ∧ (s.setDma n x).masks = s.masks ∧
    (s.setDma n x).traceClr = s.traceClr ∧ (s.setDma n x).beatTimes = s.beatTimes ∧ (s.setDma n x).emits = s.emits ∧
    (s.setDma n x).strShadow = s.strShadow ∧ (s.setDma n x).strActive = s.strActive ∧
    (s.setDma n x).streams = s.streams ∧ (s.setDma n x).hconsLo = s.hconsLo ∧ (s.setDma n x).volumes = s.volumes ∧
    (s.setDma n x).pci = s.pci ∧ (s.setDma n x).drives = s.drives ∧ (s.setDma n x).nvCmds = s.nvCmds ∧
    (s.setDma n x).ifs = s.ifs ∧ (s.setDma n x).filters = s.filters ∧ (s.setDma n x).hops = s.hops ∧
    (s.setDma n x).nbr = s.nbr ∧ (s.setDma n x).txCtx = s.txCtx ∧ (s.setDma n x).txDue = s.txDue ∧
    (s.setDma n x).log = s.log ∧ (s.setDma n x).lastCls = s.lastCls ∧ (s.setDma n x).isolated = s.isolated ∧
    (s.setDma n x).faultLow = s.faultLow ∧ (s.setDma n x).stepNo = s.stepNo ∧ (s.setDma n x).wakeHeld = s.wakeHeld ∧
    (s.setDma n x).pwrReply = s.pwrReply ∧ (s.setDma n x).pwrAt = s.pwrAt ∧ (s.setDma n x).resetAt = s.resetAt ∧
    (s.setDma n x).hibernated = s.hibernated ∧ (s.setDma n x).fromWarm = s.fromWarm ∧
    (s.setDma n x).firstRunAt = s.firstRunAt ∧ (s.setDma n x).sessions = s.sessions ∧
    (s.setDma n x).sessNo = s.sessNo ∧ (s.setDma n x).update = s.update ∧ (s.setDma n x).challenge = s.challenge ∧
    (s.setDma n x).identBad = s.identBad ∧ (s.setDma n x).ownerRunning = s.ownerRunning ∧
    (s.setDma n x).cyc = s.cyc ∧ (s.setDma n x).ppe = s.ppe ∧ (s.setDma n x).wakeReq = s.wakeReq ∧
    (s.setDma n x).units = s.units ∧ (s.setDma n x).conds = s.conds ∧ (s.setDma n x).armReq = s.armReq ∧
    (s.setDma n x).disReq = s.disReq ∧ (s.setDma n x).forceReq = s.forceReq ∧ (s.setDma n x).pulses = s.pulses ∧
    (s.setDma n x).patWords = s.patWords ∧ (s.setDma n x).patHist = s.patHist ∧ (s.setDma n x).ppeTrig = s.ppeTrig ∧
    (s.setDma n x).figures = s.figures ∧ (s.setDma n x).cars = s.cars ∧ (s.setDma n x).carIn = s.carIn ∧
    (s.setDma n x).timeJump = s.timeJump ∧ (s.setDma n x).denCells = s.denCells ∧ (s.setDma n x).den = s.den ∧
    (s.setDma n x).denWait = s.denWait ∧ (s.setDma n x).denRun = s.denRun ∧ (s.setDma n x).denMarks = s.denMarks ∧
    (s.setDma n x).denF = s.denF ∧ (s.setDma n x).denSat = s.denSat ∧ (s.setDma n x).rgnPast = s.rgnPast ∧
    (s.setDma n x).corr = s.corr ∧ (s.setDma n x).corrNext = s.corrNext ∧ (s.setDma n x).corrDump = s.corrDump ∧
    (s.setDma n x).corrF = s.corrF ∧ (s.setDma n x).time = s.time ∧ (s.setDma n x).vecPend = s.vecPend ∧
    (s.setDma n x).ptp = s.ptp ∧ (s.setDma n x).mem = s.mem ∧ (s.setDma n x).tokens = s.tokens ∧
    (s.setDma n x).echoes = s.echoes ∧ (s.setDma n x).pm = s.pm ∧ (s.setDma n x).bt = s.bt ∧
    (s.setDma n x).ext = s.ext ∧ (∀ r, (s.setDma n x).rd r = s.rd r) ∧ (∀ r, (s.setDma n x).rdA r = s.rdA r) :=
  by and_intros <;> first | rfl | exact fun _ => rfl

@[simp] theorem State.setLock_frame (n : Nat) (o : Option Nat) :
    (Machine.setLock s n o).pending = s.pending ∧ (Machine.setLock s n o).out = s.out ∧
    (Machine.setLock s n o).free = s.free ∧ (Machine.setLock s n o).regs = s.regs ∧
    (Machine.setLock s n o).active = s.active ∧ (Machine.setLock s n o).inBeat = s.inBeat ∧
    (Machine.setLock s n o).latch = s.latch ∧ (Machine.setLock s n o).latched = s.latched ∧
    (Machine.setLock s n o).mbx = s.mbx ∧ (Machine.setLock s n o).hbm = s.hbm ∧
    (Machine.setLock s n o).sram = s.sram ∧ (Machine.setLock s n o).msix = s.msix ∧
    (Machine.setLock s n o).pba = s.pba ∧ (Machine.setLock s n o).fuses = s.fuses ∧
    (Machine.setLock s n o).store = s.store ∧ (Machine.setLock s n o).flash = s.flash ∧
    (Machine.setLock s n o).devId = s.devId ∧ (Machine.setLock s n o).devIdRec = s.devIdRec ∧
    (Machine.setLock s n o).fwVersion = s.fwVersion ∧ (Machine.setLock s n o).fwSvn = s.fwSvn ∧
    (Machine.setLock s n o).doorbells = s.doorbells ∧ (Machine.setLock s n o).inHand = s.inHand ∧
    (Machine.setLock s n o).netQueue = s.netQueue ∧ (Machine.setLock s n o).tick = s.tick ∧
    (Machine.setLock s n o).tickets = s.tickets ∧ (Machine.setLock s n o).past = s.past ∧
    (Machine.setLock s n o).ticketNo = s.ticketNo ∧ (Machine.setLock s n o).locked = s.locked ∧
    (Machine.setLock s n o).profile = s.profile ∧ (Machine.setLock s n o).profileBeat = s.profileBeat ∧
    (Machine.setLock s n o).layoutDense = s.layoutDense ∧ (Machine.setLock s n o).coolMode = s.coolMode ∧
    (Machine.setLock s n o).restart = s.restart ∧ (Machine.setLock s n o).running = s.running ∧
    (Machine.setLock s n o).runBeat = s.runBeat ∧ (Machine.setLock s n o).haltDue = s.haltDue ∧
    (Machine.setLock s n o).cfgBeat = s.cfgBeat ∧ (Machine.setLock s n o).evtPend = s.evtPend ∧
    (Machine.setLock s n o).cores = s.cores ∧ (Machine.setLock s n o).bypBeat = s.bypBeat ∧
    (Machine.setLock s n o).fgStart = s.fgStart ∧ (Machine.setLock s n o).paths = s.paths ∧
    (Machine.setLock s n o).lanes = s.lanes ∧ (Machine.setLock s n o).winLoads = s.winLoads ∧
    (Machine.setLock s n o).slcRam = s.slcRam ∧ (Machine.setLock s n o).prods = s.prods ∧
    (Machine.setLock s n o).specs = s.specs ∧ (Machine.setLock s n o).maskRes = s.maskRes ∧
    (Machine.setLock s n o).gapNow = s.gapNow ∧ (Machine.setLock s n o).masks = s.masks ∧
    (Machine.setLock s n o).traceClr = s.traceClr ∧ (Machine.setLock s n o).beatTimes = s.beatTimes ∧
    (Machine.setLock s n o).emits = s.emits ∧ (Machine.setLock s n o).strShadow = s.strShadow ∧
    (Machine.setLock s n o).strActive = s.strActive ∧ (Machine.setLock s n o).streams = s.streams ∧
    (Machine.setLock s n o).hconsLo = s.hconsLo ∧ (Machine.setLock s n o).volumes = s.volumes ∧
    (Machine.setLock s n o).pci = s.pci ∧ (Machine.setLock s n o).drives = s.drives ∧
    (Machine.setLock s n o).nvCmds = s.nvCmds ∧ (Machine.setLock s n o).ifs = s.ifs ∧
    (Machine.setLock s n o).filters = s.filters ∧ (Machine.setLock s n o).hops = s.hops ∧
    (Machine.setLock s n o).nbr = s.nbr ∧ (Machine.setLock s n o).txCtx = s.txCtx ∧
    (Machine.setLock s n o).txDue = s.txDue ∧ (Machine.setLock s n o).log = s.log ∧
    (Machine.setLock s n o).lastCls = s.lastCls ∧ (Machine.setLock s n o).isolated = s.isolated ∧
    (Machine.setLock s n o).faultLow = s.faultLow ∧ (Machine.setLock s n o).stepNo = s.stepNo ∧
    (Machine.setLock s n o).wakeHeld = s.wakeHeld ∧ (Machine.setLock s n o).pwrReply = s.pwrReply ∧
    (Machine.setLock s n o).pwrAt = s.pwrAt ∧ (Machine.setLock s n o).resetAt = s.resetAt ∧
    (Machine.setLock s n o).hibernated = s.hibernated ∧ (Machine.setLock s n o).fromWarm = s.fromWarm ∧
    (Machine.setLock s n o).firstRunAt = s.firstRunAt ∧ (Machine.setLock s n o).sessions = s.sessions ∧
    (Machine.setLock s n o).sessNo = s.sessNo ∧ (Machine.setLock s n o).update = s.update ∧
    (Machine.setLock s n o).challenge = s.challenge ∧ (Machine.setLock s n o).identBad = s.identBad ∧
    (Machine.setLock s n o).ownerRunning = s.ownerRunning ∧ (Machine.setLock s n o).cyc = s.cyc ∧
    (Machine.setLock s n o).ppe = s.ppe ∧ (Machine.setLock s n o).dma = s.dma ∧
    (Machine.setLock s n o).wakeReq = s.wakeReq ∧ (Machine.setLock s n o).units = s.units ∧
    (Machine.setLock s n o).conds = s.conds ∧ (Machine.setLock s n o).armReq = s.armReq ∧
    (Machine.setLock s n o).disReq = s.disReq ∧ (Machine.setLock s n o).forceReq = s.forceReq ∧
    (Machine.setLock s n o).pulses = s.pulses ∧ (Machine.setLock s n o).patWords = s.patWords ∧
    (Machine.setLock s n o).patHist = s.patHist ∧ (Machine.setLock s n o).ppeTrig = s.ppeTrig ∧
    (Machine.setLock s n o).figures = s.figures ∧ (Machine.setLock s n o).cars = s.cars ∧
    (Machine.setLock s n o).carIn = s.carIn ∧ (Machine.setLock s n o).timeJump = s.timeJump ∧
    (Machine.setLock s n o).denCells = s.denCells ∧ (Machine.setLock s n o).den = s.den ∧
    (Machine.setLock s n o).denWait = s.denWait ∧ (Machine.setLock s n o).denRun = s.denRun ∧
    (Machine.setLock s n o).denMarks = s.denMarks ∧ (Machine.setLock s n o).denF = s.denF ∧
    (Machine.setLock s n o).denSat = s.denSat ∧ (Machine.setLock s n o).rgnPast = s.rgnPast ∧
    (Machine.setLock s n o).corr = s.corr ∧ (Machine.setLock s n o).corrNext = s.corrNext ∧
    (Machine.setLock s n o).corrDump = s.corrDump ∧ (Machine.setLock s n o).corrF = s.corrF ∧
    (Machine.setLock s n o).time = s.time ∧ (Machine.setLock s n o).vecPend = s.vecPend ∧
    (Machine.setLock s n o).ptp = s.ptp ∧ (Machine.setLock s n o).mem = s.mem ∧
    (Machine.setLock s n o).tokens = s.tokens ∧ (Machine.setLock s n o).echoes = s.echoes ∧
    (Machine.setLock s n o).pm = s.pm ∧ (Machine.setLock s n o).bt = s.bt ∧ (Machine.setLock s n o).ext = s.ext ∧
    (∀ r, (Machine.setLock s n o).rd r = s.rd r) ∧ (∀ r, (Machine.setLock s n o).rdA r = s.rdA r) :=
  by and_intros <;> first | rfl | exact fun _ => rfl

@[simp] theorem State.freeLocks_frame (m : Nat) :
    (Machine.freeLocks s m).pending = s.pending ∧ (Machine.freeLocks s m).out = s.out ∧
    (Machine.freeLocks s m).free = s.free ∧ (Machine.freeLocks s m).regs = s.regs ∧
    (Machine.freeLocks s m).active = s.active ∧ (Machine.freeLocks s m).inBeat = s.inBeat ∧
    (Machine.freeLocks s m).latch = s.latch ∧ (Machine.freeLocks s m).latched = s.latched ∧
    (Machine.freeLocks s m).mbx = s.mbx ∧ (Machine.freeLocks s m).hbm = s.hbm ∧
    (Machine.freeLocks s m).sram = s.sram ∧ (Machine.freeLocks s m).msix = s.msix ∧
    (Machine.freeLocks s m).pba = s.pba ∧ (Machine.freeLocks s m).fuses = s.fuses ∧
    (Machine.freeLocks s m).store = s.store ∧ (Machine.freeLocks s m).flash = s.flash ∧
    (Machine.freeLocks s m).devId = s.devId ∧ (Machine.freeLocks s m).devIdRec = s.devIdRec ∧
    (Machine.freeLocks s m).fwVersion = s.fwVersion ∧ (Machine.freeLocks s m).fwSvn = s.fwSvn ∧
    (Machine.freeLocks s m).doorbells = s.doorbells ∧ (Machine.freeLocks s m).inHand = s.inHand ∧
    (Machine.freeLocks s m).netQueue = s.netQueue ∧ (Machine.freeLocks s m).tick = s.tick ∧
    (Machine.freeLocks s m).tickets = s.tickets ∧ (Machine.freeLocks s m).past = s.past ∧
    (Machine.freeLocks s m).ticketNo = s.ticketNo ∧ (Machine.freeLocks s m).locked = s.locked ∧
    (Machine.freeLocks s m).profile = s.profile ∧ (Machine.freeLocks s m).profileBeat = s.profileBeat ∧
    (Machine.freeLocks s m).layoutDense = s.layoutDense ∧ (Machine.freeLocks s m).coolMode = s.coolMode ∧
    (Machine.freeLocks s m).restart = s.restart ∧ (Machine.freeLocks s m).running = s.running ∧
    (Machine.freeLocks s m).runBeat = s.runBeat ∧ (Machine.freeLocks s m).haltDue = s.haltDue ∧
    (Machine.freeLocks s m).cfgBeat = s.cfgBeat ∧ (Machine.freeLocks s m).evtPend = s.evtPend ∧
    (Machine.freeLocks s m).cores = s.cores ∧ (Machine.freeLocks s m).bypBeat = s.bypBeat ∧
    (Machine.freeLocks s m).fgStart = s.fgStart ∧ (Machine.freeLocks s m).paths = s.paths ∧
    (Machine.freeLocks s m).lanes = s.lanes ∧ (Machine.freeLocks s m).winLoads = s.winLoads ∧
    (Machine.freeLocks s m).slcRam = s.slcRam ∧ (Machine.freeLocks s m).prods = s.prods ∧
    (Machine.freeLocks s m).specs = s.specs ∧ (Machine.freeLocks s m).maskRes = s.maskRes ∧
    (Machine.freeLocks s m).gapNow = s.gapNow ∧ (Machine.freeLocks s m).masks = s.masks ∧
    (Machine.freeLocks s m).traceClr = s.traceClr ∧ (Machine.freeLocks s m).beatTimes = s.beatTimes ∧
    (Machine.freeLocks s m).emits = s.emits ∧ (Machine.freeLocks s m).strShadow = s.strShadow ∧
    (Machine.freeLocks s m).strActive = s.strActive ∧ (Machine.freeLocks s m).streams = s.streams ∧
    (Machine.freeLocks s m).hconsLo = s.hconsLo ∧ (Machine.freeLocks s m).volumes = s.volumes ∧
    (Machine.freeLocks s m).pci = s.pci ∧ (Machine.freeLocks s m).drives = s.drives ∧
    (Machine.freeLocks s m).nvCmds = s.nvCmds ∧ (Machine.freeLocks s m).ifs = s.ifs ∧
    (Machine.freeLocks s m).filters = s.filters ∧ (Machine.freeLocks s m).hops = s.hops ∧
    (Machine.freeLocks s m).nbr = s.nbr ∧ (Machine.freeLocks s m).txCtx = s.txCtx ∧
    (Machine.freeLocks s m).txDue = s.txDue ∧ (Machine.freeLocks s m).log = s.log ∧
    (Machine.freeLocks s m).lastCls = s.lastCls ∧ (Machine.freeLocks s m).isolated = s.isolated ∧
    (Machine.freeLocks s m).faultLow = s.faultLow ∧ (Machine.freeLocks s m).stepNo = s.stepNo ∧
    (Machine.freeLocks s m).wakeHeld = s.wakeHeld ∧ (Machine.freeLocks s m).pwrReply = s.pwrReply ∧
    (Machine.freeLocks s m).pwrAt = s.pwrAt ∧ (Machine.freeLocks s m).resetAt = s.resetAt ∧
    (Machine.freeLocks s m).hibernated = s.hibernated ∧ (Machine.freeLocks s m).fromWarm = s.fromWarm ∧
    (Machine.freeLocks s m).firstRunAt = s.firstRunAt ∧ (Machine.freeLocks s m).sessions = s.sessions ∧
    (Machine.freeLocks s m).sessNo = s.sessNo ∧ (Machine.freeLocks s m).update = s.update ∧
    (Machine.freeLocks s m).challenge = s.challenge ∧ (Machine.freeLocks s m).identBad = s.identBad ∧
    (Machine.freeLocks s m).ownerRunning = s.ownerRunning ∧ (Machine.freeLocks s m).cyc = s.cyc ∧
    (Machine.freeLocks s m).ppe = s.ppe ∧ (Machine.freeLocks s m).dma = s.dma ∧
    (Machine.freeLocks s m).wakeReq = s.wakeReq ∧ (Machine.freeLocks s m).units = s.units ∧
    (Machine.freeLocks s m).conds = s.conds ∧ (Machine.freeLocks s m).armReq = s.armReq ∧
    (Machine.freeLocks s m).disReq = s.disReq ∧ (Machine.freeLocks s m).forceReq = s.forceReq ∧
    (Machine.freeLocks s m).pulses = s.pulses ∧ (Machine.freeLocks s m).patWords = s.patWords ∧
    (Machine.freeLocks s m).patHist = s.patHist ∧ (Machine.freeLocks s m).ppeTrig = s.ppeTrig ∧
    (Machine.freeLocks s m).figures = s.figures ∧ (Machine.freeLocks s m).cars = s.cars ∧
    (Machine.freeLocks s m).carIn = s.carIn ∧ (Machine.freeLocks s m).timeJump = s.timeJump ∧
    (Machine.freeLocks s m).denCells = s.denCells ∧ (Machine.freeLocks s m).den = s.den ∧
    (Machine.freeLocks s m).denWait = s.denWait ∧ (Machine.freeLocks s m).denRun = s.denRun ∧
    (Machine.freeLocks s m).denMarks = s.denMarks ∧ (Machine.freeLocks s m).denF = s.denF ∧
    (Machine.freeLocks s m).denSat = s.denSat ∧ (Machine.freeLocks s m).rgnPast = s.rgnPast ∧
    (Machine.freeLocks s m).corr = s.corr ∧ (Machine.freeLocks s m).corrNext = s.corrNext ∧
    (Machine.freeLocks s m).corrDump = s.corrDump ∧ (Machine.freeLocks s m).corrF = s.corrF ∧
    (Machine.freeLocks s m).time = s.time ∧ (Machine.freeLocks s m).vecPend = s.vecPend ∧
    (Machine.freeLocks s m).ptp = s.ptp ∧ (Machine.freeLocks s m).mem = s.mem ∧
    (Machine.freeLocks s m).tokens = s.tokens ∧ (Machine.freeLocks s m).echoes = s.echoes ∧
    (Machine.freeLocks s m).pm = s.pm ∧ (Machine.freeLocks s m).bt = s.bt ∧ (Machine.freeLocks s m).ext = s.ext ∧
    (∀ r, (Machine.freeLocks s m).rd r = s.rd r) ∧ (∀ r, (Machine.freeLocks s m).rdA r = s.rdA r) :=
  by and_intros <;> first | rfl | exact fun _ => rfl

@[simp] theorem State.core_setCore (n k : Nat) (x : CoreSt) : (s.setCore n x).core k = if k = n then x else s.core k := by
  simp [State.core, State.setCore, Sparse.get_set]

@[simp] theorem State.path_setPath (n k : Nat) (x : PathSt) : (s.setPath n x).path k = if k = n then x else s.path k := by
  simp [State.path, State.setPath, Sparse.get_set]

@[simp] theorem State.lane_setLane (n k : Nat) (x : LaneSt) : (s.setLane n x).lane k = if k = n then x else s.lane k := by
  simp [State.lane, State.setLane, Sparse.get_set]

@[simp] theorem State.stream_setStream (n k : Nat) (x : StreamSt) : (s.setStream n x).stream k = if k = n then x else s.stream k := by
  simp [State.stream, State.setStream, Sparse.get_set]

@[simp] theorem State.volume_setVolume (n k : Nat) (x : Volume) : (s.setVolume n x).volume k = if k = n then x else s.volume k := by
  simp [State.volume, State.setVolume, Sparse.get_set]

@[simp] theorem State.drive_setDrive (n k : Nat) (x : Drive) : (s.setDrive n x).drive k = if k = n then x else s.drive k := by
  simp [State.drive, State.setDrive, Sparse.get_set]

@[simp] theorem State.ethIf_setEthIf (n k : Nat) (x : EthIf) : (s.setEthIf n x).ethIf k = if k = n then x else s.ethIf k := by
  simp [State.ethIf, State.setEthIf, Sparse.get_set]

@[simp] theorem State.filter_setFilter (n k : Nat) (x : EthFilter) : (s.setFilter n x).filter k = if k = n then x else s.filter k := by
  simp [State.filter, State.setFilter, Sparse.get_set]

@[simp] theorem State.nbrPort_setNbr (n k : Nat) (x : NbrSt) : (s.setNbr n x).nbrPort k = if k = n then x else s.nbrPort k := by
  simp [State.nbrPort, State.setNbr, Sparse.get_set]

@[simp] theorem State.session_setSession (n k : Nat) (x : Option Session) : (s.setSession n x).session k = if k = n then x else s.session k := by
  simp [State.session, State.setSession, Sparse.get_set]

@[simp] theorem State.dmaCh_setDma (n k : Nat) (x : DmaSt) : (s.setDma n x).dmaCh k = if k = n then x else s.dmaCh k := by
  simp [State.dmaCh, State.setDma, Sparse.get_set]

/-- A lock belongs to the owner it was given, and every other lock to whom it did. -/
@[simp] theorem lockOwner_setLock (n k : Nat) (o : Option Nat) :
    lockOwner (setLock s n o) k = if k = n then o else lockOwner s k := by
  by_cases h : k = n <;> cases o <;> simp [lockOwner, setLock, Sparse.get_set, h]

end Sys2Proof.Machine
end

