-- ==== Sys2Proof/Laws/Command.lean ====
section
/-! SUPPORT. The laws of the shared operations: what a command that is accepted or refused answers (R8), bit fields, what a
reply leaves alone, and reading bytes back from a byte memory. -/
namespace Sys2Proof.Machine

/-- An accepted command has its effect. -/
theorem command_of_accepted {s : State} {op : Nat} {q : Req} {l : Bool} {c : List (Bool × Nat)} {e : State}
    (h : accepted s op q l c = true) : command s op q l c e = e := by
  simp only [accepted, Bool.and_eq_true, Option.isNone_iff_eq_none] at h
  simp [command, h.1, h.2]

/-- A refused command is its refusal. -/
theorem command_of_gate {s : State} {op : Nat} {q : Req} {l : Bool} {c : List (Bool × Nat)} {e : State} {st : Nat}
    (h : gate s op q l = some st) : command s op q l c e = deny s op q st := by
  simp [command, h]

theorem command_of_fail {s : State} {op : Nat} {q : Req} {l : Bool} {c : List (Bool × Nat)} {e : State} {st : Nat}
    (hg : gate s op q l = none) (h : firstFail c = some st) : command s op q l c e = deny s op q st := by
  simp [command, hg, h]

/-- The first failing check decides: one that fails after checks that pass. -/
theorem firstFail_append_of_pass {a b : List (Bool × Nat)} (h : ∀ p ∈ a, p.1 = false) :
    firstFail (a ++ b) = firstFail b := by
  induction a with
  | nil => rfl
  | cons p t ih =>
    have hp := h p (by simp)
    obtain ⟨c, st⟩ := p
    simp only [List.cons_append, firstFail]
    rw [show c = false from hp]
    simpa using ih (fun x hx => h x (by simp [hx]))

theorem firstFail_eq_none {a : List (Bool × Nat)} : firstFail a = none ↔ ∀ p ∈ a, p.1 = false := by
  induction a with
  | nil => simp [firstFail]
  | cons p t ih =>
    obtain ⟨c, st⟩ := p
    cases c <;> simp [firstFail, ih]

end Sys2Proof.Machine
end

