-- ==== Sys2Proof/Laws/Kept.lean ====
section
/-! SUPPORT. `Kept`: what every command leaves as it found it. The laws of the record updates and of the shared shapes of a
meaning (a choice, a loop, an optional state); one lemma per function of the machine follows in Laws/Kept<file>.lean. -/
namespace Sys2Proof.Machine
variable {Q : Frame} {F : Fuses}

theorem Fuses.Burned.refl (a : Fuses) : Fuses.Burned a a :=
  ⟨rfl, rfl, rfl, rfl, Nat.le_refl _, fun h => h, fun h => h, fun _ h => h⟩

theorem Fuses.Burned.trans {a b c : Fuses} (x : Fuses.Burned a b) (y : Fuses.Burned b c) : Fuses.Burned a c :=
  ⟨y.id.trans x.id, y.cap0.trans x.cap0, y.cap1.trans x.cap1, y.vendorHash.trans x.vendorHash, Nat.le_trans x.svn y.svn,
    fun h => y.svnMax (x.svnMax h), fun h => y.noVendor (x.noVendor h), fun k h => y.ownerHash k (x.ownerHash k h)⟩

/-- A frame that names nothing for a table allows any contents of it. -/
theorem Frame.free {α : Type} {o : Option α} {a : α} (h : o = none) : ∀ m ∈ o, a = m := by simp [h]

/-- An update of fields outside the queue, the fuses and the canonical tables. -/
theorem mk_kept {s : State} {a_out a_free a_latch a_latched a_pba a_store a_devId a_devIdRec a_fwVersion a_fwSvn
    a_doorbells a_inHand a_netQueue a_tick a_tickets a_past a_ticketNo a_locked a_profile a_profileBeat a_layoutDense
    a_coolMode a_restart a_running a_runBeat a_haltDue a_cfgBeat a_evtPend a_cores a_bypBeat a_fgStart a_paths
    a_lanes a_winLoads a_prods a_specs a_maskRes a_gapNow a_masks a_traceClr a_beatTimes a_emits a_strShadow
    a_strActive a_streams a_hconsLo a_volumes a_pci a_drives a_nvCmds a_ifs a_filters a_hops a_nbr a_txCtx a_txDue
    a_log a_lastCls a_isolated a_faultLow a_stepNo a_wakeHeld a_pwrReply a_pwrAt a_resetAt a_hibernated a_fromWarm
    a_firstRunAt a_sessions a_sessNo a_update a_challenge a_identBad a_ownerRunning a_cyc a_ppe a_dma a_wakeReq
    a_units a_conds a_armReq a_disReq a_forceReq a_pulses a_patWords a_patHist a_ppeTrig a_figures a_cars a_carIn
    a_timeJump a_denCells a_den a_denWait a_denRun a_denMarks a_denF a_denSat a_rgnPast a_corr a_corrNext a_corrDump
    a_corrF a_time a_vecPend a_ptp a_mem a_tokens a_echoes a_pm a_bt a_ext} (h : Kept Q F s) :
    Kept Q F (State.mk s.pending a_out a_free s.regs s.active s.inBeat a_latch a_latched s.locks s.mbx s.hbm s.sram s.msix a_pba
    s.fuses a_store s.flash a_devId a_devIdRec a_fwVersion a_fwSvn a_doorbells a_inHand a_netQueue a_tick a_tickets
    a_past a_ticketNo a_locked a_profile a_profileBeat a_layoutDense a_coolMode a_restart a_running a_runBeat
    a_haltDue a_cfgBeat a_evtPend a_cores a_bypBeat a_fgStart a_paths a_lanes a_winLoads s.slcRam a_prods a_specs
    a_maskRes a_gapNow a_masks a_traceClr a_beatTimes a_emits a_strShadow a_strActive a_streams a_hconsLo a_volumes
    a_pci a_drives a_nvCmds a_ifs a_filters a_hops a_nbr a_txCtx a_txDue a_log a_lastCls a_isolated a_faultLow
    a_stepNo a_wakeHeld a_pwrReply a_pwrAt a_resetAt a_hibernated a_fromWarm a_firstRunAt a_sessions a_sessNo
    a_update a_challenge a_identBad a_ownerRunning a_cyc a_ppe a_dma a_wakeReq a_units a_conds a_armReq a_disReq
    a_forceReq a_pulses a_patWords a_patHist a_ppeTrig a_figures a_cars a_carIn a_timeJump a_denCells a_den a_denWait
    a_denRun a_denMarks a_denF a_denSat a_rgnPast a_corr a_corrNext a_corrDump a_corrF a_time a_vecPend a_ptp a_mem
    a_tokens a_echoes a_pm a_bt a_ext) :=
  ⟨h.pending, h.fuses, h.canonical, h.frame⟩

/-- The values in force become those of the present beat. -/
theorem mk_keptActive {s : State} {a_out a_free a_latch a_latched a_pba a_store a_devId a_devIdRec a_fwVersion
    a_fwSvn a_doorbells a_inHand a_netQueue a_tick a_tickets a_past a_ticketNo a_locked a_profile a_profileBeat
    a_layoutDense a_coolMode a_restart a_running a_runBeat a_haltDue a_cfgBeat a_evtPend a_cores a_bypBeat a_fgStart
    a_paths a_lanes a_winLoads a_prods a_specs a_maskRes a_gapNow a_masks a_traceClr a_beatTimes a_emits a_strShadow
    a_strActive a_streams a_hconsLo a_volumes a_pci a_drives a_nvCmds a_ifs a_filters a_hops a_nbr a_txCtx a_txDue
    a_log a_lastCls a_isolated a_faultLow a_stepNo a_wakeHeld a_pwrReply a_pwrAt a_resetAt a_hibernated a_fromWarm
    a_firstRunAt a_sessions a_sessNo a_update a_challenge a_identBad a_ownerRunning a_cyc a_ppe a_dma a_wakeReq
    a_units a_conds a_armReq a_disReq a_forceReq a_pulses a_patWords a_patHist a_ppeTrig a_figures a_cars a_carIn
    a_timeJump a_denCells a_den a_denWait a_denRun a_denMarks a_denF a_denSat a_rgnPast a_corr a_corrNext a_corrDump
    a_corrF a_time a_vecPend a_ptp a_mem a_tokens a_echoes a_pm a_bt a_ext} (h : Kept Q F s) :
    Kept Q F (State.mk s.pending a_out a_free s.regs s.active s.active a_latch a_latched s.locks s.mbx s.hbm s.sram s.msix a_pba
    s.fuses a_store s.flash a_devId a_devIdRec a_fwVersion a_fwSvn a_doorbells a_inHand a_netQueue a_tick a_tickets
    a_past a_ticketNo a_locked a_profile a_profileBeat a_layoutDense a_coolMode a_restart a_running a_runBeat
    a_haltDue a_cfgBeat a_evtPend a_cores a_bypBeat a_fgStart a_paths a_lanes a_winLoads s.slcRam a_prods a_specs
    a_maskRes a_gapNow a_masks a_traceClr a_beatTimes a_emits a_strShadow a_strActive a_streams a_hconsLo a_volumes
    a_pci a_drives a_nvCmds a_ifs a_filters a_hops a_nbr a_txCtx a_txDue a_log a_lastCls a_isolated a_faultLow
    a_stepNo a_wakeHeld a_pwrReply a_pwrAt a_resetAt a_hibernated a_fromWarm a_firstRunAt a_sessions a_sessNo
    a_update a_challenge a_identBad a_ownerRunning a_cyc a_ppe a_dma a_wakeReq a_units a_conds a_armReq a_disReq
    a_forceReq a_pulses a_patWords a_patHist a_ppeTrig a_figures a_cars a_carIn a_timeJump a_denCells a_den a_denWait
    a_denRun a_denMarks a_denF a_denSat a_rgnPast a_corr a_corrNext a_corrDump a_corrF a_time a_vecPend a_ptp a_mem
    a_tokens a_echoes a_pm a_bt a_ext) :=
  ⟨h.pending, h.fuses, { h.canonical with inBeat := h.canonical.active }, h.frame⟩

/-- An update that gives the tables new canonical contents. -/
theorem mk_kept_of {s : State} {a_out a_free a_latch a_latched a_pba a_store a_devId a_devIdRec a_fwVersion a_fwSvn
    a_doorbells a_inHand a_netQueue a_tick a_tickets a_past a_ticketNo a_locked a_profile a_profileBeat a_layoutDense
    a_coolMode a_restart a_running a_runBeat a_haltDue a_cfgBeat a_evtPend a_cores a_bypBeat a_fgStart a_paths
    a_lanes a_winLoads a_prods a_specs a_maskRes a_gapNow a_masks a_traceClr a_beatTimes a_emits a_strShadow
    a_strActive a_streams a_hconsLo a_volumes a_pci a_drives a_nvCmds a_ifs a_filters a_hops a_nbr a_txCtx a_txDue
    a_log a_lastCls a_isolated a_faultLow a_stepNo a_wakeHeld a_pwrReply a_pwrAt a_resetAt a_hibernated a_fromWarm
    a_firstRunAt a_sessions a_sessNo a_update a_challenge a_identBad a_ownerRunning a_cyc a_ppe a_dma a_wakeReq
    a_units a_conds a_armReq a_disReq a_forceReq a_pulses a_patWords a_patHist a_ppeTrig a_figures a_cars a_carIn
    a_timeJump a_denCells a_den a_denWait a_denRun a_denMarks a_denF a_denSat a_rgnPast a_corr a_corrNext a_corrDump
    a_corrF a_time a_vecPend a_ptp a_mem a_tokens a_echoes a_pm a_bt a_ext a_regs a_active a_inBeat a_mbx a_hbm
    a_sram a_flash a_slcRam a_msix a_locks} (h : Kept Q F s)
    (hc : Canonical a_regs a_active a_inBeat a_mbx a_hbm a_sram a_flash a_slcRam a_msix a_locks)
    (hf : Q.Holds a_active a_mbx a_hbm a_sram a_flash a_slcRam a_msix a_locks) :
    Kept Q F (State.mk s.pending a_out a_free a_regs a_active a_inBeat a_latch a_latched a_locks a_mbx a_hbm a_sram a_msix a_pba
    s.fuses a_store a_flash a_devId a_devIdRec a_fwVersion a_fwSvn a_doorbells a_inHand a_netQueue a_tick a_tickets
    a_past a_ticketNo a_locked a_profile a_profileBeat a_layoutDense a_coolMode a_restart a_running a_runBeat
    a_haltDue a_cfgBeat a_evtPend a_cores a_bypBeat a_fgStart a_paths a_lanes a_winLoads a_slcRam a_prods a_specs
    a_maskRes a_gapNow a_masks a_traceClr a_beatTimes a_emits a_strShadow a_strActive a_streams a_hconsLo a_volumes
    a_pci a_drives a_nvCmds a_ifs a_filters a_hops a_nbr a_txCtx a_txDue a_log a_lastCls a_isolated a_faultLow
    a_stepNo a_wakeHeld a_pwrReply a_pwrAt a_resetAt a_hibernated a_fromWarm a_firstRunAt a_sessions a_sessNo
    a_update a_challenge a_identBad a_ownerRunning a_cyc a_ppe a_dma a_wakeReq a_units a_conds a_armReq a_disReq
    a_forceReq a_pulses a_patWords a_patHist a_ppeTrig a_figures a_cars a_carIn a_timeJump a_denCells a_den a_denWait
    a_denRun a_denMarks a_denF a_denSat a_rgnPast a_corr a_corrNext a_corrDump a_corrF a_time a_vecPend a_ptp a_mem
    a_tokens a_echoes a_pm a_bt a_ext) :=
  ⟨h.pending, h.fuses, hc, hf⟩

theorem Kept.regs {s : State} (h : Kept Q F s) : Sparse.wf Regs.dflt s.regs = true := h.canonical.regs

/-- The optional state of a partial function. -/
def KeptOpt (Q : Frame) (F : Fuses) : Option State → Prop
  | none => True
  | some t => Kept Q F t
/-- The same of a state beside a value. -/
def KeptOpt₂ {α : Type} (Q : Frame) (F : Fuses) : Option (α × State) → Prop
  | none => True
  | some t => Kept Q F t.2

theorem keptOpt_none : KeptOpt Q F none := trivial
theorem keptOpt_some {s : State} (h : Kept Q F s) : KeptOpt Q F (some s) := h
theorem KeptOpt.get {o : Option State} {t : State} (h : KeptOpt Q F o) (e : o = some t) : Kept Q F t := by
  subst e; exact h
theorem keptOpt₂_none {α : Type} : KeptOpt₂ (α := α) Q F none := trivial
theorem keptOpt₂_some {α : Type} {a : α} {s : State} (h : Kept Q F s) : KeptOpt₂ Q F (some (a, s)) := h
theorem KeptOpt₂.get {α : Type} {o : Option (α × State)} {a : α} {t : State} (h : KeptOpt₂ Q F o) (e : o = some (a, t)) :
    Kept Q F t := by
  subst e; exact h
/-- The same with the state first. -/
def KeptOpt₁ {α : Type} (Q : Frame) (F : Fuses) : Option (State × α) → Prop
  | none => True
  | some t => Kept Q F t.1
theorem keptOpt₁_none {α : Type} : KeptOpt₁ (α := α) Q F none := trivial
theorem keptOpt₁_some {α : Type} {t : State × α} (h : Kept Q F t.1) : KeptOpt₁ Q F (some t) := h
theorem KeptOpt₁.get {α : Type} {o : Option (State × α)} {a : α} {t : State} (h : KeptOpt₁ Q F o) (e : o = some (t, a)) :
    Kept Q F t := by
  subst e; exact h
theorem ite_keptOpt₁ {α : Type} {c : Prop} [Decidable c] {s t : Option (State × α)} (hs : KeptOpt₁ Q F s)
    (ht : KeptOpt₁ Q F t) : KeptOpt₁ Q F (if c then s else t) := by
  split <;> assumption
theorem Kept.fst {α : Type} {p : State × α} {t : State} {b : α} (h : Kept Q F p.1) (e : p = (t, b)) : Kept Q F t := by
  subst e; exact h
theorem Kept.snd {α : Type} {p : α × State} {t : State} {b : α} (h : Kept Q F p.2) (e : p = (b, t)) : Kept Q F t := by
  subst e; exact h

/-- A state with a name is kept first, then what is made of it. -/
theorem Kept.via (Q : Frame) (F : Fuses) {P : Prop} (s : State) (h : Kept Q F s) (k : Kept Q F s → P) : P := k h

theorem Kept.viaFst {α : Type} (Q : Frame) (F : Fuses) {P : Prop} (p : State × α) (h : Kept Q F p.1)
    (k : Kept Q F p.1 → P) : P := k h
theorem Kept.viaSnd {α : Type} (Q : Frame) (F : Fuses) {P : Prop} (p : α × State) (h : Kept Q F p.2)
    (k : Kept Q F p.2 → P) : P := k h

theorem ite_kept {c : Prop} [Decidable c] {s t : State} (hs : Kept Q F s) (ht : Kept Q F t) :
    Kept Q F (if c then s else t) := by
  split <;> assumption
theorem ite_keptFst {α : Type} {c : Prop} [Decidable c] {s t : State × α} (hs : Kept Q F s.1) (ht : Kept Q F t.1) :
    Kept Q F (if c then s else t).1 := by
  split <;> assumption
theorem ite_keptSnd {α : Type} {c : Prop} [Decidable c] {s t : α × State} (hs : Kept Q F s.2) (ht : Kept Q F t.2) :
    Kept Q F (if c then s else t).2 := by
  split <;> assumption
theorem ite_keptOpt {c : Prop} [Decidable c] {s t : Option State} (hs : KeptOpt Q F s) (ht : KeptOpt Q F t) :
    KeptOpt Q F (if c then s else t) := by
  split <;> assumption
theorem ite_keptOut {c : Prop} [Decidable c] {s t : Host.Outcome State Fault Refusal} (hs : KeptOut Q F s)
    (ht : KeptOut Q F t) : KeptOut Q F (if c then s else t) := by
  split <;> assumption
theorem keptOut_next {s : State} (h : Kept Q F s) : KeptOut Q F (.next s) := h

/-- A loop keeps what each of its turns keeps. -/
theorem forEach_kept {α : Type} {f : α → State → State} (hf : ∀ a s, Kept Q F s → Kept Q F (f a s)) :
    ∀ {l : List α} {s : State}, Kept Q F s → Kept Q F (forEach l s f)
  | [], _, h => h
  | a :: t, s, h => forEach_kept hf (l := t) (hf a s h)

theorem foldl_keptFst {α β : Type} {f : State × β → α → State × β} (hf : ∀ p a, Kept Q F p.1 → Kept Q F (f p a).1) :
    ∀ (l : List α) (p : State × β), Kept Q F p.1 → Kept Q F (l.foldl f p).1
  | [], _, h => h
  | a :: t, p, h => foldl_keptFst hf t (f p a) (hf p a h)

theorem State.wr_kept : ∀ (s : State) (a : Nat) (v : Word), Kept Q F s → Kept Q F (s.wr a v) := fun _ a v h =>
  mk_kept_of h { h.canonical with regs := Sparse.wf_set a v h.canonical.regs } h.frame
theorem State.wrA_kept : ∀ (s : State) (a : Nat) (v : Word), Kept Q F s → (_ : Q.active = none := by assumption) →
    Kept Q F (s.wrA a v) := fun _ a v h _ =>
  mk_kept_of h { h.canonical with active := Sparse.wf_set a v h.canonical.active }
    { h.frame with active := Frame.free ‹_› }

end Sys2Proof.Machine
end

