-- ==== Sys2Proof/Laws/KeptShared.lean ====
section
/-! SUPPORT. `Kept` for every function of Machine/Ops, SafetyNet: one lemma each, cited by those of its callers. -/
namespace Sys2Proof.Machine
variable {Q : Frame} {F : Fuses}

-- Machine/Ops.lean

theorem State.release_kept : ∀ x0 x1, Kept Q F x0 → Kept Q F (State.release x0 x1) := by
  intro x0 x1 h0
  unfold State.release
  repeat' (first
    | with_reducible assumption
    | with_reducible apply mk_kept
    )

theorem State.mbxWrite_kept : ∀ (s : State) (a : Nat) (b : List Byte), Kept Q F s → (_ : Q.mbx = none := by assumption) → Kept Q F (s.mbxWrite a b) :=
  fun _ a b h _ => mk_kept_of h { h.canonical with mbx := Memory.wf_write b a h.canonical.mbx } { h.frame with mbx := Frame.free ‹_› }

theorem State.put_kept : ∀ x0 x1, Kept Q F x0 → Kept Q F (State.put x0 x1) := by
  intro x0 x1 h0
  unfold State.put
  repeat' (first
    | with_reducible assumption
    | with_reducible apply mk_kept
    )

theorem sendMsi_kept : ∀ x0 x1, Kept Q F x0 → Kept Q F (sendMsi x0 x1) := by
  intro x0 x1 h0
  unfold sendMsi
  repeat' (first
    | with_reducible assumption
    | with_reducible apply State.put_kept
    )

theorem vector_kept : ∀ x0 x1, Kept Q F x0 → Kept Q F (vector x0 x1) := by
  intro x0 x1 h0
  unfold vector
  repeat' (first
    | with_reducible assumption
    | with_reducible apply ite_kept
    | with_reducible apply sendMsi_kept
    | with_reducible apply mk_kept
    )

theorem vectorIf_kept : ∀ x0 x1 x2, Kept Q F x0 → Kept Q F (vectorIf x0 x1 x2) := by
  intro x0 x1 x2 h0
  unfold vectorIf
  repeat' (first
    | with_reducible assumption
    | with_reducible apply ite_kept
    | with_reducible apply vector_kept
    )

theorem answerAs_kept : ∀ x0 x1 x2 x3 x4, Kept Q F x0 → (_ : Q.mbx = none := by assumption) → Kept Q F (answerAs x0 x1 x2 x3 x4) := by
  intro x0 x1 x2 x3 x4 h0 _
  unfold answerAs
  repeat' (first
    | with_reducible assumption
    | (extract_lets +onlyGivenNames x; refine Kept.via Q F x ?_ (fun _ => ?_) <;> [subst x; clear_value x])
    | (extract_lets +onlyGivenNames x; clear_value x)
    | with_reducible apply ite_kept
    | with_reducible apply State.release_kept
    | with_reducible apply State.mbxWrite_kept
    | with_reducible apply State.wr_kept
    | with_reducible apply vectorIf_kept
    | with_reducible apply State.put_kept
    | split
    )

theorem answer_kept : ∀ x0 x1 x2 x3, Kept Q F x0 → (_ : Q.mbx = none := by assumption) → Kept Q F (answer x0 x1 x2 x3) := by
  intro x0 x1 x2 x3 h0 _
  unfold answer
  repeat' (first
    | with_reducible assumption
    | with_reducible apply answerAs_kept
    )

theorem reply_kept : ∀ x0 x1 x2 x3 x4, Kept Q F x0 → (_ : Q.mbx = none := by assumption) → Kept Q F (reply x0 x1 x2 x3 x4) := by
  intro x0 x1 x2 x3 x4 h0 _
  unfold reply
  repeat' (first
    | with_reducible assumption
    | with_reducible apply answer_kept
    )

theorem deny_kept : ∀ x0 x1 x2 x3, Kept Q F x0 → (_ : Q.mbx = none := by assumption) → Kept Q F (deny x0 x1 x2 x3) := by
  intro x0 x1 x2 x3 h0 _
  unfold deny
  repeat' (first
    | with_reducible assumption
    | with_reducible apply reply_kept
    )

theorem command_kept : ∀ x0 x1 x2 x3 x4 x5, Kept Q F x0 → Kept Q F x5 → (_ : Q.mbx = none := by assumption) → Kept Q F (command x0 x1 x2 x3 x4 x5) := by
  intro x0 x1 x2 x3 x4 x5 h0 h1 _
  unfold command
  repeat' (first
    | with_reducible assumption
    | with_reducible apply deny_kept
    | split
    )

theorem State.setDma_kept : ∀ x0 x1 x2, Kept Q F x0 → Kept Q F (State.setDma x0 x1 x2) := by
  intro x0 x1 x2 h0
  unfold State.setDma
  repeat' (first
    | with_reducible assumption
    | with_reducible apply mk_kept
    )

theorem State.setB_kept : ∀ x0 x1 x2 x3, Kept Q F x0 → Kept Q F (State.setB x0 x1 x2 x3) := by
  intro x0 x1 x2 x3 h0
  unfold State.setB
  repeat' (first
    | with_reducible assumption
    | with_reducible apply State.wr_kept
    )

theorem State.setF_kept : ∀ x0 x1 x2 x3 x4, Kept Q F x0 → Kept Q F (State.setF x0 x1 x2 x3 x4) := by
  intro x0 x1 x2 x3 x4 h0
  unfold State.setF
  repeat' (first
    | with_reducible assumption
    | with_reducible apply State.wr_kept
    )

theorem State.sramWrite_kept : ∀ (s : State) (a : Nat) (b : List Byte), Kept Q F s → (_ : Q.sram = none := by assumption) → Kept Q F (s.sramWrite a b) :=
  fun _ a b h _ => mk_kept_of h { h.canonical with sram := Memory.wf_write b a h.canonical.sram } { h.frame with sram := Frame.free ‹_› }

theorem wakeCluster_kept : ∀ x0 x1, Kept Q F x0 → Kept Q F (wakeCluster x0 x1) := by
  intro x0 x1 h0
  unfold wakeCluster
  repeat' (first
    | with_reducible assumption
    | with_reducible apply ite_kept
    | with_reducible apply mk_kept
    )

theorem setIdleBeats_kept : ∀ x0 x1 x2, Kept Q F x0 → Kept Q F (setIdleBeats x0 x1 x2) := by
  intro x0 x1 x2 h0
  unfold setIdleBeats
  repeat' (first
    | with_reducible assumption
    | (extract_lets +onlyGivenNames x; clear_value x)
    | with_reducible apply mk_kept
    )

theorem idleBroken_kept : ∀ x0 x1, Kept Q F x0 → Kept Q F (idleBroken x0 x1) := by
  intro x0 x1 h0
  unfold idleBroken
  repeat' (first
    | with_reducible assumption
    | (extract_lets +onlyGivenNames x; refine Kept.via Q F x ?_ (fun _ => ?_) <;> [subst x; clear_value x])
    | (extract_lets +onlyGivenNames x; clear_value x)
    | with_reducible apply ite_kept
    | with_reducible apply setIdleBeats_kept
    )

theorem State.setPpe_kept : ∀ x0 x1 x2, Kept Q F x0 → Kept Q F (State.setPpe x0 x1 x2) := by
  intro x0 x1 x2 h0
  unfold State.setPpe
  repeat' (first
    | with_reducible assumption
    | with_reducible apply State.wr_kept
    | with_reducible apply mk_kept
    )

theorem fire_kept : ∀ x0 x1, Kept Q F x0 → Kept Q F (fire x0 x1) := by
  intro x0 x1 h0
  unfold fire
  repeat' (first
    | with_reducible assumption
    | (extract_lets +onlyGivenNames x; refine Kept.via Q F x ?_ (fun _ => ?_) <;> [subst x; clear_value x])
    | (extract_lets +onlyGivenNames x; clear_value x)
    | with_reducible apply ite_kept
    | (with_reducible apply forEach_kept; intro _ _ _; beta_reduce)
    | with_reducible apply State.put_kept
    | with_reducible apply State.setDma_kept
    | with_reducible apply wakeCluster_kept
    | with_reducible apply idleBroken_kept
    | with_reducible apply State.setPpe_kept
    )

theorem abortReplies_kept : ∀ x0 x1, Kept Q F x0 → (_ : Q.mbx = none := by assumption) → Kept Q F (abortReplies x0 x1) := by
  intro x0 x1 h0 _
  unfold abortReplies
  repeat' (first
    | with_reducible assumption
    | (extract_lets +onlyGivenNames x; clear_value x)
    | (with_reducible apply forEach_kept; intro _ _ _; beta_reduce)
    | with_reducible apply reply_kept
    | with_reducible apply mk_kept
    )

theorem State.addR_kept : ∀ x0 x1 x2, Kept Q F x0 → Kept Q F (State.addR x0 x1 x2) := by
  intro x0 x1 x2 h0
  unfold State.addR
  repeat' (first
    | with_reducible assumption
    | with_reducible apply State.wr_kept
    )

theorem monAsk_kept : ∀ x0 x1 x2, Kept Q F x0 → Kept Q F (monAsk x0 x1 x2) := by
  intro x0 x1 x2 h0
  unfold monAsk
  repeat' (first
    | with_reducible assumption
    | (extract_lets +onlyGivenNames x; clear_value x)
    | with_reducible apply ite_kept
    | with_reducible apply mk_kept
    )

theorem logPut_kept : ∀ x0 x1 x2 x3 x4 x5 x6, Kept Q F x0 → Kept Q F (logPut x0 x1 x2 x3 x4 x5 x6).1 := by
  intro x0 x1 x2 x3 x4 x5 x6 h0
  unfold logPut
  repeat' (first
    | with_reducible assumption
    | (extract_lets +onlyGivenNames x; refine Kept.via Q F x ?_ (fun _ => ?_) <;> [subst x; clear_value x])
    | (extract_lets +onlyGivenNames x; clear_value x)
    | with_reducible apply ite_kept
    | with_reducible apply ite_keptFst
    | dsimp -zeta only
    | with_reducible apply State.setB_kept
    | with_reducible apply State.addR_kept
    | with_reducible apply State.setF_kept
    | with_reducible apply vectorIf_kept
    | with_reducible apply mk_kept
    )

theorem assertFault_kept : ∀ x0, Kept Q F x0 → Kept Q F (assertFault x0) := by
  intro x0 h0
  unfold assertFault
  repeat' (first
    | with_reducible assumption
    | with_reducible apply ite_kept
    | with_reducible apply State.put_kept
    | with_reducible apply mk_kept
    )

theorem isolateEng_kept : ∀ x0 x1, Kept Q F x0 → Kept Q F (isolateEng x0 x1) := by
  intro x0 x1 h0
  unfold isolateEng
  repeat' (first
    | with_reducible assumption
    | with_reducible apply mk_kept
    )

theorem raiseOnce_kept : ∀ x0 x1 x2 x3 x4, Kept Q F x0 → Kept Q F (raiseOnce x0 x1 x2 x3 x4).1 := by
  intro x0 x1 x2 x3 x4 h0
  unfold raiseOnce
  repeat' (first
    | with_reducible assumption
    | (extract_lets +onlyGivenNames x; refine Kept.via Q F x ?_ (fun _ => ?_) <;> [subst x; clear_value x])
    | (extract_lets +onlyGivenNames x; clear_value x)
    | with_reducible apply ite_kept
    | with_reducible apply ite_keptFst
    | dsimp -zeta only
    | with_reducible apply State.setB_kept
    | with_reducible apply State.addR_kept
    | with_reducible apply monAsk_kept
    | with_reducible apply State.wr_kept
    | with_reducible apply logPut_kept
    | with_reducible apply vectorIf_kept
    | with_reducible apply assertFault_kept
    | with_reducible apply isolateEng_kept
    | with_reducible apply State.setF_kept
    | with_reducible apply mk_kept
    )

theorem raise_kept : ∀ x0 x1 x2 x3 x4, Kept Q F x0 → Kept Q F (raise x0 x1 x2 x3 x4) := by
  intro x0 x1 x2 x3 x4 h0
  unfold raise
  repeat' (first
    | with_reducible assumption
    | with_reducible apply ite_kept
    | with_reducible apply raiseOnce_kept
    )

theorem report_kept : ∀ x0 x1 x2, Kept Q F x0 → Kept Q F (report x0 x1 x2) := by
  intro x0 x1 x2 h0
  unfold report
  repeat' (first
    | with_reducible assumption
    | with_reducible apply ite_kept
    | with_reducible apply raise_kept
    )

theorem dmaStop_kept : ∀ x0 x1 x2 x3 x4, Kept Q F x0 → (_ : Q.mbx = none := by assumption) → (_ : Q.sram = none := by assumption) → Kept Q F (dmaStop x0 x1 x2 x3 x4) := by
  intro x0 x1 x2 x3 x4 h0 _ _
  unfold dmaStop
  repeat' (first
    | with_reducible assumption
    | (extract_lets +onlyGivenNames x; refine Kept.via Q F x ?_ (fun _ => ?_) <;> [subst x; clear_value x])
    | (extract_lets +onlyGivenNames x; clear_value x)
    | with_reducible apply ite_kept
    | with_reducible apply State.setB_kept
    | with_reducible apply State.setF_kept
    | with_reducible apply State.sramWrite_kept
    | with_reducible apply State.setDma_kept
    | with_reducible apply vectorIf_kept
    | with_reducible apply fire_kept
    | with_reducible apply abortReplies_kept
    | with_reducible apply report_kept
    )

theorem State.hbmWrite_kept : ∀ (s : State) (a : Nat) (b : List Byte), Kept Q F s → (_ : Q.hbm = none := by assumption) → Kept Q F (s.hbmWrite a b) := by
  intro s a b h _
  refine mk_kept_of h { h.canonical with hbm := ?_ } { h.frame with hbm := Frame.free ‹_› }
  split
  · exact Memory.wf_write b a h.canonical.hbm
  · exact Memory.wf_writeKept _ b a h.canonical.hbm

theorem State.setStream_kept : ∀ x0 x1 x2, Kept Q F x0 → Kept Q F (State.setStream x0 x1 x2) := by
  intro x0 x1 x2 h0
  unfold State.setStream
  repeat' (first
    | with_reducible assumption
    | with_reducible apply mk_kept
    )

theorem State.setCore_kept : ∀ x0 x1 x2, Kept Q F x0 → Kept Q F (State.setCore x0 x1 x2) := by
  intro x0 x1 x2 h0
  unfold State.setCore
  repeat' (first
    | with_reducible assumption
    | with_reducible apply mk_kept
    )

theorem State.wr64_kept : ∀ x0 x1 x2, Kept Q F x0 → Kept Q F (State.wr64 x0 x1 x2) := by
  intro x0 x1 x2 h0
  unfold State.wr64
  repeat' (first
    | with_reducible assumption
    | with_reducible apply State.wr_kept
    )

theorem State.w1c_kept : ∀ x0 x1 x2 x3, Kept Q F x0 → Kept Q F (State.w1c x0 x1 x2 x3) := by
  intro x0 x1 x2 x3 h0
  unfold State.w1c
  repeat' (first
    | with_reducible assumption
    | with_reducible apply State.wr_kept
    )

theorem State.setPath_kept : ∀ x0 x1 x2, Kept Q F x0 → Kept Q F (State.setPath x0 x1 x2) := by
  intro x0 x1 x2 h0
  unfold State.setPath
  repeat' (first
    | with_reducible assumption
    | with_reducible apply mk_kept
    )

theorem State.setVolume_kept : ∀ x0 x1 x2, Kept Q F x0 → Kept Q F (State.setVolume x0 x1 x2) := by
  intro x0 x1 x2 h0
  unfold State.setVolume
  repeat' (first
    | with_reducible assumption
    | with_reducible apply mk_kept
    )

theorem State.setEthIf_kept : ∀ x0 x1 x2, Kept Q F x0 → Kept Q F (State.setEthIf x0 x1 x2) := by
  intro x0 x1 x2 h0
  unfold State.setEthIf
  repeat' (first
    | with_reducible assumption
    | with_reducible apply mk_kept
    )

theorem State.useFree_kept : ∀ x0, Kept Q F x0 → Kept Q F (State.useFree x0) := by
  intro x0 h0
  unfold State.useFree
  repeat' (first
    | with_reducible assumption
    | with_reducible apply mk_kept
    )

theorem State.setLane_kept : ∀ x0 x1 x2, Kept Q F x0 → Kept Q F (State.setLane x0 x1 x2) := by
  intro x0 x1 x2 h0
  unfold State.setLane
  repeat' (first
    | with_reducible assumption
    | with_reducible apply mk_kept
    )

theorem ppeShow_kept : ∀ x0 x1, Kept Q F x0 → Kept Q F (ppeShow x0 x1) := by
  intro x0 x1 h0
  unfold ppeShow
  repeat' (first
    | with_reducible assumption
    | (extract_lets +onlyGivenNames x; refine Kept.via Q F x ?_ (fun _ => ?_) <;> [subst x; clear_value x])
    | (extract_lets +onlyGivenNames x; clear_value x)
    | with_reducible apply ite_kept
    | with_reducible apply State.setF_kept
    | with_reducible apply State.setB_kept
    | with_reducible apply idleBroken_kept
    | split
    )

theorem fireAll_kept : ∀ x0 x1, Kept Q F x0 → Kept Q F (fireAll x0 x1) := by
  intro x0 x1 h0
  unfold fireAll
  repeat' (first
    | with_reducible assumption
    | (with_reducible apply forEach_kept; intro _ _ _; beta_reduce)
    | with_reducible apply fire_kept
    )

theorem State.setNbr_kept : ∀ x0 x1 x2, Kept Q F x0 → Kept Q F (State.setNbr x0 x1 x2) := by
  intro x0 x1 x2 h0
  unfold State.setNbr
  repeat' (first
    | with_reducible assumption
    | with_reducible apply mk_kept
    )

theorem sendFlit_kept : ∀ x0 x1 x2 x3, Kept Q F x0 → Kept Q F (sendFlit x0 x1 x2 x3) := by
  intro x0 x1 x2 x3 h0
  unfold sendFlit
  repeat' (first
    | with_reducible assumption
    | (extract_lets +onlyGivenNames x; refine Kept.via Q F x ?_ (fun _ => ?_) <;> [subst x; clear_value x])
    | (extract_lets +onlyGivenNames x; clear_value x)
    | with_reducible apply ite_kept
    | with_reducible apply State.put_kept
    )

theorem sendRecord_kept : ∀ x0 x1 x2, Kept Q F x0 → Kept Q F (sendRecord x0 x1 x2) := by
  intro x0 x1 x2 h0
  unfold sendRecord
  repeat' (first
    | with_reducible assumption
    | (extract_lets +onlyGivenNames x; refine Kept.via Q F x ?_ (fun _ => ?_) <;> [subst x; clear_value x])
    | (extract_lets +onlyGivenNames x; clear_value x)
    | with_reducible apply ite_kept
    | (with_reducible apply forEach_kept; intro _ _ _; beta_reduce)
    | with_reducible apply sendFlit_kept
    )

theorem unsupported_kept : ∀ x0, Kept Q F x0 → Kept Q F (unsupported x0) := by
  intro x0 h0
  unfold unsupported
  repeat' (first
    | with_reducible assumption
    | (extract_lets +onlyGivenNames x; refine Kept.via Q F x ?_ (fun _ => ?_) <;> [subst x; clear_value x])
    | (extract_lets +onlyGivenNames x; clear_value x)
    | with_reducible apply ite_kept
    | with_reducible apply report_kept
    | with_reducible apply State.put_kept
    | with_reducible apply mk_kept
    | with_reducible apply mk_keptActive
    )

theorem onBar_kept : ∀ x0 x1 x2, Kept Q F x0 → Kept Q F x2 → Kept Q F (onBar x0 x1 x2) := by
  intro x0 x1 x2 h0 h1
  unfold onBar
  repeat' (first
    | with_reducible assumption
    | with_reducible apply ite_kept
    | with_reducible apply unsupported_kept
    )

theorem State.setSession_kept : ∀ x0 x1 x2, Kept Q F x0 → Kept Q F (State.setSession x0 x1 x2) := by
  intro x0 x1 x2 h0
  unfold State.setSession
  repeat' (first
    | with_reducible assumption
    | with_reducible apply mk_kept
    )

theorem faultPin_kept : ∀ x0, Kept Q F x0 → Kept Q F (faultPin x0) := by
  intro x0 h0
  unfold faultPin
  repeat' (first
    | with_reducible assumption
    | (extract_lets +onlyGivenNames x; clear_value x)
    | with_reducible apply ite_kept
    | with_reducible apply State.put_kept
    | with_reducible apply mk_kept
    )

theorem setLock_kept : ∀ (s : State) (n : Nat) (o : Option Nat), Kept Q F s → (_ : Q.locks = none := by assumption) → Kept Q F (setLock s n o) :=
  fun _ n _ h _ => mk_kept_of h { h.canonical with locks := Sparse.wf_set n _ h.canonical.locks } { h.frame with locks := Frame.free ‹_› }

theorem State.addSat_kept : ∀ x0 x1 x2 x3, Kept Q F x0 → Kept Q F (State.addSat x0 x1 x2 x3) := by
  intro x0 x1 x2 x3 h0
  unfold State.addSat
  repeat' (first
    | with_reducible assumption
    | with_reducible apply State.wr_kept
    )

theorem State.slcWrite_kept : ∀ (s : State) (k : Nat) (v : Word), Kept Q F s → (_ : Q.slcRam = none := by assumption) → Kept Q F (s.slcWrite k v) :=
  fun _ k v h _ => mk_kept_of h { h.canonical with slcRam := Sparse.wf_set k v h.canonical.slcRam } { h.frame with slcRam := Frame.free ‹_› }

theorem State.setDrive_kept : ∀ x0 x1 x2, Kept Q F x0 → Kept Q F (State.setDrive x0 x1 x2) := by
  intro x0 x1 x2 h0
  unfold State.setDrive
  repeat' (first
    | with_reducible assumption
    | with_reducible apply mk_kept
    )

theorem State.orR_kept : ∀ x0 x1 x2, Kept Q F x0 → Kept Q F (State.orR x0 x1 x2) := by
  intro x0 x1 x2 h0
  unfold State.orR
  repeat' (first
    | with_reducible assumption
    | with_reducible apply State.wr_kept
    )

theorem State.setFilter_kept : ∀ x0 x1 x2, Kept Q F x0 → Kept Q F (State.setFilter x0 x1 x2) := by
  intro x0 x1 x2 h0
  unfold State.setFilter
  repeat' (first
    | with_reducible assumption
    | with_reducible apply mk_kept
    )

theorem engineStopped_kept : ∀ x0 x1, Kept Q F x0 → Kept Q F (engineStopped x0 x1) := by
  intro x0 x1 h0
  unfold engineStopped
  repeat' (first
    | with_reducible assumption
    | with_reducible apply ppeShow_kept
    | with_reducible apply State.setF_kept
    | with_reducible apply State.setPpe_kept
    )

theorem freeLocks_kept : ∀ (s : State) (m : Nat), Kept Q F s → (_ : Q.locks = none := by assumption) → Kept Q F (freeLocks s m) :=
  fun _ _ h _ => mk_kept_of h { h.canonical with locks := Sparse.wf_filter _ h.canonical.locks } { h.frame with locks := Frame.free ‹_› }

-- Machine/SafetyNet.lean

theorem clearSticky_kept : ∀ x0 x1 x2, Kept Q F x0 → Kept Q F (clearSticky x0 x1 x2) := by
  intro x0 x1 x2 h0
  unfold clearSticky
  repeat' (first
    | with_reducible assumption
    | (extract_lets +onlyGivenNames x; refine Kept.via Q F x ?_ (fun _ => ?_) <;> [subst x; clear_value x])
    | with_reducible apply ite_kept
    | with_reducible apply State.w1c_kept
    | with_reducible apply State.wr_kept
    )

theorem execFltStickyWrite_kept : ∀ x0 x1 x2, Kept Q F x2 → KeptOut Q F (execFltStickyWrite x0 x1 x2) := by
  intro x0 x1 x2 h0
  unfold execFltStickyWrite
  repeat' (first
    | with_reducible assumption
    | with_reducible apply ite_kept
    | with_reducible apply keptOut_next
    | with_reducible apply clearSticky_kept
    )

theorem execFltStatus_kept : ∀ x0 x1, Kept Q F x1 → (_ : Q.mbx = none := by assumption) → KeptOut Q F (execFltStatus x0 x1) := by
  intro x0 x1 h0 _
  unfold execFltStatus
  repeat' (first
    | with_reducible assumption
    | with_reducible apply keptOut_next
    | with_reducible apply command_kept
    | with_reducible apply reply_kept
    )

theorem ackClasses_kept : ∀ x0 x1, Kept Q F x0 → Kept Q F (ackClasses x0 x1) := by
  intro x0 x1 h0
  unfold ackClasses
  repeat' (first
    | with_reducible assumption
    | with_reducible apply faultPin_kept
    | with_reducible apply State.w1c_kept
    )

theorem railFail_kept : ∀ x0 x1, Kept Q F x0 → Kept Q F (railFail x0 x1) := by
  intro x0 x1 h0
  unfold railFail
  repeat' (first
    | with_reducible assumption
    | with_reducible apply ite_kept
    | with_reducible apply report_kept
    | with_reducible apply State.setB_kept
    )

theorem inject_kept : ∀ x0 x1 x2 x3 x4, Kept Q F x0 → Kept Q F (inject x0 x1 x2 x3 x4) := by
  intro x0 x1 x2 x3 x4 h0
  unfold inject
  repeat' (first
    | with_reducible assumption
    | with_reducible apply ite_kept
    | with_reducible apply railFail_kept
    | with_reducible apply raise_kept
    )

theorem setSrcCfg_kept : ∀ x0 x1 x2, Kept Q F x0 → Kept Q F (setSrcCfg x0 x1 x2) := by
  intro x0 x1 x2 h0
  unfold setSrcCfg
  repeat' (first
    | with_reducible assumption
    | (extract_lets +onlyGivenNames x; clear_value x)
    | with_reducible apply State.setF_kept
    )

theorem execFaultReport_kept : ∀ x0 x1 x2 x3, Kept Q F x3 → KeptOut Q F (execFaultReport x0 x1 x2 x3) := by
  intro x0 x1 x2 x3 h0
  unfold execFaultReport
  repeat' (first
    | with_reducible assumption
    | with_reducible apply keptOut_next
    | with_reducible apply report_kept
    | with_reducible apply mk_kept
    )

theorem execFltInjectRegister_kept : ∀ x0 x1, Kept Q F x1 → KeptOut Q F (execFltInjectRegister x0 x1) := by
  intro x0 x1 h0
  unfold execFltInjectRegister
  repeat' (first
    | with_reducible assumption
    | with_reducible apply ite_kept
    | with_reducible apply keptOut_next
    | with_reducible apply inject_kept
    )

theorem clearLog_kept : ∀ x0, Kept Q F x0 → Kept Q F (clearLog x0) := by
  intro x0 h0
  unfold clearLog
  repeat' (first
    | with_reducible assumption
    | with_reducible apply State.setB_kept
    | with_reducible apply State.setF_kept
    | with_reducible apply mk_kept
    )

theorem ackEffect_kept : ∀ x0 x1, Kept Q F x0 → Kept Q F (ackEffect x0 x1) := by
  intro x0 x1 h0
  unfold ackEffect
  repeat' (first
    | with_reducible assumption
    | (extract_lets +onlyGivenNames x; refine Kept.via Q F x ?_ (fun _ => ?_) <;> [subst x; clear_value x])
    | (with_reducible apply forEach_kept; intro _ _ _; beta_reduce)
    | with_reducible apply ackClasses_kept
    | with_reducible apply clearSticky_kept
    | with_reducible apply State.w1c_kept
    )

theorem execFltAck_kept : ∀ x0 x1, Kept Q F x1 → (_ : Q.mbx = none := by assumption) → KeptOut Q F (execFltAck x0 x1) := by
  intro x0 x1 h0 _
  unfold execFltAck
  repeat' (first
    | with_reducible assumption
    | with_reducible apply keptOut_next
    | with_reducible apply command_kept
    | with_reducible apply reply_kept
    | with_reducible apply ackEffect_kept
    )

theorem releaseEng_kept : ∀ x0 x1, Kept Q F x0 → Kept Q F (releaseEng x0 x1) := by
  intro x0 x1 h0
  unfold releaseEng
  repeat' (first
    | with_reducible assumption
    | with_reducible apply ite_kept
    | with_reducible apply engineStopped_kept
    | with_reducible apply mk_kept
    )

theorem execFltRelease_kept : ∀ x0 x1, Kept Q F x1 → (_ : Q.mbx = none := by assumption) → KeptOut Q F (execFltRelease x0 x1) := by
  intro x0 x1 h0 _
  unfold execFltRelease
  repeat' (first
    | with_reducible assumption
    | (extract_lets +onlyGivenNames x; clear_value x)
    | with_reducible apply keptOut_next
    | (with_reducible apply forEach_kept; intro _ _ _; beta_reduce)
    | with_reducible apply command_kept
    | with_reducible apply reply_kept
    | with_reducible apply releaseEng_kept
    )

theorem execLogClear_kept : ∀ x0 x1, Kept Q F x1 → (_ : Q.mbx = none := by assumption) → KeptOut Q F (execLogClear x0 x1) := by
  intro x0 x1 h0 _
  unfold execLogClear
  repeat' (first
    | with_reducible assumption
    | with_reducible apply keptOut_next
    | with_reducible apply command_kept
    | with_reducible apply reply_kept
    | with_reducible apply clearLog_kept
    )

theorem execLogRead_kept : ∀ x0 x1, Kept Q F x1 → (_ : Q.mbx = none := by assumption) → KeptOut Q F (execLogRead x0 x1) := by
  intro x0 x1 h0 _
  unfold execLogRead
  repeat' (first
    | with_reducible assumption
    | (extract_lets +onlyGivenNames x; clear_value x)
    | with_reducible apply keptOut_next
    | with_reducible apply command_kept
    | with_reducible apply reply_kept
    )

theorem execFltInject_kept : ∀ x0 x1, Kept Q F x1 → (_ : Q.mbx = none := by assumption) → KeptOut Q F (execFltInject x0 x1) := by
  intro x0 x1 h0 _
  unfold execFltInject
  repeat' (first
    | with_reducible assumption
    | (extract_lets +onlyGivenNames x; clear_value x)
    | with_reducible apply keptOut_next
    | with_reducible apply command_kept
    | with_reducible apply reply_kept
    | with_reducible apply inject_kept
    )

theorem execRailPairFail_kept : ∀ x0 x1, Kept Q F x1 → KeptOut Q F (execRailPairFail x0 x1) := by
  intro x0 x1 h0
  unfold execRailPairFail
  repeat' (first
    | with_reducible assumption
    | with_reducible apply ite_kept
    | with_reducible apply keptOut_next
    | with_reducible apply railFail_kept
    )

theorem execFltConfig_kept : ∀ x0 x1, Kept Q F x1 → (_ : Q.mbx = none := by assumption) → KeptOut Q F (execFltConfig x0 x1) := by
  intro x0 x1 h0 _
  unfold execFltConfig
  repeat' (first
    | with_reducible assumption
    | (extract_lets +onlyGivenNames x; clear_value x)
    | with_reducible apply keptOut_next
    | with_reducible apply command_kept
    | with_reducible apply reply_kept
    | with_reducible apply setSrcCfg_kept
    )

theorem execFltRailbadWrite_kept : ∀ x0 x1 x2, Kept Q F x2 → KeptOut Q F (execFltRailbadWrite x0 x1 x2) := by
  intro x0 x1 x2 h0
  unfold execFltRailbadWrite
  repeat' (first
    | with_reducible assumption
    | with_reducible apply ite_kept
    | with_reducible apply keptOut_next
    | with_reducible apply State.w1c_kept
    )

theorem execFltClspendWrite_kept : ∀ x0 x1, Kept Q F x1 → KeptOut Q F (execFltClspendWrite x0 x1) := by
  intro x0 x1 h0
  unfold execFltClspendWrite
  repeat' (first
    | with_reducible assumption
    | with_reducible apply keptOut_next
    | with_reducible apply ackClasses_kept
    )

end Sys2Proof.Machine
end

