-- ==== Sys2Proof/Laws/KeptData.lean ====
section
/-! SUPPORT. `Kept` for every function of Machine/Convert, Path, Spectral, Ecc, Coder: one lemma each, cited by those of its callers. -/
namespace Sys2Proof.Machine
variable {Q : Frame} {F : Fuses}

-- Machine/Convert.lean

theorem showPend_kept : ∀ x0 x1, Kept Q F x0 → Kept Q F (showPend x0 x1) := by
  intro x0 x1 h0
  unfold showPend
  repeat' (first
    | with_reducible assumption
    | (extract_lets +onlyGivenNames x; clear_value x)
    | with_reducible apply State.setB_kept
    | with_reducible apply State.setF_kept
    )

theorem dropSkew_kept : ∀ x0 x1, Kept Q F x0 → Kept Q F (dropSkew x0 x1) := by
  intro x0 x1 h0
  unfold dropSkew
  repeat' (first
    | with_reducible assumption
    | (extract_lets +onlyGivenNames x; refine Kept.via Q F x ?_ (fun _ => ?_) <;> [subst x; clear_value x])
    | (extract_lets +onlyGivenNames x; clear_value x)
    | with_reducible apply ite_kept
    | with_reducible apply showPend_kept
    | with_reducible apply State.setCore_kept
    )

theorem markOvr_kept : ∀ x0 x1, Kept Q F x0 → Kept Q F (markOvr x0 x1) := by
  intro x0 x1 h0
  unfold markOvr
  repeat' (first
    | with_reducible assumption
    | (extract_lets +onlyGivenNames x; refine Kept.via Q F x ?_ (fun _ => ?_) <;> [subst x; clear_value x])
    | (extract_lets +onlyGivenNames x; clear_value x)
    | with_reducible apply ite_kept
    | with_reducible apply State.setB_kept
    | with_reducible apply State.addR_kept
    | with_reducible apply State.setCore_kept
    )

theorem markNbr_kept : ∀ x0 x1, Kept Q F x0 → Kept Q F (markNbr x0 x1) := by
  intro x0 x1 h0
  unfold markNbr
  repeat' (first
    | with_reducible assumption
    | (extract_lets +onlyGivenNames x; refine Kept.via Q F x ?_ (fun _ => ?_) <;> [subst x; clear_value x])
    | (extract_lets +onlyGivenNames x; clear_value x)
    | with_reducible apply ite_kept
    | with_reducible apply State.setB_kept
    | with_reducible apply State.addR_kept
    | with_reducible apply State.setCore_kept
    )

theorem markBeat_kept : ∀ x0 x1, Kept Q F x0 → Kept Q F (markBeat x0 x1) := by
  intro x0 x1 h0
  unfold markBeat
  repeat' (first
    | with_reducible assumption
    | (extract_lets +onlyGivenNames x; refine Kept.via Q F x ?_ (fun _ => ?_) <;> [subst x; clear_value x])
    | (with_reducible apply forEach_kept; intro _ _ _; beta_reduce)
    | with_reducible apply markOvr_kept
    | with_reducible apply markNbr_kept
    )

theorem overRange_kept : ∀ x0 x1 x2 x3, Kept Q F x0 → Kept Q F (overRange x0 x1 x2 x3) := by
  intro x0 x1 x2 x3 h0
  unfold overRange
  repeat' (first
    | with_reducible assumption
    | (extract_lets +onlyGivenNames x; refine Kept.via Q F x ?_ (fun _ => ?_) <;> [subst x; clear_value x])
    | (extract_lets +onlyGivenNames x; clear_value x)
    | with_reducible apply ite_kept
    | (with_reducible apply forEach_kept; intro _ _ _; beta_reduce)
    | with_reducible apply markBeat_kept
    | with_reducible apply monAsk_kept
    | with_reducible apply State.wr64_kept
    | with_reducible apply State.setB_kept
    | with_reducible apply State.setCore_kept
    | with_reducible apply mk_kept
    )

theorem execOverRangeEpisode_kept : ∀ x0 x1 x2 x3, Kept Q F x3 → KeptOut Q F (execOverRangeEpisode x0 x1 x2 x3) := by
  intro x0 x1 x2 x3 h0
  unfold execOverRangeEpisode
  repeat' (first
    | with_reducible assumption
    | with_reducible apply ite_kept
    | with_reducible apply keptOut_next
    | with_reducible apply overRange_kept
    )

theorem bgcalWrite_kept : ∀ x0 x1 x2, Kept Q F x0 → Kept Q F (bgcalWrite x0 x1 x2) := by
  intro x0 x1 x2 h0
  unfold bgcalWrite
  repeat' (first
    | with_reducible assumption
    | with_reducible apply ite_kept
    | with_reducible apply State.wr_kept
    )

theorem execCalBackground_kept : ∀ x0 x1, Kept Q F x1 → (_ : Q.mbx = none := by assumption) → KeptOut Q F (execCalBackground x0 x1) := by
  intro x0 x1 h0 _
  unfold execCalBackground
  repeat' (first
    | with_reducible assumption
    | (extract_lets +onlyGivenNames x; clear_value x)
    | with_reducible apply keptOut_next
    | (with_reducible apply forEach_kept; intro _ _ _; beta_reduce)
    | with_reducible apply command_kept
    | with_reducible apply reply_kept
    | with_reducible apply bgcalWrite_kept
    )

theorem calStamp_kept : ∀ x0 x1 x2, Kept Q F x0 → Kept Q F (calStamp x0 x1 x2) := by
  intro x0 x1 x2 h0
  unfold calStamp
  repeat' (first
    | with_reducible assumption
    | (extract_lets +onlyGivenNames x; refine Kept.via Q F x ?_ (fun _ => ?_) <;> [subst x; clear_value x])
    | with_reducible apply State.addR_kept
    | with_reducible apply State.wr64_kept
    | with_reducible apply State.wr_kept
    | with_reducible apply State.setB_kept
    )

theorem trimSet_kept : ∀ x0 x1 x2 x3, Kept Q F x0 → Kept Q F (trimSet x0 x1 x2 x3) := by
  intro x0 x1 x2 x3 h0
  unfold trimSet
  repeat' (first
    | with_reducible assumption
    | (extract_lets +onlyGivenNames x; clear_value x)
    | with_reducible apply State.setF_kept
    )

theorem landOne_kept : ∀ x0 x1, Kept Q F x0 → Kept Q F (landOne x0 x1) := by
  intro x0 x1 h0
  unfold landOne
  repeat' (first
    | with_reducible assumption
    | (extract_lets +onlyGivenNames x; refine Kept.via Q F x ?_ (fun _ => ?_) <;> [subst x; clear_value x])
    | (extract_lets +onlyGivenNames x; clear_value x)
    | with_reducible apply ite_kept
    | with_reducible apply calStamp_kept
    | with_reducible apply showPend_kept
    | with_reducible apply State.setCore_kept
    | with_reducible apply trimSet_kept
    | with_reducible apply State.wr_kept
    | split
    )

theorem swapSkew_kept : ∀ x0 x1, Kept Q F x0 → Kept Q F (swapSkew x0 x1) := by
  intro x0 x1 h0
  unfold swapSkew
  repeat' (first
    | with_reducible assumption
    | (extract_lets +onlyGivenNames x; clear_value x)
    | with_reducible apply State.wr_kept
    )

theorem coreBoundary_kept : ∀ x0 x1, Kept Q F x0 → Kept Q F (coreBoundary x0 x1) := by
  intro x0 x1 h0
  unfold coreBoundary
  repeat' (first
    | with_reducible assumption
    | (extract_lets +onlyGivenNames x; refine Kept.via Q F x ?_ (fun _ => ?_) <;> [subst x; clear_value x])
    | (extract_lets +onlyGivenNames x; clear_value x)
    | with_reducible apply ite_kept
    | with_reducible apply State.setCore_kept
    | with_reducible apply State.setF_kept
    | with_reducible apply showPend_kept
    | with_reducible apply markNbr_kept
    )

theorem coresBoundary_kept : ∀ x0, Kept Q F x0 → Kept Q F (coresBoundary x0) := by
  intro x0 h0
  unfold coresBoundary
  repeat' (first
    | with_reducible assumption
    | (extract_lets +onlyGivenNames x; refine Kept.via Q F x ?_ (fun _ => ?_) <;> [subst x; clear_value x])
    | with_reducible apply ite_kept
    | (with_reducible apply forEach_kept; intro _ _ _; beta_reduce)
    | with_reducible apply coreBoundary_kept
    | with_reducible apply markBeat_kept
    )

theorem setFg_kept : ∀ x0 x1 x2, Kept Q F x0 → Kept Q F (setFg x0 x1 x2) := by
  intro x0 x1 x2 h0
  unfold setFg
  repeat' (first
    | with_reducible assumption
    | with_reducible apply mk_kept
    )

theorem fgDone_kept : ∀ x0 x1, Kept Q F x0 → Kept Q F (fgDone x0 x1) := by
  intro x0 x1 h0
  unfold fgDone
  repeat' (first
    | with_reducible assumption
    | (with_reducible apply forEach_kept; intro _ _ _; beta_reduce)
    | with_reducible apply setFg_kept
    | with_reducible apply State.setF_kept
    | with_reducible apply State.setB_kept
    )

theorem fgAbort_kept : ∀ x0 x1 x2, Kept Q F x0 → Kept Q F (fgAbort x0 x1 x2) := by
  intro x0 x1 x2 h0
  unfold fgAbort
  repeat' (first
    | with_reducible assumption
    | with_reducible apply ite_kept
    | (with_reducible apply forEach_kept; intro _ _ _; beta_reduce)
    | with_reducible apply fgDone_kept
    | with_reducible apply State.setF_kept
    )

theorem execCnvBgcalWrite_kept : ∀ x0 x1 x2 x3, Kept Q F x3 → KeptOut Q F (execCnvBgcalWrite x0 x1 x2 x3) := by
  intro x0 x1 x2 x3 h0
  unfold execCnvBgcalWrite
  repeat' (first
    | with_reducible assumption
    | with_reducible apply ite_kept
    | with_reducible apply keptOut_next
    | with_reducible apply onBar_kept
    | with_reducible apply bgcalWrite_kept
    )

theorem pwrdnWrite_kept : ∀ x0 x1 x2, Kept Q F x0 → Kept Q F (pwrdnWrite x0 x1 x2) := by
  intro x0 x1 x2 h0
  unfold pwrdnWrite
  repeat' (first
    | with_reducible assumption
    | (extract_lets +onlyGivenNames x; refine Kept.via Q F x ?_ (fun _ => ?_) <;> [subst x; clear_value x])
    | with_reducible apply ite_kept
    | with_reducible apply State.setB_kept
    )

theorem overRangeEnd_kept : ∀ x0 x1 x2, Kept Q F x0 → Kept Q F (overRangeEnd x0 x1 x2) := by
  intro x0 x1 x2 h0
  unfold overRangeEnd
  repeat' (first
    | with_reducible assumption
    | (extract_lets +onlyGivenNames x; refine Kept.via Q F x ?_ (fun _ => ?_) <;> [subst x; clear_value x])
    | (extract_lets +onlyGivenNames x; clear_value x)
    | with_reducible apply ite_kept
    | (with_reducible apply forEach_kept; intro _ _ _; beta_reduce)
    | with_reducible apply State.setCore_kept
    )

theorem coreBeat_kept : ∀ x0 x1 x2, Kept Q F x0 → Kept Q F (coreBeat x0 x1 x2) := by
  intro x0 x1 x2 h0
  unfold coreBeat
  repeat' (first
    | with_reducible assumption
    | (extract_lets +onlyGivenNames x; refine Kept.via Q F x ?_ (fun _ => ?_) <;> [subst x; clear_value x])
    | (extract_lets +onlyGivenNames x; clear_value x)
    | with_reducible apply ite_kept
    | with_reducible apply State.setCore_kept
    | with_reducible apply State.addR_kept
    | split
    )

theorem fgBegin_kept : ∀ x0 x1, Kept Q F x0 → Kept Q F (fgBegin x0 x1) := by
  intro x0 x1 h0
  unfold fgBegin
  repeat' (first
    | with_reducible assumption
    | (extract_lets +onlyGivenNames x; refine Kept.via Q F x ?_ (fun _ => ?_) <;> [subst x; clear_value x])
    | (with_reducible apply forEach_kept; intro _ _ _; beta_reduce)
    | with_reducible apply setFg_kept
    | with_reducible apply State.setF_kept
    | with_reducible apply State.setB_kept
    )

theorem fgApply_kept : ∀ x0 x1 x2, Kept Q F x0 → Kept Q F (fgApply x0 x1 x2) := by
  intro x0 x1 x2 h0
  unfold fgApply
  repeat' (first
    | with_reducible assumption
    | (extract_lets +onlyGivenNames x; refine Kept.via Q F x ?_ (fun _ => ?_) <;> [subst x; clear_value x])
    | (extract_lets +onlyGivenNames x; clear_value x)
    | (with_reducible apply forEach_kept; intro _ _ _; beta_reduce)
    | with_reducible apply trimSet_kept
    | with_reducible apply State.setF_kept
    | with_reducible apply State.setCore_kept
    | with_reducible apply showPend_kept
    | with_reducible apply calStamp_kept
    )

theorem fgFail_kept : ∀ x0 x1 x2, Kept Q F x0 → Kept Q F (fgFail x0 x1 x2) := by
  intro x0 x1 x2 h0
  unfold fgFail
  repeat' (first
    | with_reducible assumption
    | with_reducible apply State.setF_kept
    )

theorem bootFinish_kept : ∀ x0, Kept Q F x0 → Kept Q F (bootFinish x0) := by
  intro x0 h0
  unfold bootFinish
  repeat' (first
    | with_reducible assumption
    | with_reducible apply ite_kept
    | with_reducible apply mk_kept
    )

theorem fgEnd_kept : ∀ x0 x1 x2, Kept Q F x0 → Kept Q F (fgEnd x0 x1 x2) := by
  intro x0 x1 x2 h0
  unfold fgEnd
  repeat' (first
    | with_reducible assumption
    | (extract_lets +onlyGivenNames x; refine Kept.via Q F x ?_ (fun _ => ?_) <;> [subst x; clear_value x])
    | (extract_lets +onlyGivenNames x; clear_value x)
    | with_reducible apply ite_kept
    | (with_reducible apply forEach_kept; intro _ _ _; beta_reduce)
    | with_reducible apply fgDone_kept
    | with_reducible apply fgApply_kept
    | with_reducible apply fgFail_kept
    | with_reducible apply bootFinish_kept
    | with_reducible apply report_kept
    )

theorem execCoreReady_kept : ∀ x0 x1, Kept Q F x1 → KeptOut Q F (execCoreReady x0 x1) := by
  intro x0 x1 h0
  unfold execCoreReady
  repeat' (first
    | with_reducible assumption
    | (extract_lets +onlyGivenNames x; clear_value x)
    | with_reducible apply ite_kept
    | with_reducible apply keptOut_next
    | with_reducible apply State.setF_kept
    | with_reducible apply State.setCore_kept
    )

theorem execBgStepLanding_kept : ∀ x0, Kept Q F x0 → KeptOut Q F (execBgStepLanding x0) := by
  intro x0 h0
  unfold execBgStepLanding
  repeat' (first
    | with_reducible assumption
    | with_reducible apply keptOut_next
    | (with_reducible apply forEach_kept; intro _ _ _; beta_reduce)
    | with_reducible apply landOne_kept
    )

theorem execForegroundCalEnd_kept : ∀ x0 x1 x2, Kept Q F x2 → KeptOut Q F (execForegroundCalEnd x0 x1 x2) := by
  intro x0 x1 x2 h0
  unfold execForegroundCalEnd
  repeat' (first
    | with_reducible assumption
    | with_reducible apply ite_kept
    | with_reducible apply keptOut_next
    | with_reducible apply fgEnd_kept
    )

theorem execCalAbort_kept : ∀ x0 x1, Kept Q F x1 → (_ : Q.mbx = none := by assumption) → KeptOut Q F (execCalAbort x0 x1) := by
  intro x0 x1 h0 _
  unfold execCalAbort
  repeat' (first
    | with_reducible assumption
    | with_reducible apply keptOut_next
    | (with_reducible apply forEach_kept; intro _ _ _; beta_reduce)
    | with_reducible apply command_kept
    | with_reducible apply reply_kept
    | with_reducible apply fgAbort_kept
    )

theorem execCalForeground_kept : ∀ x0 x1, Kept Q F x1 → (_ : Q.mbx = none := by assumption) → KeptOut Q F (execCalForeground x0 x1) := by
  intro x0 x1 h0 _
  unfold execCalForeground
  repeat' (first
    | with_reducible assumption
    | with_reducible apply keptOut_next
    | (with_reducible apply forEach_kept; intro _ _ _; beta_reduce)
    | with_reducible apply command_kept
    | with_reducible apply reply_kept
    | with_reducible apply fgBegin_kept
    )

theorem execOverRangeTailEnd_kept : ∀ x0 x1 x2, Kept Q F x2 → KeptOut Q F (execOverRangeTailEnd x0 x1 x2) := by
  intro x0 x1 x2 h0
  unfold execOverRangeTailEnd
  repeat' (first
    | with_reducible assumption
    | with_reducible apply ite_kept
    | with_reducible apply keptOut_next
    | with_reducible apply overRangeEnd_kept
    )

theorem execCnvPwrdnWrite_kept : ∀ x0 x1 x2 x3, Kept Q F x3 → KeptOut Q F (execCnvPwrdnWrite x0 x1 x2 x3) := by
  intro x0 x1 x2 x3 h0
  unfold execCnvPwrdnWrite
  repeat' (first
    | with_reducible assumption
    | with_reducible apply ite_kept
    | with_reducible apply keptOut_next
    | with_reducible apply onBar_kept
    | with_reducible apply pwrdnWrite_kept
    )

theorem execCalStatus_kept : ∀ x0 x1, Kept Q F x1 → (_ : Q.mbx = none := by assumption) → KeptOut Q F (execCalStatus x0 x1) := by
  intro x0 x1 h0 _
  unfold execCalStatus
  repeat' (first
    | with_reducible assumption
    | with_reducible apply keptOut_next
    | with_reducible apply command_kept
    | with_reducible apply reply_kept
    )

theorem bgIntervalEnd_kept : ∀ x0 x1 x2, Kept Q F x0 → Kept Q F (bgIntervalEnd x0 x1 x2) := by
  intro x0 x1 x2 h0
  unfold bgIntervalEnd
  repeat' (first
    | with_reducible assumption
    | (extract_lets +onlyGivenNames x; refine Kept.via Q F x ?_ (fun _ => ?_) <;> [subst x; clear_value x])
    | (extract_lets +onlyGivenNames x; clear_value x)
    | with_reducible apply ite_kept
    | with_reducible apply State.setF_kept
    | with_reducible apply State.setCore_kept
    | with_reducible apply State.wr_kept
    | with_reducible apply showPend_kept
    | with_reducible apply State.orR_kept
    | with_reducible apply report_kept
    )

theorem execCnvStatus_kept : ∀ x0 x1, Kept Q F x1 → (_ : Q.mbx = none := by assumption) → KeptOut Q F (execCnvStatus x0 x1) := by
  intro x0 x1 h0 _
  unfold execCnvStatus
  repeat' (first
    | with_reducible assumption
    | (extract_lets +onlyGivenNames x; clear_value x)
    | with_reducible apply keptOut_next
    | with_reducible apply command_kept
    | with_reducible apply reply_kept
    )

theorem execBgCalIntervalEnd_kept : ∀ x0 x1 x2, Kept Q F x2 → KeptOut Q F (execBgCalIntervalEnd x0 x1 x2) := by
  intro x0 x1 x2 h0
  unfold execBgCalIntervalEnd
  repeat' (first
    | with_reducible assumption
    | (extract_lets +onlyGivenNames x; clear_value x)
    | with_reducible apply ite_kept
    | with_reducible apply keptOut_next
    | with_reducible apply bgIntervalEnd_kept
    )

-- Machine/Path.lean

theorem showXf_kept : ∀ x0 x1, Kept Q F x0 → Kept Q F (showXf x0 x1) := by
  intro x0 x1 h0
  unfold showXf
  repeat' (first
    | with_reducible assumption
    | (extract_lets +onlyGivenNames x; clear_value x)
    | with_reducible apply State.wr_kept
    )

theorem fadeStart_kept : ∀ x0 x1, Kept Q F x0 → Kept Q F (fadeStart x0 x1) := by
  intro x0 x1 h0
  unfold fadeStart
  repeat' (first
    | with_reducible assumption
    | (extract_lets +onlyGivenNames x; refine Kept.via Q F x ?_ (fun _ => ?_) <;> [subst x; clear_value x])
    | (extract_lets +onlyGivenNames x; clear_value x)
    | with_reducible apply ite_kept
    | with_reducible apply State.setF_kept
    | with_reducible apply State.setPath_kept
    | with_reducible apply showXf_kept
    | split
    )

theorem execFadeStart_kept : ∀ x0 x1, Kept Q F x1 → KeptOut Q F (execFadeStart x0 x1) := by
  intro x0 x1 h0
  unfold execFadeStart
  repeat' (first
    | with_reducible assumption
    | with_reducible apply ite_kept
    | with_reducible apply keptOut_next
    | with_reducible apply fadeStart_kept
    )

theorem writeRegs_kept : ∀ (s : State) (p : List Byte) (o : Nat) (l : List Nat), Kept Q F s → Kept Q F (writeRegs s p o l)
  | _, _, _, [], h => h
  | s, p, o, a :: t, h => writeRegs_kept _ p (o + 4) t (State.wr_kept s a _ h)

theorem execPthConfig_kept : ∀ x0 x1, Kept Q F x1 → (_ : Q.mbx = none := by assumption) → KeptOut Q F (execPthConfig x0 x1) := by
  intro x0 x1 h0 _
  unfold execPthConfig
  repeat' (first
    | with_reducible assumption
    | with_reducible apply keptOut_next
    | with_reducible apply command_kept
    | with_reducible apply reply_kept
    | with_reducible apply writeRegs_kept
    )

theorem fadeEnd_kept : ∀ x0 x1, Kept Q F x0 → Kept Q F (fadeEnd x0 x1) := by
  intro x0 x1 h0
  unfold fadeEnd
  repeat' (first
    | with_reducible assumption
    | (extract_lets +onlyGivenNames x; refine Kept.via Q F x ?_ (fun _ => ?_) <;> [subst x; clear_value x])
    | (extract_lets +onlyGivenNames x; clear_value x)
    | with_reducible apply ite_kept
    | with_reducible apply State.setPath_kept
    | with_reducible apply State.setB_kept
    | with_reducible apply State.setF_kept
    | with_reducible apply State.wr_kept
    | with_reducible apply fire_kept
    | with_reducible apply showXf_kept
    | split
    )

theorem pathStop_kept : ∀ x0 x1, Kept Q F x0 → Kept Q F (pathStop x0 x1) := by
  intro x0 x1 h0
  unfold pathStop
  repeat' (first
    | with_reducible assumption
    | (extract_lets +onlyGivenNames x; refine Kept.via Q F x ?_ (fun _ => ?_) <;> [subst x; clear_value x])
    | (extract_lets +onlyGivenNames x; clear_value x)
    | with_reducible apply ite_kept
    | with_reducible apply fadeEnd_kept
    | with_reducible apply State.setPath_kept
    | with_reducible apply showXf_kept
    | with_reducible apply State.setF_kept
    )

theorem pathIdle_kept : ∀ x0 x1 x2, Kept Q F x0 → Kept Q F (pathIdle x0 x1 x2) := by
  intro x0 x1 x2 h0
  unfold pathIdle
  repeat' (first
    | with_reducible assumption
    | (extract_lets +onlyGivenNames x; refine Kept.via Q F x ?_ (fun _ => ?_) <;> [subst x; clear_value x])
    | (extract_lets +onlyGivenNames x; clear_value x)
    | with_reducible apply ite_kept
    | with_reducible apply pathStop_kept
    | with_reducible apply showXf_kept
    | with_reducible apply State.setPath_kept
    | with_reducible apply State.wr_kept
    )

theorem pathSwitch_kept : ∀ x0 x1 x2 x3, Kept Q F x0 → Kept Q F (pathSwitch x0 x1 x2 x3) := by
  intro x0 x1 x2 x3 h0
  unfold pathSwitch
  repeat' (first
    | with_reducible assumption
    | (extract_lets +onlyGivenNames x; refine Kept.via Q F x ?_ (fun _ => ?_) <;> [subst x; clear_value x])
    | (extract_lets +onlyGivenNames x; clear_value x)
    | with_reducible apply ite_kept
    | with_reducible apply fadeEnd_kept
    | with_reducible apply State.setPath_kept
    | with_reducible apply State.wr_kept
    | with_reducible apply State.setF_kept
    )

theorem coarseStart_kept : ∀ x0 x1 x2, Kept Q F x0 → Kept Q F (coarseStart x0 x1 x2) := by
  intro x0 x1 x2 h0
  unfold coarseStart
  repeat' (first
    | with_reducible assumption
    | (extract_lets +onlyGivenNames x; clear_value x)
    | with_reducible apply State.setPath_kept
    )

theorem pathEnter_kept : ∀ x0 x1 x2 x3, Kept Q F x0 → Kept Q F (pathEnter x0 x1 x2 x3) := by
  intro x0 x1 x2 x3 h0
  unfold pathEnter
  repeat' (first
    | with_reducible assumption
    | (extract_lets +onlyGivenNames x; refine Kept.via Q F x ?_ (fun _ => ?_) <;> [subst x; clear_value x])
    | (extract_lets +onlyGivenNames x; clear_value x)
    | with_reducible apply ite_kept
    | with_reducible apply pathIdle_kept
    | with_reducible apply State.setPath_kept
    | with_reducible apply State.setB_kept
    | with_reducible apply pathSwitch_kept
    | with_reducible apply coarseStart_kept
    | with_reducible apply State.wr_kept
    | with_reducible apply showXf_kept
    )

theorem pathBeat_kept : ∀ x0 x1 x2, Kept Q F x0 → Kept Q F (pathBeat x0 x1 x2) := by
  intro x0 x1 x2 h0
  unfold pathBeat
  repeat' (first
    | with_reducible assumption
    | (extract_lets +onlyGivenNames x; refine Kept.via Q F x ?_ (fun _ => ?_) <;> [subst x; clear_value x])
    | (extract_lets +onlyGivenNames x; clear_value x)
    | with_reducible apply ite_kept
    | with_reducible apply State.setPath_kept
    | with_reducible apply State.wr_kept
    | with_reducible apply State.addR_kept
    | with_reducible apply State.orR_kept
    | with_reducible apply showXf_kept
    )

theorem execFadeEnd_kept : ∀ x0 x1, Kept Q F x1 → KeptOut Q F (execFadeEnd x0 x1) := by
  intro x0 x1 h0
  unfold execFadeEnd
  repeat' (first
    | with_reducible assumption
    | with_reducible apply ite_kept
    | with_reducible apply keptOut_next
    | with_reducible apply fadeEnd_kept
    )

theorem firLoad_kept : ∀ x0 x1 x2 x3, Kept Q F x0 → Kept Q F (firLoad x0 x1 x2 x3) := by
  intro x0 x1 x2 x3 h0
  unfold firLoad
  repeat' (first
    | with_reducible assumption
    | (extract_lets +onlyGivenNames x; clear_value x)
    | with_reducible apply ite_kept
    | with_reducible apply State.wr_kept
    | with_reducible apply State.setPath_kept
    )

theorem execFirLoad_kept : ∀ x0 x1, Kept Q F x1 → (_ : Q.mbx = none := by assumption) → KeptOut Q F (execFirLoad x0 x1) := by
  intro x0 x1 h0 _
  unfold execFirLoad
  repeat' (first
    | with_reducible assumption
    | (extract_lets +onlyGivenNames x; clear_value x)
    | with_reducible apply keptOut_next
    | with_reducible apply command_kept
    | with_reducible apply reply_kept
    | with_reducible apply firLoad_kept
    )

theorem execPthStatus_kept : ∀ x0 x1, Kept Q F x1 → (_ : Q.mbx = none := by assumption) → KeptOut Q F (execPthStatus x0 x1) := by
  intro x0 x1 h0 _
  unfold execPthStatus
  repeat' (first
    | with_reducible assumption
    | (extract_lets +onlyGivenNames x; clear_value x)
    | with_reducible apply keptOut_next
    | with_reducible apply command_kept
    | with_reducible apply reply_kept
    )

theorem execCoarseToFine_kept : ∀ x0 x1, Kept Q F x1 → KeptOut Q F (execCoarseToFine x0 x1) := by
  intro x0 x1 h0
  unfold execCoarseToFine
  repeat' (first
    | with_reducible assumption
    | (extract_lets +onlyGivenNames x; clear_value x)
    | with_reducible apply ite_kept
    | with_reducible apply keptOut_next
    | with_reducible apply fire_kept
    | with_reducible apply State.setB_kept
    | with_reducible apply State.setPath_kept
    )

-- Machine/Spectral.lean

theorem execTraceRestart_kept : ∀ x0 x1 x2 x3, Kept Q F x3 → KeptOut Q F (execTraceRestart x0 x1 x2 x3) := by
  intro x0 x1 x2 x3 h0
  unfold execTraceRestart
  repeat' (first
    | with_reducible assumption
    | (extract_lets +onlyGivenNames x; refine Kept.via Q F x ?_ (fun _ => ?_) <;> [subst x; clear_value x])
    | (extract_lets +onlyGivenNames x; clear_value x)
    | with_reducible apply ite_kept
    | with_reducible apply keptOut_next
    | with_reducible apply mk_kept
    | with_reducible apply mk_keptActive
    )

theorem markEnd_kept : ∀ x0 x1 x2, Kept Q F x0 → Kept Q F (markEnd x0 x1 x2) := by
  intro x0 x1 x2 h0
  unfold markEnd
  repeat' (first
    | with_reducible assumption
    | (extract_lets +onlyGivenNames x; refine Kept.via Q F x ?_ (fun _ => ?_) <;> [subst x; clear_value x])
    | with_reducible apply mk_kept
    )

theorem putProd_kept : ∀ x0 x1, Kept Q F x0 → Kept Q F (putProd x0 x1) := by
  intro x0 x1 h0
  unfold putProd
  repeat' (first
    | with_reducible assumption
    | with_reducible apply mk_kept
    )

theorem consume_kept : ∀ x0 x1 x2 x3 x4 x5 x6, Kept Q F x0 → Kept Q F (consume x0 x1 x2 x3 x4 x5 x6) := by
  intro x0 x1 x2 x3 x4 x5 x6 h0
  unfold consume
  repeat' (first
    | with_reducible assumption
    | (extract_lets +onlyGivenNames x; refine Kept.via Q F x ?_ (fun _ => ?_) <;> [subst x; clear_value x])
    | (extract_lets +onlyGivenNames x; clear_value x)
    | with_reducible apply ite_kept
    | (with_reducible apply forEach_kept; intro _ _ _; beta_reduce)
    | with_reducible apply putProd_kept
    | with_reducible apply mk_kept
    | with_reducible apply mk_keptActive
    )

theorem traceEmit_kept : ∀ x0 x1 x2 x3 x4 x5, Kept Q F x0 → Kept Q F (traceEmit x0 x1 x2 x3 x4 x5) := by
  intro x0 x1 x2 x3 x4 x5 h0
  unfold traceEmit
  repeat' (first
    | with_reducible assumption
    | (extract_lets +onlyGivenNames x; refine Kept.via Q F x ?_ (fun _ => ?_) <;> [subst x; clear_value x])
    | (extract_lets +onlyGivenNames x; clear_value x)
    | with_reducible apply putProd_kept
    | with_reducible apply consume_kept
    )

theorem closeBlocks_kept : ∀ x0 x1 x2 x3, Kept Q F x0 → Kept Q F (closeBlocks x0 x1 x2 x3) := by
  intro x0 x1 x2 x3 h0
  unfold closeBlocks
  repeat' (first
    | with_reducible assumption
    | (extract_lets +onlyGivenNames x; refine Kept.via Q F x ?_ (fun _ => ?_) <;> [subst x; clear_value x])
    | (extract_lets +onlyGivenNames x; clear_value x)
    | (with_reducible apply forEach_kept; intro _ _ _; beta_reduce)
    | with_reducible apply State.setLane_kept
    | with_reducible apply traceEmit_kept
    )

theorem laneStop_kept : ∀ x0 x1 x2, Kept Q F x0 → Kept Q F (laneStop x0 x1 x2) := by
  intro x0 x1 x2 h0
  unfold laneStop
  repeat' (first
    | with_reducible assumption
    | (extract_lets +onlyGivenNames x; refine Kept.via Q F x ?_ (fun _ => ?_) <;> [subst x; clear_value x])
    | (extract_lets +onlyGivenNames x; clear_value x)
    | with_reducible apply ite_kept
    | with_reducible apply State.setLane_kept
    | with_reducible apply markEnd_kept
    | with_reducible apply closeBlocks_kept
    | with_reducible apply State.setB_kept
    )

theorem execSlcConfig_kept : ∀ x0 x1, Kept Q F x1 → (_ : Q.mbx = none := by assumption) → KeptOut Q F (execSlcConfig x0 x1) := by
  intro x0 x1 h0 _
  unfold execSlcConfig
  repeat' (first
    | with_reducible assumption
    | (extract_lets +onlyGivenNames x; clear_value x)
    | with_reducible apply keptOut_next
    | with_reducible apply command_kept
    | with_reducible apply reply_kept
    | with_reducible apply writeRegs_kept
    )

theorem wordsAt_kept : ∀ (s : State) (k : Nat) (l : List Nat), Kept Q F s → (_ : Q.slcRam = none := by assumption) → Kept Q F (wordsAt s k l)
  | _, _, [], h, _ => h
  | s, k, w :: t, h, _ => wordsAt_kept _ (k + 4) t (State.slcWrite_kept s k _ h)

theorem clearDescs_kept : ∀ x0 x1 x2, Kept Q F x0 → (_ : Q.slcRam = none := by assumption) → Kept Q F (clearDescs x0 x1 x2) := by
  intro x0 x1 x2 h0 _
  unfold clearDescs
  repeat' (first
    | with_reducible assumption
    | (with_reducible apply forEach_kept; intro _ _ _; beta_reduce)
    | with_reducible apply State.slcWrite_kept
    )

theorem traceFrame_kept : ∀ x0 x1 x2 x3 x4 x5 x6 x7 x8 x9, Kept Q F x0 → Kept Q F (traceFrame x0 x1 x2 x3 x4 x5 x6 x7 x8 x9) := by
  intro x0 x1 x2 x3 x4 x5 x6 x7 x8 x9 h0
  unfold traceFrame
  repeat' (first
    | with_reducible assumption
    | (extract_lets +onlyGivenNames x; refine Kept.via Q F x ?_ (fun _ => ?_) <;> [subst x; clear_value x])
    | (extract_lets +onlyGivenNames x; clear_value x)
    | with_reducible apply ite_kept
    | with_reducible apply State.setLane_kept
    | with_reducible apply traceEmit_kept
    )

theorem frameDone_kept : ∀ x0 x1 x2 x3, Kept Q F x0 → Kept Q F (frameDone x0 x1 x2 x3) := by
  intro x0 x1 x2 x3 h0
  unfold frameDone
  repeat' (first
    | with_reducible assumption
    | (extract_lets +onlyGivenNames x; refine Kept.via Q F x ?_ (fun _ => ?_) <;> [subst x; clear_value x])
    | (extract_lets +onlyGivenNames x; clear_value x)
    | with_reducible apply ite_kept
    | (with_reducible apply forEach_kept; intro _ _ _; beta_reduce)
    | with_reducible apply State.setLane_kept
    | with_reducible apply State.setB_kept
    | with_reducible apply putProd_kept
    | with_reducible apply traceFrame_kept
    | with_reducible apply consume_kept
    | with_reducible apply mk_kept
    | with_reducible apply mk_keptActive
    )

theorem flightEnd_kept : ∀ x0 x1 x2 x3, Kept Q F x0 → Kept Q F (flightEnd x0 x1 x2 x3) := by
  intro x0 x1 x2 x3 h0
  unfold flightEnd
  repeat' (first
    | with_reducible assumption
    | (extract_lets +onlyGivenNames x; refine Kept.via Q F x ?_ (fun _ => ?_) <;> [subst x; clear_value x])
    | (extract_lets +onlyGivenNames x; clear_value x)
    | with_reducible apply ite_kept
    | with_reducible apply State.setLane_kept
    )

theorem laneBeat_kept : ∀ x0 x1 x2, Kept Q F x0 → Kept Q F (laneBeat x0 x1 x2) := by
  intro x0 x1 x2 h0
  unfold laneBeat
  repeat' (first
    | with_reducible assumption
    | (extract_lets +onlyGivenNames x; refine Kept.via Q F x ?_ (fun _ => ?_) <;> [subst x; clear_value x])
    | (extract_lets +onlyGivenNames x; clear_value x)
    | with_reducible apply ite_kept
    | (with_reducible apply forEach_kept; intro _ _ _; beta_reduce)
    | with_reducible apply State.setLane_kept
    | with_reducible apply frameDone_kept
    | with_reducible apply flightEnd_kept
    | with_reducible apply closeBlocks_kept
    )

theorem sliceBeat_kept : ∀ x0 x1, Kept Q F x0 → Kept Q F (sliceBeat x0 x1) := by
  intro x0 x1 h0
  unfold sliceBeat
  repeat' (first
    | with_reducible assumption
    | (extract_lets +onlyGivenNames x; refine Kept.via Q F x ?_ (fun _ => ?_) <;> [subst x; clear_value x])
    | (extract_lets +onlyGivenNames x; clear_value x)
    | with_reducible apply ite_kept
    | with_reducible apply State.setB_kept
    | with_reducible apply laneBeat_kept
    | with_reducible apply State.addR_kept
    )

theorem winWrite_kept : ∀ x0 x1 x2 x3, Kept Q F x0 → (_ : Q.slcRam = none := by assumption) → Kept Q F (winWrite x0 x1 x2 x3) := by
  intro x0 x1 x2 x3 h0 _
  unfold winWrite
  repeat' (first
    | with_reducible assumption
    | (extract_lets +onlyGivenNames x; clear_value x)
    | (with_reducible apply forEach_kept; intro _ _ _; beta_reduce)
    | with_reducible apply State.slcWrite_kept
    )

theorem sramPut_kept : ∀ x0 x1 x2, Kept Q F x0 → (_ : Q.slcRam = none := by assumption) → Kept Q F (sramPut x0 x1 x2) := by
  intro x0 x1 x2 h0 _
  unfold sramPut
  repeat' (first
    | with_reducible assumption
    | (extract_lets +onlyGivenNames x; refine Kept.via Q F x ?_ (fun _ => ?_) <;> [subst x; clear_value x])
    | with_reducible apply wordsAt_kept
    | split
    )

theorem maskShow_kept : ∀ x0 x1 x2 x3, Kept Q F x0 → Kept Q F (maskShow x0 x1 x2 x3) := by
  intro x0 x1 x2 x3 h0
  unfold maskShow
  repeat' (first
    | with_reducible assumption
    | (extract_lets +onlyGivenNames x; refine Kept.via Q F x ?_ (fun _ => ?_) <;> [subst x; clear_value x])
    | (extract_lets +onlyGivenNames x; clear_value x)
    | with_reducible apply ite_kept
    | with_reducible apply State.setF_kept
    | with_reducible apply State.addR_kept
    | split
    )

theorem sliceReady_kept : ∀ x0 x1, Kept Q F x0 → (_ : Q.slcRam = none := by assumption) → Kept Q F (sliceReady x0 x1) := by
  intro x0 x1 h0 _
  unfold sliceReady
  repeat' (first
    | with_reducible assumption
    | (extract_lets +onlyGivenNames x; refine Kept.via Q F x ?_ (fun _ => ?_) <;> [subst x; clear_value x])
    | (extract_lets +onlyGivenNames x; clear_value x)
    | with_reducible apply ite_kept
    | (with_reducible apply forEach_kept; intro _ _ _; beta_reduce)
    | with_reducible apply clearDescs_kept
    | with_reducible apply sramPut_kept
    | with_reducible apply State.addR_kept
    | with_reducible apply State.wr_kept
    | with_reducible apply maskShow_kept
    | with_reducible apply State.wr64_kept
    | with_reducible apply fire_kept
    | with_reducible apply State.orR_kept
    | with_reducible apply vectorIf_kept
    | split
    )

theorem laneInfo_kept : ∀ x0 x1 x2, Kept Q F x0 → Kept Q F (laneInfo x0 x1 x2) := by
  intro x0 x1 x2 h0
  unfold laneInfo
  repeat' (first
    | with_reducible assumption
    | (extract_lets +onlyGivenNames x; refine Kept.via Q F x ?_ (fun _ => ?_) <;> [subst x; clear_value x])
    | (extract_lets +onlyGivenNames x; clear_value x)
    | with_reducible apply State.wr_kept
    )

theorem laneEnter_kept : ∀ x0 x1 x2 x3, Kept Q F x0 → Kept Q F (laneEnter x0 x1 x2 x3) := by
  intro x0 x1 x2 x3 h0
  unfold laneEnter
  repeat' (first
    | with_reducible assumption
    | (extract_lets +onlyGivenNames x; refine Kept.via Q F x ?_ (fun _ => ?_) <;> [subst x; clear_value x])
    | (extract_lets +onlyGivenNames x; clear_value x)
    | with_reducible apply ite_kept
    | with_reducible apply laneStop_kept
    | with_reducible apply State.setLane_kept
    | with_reducible apply State.wr64_kept
    | with_reducible apply State.setB_kept
    | with_reducible apply closeBlocks_kept
    | with_reducible apply markEnd_kept
    | with_reducible apply laneInfo_kept
    )

theorem tracesTaken_kept : ∀ x0, Kept Q F x0 → Kept Q F (tracesTaken x0) := by
  intro x0 h0
  unfold tracesTaken
  repeat' (first
    | with_reducible assumption
    | (extract_lets +onlyGivenNames x; refine Kept.via Q F x ?_ (fun _ => ?_) <;> [subst x; clear_value x])
    | (extract_lets +onlyGivenNames x; clear_value x)
    | with_reducible apply ite_kept
    | with_reducible apply mk_kept
    | with_reducible apply mk_keptActive
    )

theorem setWinLoad_kept : ∀ x0 x1 x2 x3, Kept Q F x0 → Kept Q F (setWinLoad x0 x1 x2 x3) := by
  intro x0 x1 x2 x3 h0
  unfold setWinLoad
  repeat' (first
    | with_reducible assumption
    | with_reducible apply mk_kept
    )

theorem winInvalid_kept : ∀ x0 x1, Kept Q F x0 → Kept Q F (winInvalid x0 x1) := by
  intro x0 x1 h0
  unfold winInvalid
  repeat' (first
    | with_reducible assumption
    | (extract_lets +onlyGivenNames x; refine Kept.via Q F x ?_ (fun _ => ?_) <;> [subst x; clear_value x])
    | (extract_lets +onlyGivenNames x; clear_value x)
    | with_reducible apply ite_kept
    | with_reducible apply State.setF_kept
    | with_reducible apply setWinLoad_kept
    )

theorem execSlcStatus_kept : ∀ x0 x1, Kept Q F x1 → (_ : Q.mbx = none := by assumption) → KeptOut Q F (execSlcStatus x0 x1) := by
  intro x0 x1 h0 _
  unfold execSlcStatus
  repeat' (first
    | with_reducible assumption
    | (extract_lets +onlyGivenNames x; clear_value x)
    | with_reducible apply keptOut_next
    | with_reducible apply command_kept
    | with_reducible apply reply_kept
    )

theorem windowLoad_kept : ∀ x0 x1, Kept Q F x0 → (_ : Q.mbx = none := by assumption) → (_ : Q.slcRam = none := by assumption) → Kept Q F (windowLoad x0 x1) := by
  intro x0 x1 h0 _ _
  unfold windowLoad
  repeat' (first
    | with_reducible assumption
    | (extract_lets +onlyGivenNames x; refine Kept.via Q F x ?_ (fun _ => ?_) <;> [subst x; clear_value x])
    | (extract_lets +onlyGivenNames x; clear_value x)
    | with_reducible apply ite_kept
    | with_reducible apply winWrite_kept
    | with_reducible apply State.wr_kept
    | with_reducible apply setWinLoad_kept
    | with_reducible apply reply_kept
    )

theorem execWindowLoad_kept : ∀ x0 x1, Kept Q F x1 → (_ : Q.mbx = none := by assumption) → (_ : Q.slcRam = none := by assumption) → KeptOut Q F (execWindowLoad x0 x1) := by
  intro x0 x1 h0 _ _
  unfold execWindowLoad
  repeat' (first
    | with_reducible assumption
    | (extract_lets +onlyGivenNames x; refine Kept.via Q F x ?_ (fun _ => ?_) <;> [subst x; clear_value x])
    | (extract_lets +onlyGivenNames x; clear_value x)
    | with_reducible apply ite_kept
    | with_reducible apply ite_keptOut
    | with_reducible apply keptOut_next
    | with_reducible apply command_kept
    | with_reducible apply winInvalid_kept
    | with_reducible apply windowLoad_kept
    )

theorem execTraceClear_kept : ∀ x0 x1, Kept Q F x1 → (_ : Q.mbx = none := by assumption) → KeptOut Q F (execTraceClear x0 x1) := by
  intro x0 x1 h0 _
  unfold execTraceClear
  repeat' (first
    | with_reducible assumption
    | (extract_lets +onlyGivenNames x; clear_value x)
    | with_reducible apply keptOut_next
    | with_reducible apply command_kept
    | with_reducible apply reply_kept
    | with_reducible apply mk_kept
    )

theorem execWindowLoadAbandon_kept : ∀ x0 x1 x2, Kept Q F x2 → KeptOut Q F (execWindowLoadAbandon x0 x1 x2) := by
  intro x0 x1 x2 h0
  unfold execWindowLoadAbandon
  repeat' (first
    | with_reducible assumption
    | with_reducible apply ite_kept
    | with_reducible apply keptOut_next
    | with_reducible apply State.setF_kept
    | with_reducible apply setWinLoad_kept
    | split
    )

-- Machine/Ecc.lean

theorem setMem_kept : ∀ x0 x1, Kept Q F x0 → Kept Q F (setMem x0 x1) := by
  intro x0 x1 h0
  unfold setMem
  repeat' (first
    | with_reducible assumption
    | with_reducible apply mk_kept
    )

theorem rowFail_kept : ∀ x0 x1 x2, Kept Q F x0 → Kept Q F (rowFail x0 x1 x2) := by
  intro x0 x1 x2 h0
  unfold rowFail
  repeat' (first
    | with_reducible assumption
    | (extract_lets +onlyGivenNames x; clear_value x)
    | with_reducible apply ite_kept
    | with_reducible apply setMem_kept
    )

theorem eccCe_kept : ∀ x0 x1, Kept Q F x0 → Kept Q F (eccCe x0 x1) := by
  intro x0 x1 h0
  unfold eccCe
  repeat' (first
    | with_reducible assumption
    | (extract_lets +onlyGivenNames x; refine Kept.via Q F x ?_ (fun _ => ?_) <;> [subst x; clear_value x])
    | (extract_lets +onlyGivenNames x; clear_value x)
    | with_reducible apply ite_kept
    | with_reducible apply State.setB_kept
    | with_reducible apply State.addR_kept
    | with_reducible apply setMem_kept
    | with_reducible apply rowFail_kept
    | with_reducible apply report_kept
    )

theorem eccUe_kept : ∀ x0 x1, Kept Q F x0 → Kept Q F (eccUe x0 x1) := by
  intro x0 x1 h0
  unfold eccUe
  repeat' (first
    | with_reducible assumption
    | (extract_lets +onlyGivenNames x; refine Kept.via Q F x ?_ (fun _ => ?_) <;> [subst x; clear_value x])
    | (extract_lets +onlyGivenNames x; clear_value x)
    | with_reducible apply ite_kept
    | with_reducible apply State.wr64_kept
    | with_reducible apply State.setB_kept
    | with_reducible apply State.addR_kept
    | with_reducible apply setMem_kept
    | with_reducible apply rowFail_kept
    | with_reducible apply report_kept
    )

theorem eccRead_kept : ∀ x0 x1 x2 x3, Kept Q F x0 → Kept Q F (eccRead x0 x1 x2 x3).1 := by
  intro x0 x1 x2 x3 h0
  unfold eccRead
  repeat' (first
    | with_reducible assumption
    | (extract_lets +onlyGivenNames x; refine Kept.via Q F x ?_ (fun _ => ?_) <;> [subst x; clear_value x])
    | (extract_lets +onlyGivenNames x; clear_value x)
    | dsimp -zeta only
    | (with_reducible apply forEach_kept; intro _ _ _; beta_reduce)
    | with_reducible apply eccCe_kept
    | with_reducible apply eccUe_kept
    )

theorem State.unitWrite_kept : ∀ x0 x1 x2, Kept Q F x0 → (_ : Q.hbm = none := by assumption) → Kept Q F (State.unitWrite x0 x1 x2) := by
  intro x0 x1 x2 h0 _
  unfold State.unitWrite
  repeat' (first
    | with_reducible assumption
    | (extract_lets +onlyGivenNames x; refine Kept.via Q F x ?_ (fun _ => ?_) <;> [subst x; clear_value x])
    | (extract_lets +onlyGivenNames x; clear_value x)
    | with_reducible apply ite_kept
    | with_reducible apply State.hbmWrite_kept
    )

-- Machine/Coder.lean

theorem dropRecord_kept : ∀ x0 x1, Kept Q F x0 → Kept Q F (dropRecord x0 x1) := by
  intro x0 x1 h0
  unfold dropRecord
  repeat' (first
    | with_reducible assumption
    | (extract_lets +onlyGivenNames x; refine Kept.via Q F x ?_ (fun _ => ?_) <;> [subst x; clear_value x])
    | (extract_lets +onlyGivenNames x; clear_value x)
    | with_reducible apply ite_kept
    | with_reducible apply State.setStream_kept
    | with_reducible apply State.addR_kept
    | with_reducible apply State.setB_kept
    | with_reducible apply report_kept
    )

theorem fillRise_kept : ∀ x0 x1, Kept Q F x0 → Kept Q F (fillRise x0 x1) := by
  intro x0 x1 h0
  unfold fillRise
  repeat' (first
    | with_reducible assumption
    | (extract_lets +onlyGivenNames x; refine Kept.via Q F x ?_ (fun _ => ?_) <;> [subst x; clear_value x])
    | (extract_lets +onlyGivenNames x; clear_value x)
    | with_reducible apply ite_kept
    | (with_reducible apply forEach_kept; intro _ _ _; beta_reduce)
    | with_reducible apply State.setB_kept
    | with_reducible apply State.setDma_kept
    | split
    )

theorem admitRecord_kept : ∀ x0 x1 x2 x3 x4, Kept Q F x0 → Kept Q F (admitRecord x0 x1 x2 x3 x4) := by
  intro x0 x1 x2 x3 x4 h0
  unfold admitRecord
  repeat' (first
    | with_reducible assumption
    | (extract_lets +onlyGivenNames x; clear_value x)
    | with_reducible apply fillRise_kept
    | with_reducible apply State.setStream_kept
    )

theorem putParts_kept : ∀ (s : State) (n : Nat) (e : List Byte) (h : Nat → List Byte → Header) (w : Bool) (l : List (Nat × List Byte)),
    Kept Q F s → Kept Q F (putParts s n e h w l)
  | _, _, _, _, _, [], k => k
  | s, n, e, h, w, (o, b) :: t, k => by
    unfold putParts
    extract_lets
    apply ite_kept
    · exact forEach_kept (fun _ s k => dropRecord_kept s n k) k
    · exact putParts_kept _ n e h w t (admitRecord_kept s n o _ b k)

theorem sealParts_kept : ∀ x0 x1 x2 x3 x4 x5, Kept Q F x0 → Kept Q F (sealParts x0 x1 x2 x3 x4 x5) := by
  intro x0 x1 x2 x3 x4 x5 h0
  unfold sealParts
  repeat' (first
    | with_reducible assumption
    | (extract_lets +onlyGivenNames x; refine Kept.via Q F x ?_ (fun _ => ?_) <;> [subst x; clear_value x])
    | (extract_lets +onlyGivenNames x; clear_value x)
    | with_reducible apply ite_kept
    | (with_reducible apply forEach_kept; intro _ _ _; beta_reduce)
    | with_reducible apply dropRecord_kept
    | with_reducible apply putParts_kept
    )

theorem sealUnits_kept : ∀ x0 x1 x2 x3 x4 x5 x6, Kept Q F x0 → Kept Q F (sealUnits x0 x1 x2 x3 x4 x5 x6) := by
  intro x0 x1 x2 x3 x4 x5 x6 h0
  unfold sealUnits
  repeat' (first
    | with_reducible assumption
    | (extract_lets +onlyGivenNames x; clear_value x)
    | with_reducible apply ite_kept
    | with_reducible apply sealParts_kept
    )

theorem tdcGroup_kept : ∀ x0 x1 x2 x3 x4, Kept Q F x0 → Kept Q F (tdcGroup x0 x1 x2 x3 x4) := by
  intro x0 x1 x2 x3 x4 h0
  unfold tdcGroup
  repeat' (first
    | with_reducible assumption
    | (extract_lets +onlyGivenNames x; refine Kept.via Q F x ?_ (fun _ => ?_) <;> [subst x; clear_value x])
    | (extract_lets +onlyGivenNames x; clear_value x)
    | with_reducible apply ite_kept
    | with_reducible apply sealParts_kept
    | split
    )

theorem tdcSeal_kept : ∀ x0 x1 x2 x3, Kept Q F x0 → Kept Q F (tdcSeal x0 x1 x2 x3) := by
  intro x0 x1 x2 x3 h0
  unfold tdcSeal
  repeat' (first
    | with_reducible assumption
    | (extract_lets +onlyGivenNames x; refine Kept.via Q F x ?_ (fun _ => ?_) <;> [subst x; clear_value x])
    | (extract_lets +onlyGivenNames x; clear_value x)
    | with_reducible apply ite_kept
    | (with_reducible apply forEach_kept; intro _ _ _; beta_reduce)
    | with_reducible apply tdcGroup_kept
    )

theorem itemSeal_kept : ∀ x0 x1 x2, Kept Q F x0 → Kept Q F (itemSeal x0 x1 x2) := by
  intro x0 x1 x2 h0
  unfold itemSeal
  repeat' (first
    | with_reducible assumption
    | (extract_lets +onlyGivenNames x; refine Kept.via Q F x ?_ (fun _ => ?_) <;> [subst x; clear_value x])
    | (extract_lets +onlyGivenNames x; clear_value x)
    | with_reducible apply ite_kept
    | with_reducible apply State.setStream_kept
    | with_reducible apply sealUnits_kept
    | with_reducible apply tdcSeal_kept
    | split
    )

theorem iqSeal_kept : ∀ x0 x1 x2, Kept Q F x0 → Kept Q F (iqSeal x0 x1 x2) := by
  intro x0 x1 x2 h0
  unfold iqSeal
  repeat' (first
    | with_reducible assumption
    | (extract_lets +onlyGivenNames x; refine Kept.via Q F x ?_ (fun _ => ?_) <;> [subst x; clear_value x])
    | (extract_lets +onlyGivenNames x; clear_value x)
    | with_reducible apply State.setStream_kept
    | with_reducible apply sealParts_kept
    | split
    )

theorem endRecord_kept : ∀ x0 x1, Kept Q F x0 → Kept Q F (endRecord x0 x1) := by
  intro x0 x1 h0
  unfold endRecord
  repeat' (first
    | with_reducible assumption
    | (extract_lets +onlyGivenNames x; refine Kept.via Q F x ?_ (fun _ => ?_) <;> [subst x; clear_value x])
    | (extract_lets +onlyGivenNames x; clear_value x)
    | with_reducible apply ite_kept
    | with_reducible apply sealParts_kept
    )

theorem streamEnd_kept : ∀ x0 x1, Kept Q F x0 → Kept Q F (streamEnd x0 x1) := by
  intro x0 x1 h0
  unfold streamEnd
  repeat' (first
    | with_reducible assumption
    | (extract_lets +onlyGivenNames x; clear_value x)
    | with_reducible apply ite_kept
    | with_reducible apply iqSeal_kept
    | with_reducible apply itemSeal_kept
    | with_reducible apply State.setStream_kept
    | with_reducible apply endRecord_kept
    | split
    )

theorem streamFresh_kept : ∀ x0 x1, Kept Q F x0 → Kept Q F (streamFresh x0 x1) := by
  intro x0 x1 h0
  unfold streamFresh
  repeat' (first
    | with_reducible assumption
    | (extract_lets +onlyGivenNames x; refine Kept.via Q F x ?_ (fun _ => ?_) <;> [subst x; clear_value x])
    | (extract_lets +onlyGivenNames x; clear_value x)
    | with_reducible apply ite_kept
    | with_reducible apply State.setStream_kept
    | with_reducible apply State.wr64_kept
    )

theorem addItem_kept : ∀ x0 x1 x2, Kept Q F x0 → Kept Q F (addItem x0 x1 x2) := by
  intro x0 x1 x2 h0
  unfold addItem
  repeat' (first
    | with_reducible assumption
    | (extract_lets +onlyGivenNames x; clear_value x)
    | with_reducible apply State.setStream_kept
    )

theorem logItems_kept : ∀ x0, Kept Q F x0 → Kept Q F (logItems x0) := by
  intro x0 h0
  unfold logItems
  repeat' (first
    | with_reducible assumption
    | (extract_lets +onlyGivenNames x; refine Kept.via Q F x ?_ (fun _ => ?_) <;> [subst x; clear_value x])
    | (extract_lets +onlyGivenNames x; clear_value x)
    | (with_reducible apply forEach_kept; intro _ _ _; beta_reduce)
    | with_reducible apply State.setStream_kept
    | with_reducible apply addItem_kept
    )

theorem putCut_kept : ∀ (s : State) (n : Nat) (h : Header) (l : List (Nat × List Byte)), Kept Q F s → Kept Q F (putCut s n h l)
  | _, _, _, [], k => State.setStream_kept _ _ _ k
  | _, _, _, [_], k => State.setStream_kept _ _ _ (admitRecord_kept _ _ _ _ _ k)
  | _, n, h, _ :: q :: t, k => putCut_kept _ n h (q :: t) (admitRecord_kept _ n _ _ _ k)

theorem objectCut_kept : ∀ x0 x1 x2 x3 x4 x5, Kept Q F x0 → Kept Q F (objectCut x0 x1 x2 x3 x4 x5) := by
  intro x0 x1 x2 x3 x4 x5 h0
  unfold objectCut
  repeat' (first
    | with_reducible assumption
    | (extract_lets +onlyGivenNames x; refine Kept.via Q F x ?_ (fun _ => ?_) <;> [subst x; clear_value x])
    | (extract_lets +onlyGivenNames x; clear_value x)
    | with_reducible apply ite_kept
    | (with_reducible apply forEach_kept; intro _ _ _; beta_reduce)
    | with_reducible apply putParts_kept
    | with_reducible apply State.setB_kept
    | with_reducible apply putCut_kept
    | with_reducible apply eccUe_kept
    )

theorem specObject_kept : ∀ x0 x1 x2 x3 x4 x5 x6 x7 x8 x9, Kept Q F x0 → Kept Q F (specObject x0 x1 x2 x3 x4 x5 x6 x7 x8 x9) := by
  intro x0 x1 x2 x3 x4 x5 x6 x7 x8 x9 h0
  unfold specObject
  repeat' (first
    | with_reducible assumption
    | (extract_lets +onlyGivenNames x; refine Kept.via Q F x ?_ (fun _ => ?_) <;> [subst x; clear_value x])
    | (extract_lets +onlyGivenNames x; clear_value x)
    | with_reducible apply ite_kept
    | (with_reducible apply forEach_kept; intro _ _ _; beta_reduce)
    | with_reducible apply State.setStream_kept
    | with_reducible apply sealUnits_kept
    )

theorem emitSeal_kept : ∀ x0 x1 x2 x3 x4, Kept Q F x0 → Kept Q F (emitSeal x0 x1 x2 x3 x4) := by
  intro x0 x1 x2 x3 x4 h0
  unfold emitSeal
  repeat' (first
    | with_reducible assumption
    | (extract_lets +onlyGivenNames x; clear_value x)
    | with_reducible apply sealUnits_kept
    )

theorem hbmObject_kept : ∀ x0 x1 x2 x3 x4, Kept Q F x0 → Kept Q F (hbmObject x0 x1 x2 x3 x4) := by
  intro x0 x1 x2 x3 x4 h0
  unfold hbmObject
  repeat' (first
    | with_reducible assumption
    | with_reducible apply ite_kept
    | with_reducible apply objectCut_kept
    | with_reducible apply sealUnits_kept
    | split
    )

theorem groupsClose_kept : ∀ x0, Kept Q F x0 → Kept Q F (groupsClose x0) := by
  intro x0 h0
  unfold groupsClose
  repeat' (first
    | with_reducible assumption
    | (extract_lets +onlyGivenNames x; clear_value x)
    | with_reducible apply ite_kept
    | (with_reducible apply forEach_kept; intro _ _ _; beta_reduce)
    | with_reducible apply itemSeal_kept
    )

theorem streamDiscard_kept : ∀ x0 x1, Kept Q F x0 → Kept Q F (streamDiscard x0 x1) := by
  intro x0 x1 h0
  unfold streamDiscard
  repeat' (first
    | with_reducible assumption
    | (extract_lets +onlyGivenNames x; clear_value x)
    | with_reducible apply State.setStream_kept
    )

theorem evtRecord_kept : ∀ x0 x1 x2 x3 x4 x5 x6 x7, Kept Q F x0 → Kept Q F (evtRecord x0 x1 x2 x3 x4 x5 x6 x7) := by
  intro x0 x1 x2 x3 x4 x5 x6 x7 h0
  unfold evtRecord
  repeat' (first
    | with_reducible assumption
    | (extract_lets +onlyGivenNames x; clear_value x)
    | with_reducible apply ite_kept
    | (with_reducible apply forEach_kept; intro _ _ _; beta_reduce)
    | with_reducible apply sealUnits_kept
    )

theorem iqBeat_kept : ∀ x0 x1, Kept Q F x0 → Kept Q F (iqBeat x0 x1) := by
  intro x0 x1 h0
  unfold iqBeat
  repeat' (first
    | with_reducible assumption
    | (extract_lets +onlyGivenNames x; refine Kept.via Q F x ?_ (fun _ => ?_) <;> [subst x; clear_value x])
    | (extract_lets +onlyGivenNames x; clear_value x)
    | with_reducible apply ite_kept
    | (with_reducible apply forEach_kept; intro _ _ _; beta_reduce)
    | with_reducible apply State.setStream_kept
    | with_reducible apply iqSeal_kept
    )

end Sys2Proof.Machine
end

