-- ==== Sys2Proof/Laws/KeptRing.lean ====
section
/-! SUPPORT. `Kept` for every function of Machine/Time, Carousel, Trigger, Tdc, Clock, Density: one lemma each, cited by those of its callers. -/
namespace Sys2Proof.Machine
variable {Q : Frame} {F : Fuses}

-- Machine/Time.lean

theorem setGrid_kept : ∀ x0 x1, Kept Q F x0 → Kept Q F (setGrid x0 x1) := by
  intro x0 x1 h0
  unfold setGrid
  repeat' (first
    | with_reducible assumption
    | with_reducible apply State.setF_kept
    )

theorem setTime_kept : ∀ x0 x1, Kept Q F x0 → Kept Q F (setTime x0 x1) := by
  intro x0 x1 h0
  unfold setTime
  repeat' (first
    | with_reducible assumption
    | with_reducible apply mk_kept
    )

theorem gridEnd_kept : ∀ x0, Kept Q F x0 → Kept Q F (gridEnd x0) := by
  intro x0 h0
  unfold gridEnd
  repeat' (first
    | with_reducible assumption
    | (extract_lets +onlyGivenNames x; refine Kept.via Q F x ?_ (fun _ => ?_) <;> [subst x; clear_value x])
    | (extract_lets +onlyGivenNames x; clear_value x)
    | with_reducible apply ite_kept
    | with_reducible apply setGrid_kept
    | with_reducible apply setTime_kept
    | with_reducible apply State.setB_kept
    | with_reducible apply fire_kept
    )

theorem timCause_kept : ∀ x0 x1, Kept Q F x0 → Kept Q F (timCause x0 x1) := by
  intro x0 x1 h0
  unfold timCause
  repeat' (first
    | with_reducible assumption
    | (extract_lets +onlyGivenNames x; refine Kept.via Q F x ?_ (fun _ => ?_) <;> [subst x; clear_value x])
    | with_reducible apply ite_kept
    | with_reducible apply fire_kept
    | with_reducible apply State.setB_kept
    | with_reducible apply mk_kept
    )

theorem gridAbort_kept : ∀ x0, Kept Q F x0 → Kept Q F (gridAbort x0) := by
  intro x0 h0
  unfold gridAbort
  repeat' (first
    | with_reducible assumption
    | (extract_lets +onlyGivenNames x; clear_value x)
    | with_reducible apply ite_kept
    | with_reducible apply timCause_kept
    | with_reducible apply setGrid_kept
    | with_reducible apply setTime_kept
    )

theorem gridBreak_kept : ∀ x0, Kept Q F x0 → Kept Q F (gridBreak x0) := by
  intro x0 h0
  unfold gridBreak
  repeat' (first
    | with_reducible assumption
    | with_reducible apply gridEnd_kept
    | with_reducible apply gridAbort_kept
    )

theorem execGridAlignAbort_kept : ∀ x0, Kept Q F x0 → KeptOut Q F (execGridAlignAbort x0) := by
  intro x0 h0
  unfold execGridAlignAbort
  repeat' (first
    | with_reducible assumption
    | with_reducible apply keptOut_next
    | with_reducible apply gridAbort_kept
    )

theorem stepsApply_kept : ∀ x0 x1, Kept Q F x0 → Kept Q F (stepsApply x0 x1) := by
  intro x0 x1 h0
  unfold stepsApply
  repeat' (first
    | with_reducible assumption
    | (extract_lets +onlyGivenNames x; refine Kept.via Q F x ?_ (fun _ => ?_) <;> [subst x; clear_value x])
    | (extract_lets +onlyGivenNames x; clear_value x)
    | with_reducible apply ite_kept
    | with_reducible apply setTime_kept
    )

theorem gridMeasure_kept : ∀ x0 x1 x2, Kept Q F x0 → Kept Q F (gridMeasure x0 x1 x2) := by
  intro x0 x1 x2 h0
  unfold gridMeasure
  repeat' (first
    | with_reducible assumption
    | (extract_lets +onlyGivenNames x; clear_value x)
    | with_reducible apply setTime_kept
    )

theorem setClock_kept : ∀ x0 x1, Kept Q F x0 → Kept Q F (setClock x0 x1) := by
  intro x0 x1 h0
  unfold setClock
  repeat' (first
    | with_reducible assumption
    | (extract_lets +onlyGivenNames x; refine Kept.via Q F x ?_ (fun _ => ?_) <;> [subst x; clear_value x])
    | (extract_lets +onlyGivenNames x; clear_value x)
    | with_reducible apply State.wr64_kept
    | with_reducible apply State.wr_kept
    )

theorem rebase_kept : ∀ x0, Kept Q F x0 → Kept Q F (rebase x0) := by
  intro x0 h0
  unfold rebase
  repeat' (first
    | with_reducible assumption
    | (extract_lets +onlyGivenNames x; clear_value x)
    | with_reducible apply setTime_kept
    )

theorem setRate_kept : ∀ x0 x1, Kept Q F x0 → Kept Q F (setRate x0 x1) := by
  intro x0 x1 h0
  unfold setRate
  repeat' (first
    | with_reducible assumption
    | with_reducible apply State.wr_kept
    | with_reducible apply rebase_kept
    )

theorem servoLaw_kept : ∀ x0 x1, Kept Q F x0 → Kept Q F (servoLaw x0 x1) := by
  intro x0 x1 h0
  unfold servoLaw
  repeat' (first
    | with_reducible assumption
    | (extract_lets +onlyGivenNames x; refine Kept.via Q F x ?_ (fun _ => ?_) <;> [subst x; clear_value x])
    | (extract_lets +onlyGivenNames x; clear_value x)
    | with_reducible apply ite_kept
    | with_reducible apply State.wr_kept
    | with_reducible apply timCause_kept
    | with_reducible apply setRate_kept
    )

theorem execPpsoutRise_kept : ∀ x0, Kept Q F x0 → KeptOut Q F (execPpsoutRise x0) := by
  intro x0 h0
  unfold execPpsoutRise
  repeat' (first
    | with_reducible assumption
    | (extract_lets +onlyGivenNames x; clear_value x)
    | with_reducible apply ite_kept
    | with_reducible apply keptOut_next
    | with_reducible apply setTime_kept
    | with_reducible apply State.put_kept
    )

theorem pushJump_kept : ∀ x0 x1, Kept Q F x0 → Kept Q F (pushJump x0 x1) := by
  intro x0 x1 h0
  unfold pushJump
  repeat' (first
    | with_reducible assumption
    | (extract_lets +onlyGivenNames x; clear_value x)
    | with_reducible apply setTime_kept
    )

theorem execTimeStep_kept : ∀ x0 x1, Kept Q F x1 → (_ : Q.mbx = none := by assumption) → KeptOut Q F (execTimeStep x0 x1) := by
  intro x0 x1 h0 _
  unfold execTimeStep
  repeat' (first
    | with_reducible assumption
    | with_reducible apply keptOut_next
    | with_reducible apply command_kept
    | with_reducible apply reply_kept
    | with_reducible apply pushJump_kept
    )

theorem execLeapSecond_kept : ∀ x0 x1, Kept Q F x1 → KeptOut Q F (execLeapSecond x0 x1) := by
  intro x0 x1 h0
  unfold execLeapSecond
  repeat' (first
    | with_reducible assumption
    | (extract_lets +onlyGivenNames x; refine Kept.via Q F x ?_ (fun _ => ?_) <;> [subst x; clear_value x])
    | (extract_lets +onlyGivenNames x; clear_value x)
    | with_reducible apply ite_kept
    | with_reducible apply keptOut_next
    | with_reducible apply setClock_kept
    | with_reducible apply State.setB_kept
    | with_reducible apply State.setF_kept
    | with_reducible apply setTime_kept
    )

theorem slewFrom_kept : ∀ x0 x1, Kept Q F x0 → Kept Q F (slewFrom x0 x1) := by
  intro x0 x1 h0
  unfold slewFrom
  repeat' (first
    | with_reducible assumption
    | (extract_lets +onlyGivenNames x; clear_value x)
    | with_reducible apply setGrid_kept
    | with_reducible apply setTime_kept
    )

theorem rateNote_kept : ∀ x0, Kept Q F x0 → Kept Q F (rateNote x0) := by
  intro x0 h0
  unfold rateNote
  repeat' (first
    | with_reducible assumption
    | (extract_lets +onlyGivenNames x; refine Kept.via Q F x ?_ (fun _ => ?_) <;> [subst x; clear_value x])
    | (extract_lets +onlyGivenNames x; clear_value x)
    | with_reducible apply ite_kept
    | with_reducible apply setTime_kept
    )

theorem moveTime_kept : ∀ x0 x1, Kept Q F x0 → Kept Q F (moveTime x0 x1) := by
  intro x0 x1 h0
  unfold moveTime
  repeat' (first
    | with_reducible assumption
    | (extract_lets +onlyGivenNames x; refine Kept.via Q F x ?_ (fun _ => ?_) <;> [subst x; clear_value x])
    | (extract_lets +onlyGivenNames x; clear_value x)
    | with_reducible apply setTime_kept
    | with_reducible apply setClock_kept
    | with_reducible apply mk_kept
    | with_reducible apply mk_keptActive
    )

theorem integRate_kept : ∀ x0, Kept Q F x0 → Kept Q F (integRate x0) := by
  intro x0 h0
  unfold integRate
  repeat' (first
    | with_reducible assumption
    | (extract_lets +onlyGivenNames x; refine Kept.via Q F x ?_ (fun _ => ?_) <;> [subst x; clear_value x])
    | (extract_lets +onlyGivenNames x; clear_value x)
    | with_reducible apply ite_kept
    | with_reducible apply setRate_kept
    )

theorem trackLoss_kept : ∀ x0, Kept Q F x0 → Kept Q F (trackLoss x0) := by
  intro x0 h0
  unfold trackLoss
  repeat' (first
    | with_reducible assumption
    | with_reducible apply ite_kept
    | with_reducible apply report_kept
    | with_reducible apply timCause_kept
    | with_reducible apply gridEnd_kept
    )

theorem taiUpdate_kept : ∀ x0, Kept Q F x0 → Kept Q F (taiUpdate x0) := by
  intro x0 h0
  unfold taiUpdate
  repeat' (first
    | with_reducible assumption
    | (extract_lets +onlyGivenNames x; refine Kept.via Q F x ?_ (fun _ => ?_) <;> [subst x; clear_value x])
    | (extract_lets +onlyGivenNames x; clear_value x)
    | with_reducible apply ite_kept
    | with_reducible apply State.setB_kept
    | with_reducible apply report_kept
    | with_reducible apply gridBreak_kept
    | with_reducible apply trackLoss_kept
    )

theorem servoGo_kept : ∀ x0 x1, Kept Q F x0 → Kept Q F (servoGo x0 x1) := by
  intro x0 x1 h0
  unfold servoGo
  repeat' (first
    | with_reducible assumption
    | (extract_lets +onlyGivenNames x; refine Kept.via Q F x ?_ (fun _ => ?_) <;> [subst x; clear_value x])
    | (extract_lets +onlyGivenNames x; clear_value x)
    | with_reducible apply ite_kept
    | with_reducible apply setTime_kept
    | with_reducible apply State.setF_kept
    | with_reducible apply timCause_kept
    | with_reducible apply integRate_kept
    | with_reducible apply taiUpdate_kept
    )

theorem acquireCount_kept : ∀ x0 x1, Kept Q F x0 → Kept Q F (acquireCount x0 x1) := by
  intro x0 x1 h0
  unfold acquireCount
  repeat' (first
    | with_reducible assumption
    | (extract_lets +onlyGivenNames x; refine Kept.via Q F x ?_ (fun _ => ?_) <;> [subst x; clear_value x])
    | (extract_lets +onlyGivenNames x; clear_value x)
    | with_reducible apply ite_kept
    | with_reducible apply setTime_kept
    | with_reducible apply servoGo_kept
    )

theorem jumpRefused_kept : ∀ x0, Kept Q F x0 → Kept Q F (jumpRefused x0) := by
  intro x0 h0
  unfold jumpRefused
  repeat' (first
    | with_reducible assumption
    | (extract_lets +onlyGivenNames x; refine Kept.via Q F x ?_ (fun _ => ?_) <;> [subst x; clear_value x])
    | with_reducible apply State.setF_kept
    | with_reducible apply report_kept
    | with_reducible apply timCause_kept
    )

theorem servoAcquire_kept : ∀ x0 x1, Kept Q F x0 → Kept Q F (servoAcquire x0 x1) := by
  intro x0 x1 h0
  unfold servoAcquire
  repeat' (first
    | with_reducible assumption
    | (extract_lets +onlyGivenNames x; refine Kept.via Q F x ?_ (fun _ => ?_) <;> [subst x; clear_value x])
    | with_reducible apply ite_kept
    | with_reducible apply moveTime_kept
    | with_reducible apply State.setB_kept
    | with_reducible apply acquireCount_kept
    | with_reducible apply taiUpdate_kept
    | with_reducible apply timCause_kept
    | with_reducible apply servoGo_kept
    | with_reducible apply jumpRefused_kept
    | with_reducible apply pushJump_kept
    | with_reducible apply servoLaw_kept
    )

theorem servoLocked_kept : ∀ x0 x1, Kept Q F x0 → Kept Q F (servoLocked x0 x1) := by
  intro x0 x1 h0
  unfold servoLocked
  repeat' (first
    | with_reducible assumption
    | (extract_lets +onlyGivenNames x; refine Kept.via Q F x ?_ (fun _ => ?_) <;> [subst x; clear_value x])
    | (extract_lets +onlyGivenNames x; clear_value x)
    | with_reducible apply ite_kept
    | with_reducible apply setTime_kept
    | with_reducible apply servoGo_kept
    | with_reducible apply servoLaw_kept
    )

theorem servoTake_kept : ∀ x0 x1, Kept Q F x0 → Kept Q F (servoTake x0 x1) := by
  intro x0 x1 h0
  unfold servoTake
  repeat' (first
    | with_reducible assumption
    | (extract_lets +onlyGivenNames x; refine Kept.via Q F x ?_ (fun _ => ?_) <;> [subst x; clear_value x])
    | (extract_lets +onlyGivenNames x; clear_value x)
    | with_reducible apply ite_kept
    | with_reducible apply servoAcquire_kept
    | with_reducible apply servoLocked_kept
    | with_reducible apply servoGo_kept
    )

theorem servoSample_kept : ∀ x0 x1, Kept Q F x0 → Kept Q F (servoSample x0 x1) := by
  intro x0 x1 h0
  unfold servoSample
  repeat' (first
    | with_reducible assumption
    | (extract_lets +onlyGivenNames x; refine Kept.via Q F x ?_ (fun _ => ?_) <;> [subst x; clear_value x])
    | with_reducible apply ite_kept
    | with_reducible apply State.setF_kept
    | with_reducible apply State.wr_kept
    | with_reducible apply rateNote_kept
    | with_reducible apply servoTake_kept
    | with_reducible apply taiUpdate_kept
    | with_reducible apply State.setB_kept
    )

theorem servoRestart_kept : ∀ x0, Kept Q F x0 → Kept Q F (servoRestart x0) := by
  intro x0 h0
  unfold servoRestart
  repeat' (first
    | with_reducible assumption
    | (extract_lets +onlyGivenNames x; clear_value x)
    | with_reducible apply servoGo_kept
    | with_reducible apply setTime_kept
    )

theorem gridSteps_kept : ∀ x0, Kept Q F x0 → Kept Q F (gridSteps x0) := by
  intro x0 h0
  unfold gridSteps
  repeat' (first
    | with_reducible assumption
    | (extract_lets +onlyGivenNames x; refine Kept.via Q F x ?_ (fun _ => ?_) <;> [subst x; clear_value x])
    | (extract_lets +onlyGivenNames x; clear_value x)
    | with_reducible apply ite_kept
    | with_reducible apply stepsApply_kept
    | with_reducible apply setTime_kept
    )

theorem execPpsoutFall_kept : ∀ x0, Kept Q F x0 → KeptOut Q F (execPpsoutFall x0) := by
  intro x0 h0
  unfold execPpsoutFall
  repeat' (first
    | with_reducible assumption
    | (extract_lets +onlyGivenNames x; clear_value x)
    | with_reducible apply ite_kept
    | with_reducible apply keptOut_next
    | with_reducible apply setTime_kept
    | with_reducible apply State.put_kept
    )

theorem slewEnd_kept : ∀ x0, Kept Q F x0 → Kept Q F (slewEnd x0) := by
  intro x0 h0
  unfold slewEnd
  repeat' (first
    | with_reducible assumption
    | (extract_lets +onlyGivenNames x; refine Kept.via Q F x ?_ (fun _ => ?_) <;> [subst x; clear_value x])
    | (extract_lets +onlyGivenNames x; clear_value x)
    | with_reducible apply ite_kept
    | with_reducible apply stepsApply_kept
    | with_reducible apply setGrid_kept
    | with_reducible apply setTime_kept
    )

theorem execHoldmaxExpiry_kept : ∀ x0, Kept Q F x0 → KeptOut Q F (execHoldmaxExpiry x0) := by
  intro x0 h0
  unfold execHoldmaxExpiry
  repeat' (first
    | with_reducible assumption
    | (extract_lets +onlyGivenNames x; clear_value x)
    | with_reducible apply ite_kept
    | with_reducible apply keptOut_next
    | with_reducible apply taiUpdate_kept
    | with_reducible apply setTime_kept
    )

theorem execUtcSet_kept : ∀ x0 x1, Kept Q F x1 → (_ : Q.mbx = none := by assumption) → KeptOut Q F (execUtcSet x0 x1) := by
  intro x0 x1 h0 _
  unfold execUtcSet
  repeat' (first
    | with_reducible assumption
    | (extract_lets +onlyGivenNames x; clear_value x)
    | with_reducible apply keptOut_next
    | with_reducible apply command_kept
    | with_reducible apply reply_kept
    | with_reducible apply State.wr_kept
    )

theorem servoWrite_kept : ∀ x0 x1, Kept Q F x0 → Kept Q F (servoWrite x0 x1) := by
  intro x0 x1 h0
  unfold servoWrite
  repeat' (first
    | with_reducible assumption
    | (extract_lets +onlyGivenNames x; refine Kept.via Q F x ?_ (fun _ => ?_) <;> [subst x; clear_value x])
    | (extract_lets +onlyGivenNames x; clear_value x)
    | with_reducible apply ite_kept
    | with_reducible apply writeRegs_kept
    | with_reducible apply servoRestart_kept
    )

theorem applyStep_kept : ∀ x0 x1 x2, Kept Q F x0 → Kept Q F (applyStep x0 x1 x2) := by
  intro x0 x1 x2 h0
  unfold applyStep
  repeat' (first
    | with_reducible assumption
    | (extract_lets +onlyGivenNames x; refine Kept.via Q F x ?_ (fun _ => ?_) <;> [subst x; clear_value x])
    | (extract_lets +onlyGivenNames x; clear_value x)
    | with_reducible apply ite_kept
    | (with_reducible apply forEach_kept; intro _ _ _; beta_reduce)
    | with_reducible apply moveTime_kept
    | with_reducible apply State.setB_kept
    | with_reducible apply timCause_kept
    | with_reducible apply servoGo_kept
    | with_reducible apply taiUpdate_kept
    | with_reducible apply setTime_kept
    )

theorem applyJumps_kept : ∀ x0, Kept Q F x0 → Kept Q F (applyJumps x0) := by
  intro x0 h0
  unfold applyJumps
  repeat' (first
    | with_reducible assumption
    | (extract_lets +onlyGivenNames x; refine Kept.via Q F x ?_ (fun _ => ?_) <;> [subst x; clear_value x])
    | (extract_lets +onlyGivenNames x; clear_value x)
    | with_reducible apply ite_kept
    | with_reducible apply setTime_kept
    | with_reducible apply jumpRefused_kept
    | with_reducible apply gridBreak_kept
    | with_reducible apply applyStep_kept
    | with_reducible apply servoGo_kept
    | with_reducible apply moveTime_kept
    )

theorem execJumpApply_kept : ∀ x0 x1, Kept Q F x1 → KeptOut Q F (execJumpApply x0 x1) := by
  intro x0 x1 h0
  unfold execJumpApply
  repeat' (first
    | with_reducible assumption
    | with_reducible apply ite_kept
    | with_reducible apply keptOut_next
    | with_reducible apply applyJumps_kept
    | with_reducible apply setClock_kept
    )

theorem execTimeAdjust_kept : ∀ x0 x1, Kept Q F x1 → (_ : Q.mbx = none := by assumption) → KeptOut Q F (execTimeAdjust x0 x1) := by
  intro x0 x1 h0 _
  unfold execTimeAdjust
  repeat' (first
    | with_reducible assumption
    | (extract_lets +onlyGivenNames x; refine Kept.via Q F x ?_ (fun _ => ?_) <;> [subst x; clear_value x])
    | (extract_lets +onlyGivenNames x; clear_value x)
    | with_reducible apply ite_kept
    | with_reducible apply keptOut_next
    | with_reducible apply jumpRefused_kept
    | with_reducible apply command_kept
    | with_reducible apply reply_kept
    | with_reducible apply pushJump_kept
    )

theorem gridWindow_kept : ∀ x0 x1 x2, Kept Q F x0 → Kept Q F (gridWindow x0 x1 x2) := by
  intro x0 x1 x2 h0
  unfold gridWindow
  repeat' (first
    | with_reducible assumption
    | (extract_lets +onlyGivenNames x; refine Kept.via Q F x ?_ (fun _ => ?_) <;> [subst x; clear_value x])
    | (extract_lets +onlyGivenNames x; clear_value x)
    | with_reducible apply ite_kept
    | with_reducible apply setTime_kept
    | with_reducible apply trackLoss_kept
    | with_reducible apply slewFrom_kept
    | with_reducible apply gridAbort_kept
    )

theorem execServoSample_kept : ∀ x0 x1, Kept Q F x1 → KeptOut Q F (execServoSample x0 x1) := by
  intro x0 x1 h0
  unfold execServoSample
  repeat' (first
    | with_reducible assumption
    | (extract_lets +onlyGivenNames x; refine Kept.via Q F x ?_ (fun _ => ?_) <;> [subst x; clear_value x])
    | (extract_lets +onlyGivenNames x; clear_value x)
    | with_reducible apply ite_kept
    | with_reducible apply keptOut_next
    | with_reducible apply setClock_kept
    | with_reducible apply setTime_kept
    | with_reducible apply servoSample_kept
    | split
    )

theorem gridStart_kept : ∀ x0, Kept Q F x0 → Kept Q F (gridStart x0) := by
  intro x0 h0
  unfold gridStart
  repeat' (first
    | with_reducible assumption
    | (extract_lets +onlyGivenNames x; clear_value x)
    | with_reducible apply ite_kept
    | with_reducible apply setGrid_kept
    | with_reducible apply setTime_kept
    )

theorem execGridAlign_kept : ∀ x0 x1, Kept Q F x1 → (_ : Q.mbx = none := by assumption) → KeptOut Q F (execGridAlign x0 x1) := by
  intro x0 x1 h0 _
  unfold execGridAlign
  repeat' (first
    | with_reducible assumption
    | with_reducible apply ite_kept
    | with_reducible apply keptOut_next
    | with_reducible apply command_kept
    | with_reducible apply reply_kept
    | with_reducible apply gridAbort_kept
    | with_reducible apply gridStart_kept
    )

theorem execGridAvgWindowEnd_kept : ∀ x0, Kept Q F x0 → KeptOut Q F (execGridAvgWindowEnd x0) := by
  intro x0 h0
  unfold execGridAvgWindowEnd
  repeat' (first
    | with_reducible assumption
    | (extract_lets +onlyGivenNames x; refine Kept.via Q F x ?_ (fun _ => ?_) <;> [subst x; clear_value x])
    | (extract_lets +onlyGivenNames x; clear_value x)
    | with_reducible apply keptOut_next
    | with_reducible apply setTime_kept
    | with_reducible apply gridWindow_kept
    | with_reducible apply State.wr_kept
    | split
    )

theorem execServoSet_kept : ∀ x0 x1 x2, Kept Q F x2 → (_ : Q.mbx = none := by assumption) → KeptOut Q F (execServoSet x0 x1 x2) := by
  intro x0 x1 x2 h0 _
  unfold execServoSet
  repeat' (first
    | with_reducible assumption
    | (extract_lets +onlyGivenNames x; refine Kept.via Q F x ?_ (fun _ => ?_) <;> [subst x; clear_value x])
    | with_reducible apply keptOut_next
    | with_reducible apply setClock_kept
    | with_reducible apply command_kept
    | with_reducible apply reply_kept
    | with_reducible apply servoWrite_kept
    )

theorem sampleMissing_kept : ∀ x0, Kept Q F x0 → Kept Q F (sampleMissing x0) := by
  intro x0 h0
  unfold sampleMissing
  repeat' (first
    | with_reducible assumption
    | (extract_lets +onlyGivenNames x; refine Kept.via Q F x ?_ (fun _ => ?_) <;> [subst x; clear_value x])
    | (extract_lets +onlyGivenNames x; clear_value x)
    | with_reducible apply ite_kept
    | with_reducible apply State.setF_kept
    | with_reducible apply timCause_kept
    | with_reducible apply servoGo_kept
    )

theorem execGridLoad_kept : ∀ x0 x1 x2, Kept Q F x2 → KeptOut Q F (execGridLoad x0 x1 x2) := by
  intro x0 x1 x2 h0
  unfold execGridLoad
  repeat' (first
    | with_reducible assumption
    | (extract_lets +onlyGivenNames x; refine Kept.via Q F x ?_ (fun _ => ?_) <;> [subst x; clear_value x])
    | (extract_lets +onlyGivenNames x; clear_value x)
    | with_reducible apply ite_kept
    | with_reducible apply keptOut_next
    | with_reducible apply setClock_kept
    | with_reducible apply setTime_kept
    | with_reducible apply setGrid_kept
    | with_reducible apply State.setB_kept
    | with_reducible apply timCause_kept
    | with_reducible apply mk_kept
    )

theorem execTimeGet_kept : ∀ x0 x1 x2, Kept Q F x2 → (_ : Q.mbx = none := by assumption) → KeptOut Q F (execTimeGet x0 x1 x2) := by
  intro x0 x1 x2 h0 _
  unfold execTimeGet
  repeat' (first
    | with_reducible assumption
    | (extract_lets +onlyGivenNames x; refine Kept.via Q F x ?_ (fun _ => ?_) <;> [subst x; clear_value x])
    | with_reducible apply keptOut_next
    | with_reducible apply setClock_kept
    | with_reducible apply command_kept
    | with_reducible apply reply_kept
    | with_reducible apply mk_kept
    )

theorem execGridSlewEnd_kept : ∀ x0, Kept Q F x0 → KeptOut Q F (execGridSlewEnd x0) := by
  intro x0 h0
  unfold execGridSlewEnd
  repeat' (first
    | with_reducible assumption
    | (extract_lets +onlyGivenNames x; clear_value x)
    | with_reducible apply ite_kept
    | with_reducible apply keptOut_next
    | with_reducible apply slewEnd_kept
    )

theorem execSampleMissing_kept : ∀ x0 x1, Kept Q F x1 → KeptOut Q F (execSampleMissing x0 x1) := by
  intro x0 x1 h0
  unfold execSampleMissing
  repeat' (first
    | with_reducible assumption
    | with_reducible apply ite_kept
    | with_reducible apply keptOut_next
    | with_reducible apply sampleMissing_kept
    | with_reducible apply setClock_kept
    )

-- Machine/Carousel.lean

theorem showCar_kept : ∀ x0 x1, Kept Q F x0 → Kept Q F (showCar x0 x1) := by
  intro x0 x1 h0
  unfold showCar
  repeat' (first
    | with_reducible assumption
    | (extract_lets +onlyGivenNames x; clear_value x)
    | with_reducible apply State.wr_kept
    | with_reducible apply State.setF_kept
    )

theorem State.setCar_kept : ∀ x0 x1 x2, Kept Q F x0 → Kept Q F (State.setCar x0 x1 x2) := by
  intro x0 x1 x2 h0
  unfold State.setCar
  repeat' (first
    | with_reducible assumption
    | with_reducible apply mk_kept
    )

theorem fireAccept_kept : ∀ x0 x1 x2, Kept Q F x0 → Kept Q F (fireAccept x0 x1 x2) := by
  intro x0 x1 x2 h0
  unfold fireAccept
  repeat' (first
    | with_reducible assumption
    | (extract_lets +onlyGivenNames x; clear_value x)
    | with_reducible apply ite_kept
    | (with_reducible apply forEach_kept; intro _ _ _; beta_reduce)
    | with_reducible apply showCar_kept
    | with_reducible apply State.setCar_kept
    | with_reducible apply State.addR_kept
    | split
    )

theorem carEvent_kept : ∀ x0 x1 x2, Kept Q F x0 → Kept Q F (carEvent x0 x1 x2) := by
  intro x0 x1 x2 h0
  unfold carEvent
  repeat' (first
    | with_reducible assumption
    | with_reducible apply vectorIf_kept
    | with_reducible apply State.setB_kept
    )

theorem carCause_kept : ∀ x0 x1 x2, Kept Q F x0 → Kept Q F (carCause x0 x1 x2) := by
  intro x0 x1 x2 h0
  unfold carCause
  repeat' (first
    | with_reducible assumption
    | with_reducible apply State.setF_kept
    )

theorem segBegin_kept : ∀ x0 x1 x2 x3, Kept Q F x0 → (_ : Q.hbm = none := by assumption) → Kept Q F (segBegin x0 x1 x2 x3) := by
  intro x0 x1 x2 x3 h0 _
  unfold segBegin
  repeat' (first
    | with_reducible assumption
    | (extract_lets +onlyGivenNames x; refine Kept.via Q F x ?_ (fun _ => ?_) <;> [subst x; clear_value x])
    | (extract_lets +onlyGivenNames x; clear_value x)
    | with_reducible apply State.setCar_kept
    | with_reducible apply showCar_kept
    | with_reducible apply State.hbmWrite_kept
    )

theorem segRecord_kept : ∀ x0 x1 x2, Kept Q F x0 → Kept Q F (segRecord x0 x1 x2) := by
  intro x0 x1 x2 h0
  unfold segRecord
  repeat' (first
    | with_reducible assumption
    | (extract_lets +onlyGivenNames x; clear_value x)
    | with_reducible apply ite_kept
    | (with_reducible apply forEach_kept; intro _ _ _; beta_reduce)
    | with_reducible apply hbmObject_kept
    )

theorem segClose_kept : ∀ x0 x1 x2, Kept Q F x0 → (_ : Q.hbm = none := by assumption) → Kept Q F (segClose x0 x1 x2) := by
  intro x0 x1 x2 h0 _
  unfold segClose
  repeat' (first
    | with_reducible assumption
    | (extract_lets +onlyGivenNames x; refine Kept.via Q F x ?_ (fun _ => ?_) <;> [subst x; clear_value x])
    | (extract_lets +onlyGivenNames x; clear_value x)
    | with_reducible apply State.hbmWrite_kept
    | with_reducible apply segRecord_kept
    | with_reducible apply State.wr64_kept
    | with_reducible apply State.setCar_kept
    | with_reducible apply carEvent_kept
    )

theorem overflow_kept : ∀ x0 x1 x2, Kept Q F x0 → (_ : Q.hbm = none := by assumption) → Kept Q F (overflow x0 x1 x2) := by
  intro x0 x1 x2 h0 _
  unfold overflow
  repeat' (first
    | with_reducible assumption
    | (extract_lets +onlyGivenNames x; refine Kept.via Q F x ?_ (fun _ => ?_) <;> [subst x; clear_value x])
    | (extract_lets +onlyGivenNames x; clear_value x)
    | with_reducible apply State.setCar_kept
    | with_reducible apply segClose_kept
    | with_reducible apply State.addR_kept
    | with_reducible apply showCar_kept
    | with_reducible apply carCause_kept
    | with_reducible apply carEvent_kept
    | with_reducible apply evtRecord_kept
    | with_reducible apply report_kept
    )

theorem carEnter_kept : ∀ x0 x1, Kept Q F x0 → (_ : Q.hbm = none := by assumption) → Kept Q F (carEnter x0 x1) := by
  intro x0 x1 h0 _
  unfold carEnter
  repeat' (first
    | with_reducible assumption
    | (extract_lets +onlyGivenNames x; refine Kept.via Q F x ?_ (fun _ => ?_) <;> [subst x; clear_value x])
    | (extract_lets +onlyGivenNames x; clear_value x)
    | with_reducible apply ite_kept
    | with_reducible apply overflow_kept
    | with_reducible apply State.setCar_kept
    | with_reducible apply State.hbmWrite_kept
    | with_reducible apply showCar_kept
    )

theorem carStopNow_kept : ∀ x0 x1 x2 x3, Kept Q F x0 → (_ : Q.hbm = none := by assumption) → Kept Q F (carStopNow x0 x1 x2 x3) := by
  intro x0 x1 x2 x3 h0 _
  unfold carStopNow
  repeat' (first
    | with_reducible assumption
    | (extract_lets +onlyGivenNames x; refine Kept.via Q F x ?_ (fun _ => ?_) <;> [subst x; clear_value x])
    | (extract_lets +onlyGivenNames x; clear_value x)
    | with_reducible apply ite_kept
    | with_reducible apply segClose_kept
    | with_reducible apply State.setCar_kept
    | with_reducible apply carEvent_kept
    | with_reducible apply showCar_kept
    | with_reducible apply carCause_kept
    )

theorem carSpec_kept : ∀ x0 x1 x2 x3 x4 x5 x6, Kept Q F x0 → (_ : Q.hbm = none := by assumption) → Kept Q F (carSpec x0 x1 x2 x3 x4 x5 x6) := by
  intro x0 x1 x2 x3 x4 x5 x6 h0 _
  unfold carSpec
  repeat' (first
    | with_reducible assumption
    | with_reducible apply ite_kept
    | (with_reducible apply forEach_kept; intro _ _ _; beta_reduce)
    | with_reducible apply carEnter_kept
    )

theorem carArmDue_kept : ∀ x0, Kept Q F x0 → (_ : Q.hbm = none := by assumption) → Kept Q F (carArmDue x0) := by
  intro x0 h0 _
  unfold carArmDue
  repeat' (first
    | with_reducible assumption
    | (extract_lets +onlyGivenNames x; clear_value x)
    | with_reducible apply ite_kept
    | (with_reducible apply forEach_kept; intro _ _ _; beta_reduce)
    | with_reducible apply segBegin_kept
    | with_reducible apply State.setCar_kept
    | split
    )

theorem carDue_kept : ∀ x0, Kept Q F x0 → (_ : Q.hbm = none := by assumption) → Kept Q F (carDue x0) := by
  intro x0 h0 _
  unfold carDue
  repeat' (first
    | with_reducible assumption
    | (extract_lets +onlyGivenNames x; refine Kept.via Q F x ?_ (fun _ => ?_) <;> [subst x; clear_value x])
    | (extract_lets +onlyGivenNames x; clear_value x)
    | (with_reducible apply forEach_kept; intro _ _ _; beta_reduce)
    | with_reducible apply carEnter_kept
    | with_reducible apply mk_kept
    )

theorem carDrain_kept : ∀ x0 x1, Kept Q F x0 → Kept Q F (carDrain x0 x1) := by
  intro x0 x1 h0
  unfold carDrain
  repeat' (first
    | with_reducible assumption
    | (extract_lets +onlyGivenNames x; clear_value x)
    | with_reducible apply ite_kept
    | (with_reducible apply forEach_kept; intro _ _ _; beta_reduce)
    | with_reducible apply showCar_kept
    | with_reducible apply State.setCar_kept
    )

theorem carBeat_kept : ∀ x0 x1, Kept Q F x0 → Kept Q F (carBeat x0 x1) := by
  intro x0 x1 h0
  unfold carBeat
  repeat' (first
    | with_reducible assumption
    | (extract_lets +onlyGivenNames x; clear_value x)
    | with_reducible apply ite_kept
    | (with_reducible apply forEach_kept; intro _ _ _; beta_reduce)
    | with_reducible apply mk_kept
    )

theorem execCarConfig_kept : ∀ x0 x1, Kept Q F x1 → (_ : Q.mbx = none := by assumption) → KeptOut Q F (execCarConfig x0 x1) := by
  intro x0 x1 h0 _
  unfold execCarConfig
  repeat' (first
    | with_reducible assumption
    | (extract_lets +onlyGivenNames x; clear_value x)
    | with_reducible apply keptOut_next
    | with_reducible apply command_kept
    | with_reducible apply reply_kept
    | with_reducible apply writeRegs_kept
    )

theorem segAgain_kept : ∀ x0 x1, Kept Q F x0 → (_ : Q.hbm = none := by assumption) → Kept Q F (segAgain x0 x1) := by
  intro x0 x1 h0 _
  unfold segAgain
  repeat' (first
    | with_reducible assumption
    | (extract_lets +onlyGivenNames x; refine Kept.via Q F x ?_ (fun _ => ?_) <;> [subst x; clear_value x])
    | (extract_lets +onlyGivenNames x; clear_value x)
    | with_reducible apply ite_kept
    | with_reducible apply segBegin_kept
    )

theorem execSegmentStopClose_kept : ∀ x0 x1, Kept Q F x1 → (_ : Q.hbm = none := by assumption) → KeptOut Q F (execSegmentStopClose x0 x1) := by
  intro x0 x1 h0 _
  unfold execSegmentStopClose
  repeat' (first
    | with_reducible assumption
    | (extract_lets +onlyGivenNames x; clear_value x)
    | with_reducible apply ite_kept
    | with_reducible apply keptOut_next
    | with_reducible apply carStopNow_kept
    | split
    )

theorem execSegmentGapEnd_kept : ∀ x0 x1, Kept Q F x1 → (_ : Q.hbm = none := by assumption) → KeptOut Q F (execSegmentGapEnd x0 x1) := by
  intro x0 x1 h0 _
  unfold execSegmentGapEnd
  repeat' (first
    | with_reducible assumption
    | (extract_lets +onlyGivenNames x; clear_value x)
    | with_reducible apply ite_kept
    | with_reducible apply keptOut_next
    | with_reducible apply segAgain_kept
    )

theorem execOverflowResume_kept : ∀ x0 x1, Kept Q F x1 → (_ : Q.hbm = none := by assumption) → KeptOut Q F (execOverflowResume x0 x1) := by
  intro x0 x1 h0 _
  unfold execOverflowResume
  repeat' (first
    | with_reducible assumption
    | (extract_lets +onlyGivenNames x; clear_value x)
    | with_reducible apply ite_kept
    | with_reducible apply keptOut_next
    | with_reducible apply segAgain_kept
    | with_reducible apply State.setCar_kept
    )

theorem execSegmentEnd_kept : ∀ x0 x1, Kept Q F x1 → (_ : Q.hbm = none := by assumption) → KeptOut Q F (execSegmentEnd x0 x1) := by
  intro x0 x1 h0 _
  unfold execSegmentEnd
  repeat' (first
    | with_reducible assumption
    | (extract_lets +onlyGivenNames x; refine Kept.via Q F x ?_ (fun _ => ?_) <;> [subst x; clear_value x])
    | (extract_lets +onlyGivenNames x; clear_value x)
    | with_reducible apply ite_kept
    | with_reducible apply keptOut_next
    | with_reducible apply segClose_kept
    | with_reducible apply carEvent_kept
    | with_reducible apply showCar_kept
    | with_reducible apply carCause_kept
    | with_reducible apply State.setCar_kept
    )

theorem execCarStop_kept : ∀ x0 x1, Kept Q F x1 → (_ : Q.mbx = none := by assumption) → KeptOut Q F (execCarStop x0 x1) := by
  intro x0 x1 h0 _
  unfold execCarStop
  repeat' (first
    | with_reducible assumption
    | (extract_lets +onlyGivenNames x; clear_value x)
    | with_reducible apply ite_kept
    | with_reducible apply keptOut_next
    | (with_reducible apply forEach_kept; intro _ _ _; beta_reduce)
    | with_reducible apply command_kept
    | with_reducible apply reply_kept
    | with_reducible apply State.setCar_kept
    )

theorem execCarArm_kept : ∀ x0 x1, Kept Q F x1 → (_ : Q.mbx = none := by assumption) → KeptOut Q F (execCarArm x0 x1) := by
  intro x0 x1 h0 _
  unfold execCarArm
  repeat' (first
    | with_reducible assumption
    | (extract_lets +onlyGivenNames x; clear_value x)
    | with_reducible apply ite_kept
    | with_reducible apply keptOut_next
    | (with_reducible apply forEach_kept; intro _ _ _; beta_reduce)
    | with_reducible apply command_kept
    | with_reducible apply reply_kept
    | with_reducible apply State.setCar_kept
    )

theorem execCarStatus_kept : ∀ x0 x1, Kept Q F x1 → (_ : Q.mbx = none := by assumption) → KeptOut Q F (execCarStatus x0 x1) := by
  intro x0 x1 h0 _
  unfold execCarStatus
  repeat' (first
    | with_reducible assumption
    | (extract_lets +onlyGivenNames x; clear_value x)
    | with_reducible apply keptOut_next
    | with_reducible apply command_kept
    | with_reducible apply reply_kept
    )

-- Machine/Trigger.lean

theorem addCond_kept : ∀ x0 x1, Kept Q F x0 → Kept Q F (addCond x0 x1) := by
  intro x0 x1 h0
  unfold addCond
  repeat' (first
    | with_reducible assumption
    | with_reducible apply mk_kept
    )

theorem State.setUnit_kept : ∀ x0 x1 x2, Kept Q F x0 → Kept Q F (State.setUnit x0 x1 x2) := by
  intro x0 x1 x2 h0
  unfold State.setUnit
  repeat' (first
    | with_reducible assumption
    | with_reducible apply mk_kept
    )

theorem showGroup_kept : ∀ x0 x1, Kept Q F x0 → Kept Q F (showGroup x0 x1) := by
  intro x0 x1 h0
  unfold showGroup
  repeat' (first
    | with_reducible assumption
    | (extract_lets +onlyGivenNames x; clear_value x)
    | (with_reducible apply forEach_kept; intro _ _ _; beta_reduce)
    | with_reducible apply State.setB_kept
    | with_reducible apply State.wr_kept
    )

theorem tokenOut_kept : ∀ x0 x1 x2, Kept Q F x0 → Kept Q F (tokenOut x0 x1 x2) := by
  intro x0 x1 x2 h0
  unfold tokenOut
  repeat' (first
    | with_reducible assumption
    | with_reducible apply ite_kept
    | with_reducible apply State.addR_kept
    | with_reducible apply sendFlit_kept
    )

theorem trigTime_kept : ∀ x0, Kept Q F x0 → Kept Q F (trigTime x0) := by
  intro x0 h0
  unfold trigTime
  repeat' (first
    | with_reducible assumption
    | (extract_lets +onlyGivenNames x; clear_value x)
    | with_reducible apply ite_kept
    | (with_reducible apply forEach_kept; intro _ _ _; beta_reduce)
    | with_reducible apply addCond_kept
    | with_reducible apply State.setUnit_kept
    )

theorem trigPattern_kept : ∀ x0, Kept Q F x0 → Kept Q F (trigPattern x0) := by
  intro x0 h0
  unfold trigPattern
  repeat' (first
    | with_reducible assumption
    | (extract_lets +onlyGivenNames x; refine Kept.via Q F x ?_ (fun _ => ?_) <;> [subst x; clear_value x])
    | (extract_lets +onlyGivenNames x; clear_value x)
    | with_reducible apply ite_kept
    | (with_reducible apply forEach_kept; intro _ _ _; beta_reduce)
    | with_reducible apply addCond_kept
    | with_reducible apply mk_kept
    | with_reducible apply mk_keptActive
    )

theorem groupsIdle_kept : ∀ x0, Kept Q F x0 → Kept Q F (groupsIdle x0) := by
  intro x0 h0
  unfold groupsIdle
  repeat' (first
    | with_reducible assumption
    | (extract_lets +onlyGivenNames x; refine Kept.via Q F x ?_ (fun _ => ?_) <;> [subst x; clear_value x])
    | (extract_lets +onlyGivenNames x; clear_value x)
    | (with_reducible apply forEach_kept; intro _ _ _; beta_reduce)
    | with_reducible apply showGroup_kept
    | with_reducible apply State.setUnit_kept
    | with_reducible apply mk_kept
    )

theorem trigPpe_kept : ∀ x0, Kept Q F x0 → Kept Q F (trigPpe x0) := by
  intro x0 h0
  unfold trigPpe
  repeat' (first
    | with_reducible assumption
    | (extract_lets +onlyGivenNames x; refine Kept.via Q F x ?_ (fun _ => ?_) <;> [subst x; clear_value x])
    | (extract_lets +onlyGivenNames x; clear_value x)
    | (with_reducible apply forEach_kept; intro _ _ _; beta_reduce)
    | with_reducible apply addCond_kept
    | split
    | with_reducible apply mk_kept
    )

theorem trigDensity_kept : ∀ x0, Kept Q F x0 → Kept Q F (trigDensity x0) := by
  intro x0 h0
  unfold trigDensity
  repeat' (first
    | with_reducible assumption
    | (extract_lets +onlyGivenNames x; refine Kept.via Q F x ?_ (fun _ => ?_) <;> [subst x; clear_value x])
    | (extract_lets +onlyGivenNames x; clear_value x)
    | with_reducible apply ite_kept
    | (with_reducible apply forEach_kept; intro _ _ _; beta_reduce)
    | with_reducible apply addCond_kept
    | with_reducible apply mk_kept
    )

theorem trigMask_kept : ∀ x0, Kept Q F x0 → Kept Q F (trigMask x0) := by
  intro x0 h0
  unfold trigMask
  repeat' (first
    | with_reducible assumption
    | (extract_lets +onlyGivenNames x; clear_value x)
    | with_reducible apply ite_kept
    | (with_reducible apply forEach_kept; intro _ _ _; beta_reduce)
    | with_reducible apply addCond_kept
    )

theorem afterFire_kept : ∀ x0 x1, Kept Q F x0 → Kept Q F (afterFire x0 x1) := by
  intro x0 x1 h0
  unfold afterFire
  repeat' (first
    | with_reducible assumption
    | (extract_lets +onlyGivenNames x; clear_value x)
    | with_reducible apply showGroup_kept
    | with_reducible apply State.setUnit_kept
    )

theorem tokenSend_kept : ∀ x0 x1 x2 x3 x4, Kept Q F x0 → Kept Q F (tokenSend x0 x1 x2 x3 x4) := by
  intro x0 x1 x2 x3 x4 h0
  unfold tokenSend
  repeat' (first
    | with_reducible assumption
    | (extract_lets +onlyGivenNames x; clear_value x)
    | (with_reducible apply forEach_kept; intro _ _ _; beta_reduce)
    | with_reducible apply tokenOut_kept
    )

theorem groupFire_kept : ∀ x0 x1 x2 x3 x4 x5, Kept Q F x0 → Kept Q F (groupFire x0 x1 x2 x3 x4 x5) := by
  intro x0 x1 x2 x3 x4 x5 h0
  unfold groupFire
  repeat' (first
    | with_reducible assumption
    | (extract_lets +onlyGivenNames x; refine Kept.via Q F x ?_ (fun _ => ?_) <;> [subst x; clear_value x])
    | (extract_lets +onlyGivenNames x; clear_value x)
    | with_reducible apply ite_kept
    | (with_reducible apply forEach_kept; intro _ _ _; beta_reduce)
    | with_reducible apply afterFire_kept
    | with_reducible apply monAsk_kept
    | with_reducible apply fire_kept
    | with_reducible apply State.addR_kept
    | with_reducible apply State.setB_kept
    | with_reducible apply vectorIf_kept
    | with_reducible apply State.wr64_kept
    | with_reducible apply State.wr_kept
    | with_reducible apply evtRecord_kept
    | with_reducible apply tokenSend_kept
    | with_reducible apply fireAccept_kept
    | with_reducible apply mk_kept
    )

theorem decideGroup_kept : ∀ x0 x1 x2, Kept Q F x0 → Kept Q F (decideGroup x0 x1 x2) := by
  intro x0 x1 x2 h0
  unfold decideGroup
  repeat' (first
    | with_reducible assumption
    | (extract_lets +onlyGivenNames x; clear_value x)
    | with_reducible apply ite_kept
    | with_reducible apply groupFire_kept
    | with_reducible apply showGroup_kept
    | with_reducible apply State.setUnit_kept
    | split
    )

theorem decideAll_kept : ∀ x0 x1, Kept Q F x0 → Kept Q F (decideAll x0 x1) := by
  intro x0 x1 h0
  unfold decideAll
  repeat' (first
    | with_reducible assumption
    | (extract_lets +onlyGivenNames x; refine Kept.via Q F x ?_ (fun _ => ?_) <;> [subst x; clear_value x])
    | with_reducible apply ite_kept
    | (with_reducible apply forEach_kept; intro _ _ _; beta_reduce)
    | with_reducible apply decideGroup_kept
    | with_reducible apply showGroup_kept
    | with_reducible apply State.put_kept
    | with_reducible apply mk_kept
    )

theorem patternGather_kept : ∀ x0, Kept Q F x0 → Kept Q F (patternGather x0) := by
  intro x0 h0
  unfold patternGather
  repeat' (first
    | with_reducible assumption
    | (extract_lets +onlyGivenNames x; clear_value x)
    | with_reducible apply mk_kept
    )

theorem trigSamples_kept : ∀ x0, Kept Q F x0 → Kept Q F (trigSamples x0) := by
  intro x0 h0
  unfold trigSamples
  repeat' (first
    | with_reducible assumption
    | (extract_lets +onlyGivenNames x; refine Kept.via Q F x ?_ (fun _ => ?_) <;> [subst x; clear_value x])
    | (extract_lets +onlyGivenNames x; clear_value x)
    | with_reducible apply ite_kept
    | (with_reducible apply forEach_kept; intro _ _ _; beta_reduce)
    | with_reducible apply State.setUnit_kept
    | with_reducible apply addCond_kept
    | split
    )

theorem armGroup_kept : ∀ x0 x1, Kept Q F x0 → Kept Q F (armGroup x0 x1) := by
  intro x0 x1 h0
  unfold armGroup
  repeat' (first
    | with_reducible assumption
    | (extract_lets +onlyGivenNames x; refine Kept.via Q F x ?_ (fun _ => ?_) <;> [subst x; clear_value x])
    | (extract_lets +onlyGivenNames x; clear_value x)
    | with_reducible apply ite_kept
    | (with_reducible apply forEach_kept; intro _ _ _; beta_reduce)
    | with_reducible apply showGroup_kept
    | with_reducible apply State.setUnit_kept
    | with_reducible apply tokenSend_kept
    )

theorem execGroupArm_kept : ∀ x0 x1, Kept Q F x1 → KeptOut Q F (execGroupArm x0 x1) := by
  intro x0 x1 h0
  unfold execGroupArm
  repeat' (first
    | with_reducible assumption
    | with_reducible apply ite_kept
    | with_reducible apply keptOut_next
    | with_reducible apply armGroup_kept
    | with_reducible apply mk_kept
    )

theorem armLater_kept : ∀ x0 x1 x2, Kept Q F x0 → Kept Q F (armLater x0 x1 x2) := by
  intro x0 x1 x2 h0
  unfold armLater
  repeat' (first
    | with_reducible assumption
    | (extract_lets +onlyGivenNames x; refine Kept.via Q F x ?_ (fun _ => ?_) <;> [subst x; clear_value x])
    | (extract_lets +onlyGivenNames x; clear_value x)
    | with_reducible apply ite_kept
    | with_reducible apply showGroup_kept
    | with_reducible apply State.setUnit_kept
    | with_reducible apply mk_kept
    | with_reducible apply mk_keptActive
    )

theorem execTrgArm_kept : ∀ x0 x1, Kept Q F x1 → (_ : Q.mbx = none := by assumption) → KeptOut Q F (execTrgArm x0 x1) := by
  intro x0 x1 h0 _
  unfold execTrgArm
  repeat' (first
    | with_reducible assumption
    | (extract_lets +onlyGivenNames x; clear_value x)
    | with_reducible apply ite_kept
    | with_reducible apply keptOut_next
    | (with_reducible apply forEach_kept; intro _ _ _; beta_reduce)
    | with_reducible apply command_kept
    | with_reducible apply reply_kept
    | with_reducible apply armLater_kept
    )

theorem execGroupDisarm_kept : ∀ x0 x1, Kept Q F x1 → KeptOut Q F (execGroupDisarm x0 x1) := by
  intro x0 x1 h0
  unfold execGroupDisarm
  repeat' (first
    | with_reducible assumption
    | (extract_lets +onlyGivenNames x; clear_value x)
    | with_reducible apply ite_kept
    | with_reducible apply keptOut_next
    | with_reducible apply showGroup_kept
    | with_reducible apply State.setUnit_kept
    | with_reducible apply mk_kept
    )

theorem execForcedFire_kept : ∀ x0 x1, Kept Q F x1 → KeptOut Q F (execForcedFire x0 x1) := by
  intro x0 x1 h0
  unfold execForcedFire
  repeat' (first
    | with_reducible assumption
    | with_reducible apply ite_kept
    | with_reducible apply keptOut_next
    | with_reducible apply groupFire_kept
    | with_reducible apply mk_kept
    )

theorem execHoldoffEnd_kept : ∀ x0 x1, Kept Q F x1 → KeptOut Q F (execHoldoffEnd x0 x1) := by
  intro x0 x1 h0
  unfold execHoldoffEnd
  repeat' (first
    | with_reducible assumption
    | (extract_lets +onlyGivenNames x; clear_value x)
    | with_reducible apply ite_kept
    | with_reducible apply keptOut_next
    | with_reducible apply armGroup_kept
    )

theorem tokenPresent_kept : ∀ x0 x1 x2, Kept Q F x0 → Kept Q F (tokenPresent x0 x1 x2) := by
  intro x0 x1 x2 h0
  unfold tokenPresent
  repeat' (first
    | with_reducible assumption
    | (extract_lets +onlyGivenNames x; clear_value x)
    | with_reducible apply ite_kept
    | (with_reducible apply forEach_kept; intro _ _ _; beta_reduce)
    | with_reducible apply addCond_kept
    | with_reducible apply mk_kept
    )

theorem maskLoad_kept : ∀ x0 x1 x2 x3, Kept Q F x0 → Kept Q F (maskLoad x0 x1 x2 x3) := by
  intro x0 x1 x2 x3 h0
  unfold maskLoad
  repeat' (first
    | with_reducible assumption
    | (extract_lets +onlyGivenNames x; clear_value x)
    | with_reducible apply State.setB_kept
    | with_reducible apply mk_kept
    )

theorem execTrgForce_kept : ∀ x0 x1, Kept Q F x1 → (_ : Q.mbx = none := by assumption) → KeptOut Q F (execTrgForce x0 x1) := by
  intro x0 x1 h0 _
  unfold execTrgForce
  repeat' (first
    | with_reducible assumption
    | (extract_lets +onlyGivenNames x; clear_value x)
    | with_reducible apply keptOut_next
    | (with_reducible apply forEach_kept; intro _ _ _; beta_reduce)
    | with_reducible apply command_kept
    | with_reducible apply reply_kept
    | with_reducible apply mk_kept
    )

theorem execMaskVersionRelease_kept : ∀ x0 x1, Kept Q F x1 → KeptOut Q F (execMaskVersionRelease x0 x1) := by
  intro x0 x1 h0
  unfold execMaskVersionRelease
  repeat' (first
    | with_reducible assumption
    | (extract_lets +onlyGivenNames x; clear_value x)
    | with_reducible apply ite_kept
    | with_reducible apply keptOut_next
    | with_reducible apply State.setB_kept
    | with_reducible apply mk_kept
    )

theorem execTrgConfig_kept : ∀ x0 x1, Kept Q F x1 → (_ : Q.mbx = none := by assumption) → KeptOut Q F (execTrgConfig x0 x1) := by
  intro x0 x1 h0 _
  unfold execTrgConfig
  repeat' (first
    | with_reducible assumption
    | (extract_lets +onlyGivenNames x; clear_value x)
    | with_reducible apply keptOut_next
    | with_reducible apply command_kept
    | with_reducible apply reply_kept
    | with_reducible apply writeRegs_kept
    )

theorem execMaskLoad_kept : ∀ x0 x1, Kept Q F x1 → (_ : Q.mbx = none := by assumption) → KeptOut Q F (execMaskLoad x0 x1) := by
  intro x0 x1 h0 _
  unfold execMaskLoad
  repeat' (first
    | with_reducible assumption
    | (extract_lets +onlyGivenNames x; clear_value x)
    | with_reducible apply keptOut_next
    | with_reducible apply command_kept
    | with_reducible apply reply_kept
    | with_reducible apply maskLoad_kept
    )

theorem execTrgDisarm_kept : ∀ x0 x1, Kept Q F x1 → (_ : Q.mbx = none := by assumption) → KeptOut Q F (execTrgDisarm x0 x1) := by
  intro x0 x1 h0 _
  unfold execTrgDisarm
  repeat' (first
    | with_reducible assumption
    | (extract_lets +onlyGivenNames x; clear_value x)
    | with_reducible apply ite_kept
    | with_reducible apply keptOut_next
    | (with_reducible apply forEach_kept; intro _ _ _; beta_reduce)
    | with_reducible apply command_kept
    | with_reducible apply reply_kept
    | with_reducible apply mk_kept
    )

theorem execTrigioPulseEnd_kept : ∀ x0 x1, Kept Q F x1 → KeptOut Q F (execTrigioPulseEnd x0 x1) := by
  intro x0 x1 h0
  unfold execTrigioPulseEnd
  repeat' (first
    | with_reducible assumption
    | with_reducible apply ite_kept
    | with_reducible apply keptOut_next
    | with_reducible apply State.put_kept
    | with_reducible apply mk_kept
    )

-- Machine/Tdc.lean

theorem showQueue_kept : ∀ x0 x1, Kept Q F x0 → Kept Q F (showQueue x0 x1) := by
  intro x0 x1 h0
  unfold showQueue
  repeat' (first
    | with_reducible assumption
    | (extract_lets +onlyGivenNames x; clear_value x)
    | with_reducible apply State.setB_kept
    | with_reducible apply State.wr_kept
    )

theorem setTdc_kept : ∀ x0 x1, Kept Q F x0 → Kept Q F (setTdc x0 x1) := by
  intro x0 x1 h0
  unfold setTdc
  repeat' (first
    | with_reducible assumption
    | (extract_lets +onlyGivenNames x; clear_value x)
    | with_reducible apply mk_kept
    )

theorem setTdcCh_kept : ∀ x0 x1 x2, Kept Q F x0 → Kept Q F (setTdcCh x0 x1 x2) := by
  intro x0 x1 x2 h0
  unfold setTdcCh
  repeat' (first
    | with_reducible assumption
    | (extract_lets +onlyGivenNames x; clear_value x)
    | with_reducible apply setTdc_kept
    )

theorem tdcPop_kept : ∀ x0 x1 x2, Kept Q F x0 → Kept Q F (tdcPop x0 x1 x2).2 := by
  intro x0 x1 x2 h0
  unfold tdcPop
  repeat' (first
    | with_reducible assumption
    | (extract_lets +onlyGivenNames x; clear_value x)
    | with_reducible apply ite_keptSnd
    | dsimp -zeta only
    | with_reducible apply showQueue_kept
    | with_reducible apply setTdcCh_kept
    )

theorem trigioEdge_kept : ∀ x0 x1 x2 x3 x4 x5 x6 x7, Kept Q F x0 → Kept Q F (trigioEdge x0 x1 x2 x3 x4 x5 x6 x7) := by
  intro x0 x1 x2 x3 x4 x5 x6 x7 h0
  unfold trigioEdge
  repeat' (first
    | with_reducible assumption
    | with_reducible apply ite_kept
    | (with_reducible apply forEach_kept; intro _ _ _; beta_reduce)
    | with_reducible apply addCond_kept
    )

theorem trigioCycle_kept : ∀ x0 x1 x2 x3 x4, Kept Q F x0 → Kept Q F (trigioCycle x0 x1 x2 x3 x4) := by
  intro x0 x1 x2 x3 x4 h0
  unfold trigioCycle
  repeat' (first
    | with_reducible assumption
    | with_reducible apply trigioEdge_kept
    )

theorem trigioLevel_kept : ∀ x0 x1 x2 x3, Kept Q F x0 → Kept Q F (trigioLevel x0 x1 x2 x3) := by
  intro x0 x1 x2 x3 h0
  unfold trigioLevel
  repeat' (first
    | with_reducible assumption
    | (extract_lets +onlyGivenNames x; refine Kept.via Q F x ?_ (fun _ => ?_) <;> [subst x; clear_value x])
    | with_reducible apply ite_kept
    | with_reducible apply fire_kept
    | with_reducible apply monAsk_kept
    | with_reducible apply trigioCycle_kept
    | with_reducible apply mk_kept
    )

theorem execTrigioLevelChange_kept : ∀ x0 x1 x2 x3, Kept Q F x3 → KeptOut Q F (execTrigioLevelChange x0 x1 x2 x3) := by
  intro x0 x1 x2 x3 h0
  unfold execTrigioLevelChange
  repeat' (first
    | with_reducible assumption
    | with_reducible apply ite_kept
    | with_reducible apply keptOut_next
    | with_reducible apply trigioLevel_kept
    )

theorem execTdcStatus_kept : ∀ x0 x1, Kept Q F x1 → (_ : Q.mbx = none := by assumption) → KeptOut Q F (execTdcStatus x0 x1) := by
  intro x0 x1 h0 _
  unfold execTdcStatus
  repeat' (first
    | with_reducible assumption
    | (extract_lets +onlyGivenNames x; clear_value x)
    | with_reducible apply keptOut_next
    | with_reducible apply command_kept
    | with_reducible apply reply_kept
    )

theorem setFreq_kept : ∀ x0 x1 x2, Kept Q F x0 → Kept Q F (setFreq x0 x1 x2) := by
  intro x0 x1 x2 h0
  unfold setFreq
  repeat' (first
    | with_reducible assumption
    | (extract_lets +onlyGivenNames x; clear_value x)
    | with_reducible apply setTdc_kept
    )

theorem tdcBoundary_kept : ∀ x0, Kept Q F x0 → Kept Q F (tdcBoundary x0) := by
  intro x0 h0
  unfold tdcBoundary
  repeat' (first
    | with_reducible assumption
    | (extract_lets +onlyGivenNames x; clear_value x)
    | with_reducible apply ite_kept
    | (with_reducible apply forEach_kept; intro _ _ _; beta_reduce)
    | with_reducible apply State.setB_kept
    | with_reducible apply setFreq_kept
    | split
    )

theorem tdcCause_kept : ∀ x0 x1, Kept Q F x0 → Kept Q F (tdcCause x0 x1) := by
  intro x0 x1 h0
  unfold tdcCause
  repeat' (first
    | with_reducible assumption
    | (extract_lets +onlyGivenNames x; refine Kept.via Q F x ?_ (fun _ => ?_) <;> [subst x; clear_value x])
    | with_reducible apply ite_kept
    | with_reducible apply State.setB_kept
    | with_reducible apply mk_kept
    )

theorem setWarm_kept : ∀ x0 x1, Kept Q F x0 → Kept Q F (setWarm x0 x1) := by
  intro x0 x1 h0
  unfold setWarm
  repeat' (first
    | with_reducible assumption
    | (extract_lets +onlyGivenNames x; refine Kept.via Q F x ?_ (fun _ => ?_) <;> [subst x; clear_value x])
    | with_reducible apply ite_kept
    | with_reducible apply fire_kept
    | with_reducible apply tdcCause_kept
    | with_reducible apply State.setB_kept
    | with_reducible apply report_kept
    )

theorem execTbWarmCriterion_kept : ∀ x0 x1, Kept Q F x1 → KeptOut Q F (execTbWarmCriterion x0 x1) := by
  intro x0 x1 h0
  unfold execTbWarmCriterion
  repeat' (first
    | with_reducible assumption
    | (extract_lets +onlyGivenNames x; clear_value x)
    | with_reducible apply ite_kept
    | with_reducible apply keptOut_next
    | with_reducible apply setWarm_kept
    )

theorem warmFollow_kept : ∀ x0, Kept Q F x0 → Kept Q F (warmFollow x0) := by
  intro x0 h0
  unfold warmFollow
  repeat' (first
    | with_reducible assumption
    | (extract_lets +onlyGivenNames x; refine Kept.via Q F x ?_ (fun _ => ?_) <;> [subst x; clear_value x])
    | (extract_lets +onlyGivenNames x; clear_value x)
    | with_reducible apply ite_kept
    | with_reducible apply setWarm_kept
    )

theorem execOcxoWarmChange_kept : ∀ x0 x1, Kept Q F x1 → KeptOut Q F (execOcxoWarmChange x0 x1) := by
  intro x0 x1 h0
  unfold execOcxoWarmChange
  repeat' (first
    | with_reducible assumption
    | with_reducible apply ite_kept
    | with_reducible apply keptOut_next
    | with_reducible apply warmFollow_kept
    | with_reducible apply setTdc_kept
    )

theorem freqTake_kept : ∀ x0 x1 x2, Kept Q F x0 → Kept Q F (freqTake x0 x1 x2) := by
  intro x0 x1 x2 h0
  unfold freqTake
  repeat' (first
    | with_reducible assumption
    | (extract_lets +onlyGivenNames x; clear_value x)
    | with_reducible apply ite_kept
    | (with_reducible apply forEach_kept; intro _ _ _; beta_reduce)
    | with_reducible apply setFreq_kept
    )

theorem queuePut_kept : ∀ x0 x1 x2, Kept Q F x0 → Kept Q F (queuePut x0 x1 x2) := by
  intro x0 x1 x2 h0
  unfold queuePut
  repeat' (first
    | with_reducible assumption
    | (extract_lets +onlyGivenNames x; refine Kept.via Q F x ?_ (fun _ => ?_) <;> [subst x; clear_value x])
    | (extract_lets +onlyGivenNames x; clear_value x)
    | with_reducible apply ite_kept
    | with_reducible apply State.addR_kept
    | with_reducible apply setTdcCh_kept
    | with_reducible apply showQueue_kept
    | with_reducible apply fire_kept
    | with_reducible apply tdcCause_kept
    )

theorem stampOut_kept : ∀ x0 x1 x2 x3 x4 x5 x6, Kept Q F x0 → Kept Q F (stampOut x0 x1 x2 x3 x4 x5 x6) := by
  intro x0 x1 x2 x3 x4 x5 x6 h0
  unfold stampOut
  repeat' (first
    | with_reducible assumption
    | (extract_lets +onlyGivenNames x; refine Kept.via Q F x ?_ (fun _ => ?_) <;> [subst x; clear_value x])
    | (extract_lets +onlyGivenNames x; clear_value x)
    | with_reducible apply ite_kept
    | with_reducible apply setTdcCh_kept
    | with_reducible apply State.addR_kept
    | with_reducible apply freqTake_kept
    | with_reducible apply queuePut_kept
    | with_reducible apply trigioCycle_kept
    | with_reducible apply trigioEdge_kept
    | with_reducible apply setTime_kept
    )

theorem freqGo_kept : ∀ x0 x1 x2, Kept Q F x0 → Kept Q F (freqGo x0 x1 x2) := by
  intro x0 x1 x2 h0
  unfold freqGo
  repeat' (first
    | with_reducible assumption
    | (extract_lets +onlyGivenNames x; refine Kept.via Q F x ?_ (fun _ => ?_) <;> [subst x; clear_value x])
    | (extract_lets +onlyGivenNames x; clear_value x)
    | with_reducible apply State.wr_kept
    | with_reducible apply setFreq_kept
    )

theorem freqCmd_kept : ∀ x0 x1, Kept Q F x1 → (_ : Q.mbx = none := by assumption) → Kept Q F (freqCmd x0 x1) := by
  intro x0 x1 h0 _
  unfold freqCmd
  repeat' (first
    | with_reducible assumption
    | (extract_lets +onlyGivenNames x; clear_value x)
    | with_reducible apply ite_kept
    | with_reducible apply command_kept
    | with_reducible apply reply_kept
    | with_reducible apply setFreq_kept
    | with_reducible apply freqGo_kept
    )

theorem execFreqStop_kept : ∀ x0 x1, Kept Q F x1 → (_ : Q.mbx = none := by assumption) → KeptOut Q F (execFreqStop x0 x1) := by
  intro x0 x1 h0 _
  unfold execFreqStop
  repeat' (first
    | with_reducible assumption
    | with_reducible apply keptOut_next
    | with_reducible apply freqCmd_kept
    )

theorem calFail_kept : ∀ x0 x1 x2, Kept Q F x0 → Kept Q F (calFail x0 x1 x2) := by
  intro x0 x1 x2 h0
  unfold calFail
  repeat' (first
    | with_reducible assumption
    | with_reducible apply report_kept
    | with_reducible apply State.setF_kept
    | with_reducible apply State.setB_kept
    )

theorem calLost_kept : ∀ x0, Kept Q F x0 → Kept Q F (calLost x0) := by
  intro x0 h0
  unfold calLost
  repeat' (first
    | with_reducible assumption
    | with_reducible apply ite_kept
    | (with_reducible apply forEach_kept; intro _ _ _; beta_reduce)
    | with_reducible apply calFail_kept
    )

theorem stampItem_kept : ∀ x0 x1 x2 x3, Kept Q F x3 → Kept Q F (stampItem x0 x1 x2 x3) := by
  intro x0 x1 x2 x3 h0
  unfold stampItem
  repeat' (first
    | with_reducible assumption
    | (extract_lets +onlyGivenNames x; refine Kept.via Q F x ?_ (fun _ => ?_) <;> [subst x; clear_value x])
    | (extract_lets +onlyGivenNames x; clear_value x)
    | with_reducible apply ite_kept
    | with_reducible apply addItem_kept
    )

theorem tdcDrain_kept : ∀ x0 x1, Kept Q F x0 → Kept Q F (tdcDrain x0 x1) := by
  intro x0 x1 h0
  unfold tdcDrain
  repeat' (first
    | with_reducible assumption
    | (extract_lets +onlyGivenNames x; refine Kept.via Q F x ?_ (fun _ => ?_) <;> [subst x; clear_value x])
    | (extract_lets +onlyGivenNames x; clear_value x)
    | with_reducible apply ite_kept
    | (with_reducible apply forEach_kept; intro _ _ _; beta_reduce)
    | with_reducible apply showQueue_kept
    | with_reducible apply setTdcCh_kept
    | with_reducible apply stampItem_kept
    | split
    )

theorem tdcClose_kept : ∀ x0 x1 x2, Kept Q F x0 → Kept Q F (tdcClose x0 x1 x2) := by
  intro x0 x1 x2 h0
  unfold tdcClose
  repeat' (first
    | with_reducible assumption
    | (extract_lets +onlyGivenNames x; refine Kept.via Q F x ?_ (fun _ => ?_) <;> [subst x; clear_value x])
    | (extract_lets +onlyGivenNames x; clear_value x)
    | with_reducible apply ite_kept
    | with_reducible apply tdcSeal_kept
    | with_reducible apply State.setStream_kept
    | with_reducible apply itemSeal_kept
    )

theorem tdcStreams_kept : ∀ x0, Kept Q F x0 → Kept Q F (tdcStreams x0) := by
  intro x0 h0
  unfold tdcStreams
  repeat' (first
    | with_reducible assumption
    | (extract_lets +onlyGivenNames x; refine Kept.via Q F x ?_ (fun _ => ?_) <;> [subst x; clear_value x])
    | (extract_lets +onlyGivenNames x; clear_value x)
    | with_reducible apply ite_kept
    | (with_reducible apply forEach_kept; intro _ _ _; beta_reduce)
    | with_reducible apply tdcDrain_kept
    | with_reducible apply tdcClose_kept
    )

theorem execTdcChanSet_kept : ∀ x0 x1, Kept Q F x1 → (_ : Q.mbx = none := by assumption) → KeptOut Q F (execTdcChanSet x0 x1) := by
  intro x0 x1 h0 _
  unfold execTdcChanSet
  repeat' (first
    | with_reducible assumption
    | (extract_lets +onlyGivenNames x; clear_value x)
    | with_reducible apply keptOut_next
    | with_reducible apply command_kept
    | with_reducible apply reply_kept
    | with_reducible apply State.wr_kept
    )

theorem execFreqStart_kept : ∀ x0 x1, Kept Q F x1 → (_ : Q.mbx = none := by assumption) → KeptOut Q F (execFreqStart x0 x1) := by
  intro x0 x1 h0 _
  unfold execFreqStart
  repeat' (first
    | with_reducible assumption
    | with_reducible apply keptOut_next
    | with_reducible apply freqCmd_kept
    )

theorem calStart_kept : ∀ x0 x1, Kept Q F x0 → Kept Q F (calStart x0 x1) := by
  intro x0 x1 h0
  unfold calStart
  repeat' (first
    | with_reducible assumption
    | with_reducible apply State.setB_kept
    | with_reducible apply setTdcCh_kept
    )

theorem tdcBoot_kept : ∀ x0, Kept Q F x0 → Kept Q F (tdcBoot x0) := by
  intro x0 h0
  unfold tdcBoot
  repeat' (first
    | with_reducible assumption
    | (extract_lets +onlyGivenNames x; refine Kept.via Q F x ?_ (fun _ => ?_) <;> [subst x; clear_value x])
    | (extract_lets +onlyGivenNames x; clear_value x)
    | with_reducible apply ite_kept
    | (with_reducible apply forEach_kept; intro _ _ _; beta_reduce)
    | with_reducible apply calStart_kept
    )

theorem execTdcRead_kept : ∀ x0 x1, Kept Q F x1 → (_ : Q.mbx = none := by assumption) → KeptOut Q F (execTdcRead x0 x1) := by
  intro x0 x1 h0 _
  unfold execTdcRead
  repeat' (first
    | with_reducible assumption
    | (extract_lets +onlyGivenNames x; refine Kept.viaSnd Q F x ?_ (fun _ => ?_) <;> [subst x; clear_value x])
    | (extract_lets +onlyGivenNames x; clear_value x)
    | with_reducible apply keptOut_next
    | with_reducible apply tdcPop_kept
    | with_reducible apply command_kept
    | with_reducible apply reply_kept
    )

theorem gateResult_kept : ∀ x0 x1 x2, Kept Q F x0 → Kept Q F (gateResult x0 x1 x2).1 := by
  intro x0 x1 x2 h0
  unfold gateResult
  repeat' (first
    | with_reducible assumption
    | (extract_lets +onlyGivenNames x; clear_value x)
    | with_reducible apply ite_keptFst
    | dsimp -zeta only
    | with_reducible apply State.useFree_kept
    )

theorem execFreqGateEnd_kept : ∀ x0 x1, Kept Q F x1 → KeptOut Q F (execFreqGateEnd x0 x1) := by
  intro x0 x1 h0
  unfold execFreqGateEnd
  repeat' (first
    | with_reducible assumption
    | (extract_lets +onlyGivenNames x; refine Kept.via Q F x ?_ (fun _ => ?_) <;> [subst x; clear_value x])
    | (extract_lets +onlyGivenNames x; refine Kept.viaFst Q F x ?_ (fun _ => ?_) <;> [subst x; clear_value x])
    | (extract_lets +onlyGivenNames x; clear_value x)
    | with_reducible apply ite_kept
    | with_reducible apply keptOut_next
    | with_reducible apply gateResult_kept
    | with_reducible apply setFreq_kept
    | with_reducible apply State.setB_kept
    )

theorem execFreqResultWrite_kept : ∀ x0 x1, Kept Q F x1 → KeptOut Q F (execFreqResultWrite x0 x1) := by
  intro x0 x1 h0
  unfold execFreqResultWrite
  repeat' (first
    | with_reducible assumption
    | (extract_lets +onlyGivenNames x; refine Kept.via Q F x ?_ (fun _ => ?_) <;> [subst x; clear_value x])
    | (extract_lets +onlyGivenNames x; clear_value x)
    | with_reducible apply ite_kept
    | with_reducible apply keptOut_next
    | with_reducible apply setFreq_kept
    | with_reducible apply State.wr_kept
    | with_reducible apply State.wr64_kept
    | with_reducible apply fire_kept
    | with_reducible apply tdcCause_kept
    | with_reducible apply sealUnits_kept
    | split
    )

theorem tdcCal_kept : ∀ x0 x1, Kept Q F x1 → (_ : Q.mbx = none := by assumption) → Kept Q F (tdcCal x0 x1) := by
  intro x0 x1 h0 _
  unfold tdcCal
  repeat' (first
    | with_reducible assumption
    | (extract_lets +onlyGivenNames x; clear_value x)
    | with_reducible apply ite_kept
    | (with_reducible apply forEach_kept; intro _ _ _; beta_reduce)
    | with_reducible apply command_kept
    | with_reducible apply reply_kept
    | with_reducible apply calFail_kept
    | with_reducible apply calStart_kept
    )

theorem markStamps_kept : ∀ x0, Kept Q F x0 → Kept Q F (markStamps x0) := by
  intro x0 h0
  unfold markStamps
  repeat' (first
    | with_reducible assumption
    | (extract_lets +onlyGivenNames x; refine Kept.via Q F x ?_ (fun _ => ?_) <;> [subst x; clear_value x])
    | (extract_lets +onlyGivenNames x; clear_value x)
    | with_reducible apply ite_kept
    | (with_reducible apply forEach_kept; intro _ _ _; beta_reduce)
    | with_reducible apply setTdc_kept
    | with_reducible apply State.setStream_kept
    )

theorem execFreqResult_kept : ∀ x0 x1, Kept Q F x1 → (_ : Q.mbx = none := by assumption) → KeptOut Q F (execFreqResult x0 x1) := by
  intro x0 x1 h0 _
  unfold execFreqResult
  repeat' (first
    | with_reducible assumption
    | (extract_lets +onlyGivenNames x; clear_value x)
    | with_reducible apply keptOut_next
    | with_reducible apply command_kept
    | with_reducible apply reply_kept
    )

theorem execTdcCal_kept : ∀ x0 x1, Kept Q F x1 → (_ : Q.mbx = none := by assumption) → KeptOut Q F (execTdcCal x0 x1) := by
  intro x0 x1 h0 _
  unfold execTdcCal
  repeat' (first
    | with_reducible assumption
    | with_reducible apply keptOut_next
    | with_reducible apply tdcCal_kept
    )

theorem execTdcCalAbort_kept : ∀ x0 x1, Kept Q F x1 → (_ : Q.mbx = none := by assumption) → KeptOut Q F (execTdcCalAbort x0 x1) := by
  intro x0 x1 h0 _
  unfold execTdcCalAbort
  repeat' (first
    | with_reducible assumption
    | with_reducible apply keptOut_next
    | with_reducible apply tdcCal_kept
    )

theorem execTdcEdge_kept : ∀ x0 x1 x2 x3 x4 x5 x6, Kept Q F x6 → KeptOut Q F (execTdcEdge x0 x1 x2 x3 x4 x5 x6) := by
  intro x0 x1 x2 x3 x4 x5 x6 h0
  unfold execTdcEdge
  repeat' (first
    | with_reducible assumption
    | (extract_lets +onlyGivenNames x; refine Kept.via Q F x ?_ (fun _ => ?_) <;> [subst x; clear_value x])
    | (extract_lets +onlyGivenNames x; clear_value x)
    | with_reducible apply ite_kept
    | with_reducible apply keptOut_next
    | with_reducible apply setClock_kept
    | with_reducible apply stampOut_kept
    | with_reducible apply setTdcCh_kept
    | with_reducible apply mk_kept
    )

theorem execTdcRecal_kept : ∀ x0, Kept Q F x0 → KeptOut Q F (execTdcRecal x0) := by
  intro x0 h0
  unfold execTdcRecal
  repeat' (first
    | with_reducible assumption
    | (extract_lets +onlyGivenNames x; refine Kept.via Q F x ?_ (fun _ => ?_) <;> [subst x; clear_value x])
    | (extract_lets +onlyGivenNames x; clear_value x)
    | with_reducible apply ite_kept
    | with_reducible apply keptOut_next
    | with_reducible apply setTdc_kept
    | with_reducible apply calStart_kept
    )

theorem tdcClear_kept : ∀ x0, Kept Q F x0 → Kept Q F (tdcClear x0) := by
  intro x0 h0
  unfold tdcClear
  repeat' (first
    | with_reducible assumption
    | with_reducible apply setTdc_kept
    )

theorem execWidthCalEnd_kept : ∀ x0 x1 x2, Kept Q F x2 → KeptOut Q F (execWidthCalEnd x0 x1 x2) := by
  intro x0 x1 x2 h0
  unfold execWidthCalEnd
  repeat' (first
    | with_reducible assumption
    | (extract_lets +onlyGivenNames x; refine Kept.via Q F x ?_ (fun _ => ?_) <;> [subst x; clear_value x])
    | (extract_lets +onlyGivenNames x; clear_value x)
    | with_reducible apply ite_kept
    | with_reducible apply keptOut_next
    | with_reducible apply calFail_kept
    | with_reducible apply setTdcCh_kept
    | with_reducible apply State.wr_kept
    | with_reducible apply State.setB_kept
    | with_reducible apply fire_kept
    | with_reducible apply tdcCause_kept
    )

theorem execBlindTimeEnd_kept : ∀ x0 x1 x2, Kept Q F x2 → KeptOut Q F (execBlindTimeEnd x0 x1 x2) := by
  intro x0 x1 x2 h0
  unfold execBlindTimeEnd
  repeat' (first
    | with_reducible assumption
    | (extract_lets +onlyGivenNames x; refine Kept.via Q F x ?_ (fun _ => ?_) <;> [subst x; clear_value x])
    | (extract_lets +onlyGivenNames x; clear_value x)
    | with_reducible apply ite_kept
    | with_reducible apply keptOut_next
    | with_reducible apply setTdcCh_kept
    | with_reducible apply stampOut_kept
    | split
    )

-- Machine/Clock.lean

theorem flagQueue_kept : ∀ x0 x1 x2 x3, Kept Q F x0 → Kept Q F (flagQueue x0 x1 x2 x3) := by
  intro x0 x1 x2 x3 h0
  unfold flagQueue
  repeat' (first
    | with_reducible assumption
    | (extract_lets +onlyGivenNames x; refine Kept.via Q F x ?_ (fun _ => ?_) <;> [subst x; clear_value x])
    | (extract_lets +onlyGivenNames x; clear_value x)
    | with_reducible apply ite_kept
    | with_reducible apply State.setStream_kept
    )

theorem markLanes_kept : ∀ x0 x1 x2 x3 x4, Kept Q F x0 → Kept Q F (markLanes x0 x1 x2 x3 x4) := by
  intro x0 x1 x2 x3 x4 h0
  unfold markLanes
  repeat' (first
    | with_reducible assumption
    | (extract_lets +onlyGivenNames x; refine Kept.via Q F x ?_ (fun _ => ?_) <;> [subst x; clear_value x])
    | (extract_lets +onlyGivenNames x; clear_value x)
    | with_reducible apply ite_kept
    | with_reducible apply mk_kept
    | with_reducible apply mk_keptActive
    )

theorem markPaths_kept : ∀ x0 x1 x2 x3 x4, Kept Q F x0 → Kept Q F (markPaths x0 x1 x2 x3 x4) := by
  intro x0 x1 x2 x3 x4 h0
  unfold markPaths
  repeat' (first
    | with_reducible assumption
    | (extract_lets +onlyGivenNames x; refine Kept.via Q F x ?_ (fun _ => ?_) <;> [subst x; clear_value x])
    | (extract_lets +onlyGivenNames x; clear_value x)
    | with_reducible apply ite_kept
    | (with_reducible apply forEach_kept; intro _ _ _; beta_reduce)
    | with_reducible apply flagQueue_kept
    | with_reducible apply State.setStream_kept
    | with_reducible apply markLanes_kept
    | with_reducible apply mk_kept
    | with_reducible apply mk_keptActive
    )

theorem setClk_kept : ∀ x0 x1, Kept Q F x0 → Kept Q F (setClk x0 x1) := by
  intro x0 x1 h0
  unfold setClk
  repeat' (first
    | with_reducible assumption
    | (extract_lets +onlyGivenNames x; clear_value x)
    | with_reducible apply mk_kept
    )

theorem mayTry_kept : ∀ x0 x1, Kept Q F x0 → Kept Q F (mayTry x0 x1) := by
  intro x0 x1 h0
  unfold mayTry
  repeat' (first
    | with_reducible assumption
    | (extract_lets +onlyGivenNames x; refine Kept.via Q F x ?_ (fun _ => ?_) <;> [subst x; clear_value x])
    | (extract_lets +onlyGivenNames x; clear_value x)
    | with_reducible apply ite_kept
    | with_reducible apply setClk_kept
    )

theorem tryBand_kept : ∀ x0 x1 x2, Kept Q F x0 → Kept Q F (tryBand x0 x1 x2) := by
  intro x0 x1 x2 h0
  unfold tryBand
  repeat' (first
    | with_reducible assumption
    | with_reducible apply State.setF_kept
    | with_reducible apply setClk_kept
    | with_reducible apply report_kept
    | with_reducible apply State.setB_kept
    | split
    )

theorem tryFirst_kept : ∀ x0 x1, Kept Q F x0 → Kept Q F (tryFirst x0 x1) := by
  intro x0 x1 h0
  unfold tryFirst
  repeat' (first
    | with_reducible assumption
    | (extract_lets +onlyGivenNames x; refine Kept.via Q F x ?_ (fun _ => ?_) <;> [subst x; clear_value x])
    | (extract_lets +onlyGivenNames x; clear_value x)
    | with_reducible apply ite_kept
    | with_reducible apply tryBand_kept
    | with_reducible apply mayTry_kept
    )

theorem syncWrite_kept : ∀ x0 x1, Kept Q F x0 → Kept Q F (syncWrite x0 x1) := by
  intro x0 x1 h0
  unfold syncWrite
  repeat' (first
    | with_reducible assumption
    | (extract_lets +onlyGivenNames x; refine Kept.via Q F x ?_ (fun _ => ?_) <;> [subst x; clear_value x])
    | with_reducible apply ite_kept
    | with_reducible apply State.setB_kept
    | with_reducible apply State.w1c_kept
    )

theorem phoffAdd_kept : ∀ x0 x1 x2, Kept Q F x0 → Kept Q F (phoffAdd x0 x1 x2) := by
  intro x0 x1 x2 h0
  unfold phoffAdd
  repeat' (first
    | with_reducible assumption
    | (with_reducible apply forEach_kept; intro _ _ _; beta_reduce)
    | with_reducible apply State.wr_kept
    )

theorem phasesLost_kept : ∀ x0 x1, Kept Q F x0 → (_ : Q.mbx = none := by assumption) → Kept Q F (phasesLost x0 x1) := by
  intro x0 x1 h0 _
  unfold phasesLost
  repeat' (first
    | with_reducible assumption
    | (extract_lets +onlyGivenNames x; refine Kept.via Q F x ?_ (fun _ => ?_) <;> [subst x; clear_value x])
    | (extract_lets +onlyGivenNames x; clear_value x)
    | (with_reducible apply forEach_kept; intro _ _ _; beta_reduce)
    | with_reducible apply setClk_kept
    | with_reducible apply deny_kept
    | with_reducible apply phoffAdd_kept
    )

theorem mdllsRetry_kept : ∀ x0, Kept Q F x0 → Kept Q F (mdllsRetry x0) := by
  intro x0 h0
  unfold mdllsRetry
  repeat' (first
    | with_reducible assumption
    | (extract_lets +onlyGivenNames x; refine Kept.via Q F x ?_ (fun _ => ?_) <;> [subst x; clear_value x])
    | (extract_lets +onlyGivenNames x; clear_value x)
    | with_reducible apply ite_kept
    | (with_reducible apply forEach_kept; intro _ _ _; beta_reduce)
    | with_reducible apply setClk_kept
    | with_reducible apply tryFirst_kept
    )

theorem quadsBypass_kept : ∀ x0 x1, Kept Q F x0 → Kept Q F (quadsBypass x0 x1) := by
  intro x0 x1 h0
  unfold quadsBypass
  repeat' (first
    | with_reducible assumption
    | (extract_lets +onlyGivenNames x; refine Kept.via Q F x ?_ (fun _ => ?_) <;> [subst x; clear_value x])
    | (extract_lets +onlyGivenNames x; clear_value x)
    | with_reducible apply ite_kept
    | (with_reducible apply forEach_kept; intro _ _ _; beta_reduce)
    | with_reducible apply fgAbort_kept
    | with_reducible apply State.setF_kept
    | with_reducible apply gridAbort_kept
    | with_reducible apply gridEnd_kept
    | with_reducible apply mk_kept
    | with_reducible apply mk_keptActive
    )

theorem setSclk_kept : ∀ x0 x1 x2 x3, Kept Q F x0 → Kept Q F (setSclk x0 x1 x2 x3) := by
  intro x0 x1 x2 x3 h0
  unfold setSclk
  repeat' (first
    | with_reducible assumption
    | (extract_lets +onlyGivenNames x; refine Kept.via Q F x ?_ (fun _ => ?_) <;> [subst x; clear_value x])
    | (extract_lets +onlyGivenNames x; clear_value x)
    | with_reducible apply ite_kept
    | (with_reducible apply forEach_kept; intro _ _ _; beta_reduce)
    | with_reducible apply State.setF_kept
    | with_reducible apply State.addR_kept
    | with_reducible apply State.setB_kept
    | with_reducible apply quadsBypass_kept
    | with_reducible apply mayTry_kept
    | with_reducible apply tryFirst_kept
    )

theorem bypLater_kept : ∀ x0 x1, Kept Q F x0 → Kept Q F (bypLater x0 x1) := by
  intro x0 x1 h0
  unfold bypLater
  repeat' (first
    | with_reducible assumption
    | (extract_lets +onlyGivenNames x; refine Kept.via Q F x ?_ (fun _ => ?_) <;> [subst x; clear_value x])
    | (extract_lets +onlyGivenNames x; clear_value x)
    | with_reducible apply ite_kept
    | with_reducible apply State.setPath_kept
    )

theorem markByp_kept : ∀ x0 x1, Kept Q F x0 → Kept Q F (markByp x0 x1) := by
  intro x0 x1 h0
  unfold markByp
  repeat' (first
    | with_reducible assumption
    | (extract_lets +onlyGivenNames x; refine Kept.via Q F x ?_ (fun _ => ?_) <;> [subst x; clear_value x])
    | (extract_lets +onlyGivenNames x; clear_value x)
    | with_reducible apply ite_kept
    | (with_reducible apply forEach_kept; intro _ _ _; beta_reduce)
    | with_reducible apply bypLater_kept
    | with_reducible apply flagQueue_kept
    | with_reducible apply State.setCore_kept
    | with_reducible apply markPaths_kept
    )

theorem restartBegin_kept : ∀ x0 x1 x2 x3 x4 x5 x6, Kept Q F x0 → Kept Q F (restartBegin x0 x1 x2 x3 x4 x5 x6) := by
  intro x0 x1 x2 x3 x4 x5 x6 h0
  unfold restartBegin
  repeat' (first
    | with_reducible assumption
    | with_reducible apply mk_kept
    )

theorem execClkSclkSet_kept : ∀ x0 x1, Kept Q F x1 → (_ : Q.mbx = none := by assumption) → KeptOut Q F (execClkSclkSet x0 x1) := by
  intro x0 x1 h0 _
  unfold execClkSclkSet
  repeat' (first
    | with_reducible assumption
    | (extract_lets +onlyGivenNames x; clear_value x)
    | with_reducible apply keptOut_next
    | with_reducible apply command_kept
    | with_reducible apply restartBegin_kept
    )

theorem clkReset_kept : ∀ x0, Kept Q F x0 → Kept Q F (clkReset x0) := by
  intro x0 h0
  unfold clkReset
  repeat' (first
    | with_reducible assumption
    | with_reducible apply State.wr_kept
    | with_reducible apply setClk_kept
    )

theorem execBandAttemptTimeout_kept : ∀ x0 x1, Kept Q F x1 → KeptOut Q F (execBandAttemptTimeout x0 x1) := by
  intro x0 x1 h0
  unfold execBandAttemptTimeout
  repeat' (first
    | with_reducible assumption
    | with_reducible apply ite_kept
    | with_reducible apply keptOut_next
    | with_reducible apply tryBand_kept
    )

theorem execClkPhaseStepEnd_kept : ∀ x0, Kept Q F x0 → (_ : Q.mbx = none := by assumption) → KeptOut Q F (execClkPhaseStepEnd x0) := by
  intro x0 h0 _
  unfold execClkPhaseStepEnd
  repeat' (first
    | with_reducible assumption
    | (extract_lets +onlyGivenNames x; clear_value x)
    | with_reducible apply keptOut_next
    | with_reducible apply reply_kept
    | with_reducible apply phoffAdd_kept
    | with_reducible apply setClk_kept
    | split
    )

theorem mdllsTry_kept : ∀ x0, Kept Q F x0 → Kept Q F (mdllsTry x0) := by
  intro x0 h0
  unfold mdllsTry
  repeat' (first
    | with_reducible assumption
    | with_reducible apply ite_kept
    | (with_reducible apply forEach_kept; intro _ _ _; beta_reduce)
    | with_reducible apply tryFirst_kept
    )

theorem execClkBandSet_kept : ∀ x0 x1, Kept Q F x1 → (_ : Q.mbx = none := by assumption) → KeptOut Q F (execClkBandSet x0 x1) := by
  intro x0 x1 h0 _
  unfold execClkBandSet
  repeat' (first
    | with_reducible assumption
    | (extract_lets +onlyGivenNames x; clear_value x)
    | with_reducible apply keptOut_next
    | with_reducible apply command_kept
    | with_reducible apply reply_kept
    | with_reducible apply State.wr_kept
    )

theorem toBypass_kept : ∀ x0 x1, Kept Q F x0 → Kept Q F (toBypass x0 x1) := by
  intro x0 x1 h0
  unfold toBypass
  repeat' (first
    | with_reducible assumption
    | (extract_lets +onlyGivenNames x; refine Kept.via Q F x ?_ (fun _ => ?_) <;> [subst x; clear_value x])
    | (extract_lets +onlyGivenNames x; clear_value x)
    | with_reducible apply ite_kept
    | (with_reducible apply forEach_kept; intro _ _ _; beta_reduce)
    | with_reducible apply State.addR_kept
    | with_reducible apply State.setB_kept
    | with_reducible apply calLost_kept
    | with_reducible apply markStamps_kept
    | with_reducible apply markByp_kept
    | with_reducible apply quadsBypass_kept
    | with_reducible apply mk_kept
    | with_reducible apply mk_keptActive
    )

theorem lossOfLock_kept : ∀ x0 x1, Kept Q F x0 → (_ : Q.mbx = none := by assumption) → Kept Q F (lossOfLock x0 x1) := by
  intro x0 x1 h0 _
  unfold lossOfLock
  repeat' (first
    | with_reducible assumption
    | (extract_lets +onlyGivenNames x; refine Kept.via Q F x ?_ (fun _ => ?_) <;> [subst x; clear_value x])
    | (extract_lets +onlyGivenNames x; clear_value x)
    | with_reducible apply ite_kept
    | with_reducible apply phasesLost_kept
    | with_reducible apply toBypass_kept
    | with_reducible apply State.setB_kept
    | with_reducible apply setWarm_kept
    | with_reducible apply tryFirst_kept
    | with_reducible apply report_kept
    )

theorem execSynthLossOfLock_kept : ∀ x0 x1 x2, Kept Q F x2 → (_ : Q.mbx = none := by assumption) → KeptOut Q F (execSynthLossOfLock x0 x1 x2) := by
  intro x0 x1 x2 h0 _
  unfold execSynthLossOfLock
  repeat' (first
    | with_reducible assumption
    | with_reducible apply ite_kept
    | with_reducible apply keptOut_next
    | with_reducible apply lossOfLock_kept
    | with_reducible apply mk_kept
    )

theorem execRefinReturn_kept : ∀ x0, Kept Q F x0 → KeptOut Q F (execRefinReturn x0) := by
  intro x0 h0
  unfold execRefinReturn
  repeat' (first
    | with_reducible assumption
    | with_reducible apply keptOut_next
    | with_reducible apply State.setB_kept
    )

theorem execSclkinLoss_kept : ∀ x0 x1 x2, Kept Q F x2 → KeptOut Q F (execSclkinLoss x0 x1 x2) := by
  intro x0 x1 x2 h0
  unfold execSclkinLoss
  repeat' (first
    | with_reducible assumption
    | (extract_lets +onlyGivenNames x; refine Kept.via Q F x ?_ (fun _ => ?_) <;> [subst x; clear_value x])
    | with_reducible apply ite_kept
    | with_reducible apply keptOut_next
    | with_reducible apply State.setB_kept
    | with_reducible apply toBypass_kept
    | with_reducible apply report_kept
    | with_reducible apply mk_kept
    )

theorem execBypassReturn_kept : ∀ x0 x1, Kept Q F x1 → KeptOut Q F (execBypassReturn x0 x1) := by
  intro x0 x1 h0
  unfold execBypassReturn
  repeat' (first
    | with_reducible assumption
    | (extract_lets +onlyGivenNames x; refine Kept.via Q F x ?_ (fun _ => ?_) <;> [subst x; clear_value x])
    | (extract_lets +onlyGivenNames x; clear_value x)
    | with_reducible apply ite_kept
    | with_reducible apply keptOut_next
    | (with_reducible apply forEach_kept; intro _ _ _; beta_reduce)
    | with_reducible apply State.setB_kept
    | with_reducible apply mdllsTry_kept
    | with_reducible apply State.setF_kept
    | with_reducible apply fgBegin_kept
    )

theorem execClkPhaseStep_kept : ∀ x0 x1, Kept Q F x1 → (_ : Q.mbx = none := by assumption) → KeptOut Q F (execClkPhaseStep x0 x1) := by
  intro x0 x1 h0 _
  unfold execClkPhaseStep
  repeat' (first
    | with_reducible assumption
    | (extract_lets +onlyGivenNames x; clear_value x)
    | with_reducible apply keptOut_next
    | with_reducible apply command_kept
    | with_reducible apply setClk_kept
    )

theorem execClkSyncArm_kept : ∀ x0 x1, Kept Q F x1 → KeptOut Q F (execClkSyncArm x0 x1) := by
  intro x0 x1 h0
  unfold execClkSyncArm
  repeat' (first
    | with_reducible assumption
    | with_reducible apply keptOut_next
    | with_reducible apply syncWrite_kept
    )

theorem execClkStatus_kept : ∀ x0 x1, Kept Q F x1 → (_ : Q.mbx = none := by assumption) → KeptOut Q F (execClkStatus x0 x1) := by
  intro x0 x1 h0 _
  unfold execClkStatus
  repeat' (first
    | with_reducible assumption
    | with_reducible apply keptOut_next
    | with_reducible apply command_kept
    | with_reducible apply reply_kept
    )

theorem execHbmPllLossOfLock_kept : ∀ x0 x1, Kept Q F x1 → KeptOut Q F (execHbmPllLossOfLock x0 x1) := by
  intro x0 x1 h0
  unfold execHbmPllLossOfLock
  repeat' (first
    | with_reducible assumption
    | with_reducible apply ite_kept
    | with_reducible apply keptOut_next
    | with_reducible apply report_kept
    | with_reducible apply State.setB_kept
    )

theorem execRefinLoss_kept : ∀ x0 x1, Kept Q F x1 → (_ : Q.mbx = none := by assumption) → KeptOut Q F (execRefinLoss x0 x1) := by
  intro x0 x1 h0 _
  unfold execRefinLoss
  repeat' (first
    | with_reducible assumption
    | (extract_lets +onlyGivenNames x; refine Kept.via Q F x ?_ (fun _ => ?_) <;> [subst x; clear_value x])
    | with_reducible apply ite_kept
    | with_reducible apply keptOut_next
    | with_reducible apply State.setB_kept
    | with_reducible apply lossOfLock_kept
    | with_reducible apply report_kept
    | with_reducible apply mk_kept
    )

theorem execSynthLock_kept : ∀ x0 x1, Kept Q F x1 → KeptOut Q F (execSynthLock x0 x1) := by
  intro x0 x1 h0
  unfold execSynthLock
  repeat' (first
    | with_reducible assumption
    | (extract_lets +onlyGivenNames x; refine Kept.via Q F x ?_ (fun _ => ?_) <;> [subst x; clear_value x])
    | with_reducible apply ite_kept
    | with_reducible apply keptOut_next
    | with_reducible apply State.setB_kept
    | with_reducible apply warmFollow_kept
    | with_reducible apply State.wr_kept
    )

theorem execClkSyncCancel_kept : ∀ x0 x1, Kept Q F x1 → KeptOut Q F (execClkSyncCancel x0 x1) := by
  intro x0 x1 h0
  unfold execClkSyncCancel
  repeat' (first
    | with_reducible assumption
    | with_reducible apply keptOut_next
    | with_reducible apply syncWrite_kept
    )

-- Machine/Density.lean

theorem State.setDen_kept : ∀ x0 x1 x2, Kept Q F x0 → Kept Q F (State.setDen x0 x1 x2) := by
  intro x0 x1 x2 h0
  unfold State.setDen
  repeat' (first
    | with_reducible assumption
    | with_reducible apply mk_kept
    )

theorem showDen_kept : ∀ x0, Kept Q F x0 → Kept Q F (showDen x0) := by
  intro x0 h0
  unfold showDen
  repeat' (first
    | with_reducible assumption
    | with_reducible apply State.setB_kept
    )

theorem denDiscard_kept : ∀ x0, Kept Q F x0 → Kept Q F (denDiscard x0) := by
  intro x0 h0
  unfold denDiscard
  repeat' (first
    | with_reducible assumption
    | (extract_lets +onlyGivenNames x; refine Kept.via Q F x ?_ (fun _ => ?_) <;> [subst x; clear_value x])
    | (extract_lets +onlyGivenNames x; clear_value x)
    | (with_reducible apply forEach_kept; intro _ _ _; beta_reduce)
    | with_reducible apply State.setDen_kept
    | with_reducible apply showDen_kept
    | with_reducible apply mk_kept
    )

theorem denFinal_kept : ∀ x0 x1, Kept Q F x0 → Kept Q F (denFinal x0 x1) := by
  intro x0 x1 h0
  unfold denFinal
  repeat' (first
    | with_reducible assumption
    | (extract_lets +onlyGivenNames x; refine Kept.via Q F x ?_ (fun _ => ?_) <;> [subst x; clear_value x])
    | (extract_lets +onlyGivenNames x; clear_value x)
    | with_reducible apply ite_kept
    | (with_reducible apply forEach_kept; intro _ _ _; beta_reduce)
    | with_reducible apply State.setDen_kept
    | with_reducible apply showDen_kept
    | with_reducible apply mk_kept
    )

theorem denClear_kept : ∀ x0 x1, Kept Q F x0 → Kept Q F (denClear x0 x1) := by
  intro x0 x1 h0
  unfold denClear
  repeat' (first
    | with_reducible assumption
    | with_reducible apply mk_kept
    )

theorem regionsEnter_kept : ∀ x0, Kept Q F x0 → Kept Q F (regionsEnter x0) := by
  intro x0 h0
  unfold regionsEnter
  repeat' (first
    | with_reducible assumption
    | (extract_lets +onlyGivenNames x; refine Kept.via Q F x ?_ (fun _ => ?_) <;> [subst x; clear_value x])
    | (extract_lets +onlyGivenNames x; clear_value x)
    | with_reducible apply ite_kept
    | with_reducible apply mk_kept
    | with_reducible apply mk_keptActive
    )

theorem denEnter_kept : ∀ x0, Kept Q F x0 → Kept Q F (denEnter x0) := by
  intro x0 h0
  unfold denEnter
  repeat' (first
    | with_reducible assumption
    | (extract_lets +onlyGivenNames x; refine Kept.via Q F x ?_ (fun _ => ?_) <;> [subst x; clear_value x])
    | (extract_lets +onlyGivenNames x; clear_value x)
    | with_reducible apply ite_kept
    | (with_reducible apply forEach_kept; intro _ _ _; beta_reduce)
    | with_reducible apply denFinal_kept
    | with_reducible apply State.setDen_kept
    | with_reducible apply denClear_kept
    | with_reducible apply regionsEnter_kept
    | with_reducible apply showDen_kept
    | with_reducible apply State.wr_kept
    )

theorem execDenPathSet_kept : ∀ x0 x1, Kept Q F x1 → (_ : Q.mbx = none := by assumption) → KeptOut Q F (execDenPathSet x0 x1) := by
  intro x0 x1 h0 _
  unfold execDenPathSet
  repeat' (first
    | with_reducible assumption
    | (extract_lets +onlyGivenNames x; clear_value x)
    | with_reducible apply keptOut_next
    | with_reducible apply command_kept
    | with_reducible apply reply_kept
    | with_reducible apply writeRegs_kept
    )

theorem denLate_kept : ∀ x0, Kept Q F x0 → Kept Q F (denLate x0) := by
  intro x0 h0
  unfold denLate
  repeat' (first
    | with_reducible assumption
    | (extract_lets +onlyGivenNames x; refine Kept.via Q F x ?_ (fun _ => ?_) <;> [subst x; clear_value x])
    | with_reducible apply ite_kept
    | with_reducible apply report_kept
    | with_reducible apply State.addR_kept
    | with_reducible apply State.setB_kept
    | with_reducible apply mk_kept
    )

theorem denAge_kept : ∀ x0, Kept Q F x0 → Kept Q F (denAge x0) := by
  intro x0 h0
  unfold denAge
  repeat' (first
    | with_reducible assumption
    | (extract_lets +onlyGivenNames x; refine Kept.via Q F x ?_ (fun _ => ?_) <;> [subst x; clear_value x])
    | (extract_lets +onlyGivenNames x; clear_value x)
    | with_reducible apply ite_kept
    | with_reducible apply denLate_kept
    | with_reducible apply mk_kept
    | with_reducible apply mk_keptActive
    )

theorem corrBeat_kept : ∀ x0 x1, Kept Q F x0 → Kept Q F (corrBeat x0 x1) := by
  intro x0 x1 h0
  unfold corrBeat
  repeat' (first
    | with_reducible assumption
    | (extract_lets +onlyGivenNames x; refine Kept.via Q F x ?_ (fun _ => ?_) <;> [subst x; clear_value x])
    | (extract_lets +onlyGivenNames x; clear_value x)
    | with_reducible apply ite_kept
    | with_reducible apply State.setB_kept
    | split
    | with_reducible apply mk_kept
    )

theorem corrDiscard_kept : ∀ x0, Kept Q F x0 → Kept Q F (corrDiscard x0) := by
  intro x0 h0
  unfold corrDiscard
  repeat' (first
    | with_reducible assumption
    | with_reducible apply State.setB_kept
    | with_reducible apply State.setF_kept
    | with_reducible apply mk_kept
    )

theorem corrStart_kept : ∀ x0, Kept Q F x0 → Kept Q F (corrStart x0) := by
  intro x0 h0
  unfold corrStart
  repeat' (first
    | with_reducible assumption
    | (extract_lets +onlyGivenNames x; clear_value x)
    | with_reducible apply State.setB_kept
    | with_reducible apply mk_kept
    )

theorem corrEnter_kept : ∀ x0, Kept Q F x0 → Kept Q F (corrEnter x0) := by
  intro x0 h0
  unfold corrEnter
  repeat' (first
    | with_reducible assumption
    | (extract_lets +onlyGivenNames x; clear_value x)
    | with_reducible apply ite_kept
    | with_reducible apply corrStart_kept
    )

theorem corrFinal_kept : ∀ x0, Kept Q F x0 → Kept Q F (corrFinal x0) := by
  intro x0 h0
  unfold corrFinal
  repeat' (first
    | with_reducible assumption
    | (extract_lets +onlyGivenNames x; clear_value x)
    | with_reducible apply ite_kept
    | with_reducible apply State.setB_kept
    | split
    | with_reducible apply mk_kept
    )

theorem setCell_kept : ∀ x0 x1 x2, Kept Q F x0 → Kept Q F (setCell x0 x1 x2) := by
  intro x0 x1 x2 h0
  unfold setCell
  repeat' (first
    | with_reducible assumption
    | with_reducible apply mk_kept
    )

theorem hitCell_kept : ∀ x0 x1 x2, Kept Q F x0 → Kept Q F (hitCell x0 x1 x2).1 := by
  intro x0 x1 x2 h0
  unfold hitCell
  repeat' (first
    | with_reducible assumption
    | (extract_lets +onlyGivenNames x; clear_value x)
    | with_reducible apply ite_keptFst
    | dsimp -zeta only
    | with_reducible apply setCell_kept
    )

theorem hitAll_kept : ∀ (s : State) (p : Nat) (l : List (Nat × Nat)), Kept Q F s → Kept Q F (hitAll s p l).1
  | _, _, [], k => k
  | s, p, h :: t, k => hitAll_kept _ p t (hitCell_kept s p h k)

theorem hitSpec_kept : ∀ x0 x1 x2, Kept Q F x2 → Kept Q F (hitSpec x0 x1 x2) := by
  intro x0 x1 x2 h0
  unfold hitSpec
  repeat' (first
    | with_reducible assumption
    | (extract_lets +onlyGivenNames x; refine Kept.via Q F x ?_ (fun _ => ?_) <;> [subst x; clear_value x])
    | (extract_lets +onlyGivenNames x; refine Kept.viaFst Q F x ?_ (fun _ => ?_) <;> [subst x; clear_value x])
    | (extract_lets +onlyGivenNames x; clear_value x)
    | with_reducible apply ite_kept
    | with_reducible apply hitAll_kept
    | refine Kept.fst (hitAll_kept _ _ _ ?_) (by with_reducible assumption)
    | with_reducible apply State.setDen_kept
    | with_reducible apply State.addR_kept
    | with_reducible apply State.setB_kept
    | split
    | with_reducible apply mk_keptActive
    | with_reducible apply mk_kept
    )

theorem regionFlags_kept : ∀ x0 x1 x2, Kept Q F x0 → Kept Q F (regionFlags x0 x1 x2) := by
  intro x0 x1 x2 h0
  unfold regionFlags
  repeat' (first
    | with_reducible assumption
    | (extract_lets +onlyGivenNames x; refine Kept.via Q F x ?_ (fun _ => ?_) <;> [subst x; clear_value x])
    | (extract_lets +onlyGivenNames x; clear_value x)
    | with_reducible apply ite_kept
    | with_reducible apply mk_kept
    | with_reducible apply mk_keptActive
    )

theorem regionShow_kept : ∀ x0 x1 x2 x3, Kept Q F x0 → Kept Q F (regionShow x0 x1 x2 x3) := by
  intro x0 x1 x2 x3 h0
  unfold regionShow
  repeat' (first
    | with_reducible assumption
    | (extract_lets +onlyGivenNames x; refine Kept.via Q F x ?_ (fun _ => ?_) <;> [subst x; clear_value x])
    | (extract_lets +onlyGivenNames x; clear_value x)
    | with_reducible apply ite_kept
    | with_reducible apply State.wr_kept
    | with_reducible apply regionFlags_kept
    | split
    | with_reducible apply mk_keptActive
    | with_reducible apply mk_kept
    )

theorem denBeat_kept : ∀ x0 x1, Kept Q F x0 → Kept Q F (denBeat x0 x1) := by
  intro x0 x1 h0
  unfold denBeat
  repeat' (first
    | with_reducible assumption
    | (extract_lets +onlyGivenNames x; refine Kept.via Q F x ?_ (fun _ => ?_) <;> [subst x; clear_value x])
    | (extract_lets +onlyGivenNames x; clear_value x)
    | with_reducible apply ite_kept
    | (with_reducible apply forEach_kept; intro _ _ _; beta_reduce)
    | with_reducible apply State.setDen_kept
    | with_reducible apply hitSpec_kept
    | with_reducible apply regionShow_kept
    | with_reducible apply mk_kept
    | with_reducible apply mk_keptActive
    )

theorem flushNow_kept : ∀ x0, Kept Q F x0 → Kept Q F (flushNow x0) := by
  intro x0 h0
  unfold flushNow
  repeat' (first
    | with_reducible assumption
    | (extract_lets +onlyGivenNames x; refine Kept.via Q F x ?_ (fun _ => ?_) <;> [subst x; clear_value x])
    | (extract_lets +onlyGivenNames x; clear_value x)
    | with_reducible apply ite_kept
    | with_reducible apply showDen_kept
    | with_reducible apply mk_kept
    | with_reducible apply mk_keptActive
    )

theorem execDensityFlush_kept : ∀ x0, Kept Q F x0 → KeptOut Q F (execDensityFlush x0) := by
  intro x0 h0
  unfold execDensityFlush
  repeat' (first
    | with_reducible assumption
    | (extract_lets +onlyGivenNames x; refine Kept.via Q F x ?_ (fun _ => ?_) <;> [subst x; clear_value x])
    | (extract_lets +onlyGivenNames x; clear_value x)
    | with_reducible apply ite_kept
    | with_reducible apply keptOut_next
    | with_reducible apply flushNow_kept
    | with_reducible apply mk_kept
    )

theorem corrSwap_kept : ∀ x0 x1, Kept Q F x0 → (_ : Q.hbm = none := by assumption) → Kept Q F (corrSwap x0 x1) := by
  intro x0 x1 h0 _
  unfold corrSwap
  repeat' (first
    | with_reducible assumption
    | (extract_lets +onlyGivenNames x; refine Kept.via Q F x ?_ (fun _ => ?_) <;> [subst x; clear_value x])
    | (extract_lets +onlyGivenNames x; clear_value x)
    | with_reducible apply ite_kept
    | with_reducible apply State.unitWrite_kept
    | with_reducible apply State.setB_kept
    | split
    | with_reducible apply mk_keptActive
    | with_reducible apply mk_kept
    )

theorem corrDefer_kept : ∀ x0 x1, Kept Q F x0 → Kept Q F (corrDefer x0 x1) := by
  intro x0 x1 h0
  unfold corrDefer
  repeat' (first
    | with_reducible assumption
    | (extract_lets +onlyGivenNames x; refine Kept.via Q F x ?_ (fun _ => ?_) <;> [subst x; clear_value x])
    | (extract_lets +onlyGivenNames x; clear_value x)
    | with_reducible apply ite_kept
    | with_reducible apply State.setB_kept
    | with_reducible apply report_kept
    | with_reducible apply State.addR_kept
    | split
    | with_reducible apply mk_keptActive
    | with_reducible apply mk_kept
    )

theorem execCorrBankSwap_kept : ∀ x0, Kept Q F x0 → (_ : Q.hbm = none := by assumption) → KeptOut Q F (execCorrBankSwap x0) := by
  intro x0 h0 _
  unfold execCorrBankSwap
  repeat' (first
    | with_reducible assumption
    | (extract_lets +onlyGivenNames x; refine Kept.via Q F x ?_ (fun _ => ?_) <;> [subst x; clear_value x])
    | with_reducible apply ite_kept
    | with_reducible apply keptOut_next
    | with_reducible apply corrSwap_kept
    | with_reducible apply corrDefer_kept
    | split
    )

theorem execDenStatus_kept : ∀ x0 x1, Kept Q F x1 → (_ : Q.mbx = none := by assumption) → KeptOut Q F (execDenStatus x0 x1) := by
  intro x0 x1 h0 _
  unfold execDenStatus
  repeat' (first
    | with_reducible assumption
    | with_reducible apply keptOut_next
    | with_reducible apply command_kept
    | with_reducible apply reply_kept
    )

theorem releaseHeld_kept : ∀ x0 x1, Kept Q F x0 → Kept Q F (releaseHeld x0 x1) := by
  intro x0 x1 h0
  unfold releaseHeld
  repeat' (first
    | with_reducible assumption
    | (extract_lets +onlyGivenNames x; refine Kept.via Q F x ?_ (fun _ => ?_) <;> [subst x; clear_value x])
    | (extract_lets +onlyGivenNames x; clear_value x)
    | with_reducible apply ite_kept
    | (with_reducible apply forEach_kept; intro _ _ _; beta_reduce)
    | with_reducible apply State.setDen_kept
    | with_reducible apply hitSpec_kept
    )

theorem execCorrSet_kept : ∀ x0 x1, Kept Q F x1 → (_ : Q.mbx = none := by assumption) → KeptOut Q F (execCorrSet x0 x1) := by
  intro x0 x1 h0 _
  unfold execCorrSet
  repeat' (first
    | with_reducible assumption
    | with_reducible apply keptOut_next
    | with_reducible apply command_kept
    | with_reducible apply reply_kept
    | with_reducible apply writeRegs_kept
    )

theorem execDenRegionSet_kept : ∀ x0 x1, Kept Q F x1 → (_ : Q.mbx = none := by assumption) → KeptOut Q F (execDenRegionSet x0 x1) := by
  intro x0 x1 h0 _
  unfold execDenRegionSet
  repeat' (first
    | with_reducible assumption
    | (extract_lets +onlyGivenNames x; clear_value x)
    | with_reducible apply keptOut_next
    | with_reducible apply command_kept
    | with_reducible apply reply_kept
    | with_reducible apply writeRegs_kept
    )

theorem readFrame_kept : ∀ x0 x1 x2 x3 x4, Kept Q F x0 → (_ : Q.hbm = none := by assumption) → Kept Q F (readFrame x0 x1 x2 x3 x4) := by
  intro x0 x1 x2 x3 x4 h0 _
  unfold readFrame
  repeat' (first
    | with_reducible assumption
    | (extract_lets +onlyGivenNames x; refine Kept.via Q F x ?_ (fun _ => ?_) <;> [subst x; clear_value x])
    | (extract_lets +onlyGivenNames x; clear_value x)
    | with_reducible apply ite_kept
    | (with_reducible apply forEach_kept; intro _ _ _; beta_reduce)
    | with_reducible apply State.setDen_kept
    | with_reducible apply State.useFree_kept
    | with_reducible apply hitSpec_kept
    | with_reducible apply State.unitWrite_kept
    | with_reducible apply setCell_kept
    | with_reducible apply releaseHeld_kept
    | with_reducible apply hbmObject_kept
    | with_reducible apply carEnter_kept
    | split
    | with_reducible apply mk_keptActive
    | with_reducible apply mk_kept
    )

theorem readAll_kept : ∀ (f : Flush) (l : List Nat) (sp : List (Nat × Nat)) (s : State), Kept Q F s → (_ : Q.hbm = none := by assumption) →
    Kept Q F (readAll f l sp s)
  | _, [], _, _, k, _ => k
  | f, p :: t, sp, s, k, _ => readAll_kept f t sp.tail _ (readFrame_kept s f p _ _ k)

theorem execDensityReadoutEnd_kept : ∀ x0 x1, Kept Q F x1 → (_ : Q.hbm = none := by assumption) → KeptOut Q F (execDensityReadoutEnd x0 x1) := by
  intro x0 x1 h0 _
  unfold execDensityReadoutEnd
  repeat' (first
    | with_reducible assumption
    | (extract_lets +onlyGivenNames x; refine Kept.via Q F x ?_ (fun _ => ?_) <;> [subst x; clear_value x])
    | with_reducible apply keptOut_next
    | with_reducible apply readAll_kept
    | with_reducible apply showDen_kept
    | with_reducible apply State.wr64_kept
    | split
    | with_reducible apply mk_kept
    )

theorem execCorrIntegrationEnd_kept : ∀ x0, Kept Q F x0 → KeptOut Q F (execCorrIntegrationEnd x0) := by
  intro x0 h0
  unfold execCorrIntegrationEnd
  repeat' (first
    | with_reducible assumption
    | (extract_lets +onlyGivenNames x; clear_value x)
    | with_reducible apply ite_kept
    | with_reducible apply keptOut_next
    | with_reducible apply corrFinal_kept
    | with_reducible apply State.setB_kept
    | split
    | with_reducible apply mk_kept
    )

theorem execDenSet_kept : ∀ x0 x1, Kept Q F x1 → (_ : Q.mbx = none := by assumption) → KeptOut Q F (execDenSet x0 x1) := by
  intro x0 x1 h0 _
  unfold execDenSet
  repeat' (first
    | with_reducible assumption
    | with_reducible apply keptOut_next
    | with_reducible apply command_kept
    | with_reducible apply reply_kept
    | with_reducible apply writeRegs_kept
    )

theorem execCorrDumpEnd_kept : ∀ x0, Kept Q F x0 → (_ : Q.hbm = none := by assumption) → KeptOut Q F (execCorrDumpEnd x0) := by
  intro x0 h0 _
  unfold execCorrDumpEnd
  repeat' (first
    | with_reducible assumption
    | (extract_lets +onlyGivenNames x; refine Kept.via Q F x ?_ (fun _ => ?_) <;> [subst x; clear_value x])
    | (extract_lets +onlyGivenNames x; clear_value x)
    | with_reducible apply keptOut_next
    | (with_reducible apply forEach_kept; intro _ _ _; beta_reduce)
    | with_reducible apply State.unitWrite_kept
    | with_reducible apply hbmObject_kept
    | with_reducible apply State.setB_kept
    | with_reducible apply State.wr64_kept
    | split
    | with_reducible apply mk_kept
    )

theorem execDensityReadoutStart_kept : ∀ x0, Kept Q F x0 → (_ : Q.hbm = none := by assumption) → KeptOut Q F (execDensityReadoutStart x0) := by
  intro x0 h0 _
  unfold execDensityReadoutStart
  repeat' (first
    | with_reducible assumption
    | (extract_lets +onlyGivenNames x; refine Kept.via Q F x ?_ (fun _ => ?_) <;> [subst x; clear_value x])
    | with_reducible apply ite_kept
    | with_reducible apply keptOut_next
    | (with_reducible apply forEach_kept; intro _ _ _; beta_reduce)
    | with_reducible apply State.unitWrite_kept
    | with_reducible apply showDen_kept
    | split
    | with_reducible apply mk_kept
    )

end Sys2Proof.Machine
end

