-- ==== Sys2Proof/Laws/KeptLinks.lean ====
section
/-! SUPPORT. `Kept` for every function of Machine/Mailbox, PpeIsa, Frames, Stream, Hbm, Ppe, Budget, Ptp, Link: one lemma each, cited by those of its callers. -/
namespace Sys2Proof.Machine
variable {Q : Frame} {F : Fuses}

-- Machine/Mailbox.lean

theorem intoHand_kept : ∀ x0 x1 x2, Kept Q F x0 → (_ : Q.mbx = none := by assumption) → Kept Q F (intoHand x0 x1 x2) := by
  intro x0 x1 x2 h0 _
  unfold intoHand
  repeat' (first
    | with_reducible assumption
    | with_reducible apply ite_kept
    | with_reducible apply deny_kept
    | with_reducible apply mk_kept
    )

theorem mbxEvent_kept : ∀ x0 x1 x2, Kept Q F x0 → Kept Q F (mbxEvent x0 x1 x2) := by
  intro x0 x1 x2 h0
  unfold mbxEvent
  repeat' (first
    | with_reducible assumption
    | (extract_lets +onlyGivenNames x; refine Kept.via Q F x ?_ (fun _ => ?_) <;> [subst x; clear_value x])
    | with_reducible apply ite_kept
    | with_reducible apply State.wr_kept
    | with_reducible apply State.setB_kept
    )

theorem pairVector_kept : ∀ x0 x1, Kept Q F x0 → Kept Q F (pairVector x0 x1) := by
  intro x0 x1 h0
  unfold pairVector
  repeat' (first
    | with_reducible assumption
    | with_reducible apply vectorIf_kept
    )

theorem hostFenced_kept : ∀ x0 x1, Kept Q F x0 → Kept Q F (hostFenced x0 x1) := by
  intro x0 x1 h0
  unfold hostFenced
  repeat' (first
    | with_reducible assumption
    | (extract_lets +onlyGivenNames x; refine Kept.via Q F x ?_ (fun _ => ?_) <;> [subst x; clear_value x])
    | with_reducible apply ite_kept
    | with_reducible apply mbxEvent_kept
    | with_reducible apply pairVector_kept
    )

theorem hostReject_kept : ∀ x0 x1, Kept Q F x0 → Kept Q F (hostReject x0 x1) := by
  intro x0 x1 h0
  unfold hostReject
  repeat' (first
    | with_reducible assumption
    | (extract_lets +onlyGivenNames x; refine Kept.via Q F x ?_ (fun _ => ?_) <;> [subst x; clear_value x])
    | with_reducible apply ite_kept
    | with_reducible apply report_kept
    | with_reducible apply mbxEvent_kept
    | with_reducible apply pairVector_kept
    | with_reducible apply State.setB_kept
    )

theorem mailboxPart_kept : ∀ x0 x1 x2 x3, Kept Q F x0 → (_ : Q.mbx = none := by assumption) → Kept Q F (mailboxPart x0 x1 x2 x3) := by
  intro x0 x1 x2 x3 h0 _
  unfold mailboxPart
  repeat' (first
    | with_reducible assumption
    | (extract_lets +onlyGivenNames x; refine Kept.via Q F x ?_ (fun _ => ?_) <;> [subst x; clear_value x])
    | (extract_lets +onlyGivenNames x; clear_value x)
    | with_reducible apply ite_kept
    | with_reducible apply hostFenced_kept
    | with_reducible apply hostReject_kept
    | with_reducible apply State.mbxWrite_kept
    | with_reducible apply State.put_kept
    | split
    )

theorem mailboxParts_kept : ∀ (f : Nat) (s : State) (m : Master) (a : Nat) (b : List Byte), Kept Q F s → (_ : Q.mbx = none := by assumption) →
    Kept Q F (mailboxParts f s m a b)
  | 0, _, _, _, _, k, _ => k
  | f + 1, s, m, a, b, k, _ => by
    unfold mailboxParts
    exact ite_kept k (mailboxParts_kept f _ m _ _ (mailboxPart_kept _ _ _ _ k))

theorem mailboxWrite_kept : ∀ x0 x1 x2 x3, Kept Q F x0 → (_ : Q.mbx = none := by assumption) → Kept Q F (mailboxWrite x0 x1 x2 x3) := by
  intro x0 x1 x2 x3 h0 _
  unfold mailboxWrite
  repeat' (first
    | with_reducible assumption
    | (extract_lets +onlyGivenNames x; clear_value x)
    | with_reducible apply ite_kept
    | with_reducible apply mailboxParts_kept
    )

theorem replayCheck_kept : ∀ x0 x1 x2, Kept Q F x0 → KeptOpt Q F (replayCheck x0 x1 x2) := by
  intro x0 x1 x2 h0
  unfold replayCheck
  repeat' (first
    | with_reducible assumption
    | with_reducible apply ite_keptOpt
    | exact keptOpt_none
    | with_reducible apply keptOpt_some
    | with_reducible apply State.setSession_kept
    | split
    )

theorem setIn_kept : ∀ x0 x1 x2, Kept Q F x0 → Kept Q F (setIn x0 x1 x2) := by
  intro x0 x1 x2 h0
  unfold setIn
  repeat' (first
    | with_reducible assumption
    | (extract_lets +onlyGivenNames x; refine Kept.via Q F x ?_ (fun _ => ?_) <;> [subst x; clear_value x])
    | (extract_lets +onlyGivenNames x; clear_value x)
    | with_reducible apply ite_kept
    | with_reducible apply setIdleBeats_kept
    | with_reducible apply State.setB_kept
    | with_reducible apply State.setF_kept
    )

theorem ringCommand_kept : ∀ x0 x1 x2, Kept Q F x0 → Kept Q F (ringCommand x0 x1 x2) := by
  intro x0 x1 x2 h0
  unfold ringCommand
  repeat' (first
    | with_reducible assumption
    | (extract_lets +onlyGivenNames x; refine Kept.via Q F x ?_ (fun _ => ?_) <;> [subst x; clear_value x])
    | (extract_lets +onlyGivenNames x; clear_value x)
    | with_reducible apply ite_kept
    | with_reducible apply hostFenced_kept
    | with_reducible apply hostReject_kept
    | with_reducible apply State.setF_kept
    | with_reducible apply mk_kept
    )

theorem engineIrq_kept : ∀ x0 x1 x2, Kept Q F x0 → Kept Q F (engineIrq x0 x1 x2) := by
  intro x0 x1 x2 h0
  unfold engineIrq
  repeat' (first
    | with_reducible assumption
    | (extract_lets +onlyGivenNames x; refine Kept.via Q F x ?_ (fun _ => ?_) <;> [subst x; clear_value x])
    | (extract_lets +onlyGivenNames x; clear_value x)
    | with_reducible apply ite_kept
    | with_reducible apply idleBroken_kept
    | with_reducible apply State.setPpe_kept
    )

theorem setOut_kept : ∀ x0 x1 x2, Kept Q F x0 → Kept Q F (setOut x0 x1 x2) := by
  intro x0 x1 x2 h0
  unfold setOut
  repeat' (first
    | with_reducible assumption
    | with_reducible apply State.setB_kept
    | with_reducible apply State.setF_kept
    )

theorem ringEngine_kept : ∀ x0 x1 x2, Kept Q F x0 → Kept Q F (ringEngine x0 x1 x2) := by
  intro x0 x1 x2 h0
  unfold ringEngine
  repeat' (first
    | with_reducible assumption
    | (extract_lets +onlyGivenNames x; refine Kept.via Q F x ?_ (fun _ => ?_) <;> [subst x; clear_value x])
    | (extract_lets +onlyGivenNames x; clear_value x)
    | with_reducible apply ite_kept
    | with_reducible apply setIn_kept
    | with_reducible apply State.setF_kept
    | with_reducible apply wakeCluster_kept
    | with_reducible apply engineIrq_kept
    | split
    | with_reducible apply mk_keptActive
    | with_reducible apply mk_kept
    )

theorem ringCluster_kept : ∀ x0 x1 x2 x3, Kept Q F x0 → Kept Q F (ringCluster x0 x1 x2 x3) := by
  intro x0 x1 x2 x3 h0
  unfold ringCluster
  repeat' (first
    | with_reducible assumption
    | (extract_lets +onlyGivenNames x; refine Kept.via Q F x ?_ (fun _ => ?_) <;> [subst x; clear_value x])
    | (extract_lets +onlyGivenNames x; clear_value x)
    | with_reducible apply ite_kept
    | (with_reducible apply forEach_kept; intro _ _ _; beta_reduce)
    | with_reducible apply ringEngine_kept
    | with_reducible apply hostFenced_kept
    | with_reducible apply hostReject_kept
    | with_reducible apply State.put_kept
    )

theorem dropPacket_kept : ∀ x0, Kept Q F x0 → Kept Q F (dropPacket x0) := by
  intro x0 h0
  unfold dropPacket
  repeat' (first
    | with_reducible assumption
    | with_reducible apply State.addSat_kept
    )

theorem acceptNet_kept : ∀ x0 x1 x2, Kept Q F x0 → (_ : Q.mbx = none := by assumption) → Kept Q F (acceptNet x0 x1 x2) := by
  intro x0 x1 x2 h0 _
  unfold acceptNet
  repeat' (first
    | with_reducible assumption
    | (extract_lets +onlyGivenNames x; clear_value x)
    | with_reducible apply ite_kept
    | with_reducible apply dropPacket_kept
    | with_reducible apply report_kept
    | with_reducible apply State.addSat_kept
    | refine KeptOpt.get (replayCheck_kept _ _ _ ?_) (by with_reducible assumption)
    | with_reducible apply deny_kept
    | with_reducible apply intoHand_kept
    | split
    )

theorem mailboxGet_kept : ∀ x0 x1 x2 x3, Kept Q F x0 → Kept Q F (mailboxGet x0 x1 x2 x3).1 := by
  intro x0 x1 x2 x3 h0
  unfold mailboxGet
  repeat' (first
    | with_reducible assumption
    | (extract_lets +onlyGivenNames x; refine Kept.via Q F x ?_ (fun _ => ?_) <;> [subst x; clear_value x])
    | (extract_lets +onlyGivenNames x; clear_value x)
    | with_reducible apply ite_kept
    | with_reducible apply ite_keptFst
    | dsimp -zeta only
    | with_reducible apply hostFenced_kept
    | with_reducible apply State.put_kept
    | split
    )

theorem mailboxGets_kept : ∀ (f : Nat) (s : State) (m : Master) (a n : Nat), Kept Q F s → Kept Q F (mailboxGets f s m a n).1
  | 0, _, _, _, _, k => k
  | f + 1, s, m, a, n, k => by
    unfold mailboxGets
    exact ite_keptFst k (mailboxGets_kept f _ m _ _ (mailboxGet_kept _ _ _ _ k))

theorem mailboxRead_kept : ∀ x0 x1 x2 x3, Kept Q F x0 → Kept Q F (mailboxRead x0 x1 x2 x3).1 := by
  intro x0 x1 x2 x3 h0
  unfold mailboxRead
  repeat' (first
    | with_reducible assumption
    | (extract_lets +onlyGivenNames x; refine Kept.via Q F x ?_ (fun _ => ?_) <;> [subst x; clear_value x])
    | (extract_lets +onlyGivenNames x; refine Kept.viaFst Q F x ?_ (fun _ => ?_) <;> [subst x; clear_value x])
    | (extract_lets +onlyGivenNames x; clear_value x)
    | with_reducible apply ite_kept
    | with_reducible apply ite_keptFst
    | dsimp -zeta only
    | with_reducible apply mailboxGets_kept
    | refine Kept.fst (mailboxGets_kept _ _ _ _ _ ?_) (by with_reducible assumption)
    )

theorem execNetworkPacketTake_kept : ∀ x0, Kept Q F x0 → (_ : Q.mbx = none := by assumption) → KeptOut Q F (execNetworkPacketTake x0) := by
  intro x0 h0 _
  unfold execNetworkPacketTake
  repeat' (first
    | with_reducible assumption
    | with_reducible apply ite_kept
    | with_reducible apply keptOut_next
    | with_reducible apply acceptNet_kept
    | split
    | with_reducible apply mk_kept
    )

theorem execMbxPestatOutack_kept : ∀ x0 x1 x2, Kept Q F x2 → KeptOut Q F (execMbxPestatOutack x0 x1 x2) := by
  intro x0 x1 x2 h0
  unfold execMbxPestatOutack
  repeat' (first
    | with_reducible assumption
    | with_reducible apply ite_kept
    | with_reducible apply keptOut_next
    | with_reducible apply onBar_kept
    | with_reducible apply engineIrq_kept
    | with_reducible apply setOut_kept
    )

theorem lockRead_kept : ∀ x0 x1 x2, Kept Q F x0 → (_ : Q.locks = none := by assumption) → Kept Q F (lockRead x0 x1 x2) := by
  intro x0 x1 x2 h0 _
  unfold lockRead
  repeat' (first
    | with_reducible assumption
    | (extract_lets +onlyGivenNames x; refine Kept.via Q F x ?_ (fun _ => ?_) <;> [subst x; clear_value x])
    | (extract_lets +onlyGivenNames x; clear_value x)
    | (with_reducible apply forEach_kept; intro _ _ _; beta_reduce)
    | with_reducible apply setLock_kept
    | with_reducible apply State.put_kept
    )

theorem acceptHost_kept : ∀ x0 x1 x2 x3, Kept Q F x0 → (_ : Q.mbx = none := by assumption) → Kept Q F (acceptHost x0 x1 x2 x3) := by
  intro x0 x1 x2 x3 h0 _
  unfold acceptHost
  repeat' (first
    | with_reducible assumption
    | (extract_lets +onlyGivenNames x; clear_value x)
    | with_reducible apply ite_kept
    | with_reducible apply answerAs_kept
    | with_reducible apply report_kept
    | refine KeptOpt.get (replayCheck_kept _ _ _ ?_) (by with_reducible assumption)
    | with_reducible apply deny_kept
    | with_reducible apply State.addSat_kept
    | with_reducible apply intoHand_kept
    | split
    )

theorem takeMailbox_kept : ∀ x0 x1 x2, Kept Q F x0 → (_ : Q.mbx = none := by assumption) → Kept Q F (takeMailbox x0 x1 x2) := by
  intro x0 x1 x2 h0 _
  unfold takeMailbox
  repeat' (first
    | with_reducible assumption
    | (extract_lets +onlyGivenNames x; refine Kept.via Q F x ?_ (fun _ => ?_) <;> [subst x; clear_value x])
    | (extract_lets +onlyGivenNames x; clear_value x)
    | with_reducible apply State.setF_kept
    | with_reducible apply State.wr_kept
    | with_reducible apply acceptHost_kept
    | with_reducible apply pairVector_kept
    | with_reducible apply mk_kept
    )

theorem execMailboxTake_kept : ∀ x0, Kept Q F x0 → (_ : Q.mbx = none := by assumption) → KeptOut Q F (execMailboxTake x0) := by
  intro x0 h0 _
  unfold execMailboxTake
  repeat' (first
    | with_reducible assumption
    | with_reducible apply ite_kept
    | with_reducible apply keptOut_next
    | with_reducible apply takeMailbox_kept
    | split
    )

theorem execMbxCldbWrite_kept : ∀ x0 x1 x2 x3, Kept Q F x3 → KeptOut Q F (execMbxCldbWrite x0 x1 x2 x3) := by
  intro x0 x1 x2 x3 h0
  unfold execMbxCldbWrite
  repeat' (first
    | with_reducible assumption
    | with_reducible apply ite_kept
    | with_reducible apply keptOut_next
    | with_reducible apply onBar_kept
    | with_reducible apply ringCluster_kept
    )

theorem execMbxHrackWrite_kept : ∀ x0 x1, Kept Q F x1 → KeptOut Q F (execMbxHrackWrite x0 x1) := by
  intro x0 x1 h0
  unfold execMbxHrackWrite
  repeat' (first
    | with_reducible assumption
    | with_reducible apply ite_kept
    | with_reducible apply keptOut_next
    | with_reducible apply onBar_kept
    | with_reducible apply State.wr_kept
    )

theorem execMailboxDataWrite_kept : ∀ x0 x1 x2 x3, Kept Q F x3 → (_ : Q.mbx = none := by assumption) → KeptOut Q F (execMailboxDataWrite x0 x1 x2 x3) := by
  intro x0 x1 x2 x3 h0 _
  unfold execMailboxDataWrite
  repeat' (first
    | with_reducible assumption
    | with_reducible apply keptOut_next
    | with_reducible apply onBar_kept
    | with_reducible apply mailboxWrite_kept
    )

theorem execGlbLockRelease_kept : ∀ x0 x1 x2 x3, Kept Q F x3 → (_ : Q.locks = none := by assumption) → KeptOut Q F (execGlbLockRelease x0 x1 x2 x3) := by
  intro x0 x1 x2 x3 h0 _
  unfold execGlbLockRelease
  repeat' (first
    | with_reducible assumption
    | with_reducible apply ite_kept
    | with_reducible apply keptOut_next
    | with_reducible apply onBar_kept
    | with_reducible apply setLock_kept
    )

theorem execMbxCountRead_kept : ∀ x0 x1 x2, Kept Q F x2 → KeptOut Q F (execMbxCountRead x0 x1 x2) := by
  intro x0 x1 x2 h0
  unfold execMbxCountRead
  repeat' (first
    | with_reducible assumption
    | (extract_lets +onlyGivenNames x; clear_value x)
    | with_reducible apply keptOut_next
    | with_reducible apply onBar_kept
    | with_reducible apply State.wr_kept
    | with_reducible apply State.put_kept
    )

theorem execMbxHcdbWrite_kept : ∀ x0 x1 x2, Kept Q F x2 → KeptOut Q F (execMbxHcdbWrite x0 x1 x2) := by
  intro x0 x1 x2 h0
  unfold execMbxHcdbWrite
  repeat' (first
    | with_reducible assumption
    | with_reducible apply ite_kept
    | with_reducible apply keptOut_next
    | with_reducible apply onBar_kept
    | with_reducible apply ringCommand_kept
    )

theorem execGlbLockRead_kept : ∀ x0 x1 x2, Kept Q F x2 → (_ : Q.locks = none := by assumption) → KeptOut Q F (execGlbLockRead x0 x1 x2) := by
  intro x0 x1 x2 h0 _
  unfold execGlbLockRead
  repeat' (first
    | with_reducible assumption
    | (extract_lets +onlyGivenNames x; clear_value x)
    | with_reducible apply ite_kept
    | with_reducible apply keptOut_next
    | with_reducible apply lockRead_kept
    | with_reducible apply unsupported_kept
    )

theorem mailboxTimeout_kept : ∀ x0 x1, Kept Q F x0 → (_ : Q.mbx = none := by assumption) → Kept Q F (mailboxTimeout x0 x1) := by
  intro x0 x1 h0 _
  unfold mailboxTimeout
  repeat' (first
    | with_reducible assumption
    | (extract_lets +onlyGivenNames x; refine Kept.via Q F x ?_ (fun _ => ?_) <;> [subst x; clear_value x])
    | (extract_lets +onlyGivenNames x; clear_value x)
    | with_reducible apply ite_kept
    | (with_reducible apply forEach_kept; intro _ _ _; beta_reduce)
    | with_reducible apply State.setB_kept
    | with_reducible apply State.setF_kept
    | with_reducible apply pairVector_kept
    | with_reducible apply mbxEvent_kept
    | with_reducible apply setIn_kept
    | with_reducible apply deny_kept
    | with_reducible apply mk_kept
    | with_reducible apply mk_keptActive
    )

theorem execMailboxTimeout_kept : ∀ x0 x1, Kept Q F x1 → (_ : Q.mbx = none := by assumption) → KeptOut Q F (execMailboxTimeout x0 x1) := by
  intro x0 x1 h0 _
  unfold execMailboxTimeout
  repeat' (first
    | with_reducible assumption
    | (extract_lets +onlyGivenNames x; refine Kept.via Q F x ?_ (fun _ => ?_) <;> [subst x; clear_value x])
    | (extract_lets +onlyGivenNames x; clear_value x)
    | with_reducible apply ite_kept
    | with_reducible apply ite_keptOut
    | with_reducible apply keptOut_next
    | with_reducible apply mailboxTimeout_kept
    )

-- Machine/PpeIsa.lean

theorem pmWrite_kept : ∀ x0 x1 x2, Kept Q F x0 → Kept Q F (pmWrite x0 x1 x2) := by
  intro x0 x1 x2 h0
  unfold pmWrite
  repeat' (first
    | with_reducible assumption
    | (extract_lets +onlyGivenNames x; clear_value x)
    | with_reducible apply mk_kept
    )

theorem ppeSignal_kept : ∀ x0 x1, Kept Q F x0 → Kept Q F (ppeSignal x0 x1) := by
  intro x0 x1 h0
  unfold ppeSignal
  repeat' (first
    | with_reducible assumption
    | (extract_lets +onlyGivenNames x; refine Kept.via Q F x ?_ (fun _ => ?_) <;> [subst x; clear_value x])
    | with_reducible apply State.setB_kept
    | with_reducible apply fire_kept
    | with_reducible apply vectorIf_kept
    )

theorem ppeTrigger_kept : ∀ x0 x1 x2 x3, Kept Q F x0 → Kept Q F (ppeTrigger x0 x1 x2 x3) := by
  intro x0 x1 x2 x3 h0
  unfold ppeTrigger
  repeat' (first
    | with_reducible assumption
    | (extract_lets +onlyGivenNames x; refine Kept.via Q F x ?_ (fun _ => ?_) <;> [subst x; clear_value x])
    | (extract_lets +onlyGivenNames x; clear_value x)
    | with_reducible apply ite_kept
    | with_reducible apply State.useFree_kept
    | with_reducible apply mk_kept
    )

theorem ppeEmit_kept : ∀ x0 x1 x2 x3, Kept Q F x0 → Kept Q F (ppeEmit x0 x1 x2 x3) := by
  intro x0 x1 x2 x3 h0
  unfold ppeEmit
  repeat' (first
    | with_reducible assumption
    | (extract_lets +onlyGivenNames x; clear_value x)
    | with_reducible apply ite_kept
    | with_reducible apply State.setB_kept
    | with_reducible apply mk_kept
    )

theorem inTake_kept : ∀ x0 x1, Kept Q F x0 → Kept Q F (inTake x0 x1) := by
  intro x0 x1 h0
  unfold inTake
  repeat' (first
    | with_reducible assumption
    | with_reducible apply ite_kept
    | with_reducible apply setIn_kept
    )

theorem outRing_kept : ∀ x0 x1, Kept Q F x0 → Kept Q F (outRing x0 x1) := by
  intro x0 x1 h0
  unfold outRing
  repeat' (first
    | with_reducible assumption
    | with_reducible apply vectorIf_kept
    | with_reducible apply State.setB_kept
    | with_reducible apply setOut_kept
    )

theorem ppeWrite_kept : ∀ x0 x1 x2 x3 x4, Kept Q F x0 → (_ : Q.mbx = none := by assumption) → (_ : Q.locks = none := by assumption) → KeptOpt Q F (ppeWrite x0 x1 x2 x3 x4) := by
  intro x0 x1 x2 x3 x4 h0 _ _
  unfold ppeWrite
  repeat' (first
    | with_reducible assumption
    | (extract_lets +onlyGivenNames x; refine Kept.via Q F x ?_ (fun _ => ?_) <;> [subst x; clear_value x])
    | (extract_lets +onlyGivenNames x; clear_value x)
    | with_reducible apply ite_kept
    | with_reducible apply ite_keptOpt
    | exact keptOpt_none
    | with_reducible apply keptOpt_some
    | with_reducible apply pmWrite_kept
    | with_reducible apply State.mbxWrite_kept
    | with_reducible apply inTake_kept
    | with_reducible apply outRing_kept
    | with_reducible apply setLock_kept
    | split
    )

theorem ppeReadEffect_kept : ∀ x0 x1 x2 x3, Kept Q F x0 → (_ : Q.locks = none := by assumption) → Kept Q F (ppeReadEffect x0 x1 x2 x3) := by
  intro x0 x1 x2 x3 h0 _
  unfold ppeReadEffect
  repeat' (first
    | with_reducible assumption
    | (extract_lets +onlyGivenNames x; clear_value x)
    | with_reducible apply ite_kept
    | with_reducible apply setLock_kept
    | split
    )

theorem ppeHalt_kept : ∀ x0 x1 x2 x3 x4, Kept Q F x0 → Kept Q F (ppeHalt x0 x1 x2 x3 x4) := by
  intro x0 x1 x2 x3 x4 h0
  unfold ppeHalt
  repeat' (first
    | with_reducible assumption
    | (extract_lets +onlyGivenNames x; refine Kept.via Q F x ?_ (fun _ => ?_) <;> [subst x; clear_value x])
    | (extract_lets +onlyGivenNames x; clear_value x)
    | with_reducible apply ite_kept
    | with_reducible apply State.setPpe_kept
    | with_reducible apply State.setF_kept
    | with_reducible apply State.setB_kept
    | with_reducible apply State.wr_kept
    | with_reducible apply report_kept
    | with_reducible apply vectorIf_kept
    )

theorem takeLoad_kept : ∀ x0 x1 x2 x3 x4 x5, Kept Q F x0 → (_ : Q.locks = none := by assumption) → KeptOpt₁ Q F (takeLoad x0 x1 x2 x3 x4 x5) := by
  intro x0 x1 x2 x3 x4 x5 h0 _
  unfold takeLoad
  repeat' (first
    | with_reducible assumption
    | exact keptOpt₁_none
    | with_reducible apply keptOpt₁_some
    | dsimp -zeta only
    | with_reducible apply ppeReadEffect_kept
    | split
    )

-- Machine/Frames.lean

theorem sendFrame_kept : ∀ x0 x1 x2, Kept Q F x0 → Kept Q F (sendFrame x0 x1 x2) := by
  intro x0 x1 x2 h0
  unfold sendFrame
  repeat' (first
    | with_reducible assumption
    | with_reducible apply ite_kept
    | with_reducible apply State.put_kept
    )

theorem askHop_kept : ∀ x0 x1, Kept Q F x0 → Kept Q F (askHop x0 x1) := by
  intro x0 x1 h0
  unfold askHop
  repeat' (first
    | with_reducible assumption
    | (extract_lets +onlyGivenNames x; clear_value x)
    | with_reducible apply ite_kept
    | with_reducible apply sendFrame_kept
    )

theorem resolve_kept : ∀ x0 x1 x2 x3 x4, Kept Q F x0 → Kept Q F (resolve x0 x1 x2 x3 x4) := by
  intro x0 x1 x2 x3 x4 h0
  unfold resolve
  repeat' (first
    | with_reducible assumption
    | (extract_lets +onlyGivenNames x; clear_value x)
    | with_reducible apply ite_kept
    | with_reducible apply askHop_kept
    | with_reducible apply mk_kept
    )

theorem announceIf_kept : ∀ x0 x1 x2, Kept Q F x0 → Kept Q F (announceIf x0 x1 x2) := by
  intro x0 x1 x2 h0
  unfold announceIf
  repeat' (first
    | with_reducible assumption
    | (extract_lets +onlyGivenNames x; refine Kept.via Q F x ?_ (fun _ => ?_) <;> [subst x; clear_value x])
    | (extract_lets +onlyGivenNames x; clear_value x)
    | with_reducible apply ite_kept
    | (with_reducible apply forEach_kept; intro _ _ _; beta_reduce)
    | with_reducible apply sendFrame_kept
    )

theorem learnHop_kept : ∀ x0 x1 x2 x3 x4 x5, Kept Q F x0 → Kept Q F (learnHop x0 x1 x2 x3 x4 x5) := by
  intro x0 x1 x2 x3 x4 x5 h0
  unfold learnHop
  repeat' (first
    | with_reducible assumption
    | with_reducible apply ite_kept
    | with_reducible apply mk_kept
    )

-- Machine/Stream.lean

theorem chunksDue_kept : ∀ x0 x1, Kept Q F x0 → Kept Q F (chunksDue x0 x1) := by
  intro x0 x1 h0
  unfold chunksDue
  repeat' (first
    | with_reducible assumption
    | (extract_lets +onlyGivenNames x; refine Kept.via Q F x ?_ (fun _ => ?_) <;> [subst x; clear_value x])
    | (extract_lets +onlyGivenNames x; clear_value x)
    | with_reducible apply ite_kept
    | with_reducible apply State.setVolume_kept
    )

theorem ownChan_kept : ∀ x0 x1 x2, Kept Q F x0 → Kept Q F (ownChan x0 x1 x2) := by
  intro x0 x1 x2 h0
  unfold ownChan
  repeat' (first
    | with_reducible assumption
    | with_reducible apply ite_kept
    | with_reducible apply State.setB_kept
    )

theorem setTx_kept : ∀ x0 x1 x2, Kept Q F x0 → Kept Q F (setTx x0 x1 x2) := by
  intro x0 x1 x2 h0
  unfold setTx
  repeat' (first
    | with_reducible assumption
    | with_reducible apply mk_kept
    )

theorem carrierStart_kept : ∀ x0 x1, Kept Q F x0 → Kept Q F (carrierStart x0 x1) := by
  intro x0 x1 h0
  unfold carrierStart
  repeat' (first
    | with_reducible assumption
    | (extract_lets +onlyGivenNames x; refine Kept.via Q F x ?_ (fun _ => ?_) <;> [subst x; clear_value x])
    | (extract_lets +onlyGivenNames x; clear_value x)
    | with_reducible apply ite_kept
    | with_reducible apply ownChan_kept
    | with_reducible apply State.wr_kept
    | with_reducible apply State.useFree_kept
    | with_reducible apply State.setDma_kept
    | with_reducible apply setTx_kept
    | split
    )

theorem carrierStop_kept : ∀ x0 x1, Kept Q F x0 → Kept Q F (carrierStop x0 x1) := by
  intro x0 x1 h0
  unfold carrierStop
  repeat' (first
    | with_reducible assumption
    | (extract_lets +onlyGivenNames x; refine Kept.via Q F x ?_ (fun _ => ?_) <;> [subst x; clear_value x])
    | (extract_lets +onlyGivenNames x; clear_value x)
    | with_reducible apply ite_kept
    | with_reducible apply ownChan_kept
    | with_reducible apply State.setStream_kept
    | with_reducible apply State.setDma_kept
    | with_reducible apply State.setF_kept
    )

theorem repeated_kept {f : State → State} (hf : ∀ s, Kept Q F s → Kept Q F (f s)) :
    ∀ (n : Nat) (s : State), Kept Q F s → Kept Q F (repeated n f s)
  | 0, _, k => k
  | n + 1, s, k => repeated_kept hf n (f s) (hf s k)

theorem popRecord_kept : ∀ x0 x1, Kept Q F x0 → Kept Q F (popRecord x0 x1) := by
  intro x0 x1 h0
  unfold popRecord
  repeat' (first
    | with_reducible assumption
    | (extract_lets +onlyGivenNames x; clear_value x)
    | with_reducible apply State.setStream_kept
    )

theorem txPop_kept : ∀ x0 x1, Kept Q F x0 → Kept Q F (txPop x0 x1) := by
  intro x0 x1 h0
  unfold txPop
  repeat' (first
    | with_reducible assumption
    | (extract_lets +onlyGivenNames x; refine Kept.via Q F x ?_ (fun _ => ?_) <;> [subst x; clear_value x])
    | (extract_lets +onlyGivenNames x; clear_value x)
    | with_reducible apply ite_kept
    | with_reducible apply setTx_kept
    )

theorem datagramOut_kept : ∀ x0 x1 x2 x3, Kept Q F x0 → Kept Q F (datagramOut x0 x1 x2 x3) := by
  intro x0 x1 x2 x3 h0
  unfold datagramOut
  repeat' (first
    | with_reducible assumption
    | (extract_lets +onlyGivenNames x; refine Kept.via Q F x ?_ (fun _ => ?_) <;> [subst x; clear_value x])
    | (extract_lets +onlyGivenNames x; clear_value x)
    | with_reducible apply ite_kept
    | with_reducible apply txPop_kept
    | with_reducible apply State.put_kept
    | with_reducible apply State.useFree_kept
    | split
    )

theorem datagramMove_kept : ∀ x0 x1 x2 x3 x4, Kept Q F x0 → Kept Q F (datagramMove x0 x1 x2 x3 x4) := by
  intro x0 x1 x2 x3 x4 h0
  unfold datagramMove
  repeat' (first
    | with_reducible assumption
    | (extract_lets +onlyGivenNames x; refine Kept.via Q F x ?_ (fun _ => ?_) <;> [subst x; clear_value x])
    | (extract_lets +onlyGivenNames x; clear_value x)
    | with_reducible apply ite_kept
    | with_reducible apply setTx_kept
    | with_reducible apply popRecord_kept
    | with_reducible apply datagramOut_kept
    | with_reducible apply State.setB_kept
    | with_reducible apply State.setStream_kept
    )

theorem datagramAsk_kept : ∀ x0 x1, Kept Q F x0 → Kept Q F (datagramAsk x0 x1) := by
  intro x0 x1 h0
  unfold datagramAsk
  repeat' (first
    | with_reducible assumption
    | (extract_lets +onlyGivenNames x; clear_value x)
    | with_reducible apply ite_kept
    | with_reducible apply resolve_kept
    | split
    )

theorem datagramSend_kept : ∀ x0 x1, Kept Q F x0 → Kept Q F (datagramSend x0 x1) := by
  intro x0 x1 h0
  unfold datagramSend
  repeat' (first
    | with_reducible assumption
    | (extract_lets +onlyGivenNames x; refine Kept.via Q F x ?_ (fun _ => ?_) <;> [subst x; clear_value x])
    | (extract_lets +onlyGivenNames x; clear_value x)
    | with_reducible apply ite_kept
    | with_reducible apply datagramMove_kept
    | with_reducible apply datagramAsk_kept
    | split
    )

theorem dropStaged_kept : ∀ x0 x1 x2, Kept Q F x0 → Kept Q F (dropStaged x0 x1 x2) := by
  intro x0 x1 x2 h0
  unfold dropStaged
  repeat' (first
    | with_reducible assumption
    | (extract_lets +onlyGivenNames x; refine Kept.via Q F x ?_ (fun _ => ?_) <;> [subst x; clear_value x])
    | (extract_lets +onlyGivenNames x; clear_value x)
    | with_reducible apply ite_kept
    | with_reducible apply State.setStream_kept
    | with_reducible apply State.addR_kept
    | with_reducible apply State.setB_kept
    | with_reducible apply report_kept
    )

theorem volDrop_kept : ∀ x0 x1, Kept Q F x0 → Kept Q F (volDrop x0 x1) := by
  intro x0 x1 h0
  unfold volDrop
  repeat' (first
    | with_reducible assumption
    | (extract_lets +onlyGivenNames x; refine Kept.via Q F x ?_ (fun _ => ?_) <;> [subst x; clear_value x])
    | (extract_lets +onlyGivenNames x; clear_value x)
    | with_reducible apply ite_kept
    | (with_reducible apply forEach_kept; intro _ _ _; beta_reduce)
    | with_reducible apply State.setVolume_kept
    | with_reducible apply dropStaged_kept
    )

theorem chunkFill_kept : ∀ x0 x1, Kept Q F x0 → Kept Q F (chunkFill x0 x1) := by
  intro x0 x1 h0
  unfold chunkFill
  repeat' (first
    | with_reducible assumption
    | (extract_lets +onlyGivenNames x; refine Kept.via Q F x ?_ (fun _ => ?_) <;> [subst x; clear_value x])
    | (extract_lets +onlyGivenNames x; clear_value x)
    | with_reducible apply ite_kept
    | (with_reducible apply forEach_kept; intro _ _ _; beta_reduce)
    | with_reducible apply State.setVolume_kept
    | with_reducible apply State.setStream_kept
    )

theorem volumeKeep_kept : ∀ x0 x1, Kept Q F x0 → Kept Q F (volumeKeep x0 x1) := by
  intro x0 x1 h0
  unfold volumeKeep
  repeat' (first
    | with_reducible assumption
    | (extract_lets +onlyGivenNames x; refine Kept.via Q F x ?_ (fun _ => ?_) <;> [subst x; clear_value x])
    | (extract_lets +onlyGivenNames x; clear_value x)
    | with_reducible apply ite_kept
    | with_reducible apply volDrop_kept
    | with_reducible apply chunkFill_kept
    )

theorem carrierKeep_kept : ∀ x0 x1, Kept Q F x0 → Kept Q F (carrierKeep x0 x1) := by
  intro x0 x1 h0
  unfold carrierKeep
  repeat' (first
    | with_reducible assumption
    | (extract_lets +onlyGivenNames x; refine Kept.via Q F x ?_ (fun _ => ?_) <;> [subst x; clear_value x])
    | (extract_lets +onlyGivenNames x; clear_value x)
    | with_reducible apply ite_kept
    | with_reducible apply carrierStart_kept
    | with_reducible apply carrierStop_kept
    )

theorem datagramLaunch_kept : ∀ x0 x1, Kept Q F x0 → Kept Q F (datagramLaunch x0 x1) := by
  intro x0 x1 h0
  unfold datagramLaunch
  repeat' (first
    | with_reducible assumption
    | (extract_lets +onlyGivenNames x; refine Kept.via Q F x ?_ (fun _ => ?_) <;> [subst x; clear_value x])
    | (extract_lets +onlyGivenNames x; clear_value x)
    | with_reducible apply ite_kept
    | with_reducible apply datagramMove_kept
    | with_reducible apply datagramOut_kept
    | with_reducible apply datagramAsk_kept
    | split
    )

theorem execDatagramLaunch_kept : ∀ x0 x1 x2, Kept Q F x2 → KeptOut Q F (execDatagramLaunch x0 x1 x2) := by
  intro x0 x1 x2 h0
  unfold execDatagramLaunch
  repeat' (first
    | with_reducible assumption
    | (extract_lets +onlyGivenNames x; refine Kept.via Q F x ?_ (fun _ => ?_) <;> [subst x; clear_value x])
    | with_reducible apply ite_kept
    | with_reducible apply keptOut_next
    | with_reducible apply setClock_kept
    | with_reducible apply datagramLaunch_kept
    )

theorem execStreamStatus_kept : ∀ x0 x1, Kept Q F x1 → (_ : Q.mbx = none := by assumption) → KeptOut Q F (execStreamStatus x0 x1) := by
  intro x0 x1 h0 _
  unfold execStreamStatus
  repeat' (first
    | with_reducible assumption
    | with_reducible apply keptOut_next
    | with_reducible apply command_kept
    | with_reducible apply reply_kept
    )

theorem volFormat_kept : ∀ x0 x1, Kept Q F x0 → Kept Q F (volFormat x0 x1) := by
  intro x0 x1 h0
  unfold volFormat
  repeat' (first
    | with_reducible assumption
    | (extract_lets +onlyGivenNames x; refine Kept.via Q F x ?_ (fun _ => ?_) <;> [subst x; clear_value x])
    | (extract_lets +onlyGivenNames x; clear_value x)
    | (with_reducible apply forEach_kept; intro _ _ _; beta_reduce)
    | with_reducible apply State.setVolume_kept
    | with_reducible apply State.useFree_kept
    | with_reducible apply State.put_kept
    )

theorem nvPut_kept : ∀ x0 x1, Kept Q F x0 → Kept Q F (nvPut x0 x1) := by
  intro x0 x1 h0
  unfold nvPut
  repeat' (first
    | with_reducible assumption
    | (extract_lets +onlyGivenNames x; refine Kept.via Q F x ?_ (fun _ => ?_) <;> [subst x; clear_value x])
    | (extract_lets +onlyGivenNames x; clear_value x)
    | with_reducible apply ite_kept
    | with_reducible apply State.put_kept
    )

theorem nvIssue_kept : ∀ x0 x1, Kept Q F x0 → Kept Q F (nvIssue x0 x1) := by
  intro x0 x1 h0
  unfold nvIssue
  repeat' (first
    | with_reducible assumption
    | (extract_lets +onlyGivenNames x; refine Kept.via Q F x ?_ (fun _ => ?_) <;> [subst x; clear_value x])
    | (extract_lets +onlyGivenNames x; clear_value x)
    | with_reducible apply ite_kept
    | with_reducible apply nvPut_kept
    | with_reducible apply mk_kept
    | with_reducible apply mk_keptActive
    )

theorem volumeFull_kept : ∀ x0 x1, Kept Q F x0 → Kept Q F (volumeFull x0 x1) := by
  intro x0 x1 h0
  unfold volumeFull
  repeat' (first
    | with_reducible assumption
    | (extract_lets +onlyGivenNames x; clear_value x)
    | with_reducible apply ite_kept
    | with_reducible apply report_kept
    | with_reducible apply State.setB_kept
    | with_reducible apply volDrop_kept
    | with_reducible apply State.setVolume_kept
    )

theorem chunkWrite_kept : ∀ x0 x1 x2, Kept Q F x0 → Kept Q F (chunkWrite x0 x1 x2) := by
  intro x0 x1 x2 h0
  unfold chunkWrite
  repeat' (first
    | with_reducible assumption
    | (extract_lets +onlyGivenNames x; refine Kept.via Q F x ?_ (fun _ => ?_) <;> [subst x; clear_value x])
    | (extract_lets +onlyGivenNames x; clear_value x)
    | with_reducible apply ite_kept
    | (with_reducible apply forEach_kept; intro _ _ _; beta_reduce)
    | with_reducible apply State.setVolume_kept
    | with_reducible apply nvIssue_kept
    | with_reducible apply volumeFull_kept
    )

theorem chunkNext_kept : ∀ x0 x1, Kept Q F x0 → Kept Q F (chunkNext x0 x1) := by
  intro x0 x1 h0
  unfold chunkNext
  repeat' (first
    | with_reducible assumption
    | (extract_lets +onlyGivenNames x; refine Kept.via Q F x ?_ (fun _ => ?_) <;> [subst x; clear_value x])
    | (extract_lets +onlyGivenNames x; clear_value x)
    | with_reducible apply ite_kept
    | with_reducible apply chunkWrite_kept
    | split
    )

theorem volumeFail_kept : ∀ x0 x1, Kept Q F x0 → Kept Q F (volumeFail x0 x1) := by
  intro x0 x1 h0
  unfold volumeFail
  repeat' (first
    | with_reducible assumption
    | (extract_lets +onlyGivenNames x; refine Kept.via Q F x ?_ (fun _ => ?_) <;> [subst x; clear_value x])
    | (extract_lets +onlyGivenNames x; clear_value x)
    | with_reducible apply ite_kept
    | with_reducible apply report_kept
    | with_reducible apply State.setB_kept
    | with_reducible apply volDrop_kept
    | with_reducible apply State.setVolume_kept
    )

theorem setShadow_kept : ∀ x0 x1 x2, Kept Q F x0 → Kept Q F (setShadow x0 x1 x2) := by
  intro x0 x1 x2 h0
  unfold setShadow
  repeat' (first
    | with_reducible assumption
    | with_reducible apply mk_kept
    )

theorem hconsApply_kept : ∀ x0 x1 x2, Kept Q F x0 → Kept Q F (hconsApply x0 x1 x2) := by
  intro x0 x1 x2 h0
  unfold hconsApply
  repeat' (first
    | with_reducible assumption
    | (extract_lets +onlyGivenNames x; clear_value x)
    | with_reducible apply ite_kept
    | with_reducible apply State.setB_kept
    | with_reducible apply State.wr64_kept
    | with_reducible apply State.setStream_kept
    | split
    )

theorem nvAdmin_kept : ∀ x0 x1 x2, Kept Q F x0 → Kept Q F (nvAdmin x0 x1 x2) := by
  intro x0 x1 x2 h0
  unfold nvAdmin
  repeat' (first
    | with_reducible assumption
    | (extract_lets +onlyGivenNames x; refine Kept.via Q F x ?_ (fun _ => ?_) <;> [subst x; clear_value x])
    | (extract_lets +onlyGivenNames x; clear_value x)
    | with_reducible apply ite_kept
    | (with_reducible apply forEach_kept; intro _ _ _; beta_reduce)
    | with_reducible apply State.put_kept
    )

theorem execOcHconsWrite_kept : ∀ x0 x1 x2 x3, Kept Q F x3 → KeptOut Q F (execOcHconsWrite x0 x1 x2 x3) := by
  intro x0 x1 x2 x3 h0
  unfold execOcHconsWrite
  repeat' (first
    | with_reducible assumption
    | with_reducible apply ite_kept
    | with_reducible apply keptOut_next
    | with_reducible apply onBar_kept
    | with_reducible apply hconsApply_kept
    | with_reducible apply mk_kept
    )

theorem execChunkFlushTime_kept : ∀ x0 x1, Kept Q F x1 → KeptOut Q F (execChunkFlushTime x0 x1) := by
  intro x0 x1 h0
  unfold execChunkFlushTime
  repeat' (first
    | with_reducible assumption
    | (extract_lets +onlyGivenNames x; refine Kept.via Q F x ?_ (fun _ => ?_) <;> [subst x; clear_value x])
    | (extract_lets +onlyGivenNames x; clear_value x)
    | with_reducible apply ite_kept
    | with_reducible apply keptOut_next
    | with_reducible apply chunkNext_kept
    | with_reducible apply chunksDue_kept
    | with_reducible apply chunkFill_kept
    )

theorem execVolFormat_kept : ∀ x0 x1, Kept Q F x1 → (_ : Q.mbx = none := by assumption) → KeptOut Q F (execVolFormat x0 x1) := by
  intro x0 x1 h0 _
  unfold execVolFormat
  repeat' (first
    | with_reducible assumption
    | with_reducible apply keptOut_next
    | with_reducible apply command_kept
    | with_reducible apply reply_kept
    | with_reducible apply volFormat_kept
    )

theorem ringWrite_kept : ∀ x0 x1 x2, Kept Q F x0 → Kept Q F (ringWrite x0 x1 x2) := by
  intro x0 x1 x2 h0
  unfold ringWrite
  repeat' (first
    | with_reducible assumption
    | (extract_lets +onlyGivenNames x; refine Kept.via Q F x ?_ (fun _ => ?_) <;> [subst x; clear_value x])
    | (extract_lets +onlyGivenNames x; clear_value x)
    | with_reducible apply ite_kept
    | with_reducible apply State.put_kept
    | with_reducible apply State.setStream_kept
    | with_reducible apply vectorIf_kept
    | with_reducible apply popRecord_kept
    )

theorem execChunkWrite_kept : ∀ x0 x1, Kept Q F x1 → KeptOut Q F (execChunkWrite x0 x1) := by
  intro x0 x1 h0
  unfold execChunkWrite
  repeat' (first
    | with_reducible assumption
    | (extract_lets +onlyGivenNames x; refine Kept.via Q F x ?_ (fun _ => ?_) <;> [subst x; clear_value x])
    | with_reducible apply ite_kept
    | with_reducible apply keptOut_next
    | with_reducible apply chunkNext_kept
    | with_reducible apply chunkFill_kept
    )

theorem carrierHalt_kept : ∀ x0 x1, Kept Q F x0 → (_ : Q.mbx = none := by assumption) → (_ : Q.sram = none := by assumption) → Kept Q F (carrierHalt x0 x1) := by
  intro x0 x1 h0 _ _
  unfold carrierHalt
  repeat' (first
    | with_reducible assumption
    | (extract_lets +onlyGivenNames x; refine Kept.via Q F x ?_ (fun _ => ?_) <;> [subst x; clear_value x])
    | (extract_lets +onlyGivenNames x; clear_value x)
    | with_reducible apply State.setStream_kept
    | with_reducible apply State.setDma_kept
    | with_reducible apply dmaStop_kept
    | with_reducible apply State.useFree_kept
    )

theorem execVolStatus_kept : ∀ x0 x1, Kept Q F x1 → (_ : Q.mbx = none := by assumption) → KeptOut Q F (execVolStatus x0 x1) := by
  intro x0 x1 h0 _
  unfold execVolStatus
  repeat' (first
    | with_reducible assumption
    | (extract_lets +onlyGivenNames x; clear_value x)
    | with_reducible apply keptOut_next
    | with_reducible apply command_kept
    | with_reducible apply reply_kept
    )

theorem execHostRingWrite_kept : ∀ x0 x1, Kept Q F x1 → (_ : Q.mbx = none := by assumption) → (_ : Q.sram = none := by assumption) → KeptOut Q F (execHostRingWrite x0 x1) := by
  intro x0 x1 h0 _ _
  unfold execHostRingWrite
  repeat' (first
    | with_reducible assumption
    | with_reducible apply ite_kept
    | with_reducible apply keptOut_next
    | with_reducible apply carrierHalt_kept
    | with_reducible apply ringWrite_kept
    | split
    )

theorem execVolFormatDone_kept : ∀ x0 x1, Kept Q F x1 → KeptOut Q F (execVolFormatDone x0 x1) := by
  intro x0 x1 h0
  unfold execVolFormatDone
  repeat' (first
    | with_reducible assumption
    | (extract_lets +onlyGivenNames x; clear_value x)
    | with_reducible apply ite_kept
    | with_reducible apply keptOut_next
    | with_reducible apply State.setVolume_kept
    )

theorem execStreamSet_kept : ∀ x0 x1, Kept Q F x1 → (_ : Q.mbx = none := by assumption) → KeptOut Q F (execStreamSet x0 x1) := by
  intro x0 x1 h0 _
  unfold execStreamSet
  repeat' (first
    | with_reducible assumption
    | (extract_lets +onlyGivenNames x; clear_value x)
    | with_reducible apply keptOut_next
    | with_reducible apply command_kept
    | with_reducible apply reply_kept
    | with_reducible apply setShadow_kept
    )

-- Machine/Hbm.lean

theorem poisonPage_kept : ∀ x0 x1, Kept Q F x0 → Kept Q F (poisonPage x0 x1) := by
  intro x0 x1 h0
  unfold poisonPage
  repeat' (first
    | with_reducible assumption
    | (extract_lets +onlyGivenNames x; clear_value x)
    | with_reducible apply setMem_kept
    )

theorem layOut_kept : ∀ x0 x1 x2 x3 x4 x5 x6, Kept Q F x0 → Kept Q F (layOut x0 x1 x2 x3 x4 x5 x6) := by
  intro x0 x1 x2 x3 x4 x5 x6 h0
  unfold layOut
  repeat' (first
    | with_reducible assumption
    | (extract_lets +onlyGivenNames x; refine Kept.via Q F x ?_ (fun _ => ?_) <;> [subst x; clear_value x])
    | (extract_lets +onlyGivenNames x; clear_value x)
    | (with_reducible apply forEach_kept; intro _ _ _; beta_reduce)
    | with_reducible apply State.wr_kept
    | with_reducible apply setMem_kept
    | with_reducible apply poisonPage_kept
    )

theorem layFrom_kept : ∀ x0 x1, Kept Q F x0 → Kept Q F (layFrom x0 x1) := by
  intro x0 x1 h0
  unfold layFrom
  repeat' (first
    | with_reducible assumption
    | with_reducible apply layOut_kept
    )

theorem regionSet_kept : ∀ x0 x1, Kept Q F x0 → Kept Q F (regionSet x0 x1) := by
  intro x0 x1 h0
  unfold regionSet
  repeat' (first
    | with_reducible assumption
    | (extract_lets +onlyGivenNames x; refine Kept.via Q F x ?_ (fun _ => ?_) <;> [subst x; clear_value x])
    | (extract_lets +onlyGivenNames x; clear_value x)
    | with_reducible apply ite_kept
    | with_reducible apply layFrom_kept
    | with_reducible apply mk_kept
    )

theorem execMemRegionSet_kept : ∀ x0 x1, Kept Q F x1 → (_ : Q.mbx = none := by assumption) → KeptOut Q F (execMemRegionSet x0 x1) := by
  intro x0 x1 h0 _
  unfold execMemRegionSet
  repeat' (first
    | with_reducible assumption
    | (extract_lets +onlyGivenNames x; refine Kept.via Q F x ?_ (fun _ => ?_) <;> [subst x; clear_value x])
    | with_reducible apply keptOut_next
    | with_reducible apply regionSet_kept
    | with_reducible apply command_kept
    | with_reducible apply reply_kept
    )

theorem showSpares_kept : ∀ x0 x1, Kept Q F x0 → Kept Q F (showSpares x0 x1) := by
  intro x0 x1 h0
  unfold showSpares
  repeat' (first
    | with_reducible assumption
    | (extract_lets +onlyGivenNames x; refine Kept.via Q F x ?_ (fun _ => ?_) <;> [subst x; clear_value x])
    | (extract_lets +onlyGivenNames x; clear_value x)
    | with_reducible apply ite_kept
    | with_reducible apply State.setF_kept
    )

theorem pageMove_kept : ∀ x0 x1 x2, Kept Q F x0 → Kept Q F (pageMove x0 x1 x2) := by
  intro x0 x1 x2 h0
  unfold pageMove
  repeat' (first
    | with_reducible assumption
    | (extract_lets +onlyGivenNames x; refine Kept.via Q F x ?_ (fun _ => ?_) <;> [subst x; clear_value x])
    | (extract_lets +onlyGivenNames x; clear_value x)
    | with_reducible apply ite_kept
    | with_reducible apply setMem_kept
    | with_reducible apply poisonPage_kept
    | split
    )

theorem pageRetire_kept : ∀ x0 x1 x2, Kept Q F x0 → Kept Q F (pageRetire x0 x1 x2) := by
  intro x0 x1 x2 h0
  unfold pageRetire
  repeat' (first
    | with_reducible assumption
    | (extract_lets +onlyGivenNames x; refine Kept.via Q F x ?_ (fun _ => ?_) <;> [subst x; clear_value x])
    | (extract_lets +onlyGivenNames x; clear_value x)
    | with_reducible apply ite_kept
    | with_reducible apply report_kept
    | with_reducible apply State.setB_kept
    | with_reducible apply showSpares_kept
    | with_reducible apply pageMove_kept
    | with_reducible apply State.addR_kept
    | with_reducible apply State.wr_kept
    | split
    | with_reducible apply mk_keptActive
    | with_reducible apply mk_kept
    )

theorem rowRepair_kept : ∀ x0 x1 x2 x3, Kept Q F x0 → Kept Q F (rowRepair x0 x1 x2 x3) := by
  intro x0 x1 x2 x3 h0
  unfold rowRepair
  repeat' (first
    | with_reducible assumption
    | (extract_lets +onlyGivenNames x; refine Kept.via Q F x ?_ (fun _ => ?_) <;> [subst x; clear_value x])
    | (extract_lets +onlyGivenNames x; clear_value x)
    | with_reducible apply ite_kept
    | (with_reducible apply forEach_kept; intro _ _ _; beta_reduce)
    | with_reducible apply eccUe_kept
    | with_reducible apply setMem_kept
    | with_reducible apply pageRetire_kept
    | with_reducible apply State.setF_kept
    | with_reducible apply State.addR_kept
    | with_reducible apply State.wr_kept
    | with_reducible apply mk_kept
    | with_reducible apply mk_keptActive
    )

theorem chanFail_kept : ∀ x0 x1, Kept Q F x0 → Kept Q F (chanFail x0 x1) := by
  intro x0 x1 h0
  unfold chanFail
  repeat' (first
    | with_reducible assumption
    | with_reducible apply report_kept
    | with_reducible apply State.setB_kept
    | with_reducible apply State.setF_kept
    )

theorem bar2Read_kept : ∀ x0 x1 x2 x3, Kept Q F x0 → Kept Q F (bar2Read x0 x1 x2 x3) := by
  intro x0 x1 x2 x3 h0
  unfold bar2Read
  repeat' (first
    | with_reducible assumption
    | (extract_lets +onlyGivenNames x; refine Kept.via Q F x ?_ (fun _ => ?_) <;> [subst x; clear_value x])
    | with_reducible apply ite_kept
    | with_reducible apply State.setB_kept
    | with_reducible apply eccRead_kept
    | with_reducible apply State.put_kept
    )

theorem execMemRetiredRead_kept : ∀ x0 x1, Kept Q F x1 → (_ : Q.mbx = none := by assumption) → KeptOut Q F (execMemRetiredRead x0 x1) := by
  intro x0 x1 h0 _
  unfold execMemRetiredRead
  repeat' (first
    | with_reducible assumption
    | (extract_lets +onlyGivenNames x; clear_value x)
    | with_reducible apply keptOut_next
    | with_reducible apply command_kept
    | with_reducible apply reply_kept
    )

theorem sparesShow_kept : ∀ x0 x1, Kept Q F x0 → Kept Q F (sparesShow x0 x1) := by
  intro x0 x1 h0
  unfold sparesShow
  repeat' (first
    | with_reducible assumption
    | (extract_lets +onlyGivenNames x; refine Kept.via Q F x ?_ (fun _ => ?_) <;> [subst x; clear_value x])
    | (extract_lets +onlyGivenNames x; clear_value x)
    | with_reducible apply ite_kept
    | with_reducible apply State.setF_kept
    )

theorem bar2Write_kept : ∀ x0 x1 x2 x3, Kept Q F x0 → (_ : Q.hbm = none := by assumption) → Kept Q F (bar2Write x0 x1 x2 x3) := by
  intro x0 x1 x2 x3 h0 _
  unfold bar2Write
  repeat' (first
    | with_reducible assumption
    | (extract_lets +onlyGivenNames x; refine Kept.via Q F x ?_ (fun _ => ?_) <;> [subst x; clear_value x])
    | (extract_lets +onlyGivenNames x; refine Kept.viaFst Q F x ?_ (fun _ => ?_) <;> [subst x; clear_value x])
    | (extract_lets +onlyGivenNames x; clear_value x)
    | with_reducible apply ite_kept
    | (with_reducible apply forEach_kept; intro _ _ _; beta_reduce)
    | with_reducible apply State.hbmWrite_kept
    | with_reducible apply eccRead_kept
    | refine Kept.fst (eccRead_kept _ _ _ _ ?_) (by with_reducible assumption)
    )

theorem execPatrolScrub_kept : ∀ x0 x1, Kept Q F x1 → KeptOut Q F (execPatrolScrub x0 x1) := by
  intro x0 x1 h0
  unfold execPatrolScrub
  repeat' (first
    | with_reducible assumption
    | with_reducible apply ite_kept
    | with_reducible apply keptOut_next
    | (with_reducible apply forEach_kept; intro _ _ _; beta_reduce)
    | with_reducible apply eccCe_kept
    | with_reducible apply eccUe_kept
    )

theorem execStackOverTemperature_kept : ∀ x0 x1 x2, Kept Q F x2 → KeptOut Q F (execStackOverTemperature x0 x1 x2) := by
  intro x0 x1 x2 h0
  unfold execStackOverTemperature
  repeat' (first
    | with_reducible assumption
    | (extract_lets +onlyGivenNames x; refine Kept.via Q F x ?_ (fun _ => ?_) <;> [subst x; clear_value x])
    | with_reducible apply ite_kept
    | with_reducible apply keptOut_next
    | with_reducible apply State.setF_kept
    | with_reducible apply report_kept
    )

theorem execHbmRefresh_kept : ∀ x0 x1, Kept Q F x1 → KeptOut Q F (execHbmRefresh x0 x1) := by
  intro x0 x1 h0
  unfold execHbmRefresh
  repeat' (first
    | with_reducible assumption
    | with_reducible apply ite_kept
    | with_reducible apply keptOut_next
    | with_reducible apply State.put_kept
    )

theorem execRetrain_kept : ∀ x0 x1, Kept Q F x1 → KeptOut Q F (execRetrain x0 x1) := by
  intro x0 x1 h0
  unfold execRetrain
  repeat' (first
    | with_reducible assumption
    | with_reducible apply ite_kept
    | with_reducible apply keptOut_next
    | (with_reducible apply forEach_kept; intro _ _ _; beta_reduce)
    | with_reducible apply State.setF_kept
    )

theorem arbEnd_kept : ∀ x0 x1, Kept Q F x0 → Kept Q F (arbEnd x0 x1) := by
  intro x0 x1 h0
  unfold arbEnd
  repeat' (first
    | with_reducible assumption
    | (extract_lets +onlyGivenNames x; refine Kept.via Q F x ?_ (fun _ => ?_) <;> [subst x; clear_value x])
    | (extract_lets +onlyGivenNames x; clear_value x)
    | with_reducible apply ite_kept
    | (with_reducible apply forEach_kept; intro _ _ _; beta_reduce)
    | with_reducible apply State.setB_kept
    | with_reducible apply setMem_kept
    )

theorem execArbWindowEnd_kept : ∀ x0 x1, Kept Q F x1 → KeptOut Q F (execArbWindowEnd x0 x1) := by
  intro x0 x1 h0
  unfold execArbWindowEnd
  repeat' (first
    | with_reducible assumption
    | (extract_lets +onlyGivenNames x; refine Kept.via Q F x ?_ (fun _ => ?_) <;> [subst x; clear_value x])
    | (extract_lets +onlyGivenNames x; clear_value x)
    | with_reducible apply ite_kept
    | with_reducible apply ite_keptOut
    | with_reducible apply keptOut_next
    | (with_reducible apply forEach_kept; intro _ _ _; beta_reduce)
    | with_reducible apply arbEnd_kept
    )

theorem execBar2Access_kept : ∀ x0 x1 x2 x3 x4 x5, Kept Q F x5 → (_ : Q.hbm = none := by assumption) → KeptOut Q F (execBar2Access x0 x1 x2 x3 x4 x5) := by
  intro x0 x1 x2 x3 x4 x5 h0 _
  unfold execBar2Access
  repeat' (first
    | with_reducible assumption
    | (extract_lets +onlyGivenNames x; clear_value x)
    | with_reducible apply ite_kept
    | with_reducible apply keptOut_next
    | with_reducible apply unsupported_kept
    | with_reducible apply State.put_kept
    | with_reducible apply bar2Write_kept
    | with_reducible apply bar2Read_kept
    )

theorem execRetrainEnd_kept : ∀ x0 x1 x2, Kept Q F x2 → KeptOut Q F (execRetrainEnd x0 x1 x2) := by
  intro x0 x1 x2 h0
  unfold execRetrainEnd
  repeat' (first
    | with_reducible assumption
    | (extract_lets +onlyGivenNames x; refine Kept.via Q F x ?_ (fun _ => ?_) <;> [subst x; clear_value x])
    | (extract_lets +onlyGivenNames x; clear_value x)
    | with_reducible apply ite_kept
    | with_reducible apply keptOut_next
    | with_reducible apply setMem_kept
    | with_reducible apply State.setF_kept
    | with_reducible apply chanFail_kept
    | with_reducible apply State.setB_kept
    )

theorem execMemStatus_kept : ∀ x0 x1, Kept Q F x1 → (_ : Q.mbx = none := by assumption) → KeptOut Q F (execMemStatus x0 x1) := by
  intro x0 x1 h0 _
  unfold execMemStatus
  repeat' (first
    | with_reducible assumption
    | with_reducible apply keptOut_next
    | with_reducible apply command_kept
    | with_reducible apply reply_kept
    )

theorem execParityError_kept : ∀ x0 x1 x2 x3, Kept Q F x3 → KeptOut Q F (execParityError x0 x1 x2 x3) := by
  intro x0 x1 x2 x3 h0
  unfold execParityError
  repeat' (first
    | with_reducible assumption
    | (extract_lets +onlyGivenNames x; refine Kept.via Q F x ?_ (fun _ => ?_) <;> [subst x; clear_value x])
    | with_reducible apply ite_kept
    | with_reducible apply keptOut_next
    | with_reducible apply State.setB_kept
    | with_reducible apply State.addR_kept
    | with_reducible apply report_kept
    | with_reducible apply chanFail_kept
    | with_reducible apply State.setF_kept
    )

theorem execRowRepair_kept : ∀ x0 x1 x2 x3, Kept Q F x3 → KeptOut Q F (execRowRepair x0 x1 x2 x3) := by
  intro x0 x1 x2 x3 h0
  unfold execRowRepair
  repeat' (first
    | with_reducible assumption
    | (extract_lets +onlyGivenNames x; refine Kept.via Q F x ?_ (fun _ => ?_) <;> [subst x; clear_value x])
    | (extract_lets +onlyGivenNames x; clear_value x)
    | with_reducible apply ite_kept
    | with_reducible apply keptOut_next
    | with_reducible apply rowRepair_kept
    )

-- Machine/Ppe.lean

theorem skipTasks_kept : ∀ x0 x1 x2, Kept Q F x0 → Kept Q F (skipTasks x0 x1 x2) := by
  intro x0 x1 x2 h0
  unfold skipTasks
  repeat' (first
    | with_reducible assumption
    | (extract_lets +onlyGivenNames x; refine Kept.via Q F x ?_ (fun _ => ?_) <;> [subst x; clear_value x])
    | with_reducible apply ite_kept
    | (with_reducible apply forEach_kept; intro _ _ _; beta_reduce)
    | with_reducible apply State.setB_kept
    | with_reducible apply State.setF_kept
    | with_reducible apply vectorIf_kept
    | with_reducible apply report_kept
    )

theorem engineBoundary_kept : ∀ x0 x1, Kept Q F x0 → Kept Q F (engineBoundary x0 x1) := by
  intro x0 x1 h0
  unfold engineBoundary
  repeat' (first
    | with_reducible assumption
    | (extract_lets +onlyGivenNames x; refine Kept.via Q F x ?_ (fun _ => ?_) <;> [subst x; clear_value x])
    | (extract_lets +onlyGivenNames x; clear_value x)
    | with_reducible apply skipTasks_kept
    | with_reducible apply State.setPpe_kept
    | with_reducible apply State.setF_kept
    | with_reducible apply ppeShow_kept
    )

theorem ppeBoundary_kept : ∀ x0, Kept Q F x0 → Kept Q F (ppeBoundary x0) := by
  intro x0 h0
  unfold ppeBoundary
  repeat' (first
    | with_reducible assumption
    | (extract_lets +onlyGivenNames x; refine Kept.via Q F x ?_ (fun _ => ?_) <;> [subst x; clear_value x])
    | with_reducible apply ite_kept
    | (with_reducible apply forEach_kept; intro _ _ _; beta_reduce)
    | with_reducible apply engineBoundary_kept
    | with_reducible apply State.setF_kept
    | with_reducible apply setIdleBeats_kept
    )

theorem taskStart_kept : ∀ x0 x1 x2 x3, Kept Q F x0 → Kept Q F (taskStart x0 x1 x2 x3) := by
  intro x0 x1 x2 x3 h0
  unfold taskStart
  repeat' (first
    | with_reducible assumption
    | (extract_lets +onlyGivenNames x; clear_value x)
    | with_reducible apply ppeShow_kept
    | with_reducible apply State.setPpe_kept
    )

theorem taskDispatch_kept : ∀ x0 x1, Kept Q F x0 → Kept Q F (taskDispatch x0 x1) := by
  intro x0 x1 h0
  unfold taskDispatch
  repeat' (first
    | with_reducible assumption
    | (extract_lets +onlyGivenNames x; clear_value x)
    | with_reducible apply ite_kept
    | with_reducible apply skipTasks_kept
    | with_reducible apply State.setPpe_kept
    | with_reducible apply taskStart_kept
    | split
    )

theorem startEngine_kept : ∀ x0 x1, Kept Q F x0 → Kept Q F (startEngine x0 x1) := by
  intro x0 x1 h0
  unfold startEngine
  repeat' (first
    | with_reducible assumption
    | (extract_lets +onlyGivenNames x; clear_value x)
    | with_reducible apply ite_kept
    | with_reducible apply ppeShow_kept
    | with_reducible apply State.setF_kept
    | with_reducible apply State.setPpe_kept
    )

theorem taskEnd_kept : ∀ x0 x1, Kept Q F x0 → Kept Q F (taskEnd x0 x1) := by
  intro s e h
  unfold taskEnd
  extract_lets p
  split <;> exact State.setPpe_kept _ _ _ h

theorem ctlEffect_kept : ∀ x0 x1 x2 x3 x4 x5, Kept Q F x0 → Kept Q F (ctlEffect x0 x1 x2 x3 x4 x5) := by
  intro x0 x1 x2 x3 x4 x5 h0
  unfold ctlEffect
  repeat' (first
    | with_reducible assumption
    | (extract_lets +onlyGivenNames x; clear_value x)
    | with_reducible apply taskEnd_kept
    | with_reducible apply ppeSignal_kept
    | with_reducible apply ppeTrigger_kept
    | with_reducible apply ppeEmit_kept
    | split
    )

theorem bundleDo_kept : ∀ x0 x1 x2 x3 x4 x5 x6 x7 x8 x9 x10, Kept Q F x0 → Kept Q F (bundleDo x0 x1 x2 x3 x4 x5 x6 x7 x8 x9 x10) := by
  intro x0 x1 x2 x3 x4 x5 x6 x7 x8 x9 x10 h0
  unfold bundleDo
  repeat' (first
    | with_reducible assumption
    | (extract_lets +onlyGivenNames x; refine Kept.via Q F x ?_ (fun _ => ?_) <;> [subst x; clear_value x])
    | (extract_lets +onlyGivenNames x; clear_value x)
    | with_reducible apply ite_kept
    | with_reducible apply State.useFree_kept
    | with_reducible apply State.setB_kept
    | with_reducible apply State.setPpe_kept
    | with_reducible apply ppeShow_kept
    | with_reducible apply ctlEffect_kept
    )

theorem setGate_kept : ∀ x0 x1 x2, Kept Q F x0 → Kept Q F (setGate x0 x1 x2) := by
  intro x0 x1 x2 h0
  unfold setGate
  repeat' (first
    | with_reducible assumption
    | (extract_lets +onlyGivenNames x; refine Kept.via Q F x ?_ (fun _ => ?_) <;> [subst x; clear_value x])
    | with_reducible apply ite_kept
    | with_reducible apply State.setB_kept
    | with_reducible apply wakeCluster_kept
    )

theorem execPpeStatus_kept : ∀ x0 x1, Kept Q F x1 → (_ : Q.mbx = none := by assumption) → KeptOut Q F (execPpeStatus x0 x1) := by
  intro x0 x1 h0 _
  unfold execPpeStatus
  repeat' (first
    | with_reducible assumption
    | (extract_lets +onlyGivenNames x; clear_value x)
    | with_reducible apply keptOut_next
    | with_reducible apply command_kept
    | with_reducible apply reply_kept
    )

theorem ppeClearAll_kept : ∀ x0, Kept Q F x0 → Kept Q F (ppeClearAll x0) := by
  intro x0 h0
  unfold ppeClearAll
  repeat' (first
    | with_reducible assumption
    | with_reducible apply mk_kept
    )

theorem execMbCtlIntake_kept : ∀ x0 x1, Kept Q F x1 → KeptOut Q F (execMbCtlIntake x0 x1) := by
  intro x0 x1 h0
  unfold execMbCtlIntake
  repeat' (first
    | with_reducible assumption
    | with_reducible apply ite_kept
    | with_reducible apply keptOut_next
    | with_reducible apply inTake_kept
    )

theorem engineReset_kept : ∀ x0 x1 x2, Kept Q F x0 → Kept Q F (engineReset x0 x1 x2) := by
  intro x0 x1 x2 h0
  unfold engineReset
  repeat' (first
    | with_reducible assumption
    | (extract_lets +onlyGivenNames x; refine Kept.via Q F x ?_ (fun _ => ?_) <;> [subst x; clear_value x])
    | (extract_lets +onlyGivenNames x; clear_value x)
    | with_reducible apply State.setPpe_kept
    | with_reducible apply State.wr_kept
    | with_reducible apply State.setF_kept
    | with_reducible apply ppeShow_kept
    )

theorem ppeResetAll_kept : ∀ x0 x1, Kept Q F x0 → Kept Q F (ppeResetAll x0 x1) := by
  intro x0 x1 h0
  unfold ppeResetAll
  repeat' (first
    | with_reducible assumption
    | (with_reducible apply forEach_kept; intro _ _ _; beta_reduce)
    | with_reducible apply engineReset_kept
    | with_reducible apply mk_kept
    )

theorem emptyEngine_kept : ∀ x0 x1, Kept Q F x0 → Kept Q F (emptyEngine x0 x1) := by
  intro x0 x1 h0
  unfold emptyEngine
  repeat' (first
    | with_reducible assumption
    | (extract_lets +onlyGivenNames x; refine Kept.via Q F x ?_ (fun _ => ?_) <;> [subst x; clear_value x])
    | (extract_lets +onlyGivenNames x; clear_value x)
    | with_reducible apply ite_kept
    | with_reducible apply ppeShow_kept
    | with_reducible apply State.setF_kept
    | with_reducible apply State.setPpe_kept
    )

theorem clusterUp_kept : ∀ x0 x1, Kept Q F x0 → Kept Q F (clusterUp x0 x1) := by
  intro x0 x1 h0
  unfold clusterUp
  repeat' (first
    | with_reducible assumption
    | (extract_lets +onlyGivenNames x; refine Kept.via Q F x ?_ (fun _ => ?_) <;> [subst x; clear_value x])
    | with_reducible apply ite_kept
    | (with_reducible apply forEach_kept; intro _ _ _; beta_reduce)
    | with_reducible apply State.setF_kept
    | with_reducible apply engineIrq_kept
    | with_reducible apply mk_kept
    )

theorem clusterNeeded_kept : ∀ x0 x1, Kept Q F x0 → Kept Q F (clusterNeeded x0 x1) := by
  intro x0 x1 h0
  unfold clusterNeeded
  repeat' (first
    | with_reducible assumption
    | (extract_lets +onlyGivenNames x; refine Kept.via Q F x ?_ (fun _ => ?_) <;> [subst x; clear_value x])
    | with_reducible apply ite_kept
    | with_reducible apply State.addR_kept
    | with_reducible apply clusterUp_kept
    )

theorem loadEngine_kept : ∀ x0 x1 x2, Kept Q F x0 → Kept Q F (loadEngine x0 x1 x2) := by
  intro x0 x1 x2 h0
  unfold loadEngine
  repeat' (first
    | with_reducible assumption
    | (extract_lets +onlyGivenNames x; refine Kept.via Q F x ?_ (fun _ => ?_) <;> [subst x; clear_value x])
    | (extract_lets +onlyGivenNames x; clear_value x)
    | with_reducible apply clusterNeeded_kept
    | with_reducible apply State.setPpe_kept
    | with_reducible apply State.wr_kept
    | with_reducible apply State.setF_kept
    | with_reducible apply engineStopped_kept
    | with_reducible apply mk_kept
    )

theorem loadCopy_kept : ∀ x0 x1 x2, Kept Q F x0 → Kept Q F (loadCopy x0 x1 x2) := by
  intro x0 x1 x2 h0
  unfold loadCopy
  repeat' (first
    | with_reducible assumption
    | (extract_lets +onlyGivenNames x; refine Kept.via Q F x ?_ (fun _ => ?_) <;> [subst x; clear_value x])
    | (extract_lets +onlyGivenNames x; clear_value x)
    | with_reducible apply ite_kept
    | with_reducible apply emptyEngine_kept
    | with_reducible apply loadEngine_kept
    )

theorem execPpeLoad_kept : ∀ x0 x1, Kept Q F x1 → (_ : Q.mbx = none := by assumption) → KeptOut Q F (execPpeLoad x0 x1) := by
  intro x0 x1 h0 _
  unfold execPpeLoad
  repeat' (first
    | with_reducible assumption
    | (extract_lets +onlyGivenNames x; refine Kept.via Q F x ?_ (fun _ => ?_) <;> [subst x; clear_value x])
    | (extract_lets +onlyGivenNames x; clear_value x)
    | with_reducible apply ite_kept
    | with_reducible apply ite_keptOut
    | with_reducible apply keptOut_next
    | (with_reducible apply forEach_kept; intro _ _ _; beta_reduce)
    | with_reducible apply command_kept
    | with_reducible apply deny_kept
    | with_reducible apply report_kept
    | with_reducible apply loadCopy_kept
    | with_reducible apply reply_kept
    | split
    )

theorem stopEngine_kept : ∀ x0 x1, Kept Q F x0 → Kept Q F (stopEngine x0 x1) := by
  intro x0 x1 h0
  unfold stopEngine
  repeat' (first
    | with_reducible assumption
    | (extract_lets +onlyGivenNames x; refine Kept.via Q F x ?_ (fun _ => ?_) <;> [subst x; clear_value x])
    | with_reducible apply ite_kept
    | with_reducible apply State.wr_kept
    | with_reducible apply engineStopped_kept
    )

theorem overrunMark_kept : ∀ x0 x1 x2, Kept Q F x0 → Kept Q F (overrunMark x0 x1 x2) := by
  intro x0 x1 x2 h0
  unfold overrunMark
  repeat' (first
    | with_reducible assumption
    | (extract_lets +onlyGivenNames x; refine Kept.via Q F x ?_ (fun _ => ?_) <;> [subst x; clear_value x])
    | (extract_lets +onlyGivenNames x; clear_value x)
    | with_reducible apply ite_kept
    | with_reducible apply State.wr64_kept
    | with_reducible apply State.setB_kept
    | with_reducible apply State.addSat_kept
    | with_reducible apply mk_kept
    )

theorem holdOff_kept : ∀ x0 x1 x2, Kept Q F x0 → Kept Q F (holdOff x0 x1 x2) := by
  intro x0 x1 x2 h0
  unfold holdOff
  repeat' (first
    | with_reducible assumption
    | (extract_lets +onlyGivenNames x; refine Kept.via Q F x ?_ (fun _ => ?_) <;> [subst x; clear_value x])
    | with_reducible apply ite_kept
    | with_reducible apply State.setF_kept
    | with_reducible apply report_kept
    | with_reducible apply State.setB_kept
    )

theorem execClusterWake_kept : ∀ x0 x1, Kept Q F x1 → KeptOut Q F (execClusterWake x0 x1) := by
  intro x0 x1 h0
  unfold execClusterWake
  repeat' (first
    | with_reducible assumption
    | with_reducible apply ite_kept
    | with_reducible apply keptOut_next
    | with_reducible apply State.addR_kept
    | with_reducible apply State.setF_kept
    )

theorem setTask_kept : ∀ x0 x1 x2 x3 x4, Kept Q F x0 → Kept Q F (setTask x0 x1 x2 x3 x4) := by
  intro x0 x1 x2 x3 x4 h0
  unfold setTask
  repeat' (first
    | with_reducible assumption
    | (extract_lets +onlyGivenNames x; clear_value x)
    | with_reducible apply State.setPpe_kept
    )

theorem execPpeTaskSet_kept : ∀ x0 x1, Kept Q F x1 → (_ : Q.mbx = none := by assumption) → KeptOut Q F (execPpeTaskSet x0 x1) := by
  intro x0 x1 h0 _
  unfold execPpeTaskSet
  repeat' (first
    | with_reducible assumption
    | (extract_lets +onlyGivenNames x; clear_value x)
    | with_reducible apply keptOut_next
    | with_reducible apply command_kept
    | with_reducible apply reply_kept
    | with_reducible apply setTask_kept
    )

theorem execPpeMemWrite_kept : ∀ x0 x1, Kept Q F x1 → (_ : Q.mbx = none := by assumption) → KeptOut Q F (execPpeMemWrite x0 x1) := by
  intro x0 x1 h0 _
  unfold execPpeMemWrite
  repeat' (first
    | with_reducible assumption
    | (extract_lets +onlyGivenNames x; clear_value x)
    | with_reducible apply keptOut_next
    | with_reducible apply command_kept
    | with_reducible apply reply_kept
    | with_reducible apply pmWrite_kept
    | with_reducible apply clusterNeeded_kept
    )

theorem visibleNow_kept : ∀ x0 x1, Kept Q F x0 → Kept Q F (visibleNow x0 x1).1 := by
  intro x0 x1 h0
  unfold visibleNow
  repeat' (first
    | with_reducible assumption
    | (extract_lets +onlyGivenNames x; clear_value x)
    | with_reducible apply ite_kept
    | with_reducible apply State.useFree_kept
    )

theorem bundleMemory_kept : ∀ x0 x1 x2 x3 x4 x5 x6, Kept Q F x0 → (_ : Q.mbx = none := by assumption) → (_ : Q.locks = none := by assumption) → KeptOpt₁ Q F (bundleMemory x0 x1 x2 x3 x4 x5 x6) := by
  intro x0 x1 x2 x3 x4 x5 x6 h0 _ _
  unfold bundleMemory
  repeat' (first
    | with_reducible assumption
    | exact keptOpt₁_none
    | with_reducible apply keptOpt₁_some
    | dsimp -zeta only
    | refine KeptOpt₁.get (takeLoad_kept _ _ _ _ _ _ ?_ ?_) (by with_reducible assumption)
    | refine KeptOpt.get (ppeWrite_kept _ _ _ _ _ ?_ ?_ ?_) (by with_reducible assumption)
    | split
    )

theorem bundleIssue_kept : ∀ x0 x1 x2 x3, Kept Q F x0 → (_ : Q.mbx = none := by assumption) → (_ : Q.locks = none := by assumption) → Kept Q F (bundleIssue x0 x1 x2 x3) := by
  intro x0 x1 x2 x3 h0 _ _
  unfold bundleIssue
  repeat' (first
    | with_reducible assumption
    | (extract_lets +onlyGivenNames x; refine Kept.via Q F x ?_ (fun _ => ?_) <;> [subst x; clear_value x])
    | (extract_lets +onlyGivenNames x; clear_value x)
    | with_reducible apply ite_kept
    | refine Kept.fst (visibleNow_kept _ _ ?_) (by with_reducible assumption)
    | with_reducible apply State.setF_kept
    | with_reducible apply State.setPpe_kept
    | with_reducible apply ppeHalt_kept
    | refine KeptOpt₁.get (bundleMemory_kept _ _ _ _ _ _ _ ?_ ?_ ?_) (by with_reducible assumption)
    | with_reducible apply bundleDo_kept
    | split
    )

theorem execPpeBundleIssue_kept : ∀ x0 x1 x2, Kept Q F x2 → (_ : Q.mbx = none := by assumption) → (_ : Q.locks = none := by assumption) → KeptOut Q F (execPpeBundleIssue x0 x1 x2) := by
  intro x0 x1 x2 h0 _ _
  unfold execPpeBundleIssue
  repeat' (first
    | with_reducible assumption
    | with_reducible apply keptOut_next
    | with_reducible apply bundleIssue_kept
    | split
    )

theorem execMbCtlOutring_kept : ∀ x0 x1, Kept Q F x1 → KeptOut Q F (execMbCtlOutring x0 x1) := by
  intro x0 x1 h0
  unfold execMbCtlOutring
  repeat' (first
    | with_reducible assumption
    | with_reducible apply ite_kept
    | with_reducible apply keptOut_next
    | with_reducible apply ppeHalt_kept
    | with_reducible apply outRing_kept
    )

theorem taskStop_kept : ∀ x0 x1 x2, Kept Q F x0 → Kept Q F (taskStop x0 x1 x2) := by
  intro s e t h
  unfold taskStop
  extract_lets p c spent p1 p2 b s1 s2 s3
  exact ppeShow_kept _ _ (report_kept _ _ _ (overrunMark_kept _ _ _ (vectorIf_kept _ _ _
    (State.setB_kept _ _ _ _ (State.setF_kept _ _ _ _ _ (State.setPpe_kept _ _ _ h))))))

theorem execTaskDispatch_kept : ∀ x0 x1, Kept Q F x1 → KeptOut Q F (execTaskDispatch x0 x1) := by
  intro x0 x1 h0
  unfold execTaskDispatch
  repeat' (first
    | with_reducible assumption
    | with_reducible apply ite_kept
    | with_reducible apply keptOut_next
    | with_reducible apply taskDispatch_kept
    )

theorem takeInterrupt_kept : ∀ x0 x1 x2 x3 x4, Kept Q F x0 → Kept Q F (takeInterrupt x0 x1 x2 x3 x4) := by
  intro x0 x1 x2 x3 x4 h0
  unfold takeInterrupt
  repeat' (first
    | with_reducible assumption
    | (extract_lets +onlyGivenNames x; refine Kept.via Q F x ?_ (fun _ => ?_) <;> [subst x; clear_value x])
    | (extract_lets +onlyGivenNames x; clear_value x)
    | with_reducible apply State.setPpe_kept
    | with_reducible apply ppeShow_kept
    | with_reducible apply holdOff_kept
    )

theorem execPpeStop_kept : ∀ x0 x1, Kept Q F x1 → (_ : Q.mbx = none := by assumption) → KeptOut Q F (execPpeStop x0 x1) := by
  intro x0 x1 h0 _
  unfold execPpeStop
  repeat' (first
    | with_reducible assumption
    | (extract_lets +onlyGivenNames x; clear_value x)
    | with_reducible apply keptOut_next
    | (with_reducible apply forEach_kept; intro _ _ _; beta_reduce)
    | with_reducible apply command_kept
    | with_reducible apply reply_kept
    | with_reducible apply stopEngine_kept
    )

theorem execTaskBudgetExpiry_kept : ∀ x0 x1, Kept Q F x1 → KeptOut Q F (execTaskBudgetExpiry x0 x1) := by
  intro x0 x1 h0
  unfold execTaskBudgetExpiry
  repeat' (first
    | with_reducible assumption
    | (extract_lets +onlyGivenNames x; clear_value x)
    | with_reducible apply ite_kept
    | with_reducible apply keptOut_next
    | with_reducible apply taskStop_kept
    | split
    )

theorem execClusterWakeEnd_kept : ∀ x0 x1, Kept Q F x1 → KeptOut Q F (execClusterWakeEnd x0 x1) := by
  intro x0 x1 h0
  unfold execClusterWakeEnd
  repeat' (first
    | with_reducible assumption
    | with_reducible apply ite_kept
    | with_reducible apply keptOut_next
    | with_reducible apply clusterUp_kept
    )

theorem execPpeCluster_kept : ∀ x0 x1, Kept Q F x1 → (_ : Q.mbx = none := by assumption) → KeptOut Q F (execPpeCluster x0 x1) := by
  intro x0 x1 h0 _
  unfold execPpeCluster
  repeat' (first
    | with_reducible assumption
    | (extract_lets +onlyGivenNames x; refine Kept.via Q F x ?_ (fun _ => ?_) <;> [subst x; clear_value x])
    | (extract_lets +onlyGivenNames x; clear_value x)
    | with_reducible apply keptOut_next
    | with_reducible apply setGate_kept
    | with_reducible apply command_kept
    | with_reducible apply reply_kept
    )

theorem execPpeMemRead_kept : ∀ x0 x1, Kept Q F x1 → (_ : Q.mbx = none := by assumption) → KeptOut Q F (execPpeMemRead x0 x1) := by
  intro x0 x1 h0 _
  unfold execPpeMemRead
  repeat' (first
    | with_reducible assumption
    | (extract_lets +onlyGivenNames x; clear_value x)
    | with_reducible apply keptOut_next
    | with_reducible apply command_kept
    | with_reducible apply reply_kept
    )

theorem execClusterGate_kept : ∀ x0 x1, Kept Q F x1 → KeptOut Q F (execClusterGate x0 x1) := by
  intro x0 x1 h0
  unfold execClusterGate
  repeat' (first
    | with_reducible assumption
    | with_reducible apply ite_kept
    | with_reducible apply keptOut_next
    | with_reducible apply State.setF_kept
    | with_reducible apply setIdleBeats_kept
    )

theorem execPpeStart_kept : ∀ x0 x1, Kept Q F x1 → (_ : Q.mbx = none := by assumption) → KeptOut Q F (execPpeStart x0 x1) := by
  intro x0 x1 h0 _
  unfold execPpeStart
  repeat' (first
    | with_reducible assumption
    | (extract_lets +onlyGivenNames x; clear_value x)
    | with_reducible apply keptOut_next
    | (with_reducible apply forEach_kept; intro _ _ _; beta_reduce)
    | with_reducible apply command_kept
    | with_reducible apply reply_kept
    | with_reducible apply startEngine_kept
    )

theorem execPpeInterrupt_kept : ∀ x0 x1 x2 x3, Kept Q F x3 → KeptOut Q F (execPpeInterrupt x0 x1 x2 x3) := by
  intro x0 x1 x2 x3 h0
  unfold execPpeInterrupt
  repeat' (first
    | with_reducible assumption
    | with_reducible apply ite_kept
    | with_reducible apply keptOut_next
    | with_reducible apply takeInterrupt_kept
    | split
    )

-- Machine/Budget.lean

theorem ghost_kept : ∀ x0 x1, Kept Q F x0 → Kept Q F (ghost x0 x1) := by
  intro x0 x1 h0
  unfold ghost
  repeat' (first
    | with_reducible assumption
    | with_reducible apply State.setF_kept
    | with_reducible apply mk_kept
    )

theorem execBudgetCheck_kept : ∀ x0 x1, Kept Q F x1 → (_ : Q.mbx = none := by assumption) → KeptOut Q F (execBudgetCheck x0 x1) := by
  intro x0 x1 h0 _
  unfold execBudgetCheck
  repeat' (first
    | with_reducible assumption
    | (extract_lets +onlyGivenNames x; clear_value x)
    | with_reducible apply keptOut_next
    | with_reducible apply command_kept
    | with_reducible apply answer_kept
    )

-- Machine/Ptp.lean

theorem setPtp_kept : ∀ x0 x1, Kept Q F x0 → Kept Q F (setPtp x0 x1) := by
  intro x0 x1 h0
  unfold setPtp
  repeat' (first
    | with_reducible assumption
    | with_reducible apply mk_kept
    )

theorem ptpDecide_kept : ∀ x0, Kept Q F x0 → Kept Q F (ptpDecide x0) := by
  intro x0 h0
  unfold ptpDecide
  repeat' (first
    | with_reducible assumption
    | (extract_lets +onlyGivenNames x; clear_value x)
    | with_reducible apply ite_kept
    | with_reducible apply setPtp_kept
    | split
    )

theorem ptpHeard_kept : ∀ x0 x1 x2, Kept Q F x0 → Kept Q F (ptpHeard x0 x1 x2) := by
  intro x0 x1 x2 h0
  unfold ptpHeard
  repeat' (first
    | with_reducible assumption
    | (extract_lets +onlyGivenNames x; refine Kept.via Q F x ?_ (fun _ => ?_) <;> [subst x; clear_value x])
    | (extract_lets +onlyGivenNames x; clear_value x)
    | with_reducible apply ite_kept
    | with_reducible apply setPtp_kept
    )

theorem ptpSend_kept : ∀ x0 x1 x2 x3, Kept Q F x0 → Kept Q F (ptpSend x0 x1 x2 x3) := by
  intro x0 x1 x2 x3 h0
  unfold ptpSend
  repeat' (first
    | with_reducible assumption
    | (extract_lets +onlyGivenNames x; clear_value x)
    | with_reducible apply sendFrame_kept
    | with_reducible apply State.useFree_kept
    | split
    )

theorem ptpDelayReq_kept : ∀ x0 x1 x2 x3, Kept Q F x0 → Kept Q F (ptpDelayReq x0 x1 x2 x3) := by
  intro x0 x1 x2 x3 h0
  unfold ptpDelayReq
  repeat' (first
    | with_reducible assumption
    | with_reducible apply ite_kept
    | with_reducible apply ptpSend_kept
    )

theorem execAnnounceReceiptTimeout_kept : ∀ x0, Kept Q F x0 → KeptOut Q F (execAnnounceReceiptTimeout x0) := by
  intro x0 h0
  unfold execAnnounceReceiptTimeout
  repeat' (first
    | with_reducible assumption
    | (extract_lets +onlyGivenNames x; clear_value x)
    | with_reducible apply ite_kept
    | with_reducible apply keptOut_next
    | with_reducible apply setPtp_kept
    )

theorem ptpWake_kept : ∀ x0, Kept Q F x0 → Kept Q F (ptpWake x0) := by
  intro x0 h0
  unfold ptpWake
  repeat' (first
    | with_reducible assumption
    | (extract_lets +onlyGivenNames x; clear_value x)
    | with_reducible apply ite_kept
    | with_reducible apply setPtp_kept
    )

theorem ptpBump_kept : ∀ x0 x1, Kept Q F x0 → Kept Q F (ptpBump x0 x1) := by
  intro x0 x1 h0
  unfold ptpBump
  repeat' (first
    | with_reducible assumption
    | (extract_lets +onlyGivenNames x; clear_value x)
    | with_reducible apply setPtp_kept
    )

theorem ptpSync_kept : ∀ x0, Kept Q F x0 → Kept Q F (ptpSync x0) := by
  intro x0 h0
  unfold ptpSync
  repeat' (first
    | with_reducible assumption
    | (extract_lets +onlyGivenNames x; refine Kept.via Q F x ?_ (fun _ => ?_) <;> [subst x; clear_value x])
    | (extract_lets +onlyGivenNames x; clear_value x)
    | with_reducible apply ite_kept
    | with_reducible apply ptpBump_kept
    | with_reducible apply ptpSend_kept
    )

theorem ptpAnnounce_kept : ∀ x0, Kept Q F x0 → Kept Q F (ptpAnnounce x0) := by
  intro x0 h0
  unfold ptpAnnounce
  repeat' (first
    | with_reducible assumption
    | (extract_lets +onlyGivenNames x; refine Kept.via Q F x ?_ (fun _ => ?_) <;> [subst x; clear_value x])
    | (extract_lets +onlyGivenNames x; clear_value x)
    | with_reducible apply ptpBump_kept
    | with_reducible apply ptpSend_kept
    )

theorem ptpRequest_kept : ∀ x0, Kept Q F x0 → Kept Q F (ptpRequest x0) := by
  intro x0 h0
  unfold ptpRequest
  repeat' (first
    | with_reducible assumption
    | (extract_lets +onlyGivenNames x; refine Kept.via Q F x ?_ (fun _ => ?_) <;> [subst x; clear_value x])
    | (extract_lets +onlyGivenNames x; clear_value x)
    | with_reducible apply setPtp_kept
    | with_reducible apply ptpBump_kept
    | with_reducible apply ptpSend_kept
    )

theorem execPtpMessageSend_kept : ∀ x0 x1 x2, Kept Q F x2 → KeptOut Q F (execPtpMessageSend x0 x1 x2) := by
  intro x0 x1 x2 h0
  unfold execPtpMessageSend
  repeat' (first
    | with_reducible assumption
    | (extract_lets +onlyGivenNames x; refine Kept.via Q F x ?_ (fun _ => ?_) <;> [subst x; clear_value x])
    | with_reducible apply ite_kept
    | with_reducible apply keptOut_next
    | with_reducible apply ptpWake_kept
    | with_reducible apply setClock_kept
    | with_reducible apply ptpSync_kept
    | with_reducible apply ptpAnnounce_kept
    | with_reducible apply ptpRequest_kept
    )

theorem ptpOffset_kept : ∀ x0 x1 x2 x3, Kept Q F x0 → Kept Q F (ptpOffset x0 x1 x2 x3) := by
  intro x0 x1 x2 x3 h0
  unfold ptpOffset
  repeat' (first
    | with_reducible assumption
    | (extract_lets +onlyGivenNames x; refine Kept.via Q F x ?_ (fun _ => ?_) <;> [subst x; clear_value x])
    | (extract_lets +onlyGivenNames x; clear_value x)
    | with_reducible apply ite_kept
    | with_reducible apply setPtp_kept
    | with_reducible apply setTime_kept
    )

theorem ptpFollowUp_kept : ∀ x0 x1 x2, Kept Q F x0 → Kept Q F (ptpFollowUp x0 x1 x2) := by
  intro x0 x1 x2 h0
  unfold ptpFollowUp
  repeat' (first
    | with_reducible assumption
    | with_reducible apply ite_kept
    | with_reducible apply ptpOffset_kept
    | split
    )

theorem ptpUtc_kept : ∀ x0 x1, Kept Q F x0 → Kept Q F (ptpUtc x0 x1) := by
  intro x0 x1 h0
  unfold ptpUtc
  repeat' (first
    | with_reducible assumption
    | (extract_lets +onlyGivenNames x; clear_value x)
    | with_reducible apply ite_kept
    | with_reducible apply State.wr_kept
    )

theorem ptpParent_kept : ∀ x0 x1, Kept Q F x0 → Kept Q F (ptpParent x0 x1) := by
  intro x0 x1 h0
  unfold ptpParent
  repeat' (first
    | with_reducible assumption
    | (extract_lets +onlyGivenNames x; refine Kept.via Q F x ?_ (fun _ => ?_) <;> [subst x; clear_value x])
    | (extract_lets +onlyGivenNames x; clear_value x)
    | with_reducible apply ite_kept
    | with_reducible apply setPtp_kept
    | with_reducible apply ptpDecide_kept
    | with_reducible apply ptpUtc_kept
    | split
    )

theorem ptpAnnounceIn_kept : ∀ x0 x1 x2, Kept Q F x0 → Kept Q F (ptpAnnounceIn x0 x1 x2) := by
  intro x0 x1 x2 h0
  unfold ptpAnnounceIn
  repeat' (first
    | with_reducible assumption
    | (extract_lets +onlyGivenNames x; refine Kept.via Q F x ?_ (fun _ => ?_) <;> [subst x; clear_value x])
    | (extract_lets +onlyGivenNames x; clear_value x)
    | with_reducible apply ite_kept
    | with_reducible apply ptpParent_kept
    | with_reducible apply ptpHeard_kept
    )

theorem ptpDelay_kept : ∀ x0 x1, Kept Q F x0 → Kept Q F (ptpDelay x0 x1) := by
  intro x0 x1 h0
  unfold ptpDelay
  repeat' (first
    | with_reducible assumption
    | (extract_lets +onlyGivenNames x; clear_value x)
    | with_reducible apply setPtp_kept
    )

theorem ptpPdelayResp_kept : ∀ x0 x1 x2 x3, Kept Q F x0 → Kept Q F (ptpPdelayResp x0 x1 x2 x3) := by
  intro x0 x1 x2 x3 h0
  unfold ptpPdelayResp
  repeat' (first
    | with_reducible assumption
    | (extract_lets +onlyGivenNames x; clear_value x)
    | with_reducible apply ite_kept
    | with_reducible apply setPtp_kept
    | with_reducible apply ptpDelay_kept
    | split
    )

theorem ptpSyncIn_kept : ∀ x0 x1 x2 x3, Kept Q F x0 → Kept Q F (ptpSyncIn x0 x1 x2 x3) := by
  intro x0 x1 x2 x3 h0
  unfold ptpSyncIn
  repeat' (first
    | with_reducible assumption
    | (extract_lets +onlyGivenNames x; clear_value x)
    | with_reducible apply ite_kept
    | with_reducible apply setPtp_kept
    | with_reducible apply ptpOffset_kept
    )

theorem execPtpSet_kept : ∀ x0 x1, Kept Q F x1 → (_ : Q.mbx = none := by assumption) → KeptOut Q F (execPtpSet x0 x1) := by
  intro x0 x1 h0 _
  unfold execPtpSet
  repeat' (first
    | with_reducible assumption
    | with_reducible apply keptOut_next
    | with_reducible apply command_kept
    | with_reducible apply reply_kept
    | with_reducible apply setPtp_kept
    )

theorem ptpPdelayReq_kept : ∀ x0 x1 x2 x3, Kept Q F x0 → Kept Q F (ptpPdelayReq x0 x1 x2 x3) := by
  intro x0 x1 x2 x3 h0
  unfold ptpPdelayReq
  repeat' (first
    | with_reducible assumption
    | (extract_lets +onlyGivenNames x; refine Kept.via Q F x ?_ (fun _ => ?_) <;> [subst x; clear_value x])
    | (extract_lets +onlyGivenNames x; clear_value x)
    | with_reducible apply ite_kept
    | with_reducible apply State.useFree_kept
    | with_reducible apply ptpSend_kept
    )

theorem ptpDelayResp_kept : ∀ x0 x1 x2, Kept Q F x0 → Kept Q F (ptpDelayResp x0 x1 x2) := by
  intro x0 x1 x2 h0
  unfold ptpDelayResp
  repeat' (first
    | with_reducible assumption
    | (extract_lets +onlyGivenNames x; clear_value x)
    | with_reducible apply ite_kept
    | with_reducible apply ptpDelay_kept
    | with_reducible apply setPtp_kept
    | split
    )

theorem ptpPdelayFollow_kept : ∀ x0 x1 x2, Kept Q F x0 → Kept Q F (ptpPdelayFollow x0 x1 x2) := by
  intro x0 x1 x2 h0
  unfold ptpPdelayFollow
  repeat' (first
    | with_reducible assumption
    | (extract_lets +onlyGivenNames x; clear_value x)
    | with_reducible apply ite_kept
    | with_reducible apply ptpDelay_kept
    | with_reducible apply setPtp_kept
    | split
    )

theorem ptpReceive_kept : ∀ x0 x1 x2 x3 x4, Kept Q F x0 → Kept Q F (ptpReceive x0 x1 x2 x3 x4) := by
  intro x0 x1 x2 x3 x4 h0
  unfold ptpReceive
  repeat' (first
    | with_reducible assumption
    | (extract_lets +onlyGivenNames x; refine Kept.via Q F x ?_ (fun _ => ?_) <;> [subst x; clear_value x])
    | (extract_lets +onlyGivenNames x; clear_value x)
    | with_reducible apply ite_kept
    | with_reducible apply ptpWake_kept
    | with_reducible apply ptpSyncIn_kept
    | with_reducible apply ptpDelayReq_kept
    | with_reducible apply ptpPdelayReq_kept
    | with_reducible apply ptpPdelayResp_kept
    | with_reducible apply ptpFollowUp_kept
    | with_reducible apply ptpDelayResp_kept
    | with_reducible apply ptpPdelayFollow_kept
    | with_reducible apply ptpAnnounceIn_kept
    | split
    )

theorem execPtpStatus_kept : ∀ x0 x1, Kept Q F x1 → (_ : Q.mbx = none := by assumption) → KeptOut Q F (execPtpStatus x0 x1) := by
  intro x0 x1 h0 _
  unfold execPtpStatus
  repeat' (first
    | with_reducible assumption
    | with_reducible apply keptOut_next
    | with_reducible apply command_kept
    | with_reducible apply reply_kept
    )

-- Machine/Link.lean

theorem devicePut_kept : ∀ x0 x1 x2, Kept Q F x0 → (_ : Q.hbm = none := by assumption) → (_ : Q.sram = none := by assumption) → Kept Q F (devicePut x0 x1 x2) := by
  intro x0 x1 x2 h0 _ _
  unfold devicePut
  repeat' (first
    | with_reducible assumption
    | (extract_lets +onlyGivenNames x; refine Kept.via Q F x ?_ (fun _ => ?_) <;> [subst x; clear_value x])
    | (extract_lets +onlyGivenNames x; clear_value x)
    | with_reducible apply ite_kept
    | with_reducible apply pmWrite_kept
    | with_reducible apply State.sramWrite_kept
    | with_reducible apply State.hbmWrite_kept
    | split
    )

theorem ctxSend_kept : ∀ x0 x1 x2, Kept Q F x0 → Kept Q F (ctxSend x0 x1 x2) := by
  intro x0 x1 x2 h0
  unfold ctxSend
  repeat' (first
    | with_reducible assumption
    | (extract_lets +onlyGivenNames x; refine Kept.via Q F x ?_ (fun _ => ?_) <;> [subst x; clear_value x])
    | (extract_lets +onlyGivenNames x; clear_value x)
    | with_reducible apply ite_kept
    | with_reducible apply txPop_kept
    | with_reducible apply State.setNbr_kept
    | with_reducible apply sendRecord_kept
    | split
    )

theorem ctxDrain_kept : ∀ x0 x1 x2, Kept Q F x0 → Kept Q F (ctxDrain x0 x1 x2) :=
  fun _ p a h => repeated_kept (fun s k => ctxSend_kept s p a k) _ _ h

theorem nbrSend_kept : ∀ x0 x1 x2, Kept Q F x0 → Kept Q F (nbrSend x0 x1 x2) := by
  intro x0 x1 x2 h0
  unfold nbrSend
  repeat' (first
    | with_reducible assumption
    | (extract_lets +onlyGivenNames x; clear_value x)
    | with_reducible apply ite_kept
    | with_reducible apply ctxDrain_kept
    | with_reducible apply setTx_kept
    | with_reducible apply popRecord_kept
    | split
    )

theorem rxDrop_kept : ∀ x0, Kept Q F x0 → Kept Q F (rxDrop x0) := by
  intro x0 h0
  unfold rxDrop
  repeat' (first
    | with_reducible assumption
    | with_reducible apply State.addR_kept
    )

theorem putBytes_kept : ∀ x0 x1 x2 x3, Kept Q F x0 → (_ : Q.hbm = none := by assumption) → (_ : Q.sram = none := by assumption) → Kept Q F (putBytes x0 x1 x2 x3) := by
  intro x0 x1 x2 x3 h0 _ _
  unfold putBytes
  repeat' (first
    | with_reducible assumption
    | with_reducible apply ite_kept
    | with_reducible apply State.put_kept
    | with_reducible apply devicePut_kept
    )

theorem writeBack_kept : ∀ x0 x1 x2, Kept Q F x0 → (_ : Q.hbm = none := by assumption) → (_ : Q.sram = none := by assumption) → Kept Q F (writeBack x0 x1 x2) := by
  intro x0 x1 x2 h0 _ _
  unfold writeBack
  repeat' (first
    | with_reducible assumption
    | (extract_lets +onlyGivenNames x; refine Kept.via Q F x ?_ (fun _ => ?_) <;> [subst x; clear_value x])
    | (extract_lets +onlyGivenNames x; clear_value x)
    | with_reducible apply ite_kept
    | with_reducible apply putBytes_kept
    | with_reducible apply State.setF_kept
    | with_reducible apply fire_kept
    )

theorem rxDescriptor_kept : ∀ x0 x1 x2 x3 x4, Kept Q F x0 → (_ : Q.hbm = none := by assumption) → (_ : Q.sram = none := by assumption) → Kept Q F (rxDescriptor x0 x1 x2 x3 x4) := by
  intro x0 x1 x2 x3 x4 h0 _ _
  unfold rxDescriptor
  repeat' (first
    | with_reducible assumption
    | (extract_lets +onlyGivenNames x; refine Kept.via Q F x ?_ (fun _ => ?_) <;> [subst x; clear_value x])
    | (extract_lets +onlyGivenNames x; clear_value x)
    | with_reducible apply ite_kept
    | with_reducible apply rxDrop_kept
    | with_reducible apply putBytes_kept
    | with_reducible apply writeBack_kept
    )

theorem execGridFlitReceive_kept : ∀ x0 x1 x2 x3 x4 x5, Kept Q F x5 → KeptOut Q F (execGridFlitReceive x0 x1 x2 x3 x4 x5) := by
  intro x0 x1 x2 x3 x4 x5 h0
  unfold execGridFlitReceive
  repeat' (first
    | with_reducible assumption
    | (extract_lets +onlyGivenNames x; refine Kept.via Q F x ?_ (fun _ => ?_) <;> [subst x; clear_value x])
    | (extract_lets +onlyGivenNames x; clear_value x)
    | with_reducible apply ite_kept
    | with_reducible apply keptOut_next
    | with_reducible apply setClock_kept
    | with_reducible apply setTime_kept
    )

theorem tokenReceive_kept : ∀ x0 x1 x2 x3, Kept Q F x0 → Kept Q F (tokenReceive x0 x1 x2 x3) := by
  intro x0 x1 x2 x3 h0
  unfold tokenReceive
  repeat' (first
    | with_reducible assumption
    | (extract_lets +onlyGivenNames x; refine Kept.via Q F x ?_ (fun _ => ?_) <;> [subst x; clear_value x])
    | with_reducible apply ite_kept
    | with_reducible apply State.addR_kept
    | with_reducible apply tokenOut_kept
    | with_reducible apply mk_kept
    )

theorem execTokenReceive_kept : ∀ x0 x1 x2 x3, Kept Q F x3 → KeptOut Q F (execTokenReceive x0 x1 x2 x3) := by
  intro x0 x1 x2 x3 h0
  unfold execTokenReceive
  repeat' (first
    | with_reducible assumption
    | with_reducible apply ite_kept
    | with_reducible apply keptOut_next
    | with_reducible apply tokenReceive_kept
    | with_reducible apply mk_kept
    )

theorem execNextHopRetry_kept : ∀ x0, Kept Q F x0 → KeptOut Q F (execNextHopRetry x0) := by
  intro x0 h0
  unfold execNextHopRetry
  repeat' (first
    | with_reducible assumption
    | with_reducible apply keptOut_next
    | (with_reducible apply forEach_kept; intro _ _ _; beta_reduce)
    | with_reducible apply askHop_kept
    )

theorem echoRoom_kept : ∀ x0 x1, Kept Q F x0 → Kept Q F (echoRoom x0 x1).2 := by
  intro x0 x1 h0
  unfold echoRoom
  repeat' (first
    | with_reducible assumption
    | (extract_lets +onlyGivenNames x; clear_value x)
    | dsimp -zeta only
    | split
    | with_reducible apply mk_kept
    )

theorem portDrain_kept : ∀ x0 x1, Kept Q F x0 → Kept Q F (portDrain x0 x1) := by
  intro x0 x1 h0
  unfold portDrain
  repeat' (first
    | with_reducible assumption
    | (extract_lets +onlyGivenNames x; refine Kept.via Q F x ?_ (fun _ => ?_) <;> [subst x; clear_value x])
    | (extract_lets +onlyGivenNames x; clear_value x)
    | with_reducible apply ite_kept
    | (with_reducible apply forEach_kept; intro _ _ _; beta_reduce)
    | with_reducible apply ctxDrain_kept
    )

theorem execNbrPortUp_kept : ∀ x0 x1, Kept Q F x1 → KeptOut Q F (execNbrPortUp x0 x1) := by
  intro x0 x1 h0
  unfold execNbrPortUp
  repeat' (first
    | with_reducible assumption
    | with_reducible apply ite_kept
    | with_reducible apply keptOut_next
    | with_reducible apply portDrain_kept
    | with_reducible apply State.setNbr_kept
    | with_reducible apply State.setF_kept
    )

theorem nvDone_kept : ∀ x0 x1 x2, Kept Q F x0 → (_ : Q.mbx = none := by assumption) → (_ : Q.hbm = none := by assumption) → Kept Q F (nvDone x0 x1 x2) := by
  intro x0 x1 x2 h0 _ _
  unfold nvDone
  repeat' (first
    | with_reducible assumption
    | (extract_lets +onlyGivenNames x; refine Kept.via Q F x ?_ (fun _ => ?_) <;> [subst x; clear_value x])
    | with_reducible apply ite_kept
    | with_reducible apply State.hbmWrite_kept
    | with_reducible apply reply_kept
    | split
    )

theorem nbrEnable_kept : ∀ x0 x1 x2, Kept Q F x0 → Kept Q F (nbrEnable x0 x1 x2) := by
  intro x0 x1 x2 h0
  unfold nbrEnable
  repeat' (first
    | with_reducible assumption
    | (extract_lets +onlyGivenNames x; refine Kept.via Q F x ?_ (fun _ => ?_) <;> [subst x; clear_value x])
    | (extract_lets +onlyGivenNames x; clear_value x)
    | with_reducible apply ite_kept
    | with_reducible apply State.setF_kept
    | with_reducible apply State.setB_kept
    )

theorem execEchoReplyReceive_kept : ∀ x0 x1 x2 x3, Kept Q F x3 → KeptOut Q F (execEchoReplyReceive x0 x1 x2 x3) := by
  intro x0 x1 x2 x3 h0
  unfold execEchoReplyReceive
  repeat' (first
    | with_reducible assumption
    | (extract_lets +onlyGivenNames x; refine Kept.via Q F x ?_ (fun _ => ?_) <;> [subst x; clear_value x])
    | (extract_lets +onlyGivenNames x; clear_value x)
    | with_reducible apply ite_kept
    | with_reducible apply keptOut_next
    | with_reducible apply setClock_kept
    | with_reducible apply State.wr_kept
    )

theorem ethDown_kept : ∀ x0 x1, Kept Q F x0 → Kept Q F (ethDown x0 x1) := by
  intro x0 x1 h0
  unfold ethDown
  repeat' (first
    | with_reducible assumption
    | (extract_lets +onlyGivenNames x; refine Kept.via Q F x ?_ (fun _ => ?_) <;> [subst x; clear_value x])
    | (extract_lets +onlyGivenNames x; clear_value x)
    | with_reducible apply ite_kept
    | with_reducible apply State.setB_kept
    | with_reducible apply State.setF_kept
    | with_reducible apply report_kept
    )

theorem nbrDown_kept : ∀ x0 x1, Kept Q F x0 → Kept Q F (nbrDown x0 x1) := by
  intro x0 x1 h0
  unfold nbrDown
  repeat' (first
    | with_reducible assumption
    | (extract_lets +onlyGivenNames x; refine Kept.via Q F x ?_ (fun _ => ?_) <;> [subst x; clear_value x])
    | (extract_lets +onlyGivenNames x; clear_value x)
    | with_reducible apply ite_kept
    | with_reducible apply report_kept
    | with_reducible apply State.setB_kept
    | with_reducible apply State.setF_kept
    )

theorem setNv_kept : ∀ x0 x1 x2, Kept Q F x0 → Kept Q F (setNv x0 x1 x2) := by
  intro x0 x1 x2 h0
  unfold setNv
  repeat' (first
    | with_reducible assumption
    | with_reducible apply State.setF_kept
    )

theorem dropCmds_kept : ∀ x0 x1, Kept Q F x0 → (_ : Q.mbx = none := by assumption) → Kept Q F (dropCmds x0 x1) := by
  intro x0 x1 h0 _
  unfold dropCmds
  repeat' (first
    | with_reducible assumption
    | (extract_lets +onlyGivenNames x; clear_value x)
    | (with_reducible apply forEach_kept; intro _ _ _; beta_reduce)
    | with_reducible apply reply_kept
    | split
    | with_reducible apply mk_kept
    )

theorem execNvmePortFail_kept : ∀ x0 x1, Kept Q F x1 → (_ : Q.mbx = none := by assumption) → KeptOut Q F (execNvmePortFail x0 x1) := by
  intro x0 x1 h0 _
  unfold execNvmePortFail
  repeat' (first
    | with_reducible assumption
    | (extract_lets +onlyGivenNames x; refine Kept.via Q F x ?_ (fun _ => ?_) <;> [subst x; clear_value x])
    | with_reducible apply ite_kept
    | with_reducible apply keptOut_next
    | (with_reducible apply forEach_kept; intro _ _ _; beta_reduce)
    | with_reducible apply report_kept
    | with_reducible apply setNv_kept
    | with_reducible apply dropCmds_kept
    | with_reducible apply volumeFail_kept
    )

theorem execEchoSend_kept : ∀ x0 x1 x2, Kept Q F x2 → KeptOut Q F (execEchoSend x0 x1 x2) := by
  intro x0 x1 x2 h0
  unfold execEchoSend
  repeat' (first
    | with_reducible assumption
    | (extract_lets +onlyGivenNames x; refine Kept.via Q F x ?_ (fun _ => ?_) <;> [subst x; clear_value x])
    | with_reducible apply ite_kept
    | with_reducible apply keptOut_next
    | with_reducible apply setClock_kept
    | with_reducible apply sendFlit_kept
    )

theorem execSmartPoll_kept : ∀ x0 x1 x2 x3 x4 x5, Kept Q F x5 → KeptOut Q F (execSmartPoll x0 x1 x2 x3 x4 x5) := by
  intro x0 x1 x2 x3 x4 x5 h0
  unfold execSmartPoll
  repeat' (first
    | with_reducible assumption
    | (extract_lets +onlyGivenNames x; refine Kept.via Q F x ?_ (fun _ => ?_) <;> [subst x; clear_value x])
    | (extract_lets +onlyGivenNames x; clear_value x)
    | with_reducible apply ite_kept
    | with_reducible apply keptOut_next
    | with_reducible apply nvAdmin_kept
    | with_reducible apply State.setDrive_kept
    | with_reducible apply report_kept
    | with_reducible apply State.setB_kept
    )

theorem execNvmeRead_kept : ∀ x0 x1, Kept Q F x1 → (_ : Q.mbx = none := by assumption) → KeptOut Q F (execNvmeRead x0 x1) := by
  intro x0 x1 h0 _
  unfold execNvmeRead
  repeat' (first
    | with_reducible assumption
    | (extract_lets +onlyGivenNames x; clear_value x)
    | with_reducible apply keptOut_next
    | with_reducible apply command_kept
    | with_reducible apply nvIssue_kept
    )

theorem setMode_kept : ∀ x0 x1, Kept Q F x0 → Kept Q F (setMode x0 x1) := by
  intro x0 x1 h0
  unfold setMode
  repeat' (first
    | with_reducible assumption
    | (extract_lets +onlyGivenNames x; refine Kept.via Q F x ?_ (fun _ => ?_) <;> [subst x; clear_value x])
    | (extract_lets +onlyGivenNames x; clear_value x)
    | with_reducible apply ite_kept
    | (with_reducible apply forEach_kept; intro _ _ _; beta_reduce)
    | with_reducible apply State.setF_kept
    | with_reducible apply State.setB_kept
    )

theorem execEthFilterSet_kept : ∀ x0 x1, Kept Q F x1 → (_ : Q.mbx = none := by assumption) → KeptOut Q F (execEthFilterSet x0 x1) := by
  intro x0 x1 h0 _
  unfold execEthFilterSet
  repeat' (first
    | with_reducible assumption
    | (extract_lets +onlyGivenNames x; clear_value x)
    | with_reducible apply keptOut_next
    | with_reducible apply command_kept
    | with_reducible apply reply_kept
    | with_reducible apply State.setFilter_kept
    )

theorem execGridFlitSend_kept : ∀ x0, Kept Q F x0 → KeptOut Q F (execGridFlitSend x0) := by
  intro x0 h0
  unfold execGridFlitSend
  repeat' (first
    | with_reducible assumption
    | with_reducible apply ite_kept
    | with_reducible apply keptOut_next
    | (with_reducible apply forEach_kept; intro _ _ _; beta_reduce)
    | with_reducible apply sendFlit_kept
    )

theorem forwardRecord_kept : ∀ x0 x1 x2, Kept Q F x0 → Kept Q F (forwardRecord x0 x1 x2) := by
  intro x0 x1 x2 h0
  unfold forwardRecord
  repeat' (first
    | with_reducible assumption
    | (extract_lets +onlyGivenNames x; refine Kept.via Q F x ?_ (fun _ => ?_) <;> [subst x; clear_value x])
    | (extract_lets +onlyGivenNames x; clear_value x)
    | with_reducible apply ite_kept
    | with_reducible apply State.setStream_kept
    | with_reducible apply State.addR_kept
    | with_reducible apply State.setB_kept
    | with_reducible apply report_kept
    | with_reducible apply fillRise_kept
    )

theorem execNbrRecordReceive_kept : ∀ x0 x1 x2, Kept Q F x2 → KeptOut Q F (execNbrRecordReceive x0 x1 x2) := by
  intro x0 x1 x2 h0
  unfold execNbrRecordReceive
  repeat' (first
    | with_reducible assumption
    | (extract_lets +onlyGivenNames x; refine Kept.via Q F x ?_ (fun _ => ?_) <;> [subst x; clear_value x])
    | with_reducible apply ite_kept
    | with_reducible apply keptOut_next
    | with_reducible apply sendFlit_kept
    | with_reducible apply forwardRecord_kept
    | with_reducible apply State.setB_kept
    | with_reducible apply State.addR_kept
    | split
    )

theorem netReceive_kept : ∀ x0 x1 x2 x3 x4, Kept Q F x0 → Kept Q F (netReceive x0 x1 x2 x3 x4) := by
  intro x0 x1 x2 x3 x4 h0
  unfold netReceive
  repeat' (first
    | with_reducible assumption
    | (extract_lets +onlyGivenNames x; clear_value x)
    | with_reducible apply ite_kept
    | with_reducible apply dropPacket_kept
    | with_reducible apply mk_kept
    )

theorem nvTake_kept : ∀ x0 x1, Kept Q F x0 → KeptOpt₂ Q F (nvTake x0 x1) := by
  intro x0 x1 h0
  unfold nvTake
  repeat' (first
    | with_reducible assumption
    | (extract_lets +onlyGivenNames x; refine Kept.via Q F x ?_ (fun _ => ?_) <;> [subst x; clear_value x])
    | (extract_lets +onlyGivenNames x; clear_value x)
    | with_reducible apply ite_kept
    | exact keptOpt₂_none
    | with_reducible apply keptOpt₂_some
    | with_reducible apply nvPut_kept
    | split
    | with_reducible apply mk_keptActive
    | with_reducible apply mk_kept
    )

theorem nvError_kept : ∀ x0 x1, Kept Q F x0 → (_ : Q.mbx = none := by assumption) → Kept Q F (nvError x0 x1) := by
  intro x0 x1 h0 _
  unfold nvError
  repeat' (first
    | with_reducible assumption
    | (extract_lets +onlyGivenNames x; refine Kept.via Q F x ?_ (fun _ => ?_) <;> [subst x; clear_value x])
    | with_reducible apply ite_kept
    | with_reducible apply State.setB_kept
    | with_reducible apply volumeFail_kept
    | with_reducible apply nvIssue_kept
    | with_reducible apply reply_kept
    | split
    )

theorem execNvmeCommandTimeout_kept : ∀ x0 x1, Kept Q F x1 → (_ : Q.mbx = none := by assumption) → KeptOut Q F (execNvmeCommandTimeout x0 x1) := by
  intro x0 x1 h0 _
  unfold execNvmeCommandTimeout
  repeat' (first
    | with_reducible assumption
    | with_reducible apply keptOut_next
    | refine KeptOpt₂.get (nvTake_kept _ _ ?_) (by with_reducible assumption)
    | with_reducible apply nvError_kept
    | with_reducible apply nvAdmin_kept
    | split
    )

theorem execLnkEqtailWrite_kept : ∀ x0 x1 x2, Kept Q F x2 → KeptOut Q F (execLnkEqtailWrite x0 x1 x2) := by
  intro x0 x1 x2 h0
  unfold execLnkEqtailWrite
  repeat' (first
    | with_reducible assumption
    | with_reducible apply ite_kept
    | with_reducible apply keptOut_next
    | with_reducible apply State.wr_kept
    )

theorem execNeighbourRefresh_kept : ∀ x0 x1, Kept Q F x1 → KeptOut Q F (execNeighbourRefresh x0 x1) := by
  intro x0 x1 h0
  unfold execNeighbourRefresh
  repeat' (first
    | with_reducible assumption
    | (extract_lets +onlyGivenNames x; refine Kept.via Q F x ?_ (fun _ => ?_) <;> [subst x; clear_value x])
    | with_reducible apply keptOut_next
    | (with_reducible apply forEach_kept; intro _ _ _; beta_reduce)
    | with_reducible apply askHop_kept
    | with_reducible apply mk_kept
    )

theorem execEthLinkUp_kept : ∀ x0 x1, Kept Q F x1 → KeptOut Q F (execEthLinkUp x0 x1) := by
  intro x0 x1 h0
  unfold execEthLinkUp
  repeat' (first
    | with_reducible assumption
    | (extract_lets +onlyGivenNames x; refine Kept.via Q F x ?_ (fun _ => ?_) <;> [subst x; clear_value x])
    | with_reducible apply ite_kept
    | with_reducible apply keptOut_next
    | (with_reducible apply forEach_kept; intro _ _ _; beta_reduce)
    | with_reducible apply State.setF_kept
    | with_reducible apply announceIf_kept
    )

theorem firmwareFrame_kept : ∀ x0 x1 x2 x3 x4, Kept Q F x0 → KeptOpt Q F (firmwareFrame x0 x1 x2 x3 x4) := by
  intro x0 x1 x2 x3 x4 h0
  unfold firmwareFrame
  repeat' (first
    | with_reducible assumption
    | (extract_lets +onlyGivenNames x; refine Kept.via Q F x ?_ (fun _ => ?_) <;> [subst x; clear_value x])
    | (extract_lets +onlyGivenNames x; refine Kept.viaSnd Q F x ?_ (fun _ => ?_) <;> [subst x; clear_value x])
    | (extract_lets +onlyGivenNames x; clear_value x)
    | with_reducible apply ite_kept
    | with_reducible apply ite_keptOpt
    | exact keptOpt_none
    | with_reducible apply keptOpt_some
    | with_reducible apply learnHop_kept
    | with_reducible apply sendFrame_kept
    | with_reducible apply echoRoom_kept
    | with_reducible apply rxDrop_kept
    | with_reducible apply State.useFree_kept
    )

theorem deliver_kept : ∀ x0 x1 x2 x3, Kept Q F x0 → (_ : Q.hbm = none := by assumption) → (_ : Q.sram = none := by assumption) → Kept Q F (deliver x0 x1 x2 x3) := by
  intro x0 x1 x2 x3 h0 _ _
  unfold deliver
  repeat' (first
    | with_reducible assumption
    | (extract_lets +onlyGivenNames x; clear_value x)
    | with_reducible apply ite_kept
    | with_reducible apply ptpReceive_kept
    | with_reducible apply netReceive_kept
    | with_reducible apply rxDescriptor_kept
    | with_reducible apply rxDrop_kept
    | split
    )

theorem frameReceive_kept : ∀ x0 x1, Kept Q F x0 → (_ : Q.hbm = none := by assumption) → (_ : Q.sram = none := by assumption) → Kept Q F (frameReceive x0 x1) := by
  intro x0 x1 h0 _ _
  unfold frameReceive
  repeat' (first
    | with_reducible assumption
    | (extract_lets +onlyGivenNames x; refine Kept.via Q F x ?_ (fun _ => ?_) <;> [subst x; clear_value x])
    | (extract_lets +onlyGivenNames x; clear_value x)
    | with_reducible apply ite_kept
    | with_reducible apply State.setB_kept
    | with_reducible apply rxDrop_kept
    | with_reducible apply dropPacket_kept
    | refine KeptOpt.get (firmwareFrame_kept _ _ _ _ _ ?_) (by with_reducible assumption)
    | with_reducible apply deliver_kept
    | split
    )

theorem storeIf_kept : ∀ x0 x1, Kept Q F x0 → Kept Q F (storeIf x0 x1) := by
  intro x0 x1 h0
  unfold storeIf
  repeat' (first
    | with_reducible assumption
    | (extract_lets +onlyGivenNames x; clear_value x)
    | with_reducible apply mk_kept
    )

theorem execEthMode_kept : ∀ x0 x1, Kept Q F x1 → (_ : Q.mbx = none := by assumption) → KeptOut Q F (execEthMode x0 x1) := by
  intro x0 x1 h0 _
  unfold execEthMode
  repeat' (first
    | with_reducible assumption
    | (extract_lets +onlyGivenNames x; refine Kept.via Q F x ?_ (fun _ => ?_) <;> [subst x; clear_value x])
    | (extract_lets +onlyGivenNames x; clear_value x)
    | with_reducible apply ite_kept
    | with_reducible apply keptOut_next
    | with_reducible apply command_kept
    | with_reducible apply setMode_kept
    | with_reducible apply reply_kept
    | with_reducible apply mk_kept
    )

theorem execNvmeCompletion_kept : ∀ x0 x1 x2 x3, Kept Q F x3 → (_ : Q.mbx = none := by assumption) → (_ : Q.hbm = none := by assumption) → KeptOut Q F (execNvmeCompletion x0 x1 x2 x3) := by
  intro x0 x1 x2 x3 h0 _ _
  unfold execNvmeCompletion
  repeat' (first
    | with_reducible assumption
    | with_reducible apply ite_kept
    | with_reducible apply keptOut_next
    | refine KeptOpt₂.get (nvTake_kept _ _ ?_) (by with_reducible assumption)
    | with_reducible apply nvDone_kept
    | with_reducible apply nvError_kept
    | split
    )

theorem execNvmeInfo_kept : ∀ x0 x1, Kept Q F x1 → (_ : Q.mbx = none := by assumption) → KeptOut Q F (execNvmeInfo x0 x1) := by
  intro x0 x1 h0 _
  unfold execNvmeInfo
  repeat' (first
    | with_reducible assumption
    | (extract_lets +onlyGivenNames x; clear_value x)
    | with_reducible apply keptOut_next
    | with_reducible apply command_kept
    | with_reducible apply reply_kept
    )

theorem txSend_kept : ∀ x0 x1 x2 x3 x4, Kept Q F x0 → (_ : Q.hbm = none := by assumption) → (_ : Q.sram = none := by assumption) → Kept Q F (txSend x0 x1 x2 x3 x4) := by
  intro x0 x1 x2 x3 x4 h0 _ _
  unfold txSend
  repeat' (first
    | with_reducible assumption
    | (extract_lets +onlyGivenNames x; refine Kept.via Q F x ?_ (fun _ => ?_) <;> [subst x; clear_value x])
    | (extract_lets +onlyGivenNames x; clear_value x)
    | with_reducible apply ite_kept
    | with_reducible apply State.put_kept
    | with_reducible apply State.addR_kept
    | with_reducible apply writeBack_kept
    | with_reducible apply mk_kept
    )

theorem execFlitCrcFail_kept : ∀ x0 x1 x2 x3, Kept Q F x3 → KeptOut Q F (execFlitCrcFail x0 x1 x2 x3) := by
  intro x0 x1 x2 x3 h0
  unfold execFlitCrcFail
  repeat' (first
    | with_reducible assumption
    | (extract_lets +onlyGivenNames x; refine Kept.via Q F x ?_ (fun _ => ?_) <;> [subst x; clear_value x])
    | with_reducible apply ite_kept
    | with_reducible apply keptOut_next
    | with_reducible apply State.setB_kept
    | with_reducible apply State.addR_kept
    | with_reducible apply report_kept
    )

theorem execEthFrameReceive_kept : ∀ x0 x1, Kept Q F x1 → (_ : Q.hbm = none := by assumption) → (_ : Q.sram = none := by assumption) → KeptOut Q F (execEthFrameReceive x0 x1) := by
  intro x0 x1 h0 _ _
  unfold execEthFrameReceive
  repeat' (first
    | with_reducible assumption
    | with_reducible apply ite_kept
    | with_reducible apply keptOut_next
    | with_reducible apply frameReceive_kept
    )

theorem execLinkStatus_kept : ∀ x0 x1, Kept Q F x1 → (_ : Q.mbx = none := by assumption) → KeptOut Q F (execLinkStatus x0 x1) := by
  intro x0 x1 h0 _
  unfold execLinkStatus
  repeat' (first
    | with_reducible assumption
    | with_reducible apply keptOut_next
    | with_reducible apply command_kept
    | with_reducible apply reply_kept
    )

theorem execDriveBringUp_kept : ∀ x0 x1 x2, Kept Q F x2 → KeptOut Q F (execDriveBringUp x0 x1 x2) := by
  intro x0 x1 x2 h0
  unfold execDriveBringUp
  repeat' (first
    | with_reducible assumption
    | (extract_lets +onlyGivenNames x; refine Kept.via Q F x ?_ (fun _ => ?_) <;> [subst x; clear_value x])
    | (extract_lets +onlyGivenNames x; clear_value x)
    | with_reducible apply ite_kept
    | with_reducible apply keptOut_next
    | with_reducible apply State.setF_kept
    | with_reducible apply nvAdmin_kept
    | with_reducible apply setNv_kept
    | with_reducible apply State.setDrive_kept
    )

theorem execEchoRequestReceive_kept : ∀ x0 x1 x2, Kept Q F x2 → KeptOut Q F (execEchoRequestReceive x0 x1 x2) := by
  intro x0 x1 x2 h0
  unfold execEchoRequestReceive
  repeat' (first
    | with_reducible assumption
    | with_reducible apply ite_kept
    | with_reducible apply keptOut_next
    | with_reducible apply sendFlit_kept
    )

theorem txHead_kept : ∀ x0 x1 x2 x3, Kept Q F x0 → (_ : Q.hbm = none := by assumption) → (_ : Q.sram = none := by assumption) → Kept Q F (txHead x0 x1 x2 x3) := by
  intro x0 x1 x2 x3 h0 _ _
  unfold txHead
  repeat' (first
    | with_reducible assumption
    | (extract_lets +onlyGivenNames x; clear_value x)
    | with_reducible apply ite_kept
    | with_reducible apply writeBack_kept
    | with_reducible apply txSend_kept
    | with_reducible apply mk_kept
    )

theorem execNbrSet_kept : ∀ x0 x1, Kept Q F x1 → (_ : Q.mbx = none := by assumption) → KeptOut Q F (execNbrSet x0 x1) := by
  intro x0 x1 h0 _
  unfold execNbrSet
  repeat' (first
    | with_reducible assumption
    | (extract_lets +onlyGivenNames x; clear_value x)
    | with_reducible apply keptOut_next
    | with_reducible apply command_kept
    | with_reducible apply reply_kept
    | with_reducible apply nbrEnable_kept
    )

theorem execBisorPortSet_kept : ∀ x0 x1, Kept Q F x1 → (_ : Q.mbx = none := by assumption) → KeptOut Q F (execBisorPortSet x0 x1) := by
  intro x0 x1 h0 _
  unfold execBisorPortSet
  repeat' (first
    | with_reducible assumption
    | (extract_lets +onlyGivenNames x; refine Kept.via Q F x ?_ (fun _ => ?_) <;> [subst x; clear_value x])
    | (extract_lets +onlyGivenNames x; clear_value x)
    | with_reducible apply ite_kept
    | with_reducible apply keptOut_next
    | with_reducible apply command_kept
    | with_reducible apply State.wr_kept
    | with_reducible apply reply_kept
    | with_reducible apply mk_kept
    )

theorem execEthLinkDown_kept : ∀ x0 x1, Kept Q F x1 → KeptOut Q F (execEthLinkDown x0 x1) := by
  intro x0 x1 h0
  unfold execEthLinkDown
  repeat' (first
    | with_reducible assumption
    | (extract_lets +onlyGivenNames x; refine Kept.via Q F x ?_ (fun _ => ?_) <;> [subst x; clear_value x])
    | with_reducible apply ite_kept
    | with_reducible apply keptOut_next
    | with_reducible apply ethDown_kept
    )

theorem execNvmeReset_kept : ∀ x0 x1, Kept Q F x1 → (_ : Q.mbx = none := by assumption) → KeptOut Q F (execNvmeReset x0 x1) := by
  intro x0 x1 h0 _
  unfold execNvmeReset
  repeat' (first
    | with_reducible assumption
    | (extract_lets +onlyGivenNames x; clear_value x)
    | with_reducible apply keptOut_next
    | (with_reducible apply forEach_kept; intro _ _ _; beta_reduce)
    | with_reducible apply command_kept
    | with_reducible apply reply_kept
    | with_reducible apply setNv_kept
    | with_reducible apply dropCmds_kept
    )

theorem execEthIfSet_kept : ∀ x0 x1, Kept Q F x1 → (_ : Q.mbx = none := by assumption) → KeptOut Q F (execEthIfSet x0 x1) := by
  intro x0 x1 h0 _
  unfold execEthIfSet
  repeat' (first
    | with_reducible assumption
    | (extract_lets +onlyGivenNames x; refine Kept.via Q F x ?_ (fun _ => ?_) <;> [subst x; clear_value x])
    | (extract_lets +onlyGivenNames x; clear_value x)
    | with_reducible apply ite_kept
    | with_reducible apply keptOut_next
    | with_reducible apply command_kept
    | with_reducible apply State.setEthIf_kept
    | with_reducible apply reply_kept
    | with_reducible apply storeIf_kept
    )

theorem execTxDescriptor_kept : ∀ x0 x1 x2 x3 x4, Kept Q F x4 → (_ : Q.hbm = none := by assumption) → (_ : Q.sram = none := by assumption) → KeptOut Q F (execTxDescriptor x0 x1 x2 x3 x4) := by
  intro x0 x1 x2 x3 x4 h0 _ _
  unfold execTxDescriptor
  repeat' (first
    | with_reducible assumption
    | (extract_lets +onlyGivenNames x; refine Kept.via Q F x ?_ (fun _ => ?_) <;> [subst x; clear_value x])
    | (extract_lets +onlyGivenNames x; clear_value x)
    | with_reducible apply ite_kept
    | with_reducible apply keptOut_next
    | with_reducible apply setClock_kept
    | with_reducible apply txHead_kept
    )

theorem execNbrPortDown_kept : ∀ x0 x1, Kept Q F x1 → KeptOut Q F (execNbrPortDown x0 x1) := by
  intro x0 x1 h0
  unfold execNbrPortDown
  repeat' (first
    | with_reducible assumption
    | with_reducible apply ite_kept
    | with_reducible apply keptOut_next
    | with_reducible apply nbrDown_kept
    )

theorem execTokenPresent_kept : ∀ x0, Kept Q F x0 → KeptOut Q F (execTokenPresent x0) := by
  intro x0 h0
  unfold execTokenPresent
  repeat' (first
    | with_reducible assumption
    | (extract_lets +onlyGivenNames x; clear_value x)
    | with_reducible apply keptOut_next
    | (with_reducible apply forEach_kept; intro _ _ _; beta_reduce)
    | with_reducible apply tokenPresent_kept
    | with_reducible apply mk_kept
    )

theorem execFrameLaunch_kept : ∀ x0 x1 x2 x3 x4, Kept Q F x4 → (_ : Q.hbm = none := by assumption) → (_ : Q.sram = none := by assumption) → KeptOut Q F (execFrameLaunch x0 x1 x2 x3 x4) := by
  intro x0 x1 x2 x3 x4 h0 _ _
  unfold execFrameLaunch
  repeat' (first
    | with_reducible assumption
    | (extract_lets +onlyGivenNames x; refine Kept.via Q F x ?_ (fun _ => ?_) <;> [subst x; clear_value x])
    | (extract_lets +onlyGivenNames x; clear_value x)
    | with_reducible apply ite_kept
    | with_reducible apply keptOut_next
    | with_reducible apply setClock_kept
    | with_reducible apply txHead_kept
    )

theorem execCreditReceive_kept : ∀ x0 x1 x2, Kept Q F x2 → KeptOut Q F (execCreditReceive x0 x1 x2) := by
  intro x0 x1 x2 h0
  unfold execCreditReceive
  repeat' (first
    | with_reducible assumption
    | with_reducible apply ite_kept
    | with_reducible apply keptOut_next
    | with_reducible apply portDrain_kept
    | with_reducible apply State.setNbr_kept
    )

end Sys2Proof.Machine
end

