-- ==== Sys2Proof/Laws/KeptUnits.lean ====
section
/-! SUPPORT. `Kept` for every function of Machine/Dma, Commit, Display, Monitor: one lemma each, cited by those of its callers. -/
namespace Sys2Proof.Machine
variable {Q : Frame} {F : Fuses}

-- Machine/Dma.lean

theorem dmaAbort_kept : ∀ x0 x1, Kept Q F x0 → (_ : Q.mbx = none := by assumption) → (_ : Q.sram = none := by assumption) → Kept Q F (dmaAbort x0 x1) := by
  intro x0 x1 h0 _ _
  unfold dmaAbort
  repeat' (first
    | with_reducible assumption
    | (extract_lets +onlyGivenNames x; clear_value x)
    | with_reducible apply ite_kept
    | with_reducible apply State.setDma_kept
    | with_reducible apply dmaStop_kept
    )

theorem abortAll_kept : ∀ x0 x1 x2, Kept Q F x0 → (_ : Q.mbx = none := by assumption) → (_ : Q.sram = none := by assumption) → Kept Q F (abortAll x0 x1 x2) := by
  intro x0 x1 x2 h0 _ _
  unfold abortAll
  repeat' (first
    | with_reducible assumption
    | (extract_lets +onlyGivenNames x; refine Kept.via Q F x ?_ (fun _ => ?_) <;> [subst x; clear_value x])
    | (extract_lets +onlyGivenNames x; clear_value x)
    | with_reducible apply ite_kept
    | (with_reducible apply forEach_kept; intro _ _ _; beta_reduce)
    | with_reducible apply dmaAbort_kept
    | with_reducible apply reply_kept
    | with_reducible apply mk_kept
    )

theorem execDmaAbort_kept : ∀ x0 x1, Kept Q F x1 → (_ : Q.mbx = none := by assumption) → (_ : Q.sram = none := by assumption) → KeptOut Q F (execDmaAbort x0 x1) := by
  intro x0 x1 h0 _ _
  unfold execDmaAbort
  repeat' (first
    | with_reducible assumption
    | (extract_lets +onlyGivenNames x; clear_value x)
    | with_reducible apply keptOut_next
    | with_reducible apply command_kept
    | with_reducible apply abortAll_kept
    )

theorem dmaErr_kept : ∀ x0 x1 x2 x3, Kept Q F x0 → (_ : Q.mbx = none := by assumption) → (_ : Q.sram = none := by assumption) → Kept Q F (dmaErr x0 x1 x2 x3) := by
  intro x0 x1 x2 x3 h0 _ _
  unfold dmaErr
  repeat' (first
    | with_reducible assumption
    | with_reducible apply dmaStop_kept
    )

theorem execDmaSramWrite_kept : ∀ x0 x1, Kept Q F x1 → (_ : Q.mbx = none := by assumption) → (_ : Q.sram = none := by assumption) → KeptOut Q F (execDmaSramWrite x0 x1) := by
  intro x0 x1 h0 _ _
  unfold execDmaSramWrite
  repeat' (first
    | with_reducible assumption
    | (extract_lets +onlyGivenNames x; clear_value x)
    | with_reducible apply keptOut_next
    | with_reducible apply command_kept
    | with_reducible apply reply_kept
    | with_reducible apply State.sramWrite_kept
    )

theorem fetchErrors_kept : ∀ x0 x1, Kept Q F x0 → Kept Q F (fetchErrors x0 x1) := by
  intro x0 x1 h0
  unfold fetchErrors
  repeat' (first
    | with_reducible assumption
    | (extract_lets +onlyGivenNames x; refine Kept.via Q F x ?_ (fun _ => ?_) <;> [subst x; clear_value x])
    | (extract_lets +onlyGivenNames x; refine Kept.viaFst Q F x ?_ (fun _ => ?_) <;> [subst x; clear_value x])
    | (extract_lets +onlyGivenNames x; clear_value x)
    | with_reducible apply ite_kept
    | with_reducible apply eccRead_kept
    | refine Kept.fst (eccRead_kept _ _ _ _ ?_) (by with_reducible assumption)
    )

theorem dmaFetch_kept : ∀ x0 x1 x2 x3, Kept Q F x0 → (_ : Q.mbx = none := by assumption) → (_ : Q.sram = none := by assumption) → Kept Q F (dmaFetch x0 x1 x2 x3) := by
  intro x0 x1 x2 x3 h0 _ _
  unfold dmaFetch
  repeat' (first
    | with_reducible assumption
    | (extract_lets +onlyGivenNames x; refine Kept.via Q F x ?_ (fun _ => ?_) <;> [subst x; clear_value x])
    | (extract_lets +onlyGivenNames x; clear_value x)
    | with_reducible apply ite_kept
    | (with_reducible apply forEach_kept; intro _ _ _; beta_reduce)
    | with_reducible apply State.setB_kept
    | with_reducible apply State.setF_kept
    | with_reducible apply dmaErr_kept
    | with_reducible apply fetchErrors_kept
    | with_reducible apply report_kept
    | with_reducible apply State.setDma_kept
    )

theorem dmaStart_kept : ∀ x0 x1 x2 x3, Kept Q F x0 → (_ : Q.mbx = none := by assumption) → (_ : Q.sram = none := by assumption) → Kept Q F (dmaStart x0 x1 x2 x3) := by
  intro x0 x1 x2 x3 h0 _ _
  unfold dmaStart
  repeat' (first
    | with_reducible assumption
    | (extract_lets +onlyGivenNames x; refine Kept.via Q F x ?_ (fun _ => ?_) <;> [subst x; clear_value x])
    | (extract_lets +onlyGivenNames x; clear_value x)
    | with_reducible apply ite_kept
    | with_reducible apply State.setF_kept
    | with_reducible apply State.setDma_kept
    | with_reducible apply dmaFetch_kept
    )

theorem dmaCtrlWrite_kept : ∀ x0 x1 x2 x3 x4, Kept Q F x0 → (_ : Q.mbx = none := by assumption) → (_ : Q.sram = none := by assumption) → Kept Q F (dmaCtrlWrite x0 x1 x2 x3 x4) := by
  intro x0 x1 x2 x3 x4 h0 _ _
  unfold dmaCtrlWrite
  repeat' (first
    | with_reducible assumption
    | (extract_lets +onlyGivenNames x; refine Kept.via Q F x ?_ (fun _ => ?_) <;> [subst x; clear_value x])
    | with_reducible apply ite_kept
    | with_reducible apply State.setB_kept
    | with_reducible apply State.setF_kept
    | with_reducible apply dmaAbort_kept
    | with_reducible apply dmaStart_kept
    )

theorem execDmaCtrlAbort_kept : ∀ x0 x1 x2 x3, Kept Q F x3 → (_ : Q.mbx = none := by assumption) → (_ : Q.sram = none := by assumption) → KeptOut Q F (execDmaCtrlAbort x0 x1 x2 x3) := by
  intro x0 x1 x2 x3 h0 _ _
  unfold execDmaCtrlAbort
  repeat' (first
    | with_reducible assumption
    | with_reducible apply keptOut_next
    | with_reducible apply onBar_kept
    | with_reducible apply dmaCtrlWrite_kept
    )

theorem dmaNext_kept : ∀ x0 x1 x2, Kept Q F x0 → (_ : Q.mbx = none := by assumption) → (_ : Q.sram = none := by assumption) → Kept Q F (dmaNext x0 x1 x2) := by
  intro x0 x1 x2 h0 _ _
  unfold dmaNext
  repeat' (first
    | with_reducible assumption
    | with_reducible apply dmaFetch_kept
    )

theorem waitDone_kept : ∀ x0 x1 x2, Kept Q F x0 → (_ : Q.mbx = none := by assumption) → (_ : Q.sram = none := by assumption) → Kept Q F (waitDone x0 x1 x2) := by
  intro x0 x1 x2 h0 _ _
  unfold waitDone
  repeat' (first
    | with_reducible assumption
    | (extract_lets +onlyGivenNames x; clear_value x)
    | with_reducible apply dmaNext_kept
    | with_reducible apply State.setDma_kept
    )

theorem execWaitComplete_kept : ∀ x0 x1 x2, Kept Q F x2 → (_ : Q.mbx = none := by assumption) → (_ : Q.sram = none := by assumption) → KeptOut Q F (execWaitComplete x0 x1 x2) := by
  intro x0 x1 x2 h0 _ _
  unfold execWaitComplete
  repeat' (first
    | with_reducible assumption
    | with_reducible apply ite_kept
    | with_reducible apply keptOut_next
    | with_reducible apply waitDone_kept
    )

theorem dmaAbortIf_kept : ∀ x0 x1, Kept Q F x0 → (_ : Q.mbx = none := by assumption) → (_ : Q.sram = none := by assumption) → Kept Q F (dmaAbortIf x0 x1) := by
  intro x0 x1 h0 _ _
  unfold dmaAbortIf
  repeat' (first
    | with_reducible assumption
    | (with_reducible apply forEach_kept; intro _ _ _; beta_reduce)
    | with_reducible apply dmaAbort_kept
    )

theorem dmaIdleAll_kept : ∀ x0, Kept Q F x0 → (_ : Q.sram = none := by assumption) → Kept Q F (dmaIdleAll x0) := by
  intro s h _
  unfold dmaIdleAll
  refine forEach_kept ?_ (mk_kept_of h { h.canonical with sram := rfl } { h.frame with sram := Frame.free ‹_› })
  intro _ _ k
  exact State.wr_kept _ _ _ k

theorem dmaResetAll_kept : ∀ x0, Kept Q F x0 → (_ : Q.sram = none := by assumption) → Kept Q F (dmaResetAll x0) := by
  intro s h _
  unfold dmaResetAll
  refine forEach_kept ?_ (mk_kept_of h { h.canonical with sram := rfl } { h.frame with sram := Frame.free ‹_› })
  intro _ _ k
  exact State.wr_kept _ _ _ (State.wr_kept _ _ _ (State.wr_kept _ _ _ (State.wr_kept _ _ _ k)))

theorem burstStart_kept : ∀ x0 x1 x2 x3 x4, Kept Q F x0 → Kept Q F (burstStart x0 x1 x2 x3 x4) := by
  intro x0 x1 x2 x3 x4 h0
  unfold burstStart
  repeat' (first
    | with_reducible assumption
    | (extract_lets +onlyGivenNames x; refine Kept.via Q F x ?_ (fun _ => ?_) <;> [subst x; clear_value x])
    | (extract_lets +onlyGivenNames x; clear_value x)
    | with_reducible apply ite_kept
    | with_reducible apply State.setB_kept
    | with_reducible apply State.setDma_kept
    | with_reducible apply mk_kept
    | with_reducible apply mk_keptActive
    )

theorem burstFails_kept : ∀ x0 x1 x2 x3, Kept Q F x0 → (_ : Q.mbx = none := by assumption) → (_ : Q.sram = none := by assumption) → Kept Q F (burstFails x0 x1 x2 x3) := by
  intro x0 x1 x2 x3 h0 _ _
  unfold burstFails
  repeat' (first
    | with_reducible assumption
    | with_reducible apply ite_kept
    | with_reducible apply State.setDma_kept
    | with_reducible apply dmaStop_kept
    )

theorem devWrite_kept : ∀ x0 x1 x2, Kept Q F x0 → (_ : Q.hbm = none := by assumption) → (_ : Q.sram = none := by assumption) → Kept Q F (devWrite x0 x1 x2) := by
  intro x0 x1 x2 h0 _ _
  unfold devWrite
  repeat' (first
    | with_reducible assumption
    | with_reducible apply setTx_kept
    | with_reducible apply ctxDrain_kept
    | with_reducible apply devicePut_kept
    | split
    )

theorem sideWrite_kept : ∀ x0 x1 x2 x3, Kept Q F x0 → (_ : Q.hbm = none := by assumption) → (_ : Q.sram = none := by assumption) → Kept Q F (sideWrite x0 x1 x2 x3) := by
  intro x0 x1 x2 x3 h0 _ _
  unfold sideWrite
  repeat' (first
    | with_reducible assumption
    | with_reducible apply ite_kept
    | with_reducible apply devWrite_kept
    | with_reducible apply State.put_kept
    )

theorem burstDone_kept : ∀ x0 x1 x2 x3 x4 x5, Kept Q F x0 → (_ : Q.mbx = none := by assumption) → (_ : Q.hbm = none := by assumption) → (_ : Q.sram = none := by assumption) → Kept Q F (burstDone x0 x1 x2 x3 x4 x5) := by
  intro x0 x1 x2 x3 x4 x5 h0 _ _ _
  unfold burstDone
  repeat' (first
    | with_reducible assumption
    | (extract_lets +onlyGivenNames x; refine Kept.via Q F x ?_ (fun _ => ?_) <;> [subst x; clear_value x])
    | (extract_lets +onlyGivenNames x; clear_value x)
    | with_reducible apply ite_kept
    | with_reducible apply sideWrite_kept
    | with_reducible apply report_kept
    | with_reducible apply State.setB_kept
    | with_reducible apply State.setDma_kept
    | with_reducible apply dmaStop_kept
    | with_reducible apply dmaNext_kept
    | split
    )

theorem burstEnd_kept : ∀ x0 x1 x2 x3 x4 x5 x6 x7, Kept Q F x0 → (_ : Q.mbx = none := by assumption) → (_ : Q.hbm = none := by assumption) → (_ : Q.sram = none := by assumption) → Kept Q F (burstEnd x0 x1 x2 x3 x4 x5 x6 x7) := by
  intro x0 x1 x2 x3 x4 x5 x6 x7 h0 _ _ _
  unfold burstEnd
  repeat' (first
    | with_reducible assumption
    | (extract_lets +onlyGivenNames x; clear_value x)
    | with_reducible apply ite_kept
    | with_reducible apply eccRead_kept
    | with_reducible apply burstFails_kept
    | with_reducible apply burstDone_kept
    | split
    )

theorem execDmaEnd_kept : ∀ x0 x1, Kept Q F x1 → (_ : Q.mbx = none := by assumption) → (_ : Q.sram = none := by assumption) → KeptOut Q F (execDmaEnd x0 x1) := by
  intro x0 x1 h0 _ _
  unfold execDmaEnd
  repeat' (first
    | with_reducible assumption
    | with_reducible apply ite_kept
    | with_reducible apply keptOut_next
    | with_reducible apply dmaErr_kept
    | with_reducible apply dmaStop_kept
    )

theorem execBurstEnd_kept : ∀ x0 x1 x2 x3 x4 x5, Kept Q F x5 → (_ : Q.mbx = none := by assumption) → (_ : Q.hbm = none := by assumption) → (_ : Q.sram = none := by assumption) → KeptOut Q F (execBurstEnd x0 x1 x2 x3 x4 x5) := by
  intro x0 x1 x2 x3 x4 x5 h0 _ _ _
  unfold execBurstEnd
  repeat' (first
    | with_reducible assumption
    | (extract_lets +onlyGivenNames x; clear_value x)
    | with_reducible apply ite_kept
    | with_reducible apply keptOut_next
    | with_reducible apply burstEnd_kept
    | split
    )

theorem loopStep_kept : ∀ x0 x1 x2, Kept Q F x0 → (_ : Q.mbx = none := by assumption) → (_ : Q.sram = none := by assumption) → Kept Q F (loopStep x0 x1 x2) := by
  intro x0 x1 x2 h0 _ _
  unfold loopStep
  repeat' (first
    | with_reducible assumption
    | (extract_lets +onlyGivenNames x; refine Kept.via Q F x ?_ (fun _ => ?_) <;> [subst x; clear_value x])
    | (extract_lets +onlyGivenNames x; clear_value x)
    | with_reducible apply ite_kept
    | with_reducible apply State.setDma_kept
    | with_reducible apply dmaNext_kept
    | with_reducible apply dmaFetch_kept
    )

theorem execDmaStart_kept : ∀ x0 x1 x2, Kept Q F x2 → (_ : Q.mbx = none := by assumption) → (_ : Q.sram = none := by assumption) → KeptOut Q F (execDmaStart x0 x1 x2) := by
  intro x0 x1 x2 h0 _ _
  unfold execDmaStart
  repeat' (first
    | with_reducible assumption
    | (extract_lets +onlyGivenNames x; refine Kept.via Q F x ?_ (fun _ => ?_) <;> [subst x; clear_value x])
    | (extract_lets +onlyGivenNames x; clear_value x)
    | with_reducible apply keptOut_next
    | with_reducible apply command_kept
    | with_reducible apply State.setB_kept
    | with_reducible apply State.setF_kept
    | with_reducible apply reply_kept
    | with_reducible apply dmaStart_kept
    )

theorem execLoop_kept : ∀ x0 x1 x2, Kept Q F x2 → (_ : Q.mbx = none := by assumption) → (_ : Q.sram = none := by assumption) → KeptOut Q F (execLoop x0 x1 x2) := by
  intro x0 x1 x2 h0 _ _
  unfold execLoop
  repeat' (first
    | with_reducible assumption
    | with_reducible apply ite_kept
    | with_reducible apply keptOut_next
    | with_reducible apply dmaErr_kept
    | with_reducible apply loopStep_kept
    )

theorem execDmaSignal_kept : ∀ x0 x1 x2, Kept Q F x2 → (_ : Q.mbx = none := by assumption) → (_ : Q.sram = none := by assumption) → KeptOut Q F (execDmaSignal x0 x1 x2) := by
  intro x0 x1 x2 h0 _ _
  unfold execDmaSignal
  repeat' (first
    | with_reducible assumption
    | (extract_lets +onlyGivenNames x; refine Kept.via Q F x ?_ (fun _ => ?_) <;> [subst x; clear_value x])
    | (extract_lets +onlyGivenNames x; clear_value x)
    | with_reducible apply ite_kept
    | with_reducible apply keptOut_next
    | with_reducible apply dmaErr_kept
    | with_reducible apply fire_kept
    | with_reducible apply vectorIf_kept
    | with_reducible apply dmaNext_kept
    )

theorem execDmaStatus_kept : ∀ x0 x1, Kept Q F x1 → (_ : Q.mbx = none := by assumption) → KeptOut Q F (execDmaStatus x0 x1) := by
  intro x0 x1 h0 _
  unfold execDmaStatus
  repeat' (first
    | with_reducible assumption
    | (extract_lets +onlyGivenNames x; clear_value x)
    | with_reducible apply keptOut_next
    | with_reducible apply command_kept
    | with_reducible apply reply_kept
    )

theorem execWait_kept : ∀ x0 x1 x2, Kept Q F x2 → (_ : Q.mbx = none := by assumption) → (_ : Q.sram = none := by assumption) → KeptOut Q F (execWait x0 x1 x2) := by
  intro x0 x1 x2 h0 _ _
  unfold execWait
  repeat' (first
    | with_reducible assumption
    | (extract_lets +onlyGivenNames x; refine Kept.via Q F x ?_ (fun _ => ?_) <;> [subst x; clear_value x])
    | (extract_lets +onlyGivenNames x; clear_value x)
    | with_reducible apply ite_kept
    | with_reducible apply keptOut_next
    | with_reducible apply dmaErr_kept
    | with_reducible apply State.setDma_kept
    | with_reducible apply waitDone_kept
    | with_reducible apply State.setF_kept
    )

theorem execWaitTimeout_kept : ∀ x0 x1, Kept Q F x1 → (_ : Q.mbx = none := by assumption) → (_ : Q.sram = none := by assumption) → KeptOut Q F (execWaitTimeout x0 x1) := by
  intro x0 x1 h0 _ _
  unfold execWaitTimeout
  repeat' (first
    | with_reducible assumption
    | (extract_lets +onlyGivenNames x; clear_value x)
    | with_reducible apply ite_kept
    | with_reducible apply keptOut_next
    | with_reducible apply dmaErr_kept
    )

theorem execDmaCtrlStart_kept : ∀ x0 x1 x2 x3 x4, Kept Q F x4 → (_ : Q.mbx = none := by assumption) → (_ : Q.sram = none := by assumption) → KeptOut Q F (execDmaCtrlStart x0 x1 x2 x3 x4) := by
  intro x0 x1 x2 x3 x4 h0 _ _
  unfold execDmaCtrlStart
  repeat' (first
    | with_reducible assumption
    | with_reducible apply keptOut_next
    | with_reducible apply onBar_kept
    | with_reducible apply dmaCtrlWrite_kept
    )

theorem execBurstStart_kept : ∀ x0 x1 x2, Kept Q F x2 → KeptOut Q F (execBurstStart x0 x1 x2) := by
  intro x0 x1 x2 h0
  unfold execBurstStart
  repeat' (first
    | with_reducible assumption
    | (extract_lets +onlyGivenNames x; refine Kept.via Q F x ?_ (fun _ => ?_) <;> [subst x; clear_value x])
    | (extract_lets +onlyGivenNames x; clear_value x)
    | with_reducible apply ite_kept
    | with_reducible apply keptOut_next
    | with_reducible apply burstStart_kept
    | split
    | with_reducible apply mk_kept
    )

theorem execMove_kept : ∀ x0 x1, Kept Q F x1 → (_ : Q.mbx = none := by assumption) → (_ : Q.sram = none := by assumption) → KeptOut Q F (execMove x0 x1) := by
  intro x0 x1 h0 _ _
  unfold execMove
  repeat' (first
    | with_reducible assumption
    | (extract_lets +onlyGivenNames x; clear_value x)
    | with_reducible apply ite_kept
    | with_reducible apply keptOut_next
    | with_reducible apply dmaErr_kept
    | with_reducible apply State.setB_kept
    | with_reducible apply State.setDma_kept
    )

-- Machine/Commit.lean

theorem showCmt_kept : ∀ x0, Kept Q F x0 → Kept Q F (showCmt x0) := by
  intro x0 h0
  unfold showCmt
  repeat' (first
    | with_reducible assumption
    | with_reducible apply State.setB_kept
    | with_reducible apply State.setF_kept
    )

theorem ticketGone_kept : ∀ x0 x1 x2, Kept Q F x0 → Kept Q F (ticketGone x0 x1 x2) := by
  intro x0 x1 x2 h0
  unfold ticketGone
  repeat' (first
    | with_reducible assumption
    | with_reducible apply showCmt_kept
    | with_reducible apply mk_kept
    )

theorem ovlShadows_kept : ∀ x0 x1, Kept Q F x0 → Kept Q F (ovlShadows x0 x1) := by
  intro x0 x1 h0
  unfold ovlShadows
  repeat' (first
    | with_reducible assumption
    | (with_reducible apply forEach_kept; intro _ _ _; beta_reduce)
    | with_reducible apply State.wr_kept
    )

theorem profileApply_kept : ∀ x0 x1 x2, Kept Q F x0 → (_ : Q.active = none := by assumption) → Kept Q F (profileApply x0 x1 x2) := by
  intro x0 x1 x2 h0 _
  unfold profileApply
  repeat' (first
    | with_reducible assumption
    | (extract_lets +onlyGivenNames x; refine Kept.via Q F x ?_ (fun _ => ?_) <;> [subst x; clear_value x])
    | (extract_lets +onlyGivenNames x; clear_value x)
    | (with_reducible apply forEach_kept; intro _ _ _; beta_reduce)
    | with_reducible apply State.setF_kept
    | with_reducible apply State.wrA_kept
    | with_reducible apply mk_kept
    )

theorem ticketReply_kept : ∀ x0 x1 x2 x3 x4, Kept Q F x0 → (_ : Q.mbx = none := by assumption) → Kept Q F (ticketReply x0 x1 x2 x3 x4) := by
  intro x0 x1 x2 x3 x4 h0 _
  unfold ticketReply
  repeat' (first
    | with_reducible assumption
    | with_reducible apply answer_kept
    )

theorem ticketAnswer_kept : ∀ x0 x1, Kept Q F x0 → (_ : Q.mbx = none := by assumption) → Kept Q F (ticketAnswer x0 x1) := by
  intro x0 x1 h0 _
  unfold ticketAnswer
  repeat' (first
    | with_reducible assumption
    | (extract_lets +onlyGivenNames x; refine Kept.via Q F x ?_ (fun _ => ?_) <;> [subst x; clear_value x])
    | (extract_lets +onlyGivenNames x; clear_value x)
    | with_reducible apply ite_kept
    | with_reducible apply ticketReply_kept
    | split
    )

theorem showRate_kept : ∀ x0, Kept Q F x0 → Kept Q F (showRate x0) := by
  intro x0 h0
  unfold showRate
  repeat' (first
    | with_reducible assumption
    | (with_reducible apply forEach_kept; intro _ _ _; beta_reduce)
    | with_reducible apply State.wr_kept
    )

theorem cfgTake_kept : ∀ x0 x1, Kept Q F x0 → Kept Q F (cfgTake x0 x1) := by
  intro x0 x1 h0
  unfold cfgTake
  repeat' (first
    | with_reducible assumption
    | (extract_lets +onlyGivenNames x; clear_value x)
    | with_reducible apply mk_kept
    )

theorem copyEvents_kept : ∀ x0 x1, Kept Q F x0 → Kept Q F (copyEvents x0 x1) := by
  intro x0 x1 h0
  unfold copyEvents
  repeat' (first
    | with_reducible assumption
    | (extract_lets +onlyGivenNames x; refine Kept.via Q F x ?_ (fun _ => ?_) <;> [subst x; clear_value x])
    | (extract_lets +onlyGivenNames x; clear_value x)
    | with_reducible apply ite_kept
    | with_reducible apply mk_kept
    | with_reducible apply mk_keptActive
    )

theorem ticketCancel_kept : ∀ x0 x1, Kept Q F x0 → (_ : Q.mbx = none := by assumption) → Kept Q F (ticketCancel x0 x1) := by
  intro x0 x1 h0 _
  unfold ticketCancel
  repeat' (first
    | with_reducible assumption
    | (extract_lets +onlyGivenNames x; refine Kept.via Q F x ?_ (fun _ => ?_) <;> [subst x; clear_value x])
    | with_reducible apply ite_kept
    | with_reducible apply ticketGone_kept
    | with_reducible apply deny_kept
    | split
    )

theorem cancelTickets_kept : ∀ x0 x1, Kept Q F x0 → (_ : Q.mbx = none := by assumption) → Kept Q F (cancelTickets x0 x1) := by
  intro x0 x1 h0 _
  unfold cancelTickets
  repeat' (first
    | with_reducible assumption
    | (with_reducible apply forEach_kept; intro _ _ _; beta_reduce)
    | with_reducible apply ticketCancel_kept
    )

theorem arrive_kept : ∀ x0 x1, Kept Q F x0 → Kept Q F (arrive x0 x1) := by
  intro x0 x1 h0
  unfold arrive
  repeat' (first
    | with_reducible assumption
    | with_reducible apply setClock_kept
    | with_reducible apply mk_kept
    )

theorem ticketAdd_kept : ∀ x0 x1 x2 x3 x4 x5 x6 x7, Kept Q F x0 → (_ : Q.mbx = none := by assumption) → Kept Q F (ticketAdd x0 x1 x2 x3 x4 x5 x6 x7) := by
  intro x0 x1 x2 x3 x4 x5 x6 x7 h0 _
  unfold ticketAdd
  repeat' (first
    | with_reducible assumption
    | (extract_lets +onlyGivenNames x; refine Kept.via Q F x ?_ (fun _ => ?_) <;> [subst x; clear_value x])
    | (extract_lets +onlyGivenNames x; clear_value x)
    | with_reducible apply ite_kept
    | (with_reducible apply forEach_kept; intro _ _ _; beta_reduce)
    | with_reducible apply setIdleBeats_kept
    | with_reducible apply showCmt_kept
    | with_reducible apply State.setB_kept
    | with_reducible apply ticketReply_kept
    | with_reducible apply mk_kept
    | with_reducible apply mk_keptActive
    )

theorem commitEffect_kept : ∀ x0 x1, Kept Q F x0 → (_ : Q.mbx = none := by assumption) → Kept Q F (commitEffect x0 x1) := by
  intro x0 x1 h0 _
  unfold commitEffect
  repeat' (first
    | with_reducible assumption
    | (extract_lets +onlyGivenNames x; refine Kept.via Q F x ?_ (fun _ => ?_) <;> [subst x; clear_value x])
    | (extract_lets +onlyGivenNames x; clear_value x)
    | with_reducible apply ite_kept
    | with_reducible apply answer_kept
    | with_reducible apply ticketAdd_kept
    | split
    )

theorem execCommit_kept : ∀ x0 x1 x2, Kept Q F x2 → (_ : Q.mbx = none := by assumption) → KeptOut Q F (execCommit x0 x1 x2) := by
  intro x0 x1 x2 h0 _
  unfold execCommit
  repeat' (first
    | with_reducible assumption
    | (extract_lets +onlyGivenNames x; refine Kept.via Q F x ?_ (fun _ => ?_) <;> [subst x; clear_value x])
    | with_reducible apply keptOut_next
    | with_reducible apply arrive_kept
    | with_reducible apply command_kept
    | with_reducible apply commitEffect_kept
    )

theorem execActiveRead_kept : ∀ x0 x1 x2 x3, Kept Q F x3 → (_ : Q.mbx = none := by assumption) → KeptOut Q F (execActiveRead x0 x1 x2 x3) := by
  intro x0 x1 x2 x3 h0 _
  unfold execActiveRead
  repeat' (first
    | with_reducible assumption
    | with_reducible apply keptOut_next
    | with_reducible apply command_kept
    | with_reducible apply reply_kept
    )

theorem profileEffect_kept : ∀ x0 x1, Kept Q F x0 → (_ : Q.mbx = none := by assumption) → Kept Q F (profileEffect x0 x1) := by
  intro x0 x1 h0 _
  unfold profileEffect
  repeat' (first
    | with_reducible assumption
    | (extract_lets +onlyGivenNames x; refine Kept.via Q F x ?_ (fun _ => ?_) <;> [subst x; clear_value x])
    | (extract_lets +onlyGivenNames x; clear_value x)
    | with_reducible apply ite_kept
    | with_reducible apply answer_kept
    | with_reducible apply ticketAdd_kept
    | with_reducible apply ovlShadows_kept
    | with_reducible apply restartBegin_kept
    | split
    )

theorem execProfileSet_kept : ∀ x0 x1 x2, Kept Q F x2 → (_ : Q.mbx = none := by assumption) → KeptOut Q F (execProfileSet x0 x1 x2) := by
  intro x0 x1 x2 h0 _
  unfold execProfileSet
  repeat' (first
    | with_reducible assumption
    | (extract_lets +onlyGivenNames x; refine Kept.via Q F x ?_ (fun _ => ?_) <;> [subst x; clear_value x])
    | with_reducible apply keptOut_next
    | with_reducible apply arrive_kept
    | with_reducible apply command_kept
    | with_reducible apply profileEffect_kept
    )

theorem divideEffect_kept : ∀ x0 x1, Kept Q F x0 → Kept Q F (divideEffect x0 x1) := by
  intro x0 x1 h0
  unfold divideEffect
  repeat' (first
    | with_reducible assumption
    | (extract_lets +onlyGivenNames x; clear_value x)
    | with_reducible apply restartBegin_kept
    )

theorem execCnvDivide_kept : ∀ x0 x1 x2, Kept Q F x2 → (_ : Q.mbx = none := by assumption) → KeptOut Q F (execCnvDivide x0 x1 x2) := by
  intro x0 x1 x2 h0 _
  unfold execCnvDivide
  repeat' (first
    | with_reducible assumption
    | (extract_lets +onlyGivenNames x; refine Kept.via Q F x ?_ (fun _ => ?_) <;> [subst x; clear_value x])
    | with_reducible apply keptOut_next
    | with_reducible apply arrive_kept
    | with_reducible apply command_kept
    | with_reducible apply divideEffect_kept
    )

theorem cancelEffect_kept : ∀ x0 x1 x2, Kept Q F x0 → (_ : Q.mbx = none := by assumption) → Kept Q F (cancelEffect x0 x1 x2) := by
  intro x0 x1 x2 h0 _
  unfold cancelEffect
  repeat' (first
    | with_reducible assumption
    | (extract_lets +onlyGivenNames x; refine Kept.via Q F x ?_ (fun _ => ?_) <;> [subst x; clear_value x])
    | with_reducible apply ite_kept
    | with_reducible apply ticketCancel_kept
    | with_reducible apply ticketReply_kept
    | split
    | with_reducible apply mk_kept
    )

theorem execCommitCancel_kept : ∀ x0 x1 x2, Kept Q F x2 → (_ : Q.mbx = none := by assumption) → KeptOut Q F (execCommitCancel x0 x1 x2) := by
  intro x0 x1 x2 h0 _
  unfold execCommitCancel
  repeat' (first
    | with_reducible assumption
    | (extract_lets +onlyGivenNames x; refine Kept.via Q F x ?_ (fun _ => ?_) <;> [subst x; clear_value x])
    | with_reducible apply ite_kept
    | with_reducible apply keptOut_next
    | with_reducible apply arrive_kept
    | with_reducible apply command_kept
    | with_reducible apply cancelEffect_kept
    | with_reducible apply deny_kept
    | split
    )

theorem gapAllow_kept : ∀ x0 x1, Kept Q F x0 → Kept Q F (gapAllow x0 x1) := by
  intro x0 x1 h0
  unfold gapAllow
  repeat' (first
    | with_reducible assumption
    | (extract_lets +onlyGivenNames x; refine Kept.via Q F x ?_ (fun _ => ?_) <;> [subst x; clear_value x])
    | (extract_lets +onlyGivenNames x; clear_value x)
    | with_reducible apply ite_kept
    | with_reducible apply mk_kept
    | with_reducible apply mk_keptActive
    )

theorem execProfileGet_kept : ∀ x0 x1, Kept Q F x1 → (_ : Q.mbx = none := by assumption) → KeptOut Q F (execProfileGet x0 x1) := by
  intro x0 x1 h0 _
  unfold execProfileGet
  repeat' (first
    | with_reducible assumption
    | with_reducible apply keptOut_next
    | with_reducible apply command_kept
    | with_reducible apply reply_kept
    )

theorem groupsApply_kept : ∀ x0 x1, Kept Q F x0 → (_ : Q.active = none := by assumption) → Kept Q F (groupsApply x0 x1) := by
  intro x0 x1 h0 _
  unfold groupsApply
  repeat' (first
    | with_reducible assumption
    | (extract_lets +onlyGivenNames x; refine Kept.via Q F x ?_ (fun _ => ?_) <;> [subst x; clear_value x])
    | (extract_lets +onlyGivenNames x; clear_value x)
    | with_reducible apply ite_kept
    | (with_reducible apply forEach_kept; intro _ _ _; beta_reduce)
    | with_reducible apply State.wrA_kept
    | with_reducible apply mk_kept
    )

theorem ticketSettings_kept : ∀ x0 x1 x2, Kept Q F x0 → (_ : Q.active = none := by assumption) → Kept Q F (ticketSettings x0 x1 x2) := by
  intro x0 x1 x2 h0 _
  unfold ticketSettings
  repeat' (first
    | with_reducible assumption
    | (extract_lets +onlyGivenNames x; refine Kept.via Q F x ?_ (fun _ => ?_) <;> [subst x; clear_value x])
    | (extract_lets +onlyGivenNames x; clear_value x)
    | with_reducible apply ite_kept
    | with_reducible apply profileApply_kept
    | with_reducible apply groupsApply_kept
    | split
    )

theorem ticketCopy_kept : ∀ x0 x1, Kept Q F x0 → (_ : Q.active = none := by assumption) → (_ : Q.mbx = none := by assumption) → Kept Q F (ticketCopy x0 x1) := by
  intro x0 x1 h0 _ _
  unfold ticketCopy
  repeat' (first
    | with_reducible assumption
    | (extract_lets +onlyGivenNames x; refine Kept.via Q F x ?_ (fun _ => ?_) <;> [subst x; clear_value x])
    | (extract_lets +onlyGivenNames x; clear_value x)
    | with_reducible apply ite_kept
    | with_reducible apply gapAllow_kept
    | with_reducible apply ticketSettings_kept
    | with_reducible apply ticketAnswer_kept
    | with_reducible apply showRate_kept
    | with_reducible apply State.wr64_kept
    | with_reducible apply copyEvents_kept
    | with_reducible apply ticketGone_kept
    | with_reducible apply cfgTake_kept
    )

theorem execCommitStatus_kept : ∀ x0 x1, Kept Q F x1 → (_ : Q.mbx = none := by assumption) → KeptOut Q F (execCommitStatus x0 x1) := by
  intro x0 x1 h0 _
  unfold execCommitStatus
  repeat' (first
    | with_reducible assumption
    | with_reducible apply ite_kept
    | with_reducible apply keptOut_next
    | with_reducible apply command_kept
    | with_reducible apply deny_kept
    | with_reducible apply ticketReply_kept
    | split
    )

theorem execCommitCopy_kept : ∀ x0, Kept Q F x0 → (_ : Q.active = none := by assumption) → (_ : Q.mbx = none := by assumption) → KeptOut Q F (execCommitCopy x0) := by
  intro x0 h0 _ _
  unfold execCommitCopy
  repeat' (first
    | with_reducible assumption
    | with_reducible apply keptOut_next
    | (with_reducible apply forEach_kept; intro _ _ _; beta_reduce)
    | with_reducible apply ticketCopy_kept
    )

-- Machine/Display.lean

theorem dspVec_kept : ∀ x0 x1, Kept Q F x0 → Kept Q F (dspVec x0 x1) := by
  intro x0 x1 h0
  unfold dspVec
  repeat' (first
    | with_reducible assumption
    | with_reducible apply vectorIf_kept
    )

theorem underrun_kept : ∀ x0, Kept Q F x0 → Kept Q F (underrun x0) := by
  intro x0 h0
  unfold underrun
  repeat' (first
    | with_reducible assumption
    | with_reducible apply report_kept
    | with_reducible apply dspVec_kept
    | with_reducible apply State.addR_kept
    | with_reducible apply State.setB_kept
    )

theorem tagReads_kept : ∀ x0, Kept Q F x0 → Kept Q F (tagReads x0) := by
  intro x0 h0
  unfold tagReads
  repeat' (first
    | with_reducible assumption
    | (extract_lets +onlyGivenNames x; refine Kept.via Q F x ?_ (fun _ => ?_) <;> [subst x; clear_value x])
    | (extract_lets +onlyGivenNames x; refine Kept.viaFst Q F x ?_ (fun _ => ?_) <;> [subst x; clear_value x])
    | (extract_lets +onlyGivenNames x; clear_value x)
    | with_reducible apply ite_kept
    | (with_reducible apply forEach_kept; intro _ _ _; beta_reduce)
    | with_reducible apply eccRead_kept
    | refine Kept.fst (eccRead_kept _ _ _ _ ?_) (by with_reducible assumption)
    | split
    )

theorem setDsp_kept : ∀ x0 x1, Kept Q F x0 → Kept Q F (setDsp x0 x1) := by
  intro x0 x1 h0
  unfold setDsp
  repeat' (first
    | with_reducible assumption
    | (extract_lets +onlyGivenNames x; clear_value x)
    | with_reducible apply mk_kept
    )

theorem dspReset_kept : ∀ x0, Kept Q F x0 → Kept Q F (dspReset x0) := by
  intro x0 h0
  unfold dspReset
  repeat' (first
    | with_reducible assumption
    | with_reducible apply setDsp_kept
    )

theorem dspSleep_kept : ∀ x0, Kept Q F x0 → Kept Q F (dspSleep x0) := by
  intro x0 h0
  unfold dspSleep
  repeat' (first
    | with_reducible assumption
    | (extract_lets +onlyGivenNames x; clear_value x)
    | with_reducible apply setDsp_kept
    | with_reducible apply State.setF_kept
    )

theorem eccHits_kept : ∀ x0 x1, Kept Q F x0 → Kept Q F (eccHits x0 x1) := by
  intro x0 x1 h0
  unfold eccHits
  repeat' (first
    | with_reducible assumption
    | (with_reducible apply forEach_kept; intro _ _ _; beta_reduce)
    | with_reducible apply eccCe_kept
    | with_reducible apply eccUe_kept
    )

theorem freeHandle_kept : ∀ x0 x1, Kept Q F x0 → Kept Q F (freeHandle x0 x1) := by
  intro x0 x1 h0
  unfold freeHandle
  repeat' (first
    | with_reducible assumption
    | (extract_lets +onlyGivenNames x; clear_value x)
    | with_reducible apply setDsp_kept
    )

theorem dropGone_kept : ∀ x0, Kept Q F x0 → (_ : Q.active = none := by assumption) → Kept Q F (dropGone x0) := by
  intro x0 h0 _
  unfold dropGone
  repeat' (first
    | with_reducible assumption
    | (extract_lets +onlyGivenNames x; refine Kept.via Q F x ?_ (fun _ => ?_) <;> [subst x; clear_value x])
    | (extract_lets +onlyGivenNames x; clear_value x)
    | with_reducible apply ite_kept
    | (with_reducible apply forEach_kept; intro _ _ _; beta_reduce)
    | with_reducible apply State.wrA_kept
    | with_reducible apply State.setB_kept
    | with_reducible apply setDsp_kept
    | with_reducible apply freeHandle_kept
    )

theorem replyAll_kept : ∀ x0 x1 x2 x3 x4, Kept Q F x0 → (_ : Q.mbx = none := by assumption) → Kept Q F (replyAll x0 x1 x2 x3 x4) := by
  intro x0 x1 x2 x3 x4 h0 _
  unfold replyAll
  repeat' (first
    | with_reducible assumption
    | (with_reducible apply forEach_kept; intro _ _ _; beta_reduce)
    | with_reducible apply reply_kept
    )

theorem doCopy_kept : ∀ x0, Kept Q F x0 → (_ : Q.active = none := by assumption) → (_ : Q.mbx = none := by assumption) → (_ : Q.hbm = none := by assumption) → Kept Q F (doCopy x0).1 := by
  intro x0 h0 _ _ _
  unfold doCopy
  repeat' (first
    | with_reducible assumption
    | (extract_lets +onlyGivenNames x; refine Kept.via Q F x ?_ (fun _ => ?_) <;> [subst x; clear_value x])
    | (extract_lets +onlyGivenNames x; clear_value x)
    | with_reducible apply ite_kept
    | with_reducible apply ite_keptFst
    | dsimp -zeta only
    | (with_reducible apply forEach_kept; intro _ _ _; beta_reduce)
    | with_reducible apply State.setB_kept
    | with_reducible apply setDsp_kept
    | with_reducible apply replyAll_kept
    | with_reducible apply dspVec_kept
    | with_reducible apply State.wrA_kept
    | with_reducible apply State.hbmWrite_kept
    | split
    )

theorem renderL0_kept : ∀ x0 x1 x2 x3, Kept Q F x0 → (_ : Q.hbm = none := by assumption) → Kept Q F (renderL0 x0 x1 x2 x3) := by
  intro x0 x1 x2 x3 h0 _
  unfold renderL0
  repeat' (first
    | with_reducible assumption
    | (extract_lets +onlyGivenNames x; clear_value x)
    | with_reducible apply State.hbmWrite_kept
    )

theorem l0Step_kept : ∀ x0, Kept Q F x0 → (_ : Q.hbm = none := by assumption) → Kept Q F (l0Step x0).1 := by
  intro x0 h0 _
  unfold l0Step
  repeat' (first
    | with_reducible assumption
    | (extract_lets +onlyGivenNames x; refine Kept.via Q F x ?_ (fun _ => ?_) <;> [subst x; clear_value x])
    | (extract_lets +onlyGivenNames x; clear_value x)
    | with_reducible apply ite_keptFst
    | dsimp -zeta only
    | with_reducible apply setDsp_kept
    | with_reducible apply renderL0_kept
    | split
    )

theorem vclkSet_kept : ∀ x0 x1, Kept Q F x0 → Kept Q F (vclkSet x0 x1) := by
  intro x0 x1 h0
  unfold vclkSet
  repeat' (first
    | with_reducible assumption
    | (extract_lets +onlyGivenNames x; refine Kept.via Q F x ?_ (fun _ => ?_) <;> [subst x; clear_value x])
    | (extract_lets +onlyGivenNames x; clear_value x)
    | with_reducible apply ite_kept
    | with_reducible apply State.addR_kept
    | with_reducible apply State.setB_kept
    | with_reducible apply State.wr_kept
    )

theorem takeMode_kept : ∀ x0, Kept Q F x0 → Kept Q F (takeMode x0) := by
  intro x0 h0
  unfold takeMode
  repeat' (first
    | with_reducible assumption
    | (extract_lets +onlyGivenNames x; refine Kept.via Q F x ?_ (fun _ => ?_) <;> [subst x; clear_value x])
    | (extract_lets +onlyGivenNames x; clear_value x)
    | with_reducible apply ite_kept
    | with_reducible apply setDsp_kept
    | with_reducible apply vclkSet_kept
    | with_reducible apply State.setB_kept
    | with_reducible apply State.wr64_kept
    | with_reducible apply State.setF_kept
    )

theorem markTorn_kept : ∀ x0 x1, Kept Q F x0 → Kept Q F (markTorn x0 x1) := by
  intro x0 x1 h0
  unfold markTorn
  repeat' (first
    | with_reducible assumption
    | (extract_lets +onlyGivenNames x; refine Kept.via Q F x ?_ (fun _ => ?_) <;> [subst x; clear_value x])
    | (extract_lets +onlyGivenNames x; clear_value x)
    | with_reducible apply ite_kept
    | with_reducible apply dspVec_kept
    | with_reducible apply State.setB_kept
    | with_reducible apply State.addR_kept
    | with_reducible apply setDsp_kept
    )

theorem tagsStart_kept : ∀ x0, Kept Q F x0 → Kept Q F (tagsStart x0) := by
  intro x0 h0
  unfold tagsStart
  repeat' (first
    | with_reducible assumption
    | (extract_lets +onlyGivenNames x; refine Kept.via Q F x ?_ (fun _ => ?_) <;> [subst x; clear_value x])
    | (extract_lets +onlyGivenNames x; clear_value x)
    | with_reducible apply setDsp_kept
    | with_reducible apply markTorn_kept
    | with_reducible apply tagReads_kept
    )

theorem copyPoint_kept : ∀ x0 x1, Kept Q F x0 → (_ : Q.active = none := by assumption) → (_ : Q.mbx = none := by assumption) → (_ : Q.hbm = none := by assumption) → Kept Q F (copyPoint x0 x1) := by
  intro s h k _ _ _
  unfold copyPoint
  extract_lets first s1
  have h1 : Kept Q F s1 := dropGone_kept _ (eccHits_kept _ _ k)
  clear_value s1
  split
  rename_i s2 copied e2
  have h2 : Kept Q F s2 := Kept.fst (doCopy_kept _ h1) e2
  split
  rename_i s3 switched e3
  have h3 : Kept Q F s3 := Kept.fst (l0Step_kept _ h2) e3
  extract_lets quiet d3 s4 d4 s5 left s6 d6 s7
  have h4 : Kept Q F s4 := setDsp_kept _ _ h3
  have h5 : Kept Q F s5 := ite_kept (setDsp_kept _ _ (State.setF_kept _ _ _ _ _ h4)) h4
  have h7 : Kept Q F s7 := setDsp_kept _ _ (takeMode_kept _ h5)
  exact dspVec_kept _ _ (ite_kept (setDsp_kept _ _ h7) (tagsStart_kept _ h7))

theorem endStretch_kept : ∀ x0, Kept Q F x0 → Kept Q F (endStretch x0) := by
  intro x0 h0
  unfold endStretch
  repeat' (first
    | with_reducible assumption
    | (extract_lets +onlyGivenNames x; refine Kept.via Q F x ?_ (fun _ => ?_) <;> [subst x; clear_value x])
    | (extract_lets +onlyGivenNames x; clear_value x)
    | with_reducible apply ite_kept
    | with_reducible apply State.setB_kept
    | with_reducible apply setDsp_kept
    )

theorem askCopy_kept : ∀ x0, Kept Q F x0 → Kept Q F (askCopy x0) := by
  intro x0 h0
  unfold askCopy
  repeat' (first
    | with_reducible assumption
    | (extract_lets +onlyGivenNames x; refine Kept.via Q F x ?_ (fun _ => ?_) <;> [subst x; clear_value x])
    | with_reducible apply ite_kept
    | with_reducible apply endStretch_kept
    | with_reducible apply State.setB_kept
    | with_reducible apply dspVec_kept
    )

theorem dspCmtWrite_kept : ∀ x0 x1, Kept Q F x0 → Kept Q F (dspCmtWrite x0 x1) := by
  intro x0 x1 h0
  unfold dspCmtWrite
  repeat' (first
    | with_reducible assumption
    | (extract_lets +onlyGivenNames x; refine Kept.via Q F x ?_ (fun _ => ?_) <;> [subst x; clear_value x])
    | (extract_lets +onlyGivenNames x; clear_value x)
    | with_reducible apply ite_kept
    | with_reducible apply endStretch_kept
    | with_reducible apply setDsp_kept
    | with_reducible apply askCopy_kept
    )

theorem dspReturn_kept : ∀ x0, Kept Q F x0 → Kept Q F (dspReturn x0) := by
  intro x0 h0
  unfold dspReturn
  repeat' (first
    | with_reducible assumption
    | (extract_lets +onlyGivenNames x; clear_value x)
    | with_reducible apply ite_kept
    | with_reducible apply setDsp_kept
    )

theorem execCopyPoint_kept : ∀ x0 x1, Kept Q F x1 → (_ : Q.active = none := by assumption) → (_ : Q.mbx = none := by assumption) → (_ : Q.hbm = none := by assumption) → KeptOut Q F (execCopyPoint x0 x1) := by
  intro x0 x1 h0 _ _ _
  unfold execCopyPoint
  repeat' (first
    | with_reducible assumption
    | with_reducible apply ite_kept
    | with_reducible apply keptOut_next
    | with_reducible apply copyPoint_kept
    )

theorem lineRead_kept : ∀ x0 x1 x2 x3, Kept Q F x0 → Kept Q F (lineRead x0 x1 x2 x3) := by
  intro x0 x1 x2 x3 h0
  unfold lineRead
  repeat' (first
    | with_reducible assumption
    | (extract_lets +onlyGivenNames x; refine Kept.via Q F x ?_ (fun _ => ?_) <;> [subst x; clear_value x])
    | (extract_lets +onlyGivenNames x; refine Kept.viaFst Q F x ?_ (fun _ => ?_) <;> [subst x; clear_value x])
    | (extract_lets +onlyGivenNames x; clear_value x)
    | with_reducible apply ite_kept
    | (with_reducible apply forEach_kept; intro _ _ _; beta_reduce)
    | with_reducible apply eccRead_kept
    | refine Kept.fst (eccRead_kept _ _ _ _ ?_) (by with_reducible assumption)
    | with_reducible apply markTorn_kept
    )

theorem execDspAux_kept : ∀ x0 x1 x2, Kept Q F x2 → (_ : Q.mbx = none := by assumption) → KeptOut Q F (execDspAux x0 x1 x2) := by
  intro x0 x1 x2 h0 _
  unfold execDspAux
  repeat' (first
    | with_reducible assumption
    | (extract_lets +onlyGivenNames x; refine Kept.via Q F x ?_ (fun _ => ?_) <;> [subst x; clear_value x])
    | (extract_lets +onlyGivenNames x; clear_value x)
    | with_reducible apply keptOut_next
    | with_reducible apply command_kept
    | with_reducible apply State.put_kept
    | with_reducible apply deny_kept
    | with_reducible apply reply_kept
    | split
    )

theorem frameStart_kept : ∀ x0, Kept Q F x0 → Kept Q F (frameStart x0) := by
  intro x0 h0
  unfold frameStart
  repeat' (first
    | with_reducible assumption
    | (extract_lets +onlyGivenNames x; refine Kept.via Q F x ?_ (fun _ => ?_) <;> [subst x; clear_value x])
    | (extract_lets +onlyGivenNames x; clear_value x)
    | with_reducible apply ite_kept
    | with_reducible apply State.wr64_kept
    | with_reducible apply setDsp_kept
    | with_reducible apply dspVec_kept
    | with_reducible apply State.setB_kept
    )

theorem scanLine_kept : ∀ x0 x1 x2, Kept Q F x0 → Kept Q F (scanLine x0 x1 x2) := by
  intro x0 x1 x2 h0
  unfold scanLine
  repeat' (first
    | with_reducible assumption
    | (extract_lets +onlyGivenNames x; refine Kept.via Q F x ?_ (fun _ => ?_) <;> [subst x; clear_value x])
    | (extract_lets +onlyGivenNames x; clear_value x)
    | with_reducible apply ite_kept
    | (with_reducible apply forEach_kept; intro _ _ _; beta_reduce)
    | with_reducible apply eccHits_kept
    | with_reducible apply lineRead_kept
    | with_reducible apply State.put_kept
    | with_reducible apply underrun_kept
    | with_reducible apply markTorn_kept
    | with_reducible apply tagReads_kept
    | with_reducible apply frameStart_kept
    | with_reducible apply setDsp_kept
    )

theorem execScanoutLine_kept : ∀ x0 x1 x2, Kept Q F x2 → KeptOut Q F (execScanoutLine x0 x1 x2) := by
  intro x0 x1 x2 h0
  unfold execScanoutLine
  repeat' (first
    | with_reducible assumption
    | with_reducible apply ite_kept
    | with_reducible apply keptOut_next
    | with_reducible apply scanLine_kept
    )

theorem dspHostGone_kept : ∀ x0, Kept Q F x0 → Kept Q F (dspHostGone x0) := by
  intro x0 h0
  unfold dspHostGone
  repeat' (first
    | with_reducible assumption
    | (extract_lets +onlyGivenNames x; clear_value x)
    | with_reducible apply setDsp_kept
    )

theorem linkFail_kept : ∀ x0, Kept Q F x0 → Kept Q F (linkFail x0) := by
  intro x0 h0
  unfold linkFail
  repeat' (first
    | with_reducible assumption
    | with_reducible apply report_kept
    | with_reducible apply dspVec_kept
    | with_reducible apply State.setB_kept
    | with_reducible apply State.setF_kept
    )

theorem palWrite_kept : ∀ x0 x1 x2 x3, Kept Q F x0 → Kept Q F (palWrite x0 x1 x2 x3) := by
  intro x0 x1 x2 x3 h0
  unfold palWrite
  repeat' (first
    | with_reducible assumption
    | (extract_lets +onlyGivenNames x; clear_value x)
    | with_reducible apply ite_kept
    | (with_reducible apply forEach_kept; intro _ _ _; beta_reduce)
    | with_reducible apply State.setF_kept
    | with_reducible apply State.wr_kept
    )

theorem execDspPalSet_kept : ∀ x0 x1, Kept Q F x1 → (_ : Q.mbx = none := by assumption) → KeptOut Q F (execDspPalSet x0 x1) := by
  intro x0 x1 h0 _
  unfold execDspPalSet
  repeat' (first
    | with_reducible assumption
    | (extract_lets +onlyGivenNames x; clear_value x)
    | with_reducible apply keptOut_next
    | with_reducible apply command_kept
    | with_reducible apply reply_kept
    | with_reducible apply palWrite_kept
    )

theorem execHpdFall_kept : ∀ x0, Kept Q F x0 → KeptOut Q F (execHpdFall x0) := by
  intro x0 h0
  unfold execHpdFall
  repeat' (first
    | with_reducible assumption
    | (extract_lets +onlyGivenNames x; clear_value x)
    | with_reducible apply ite_kept
    | with_reducible apply keptOut_next
    | with_reducible apply linkFail_kept
    | with_reducible apply setDsp_kept
    | with_reducible apply State.setB_kept
    )

theorem execHpdRise_kept : ∀ x0, Kept Q F x0 → KeptOut Q F (execHpdRise x0) := by
  intro x0 h0
  unfold execHpdRise
  repeat' (first
    | with_reducible assumption
    | (extract_lets +onlyGivenNames x; clear_value x)
    | with_reducible apply ite_kept
    | with_reducible apply keptOut_next
    | with_reducible apply setDsp_kept
    | with_reducible apply State.setB_kept
    )

theorem execDspBufReg_kept : ∀ x0 x1, Kept Q F x1 → (_ : Q.mbx = none := by assumption) → KeptOut Q F (execDspBufReg x0 x1) := by
  intro x0 x1 h0 _
  unfold execDspBufReg
  repeat' (first
    | with_reducible assumption
    | (extract_lets +onlyGivenNames x; refine Kept.via Q F x ?_ (fun _ => ?_) <;> [subst x; clear_value x])
    | (extract_lets +onlyGivenNames x; clear_value x)
    | with_reducible apply keptOut_next
    | with_reducible apply command_kept
    | with_reducible apply State.useFree_kept
    | with_reducible apply reply_kept
    | with_reducible apply setDsp_kept
    )

theorem execDspModeSet_kept : ∀ x0 x1, Kept Q F x1 → (_ : Q.mbx = none := by assumption) → KeptOut Q F (execDspModeSet x0 x1) := by
  intro x0 x1 h0 _
  unfold execDspModeSet
  repeat' (first
    | with_reducible assumption
    | (extract_lets +onlyGivenNames x; clear_value x)
    | with_reducible apply keptOut_next
    | with_reducible apply command_kept
    | with_reducible apply reply_kept
    | with_reducible apply setDsp_kept
    )

theorem execDspCmtDirty_kept : ∀ x0 x1, Kept Q F x1 → KeptOut Q F (execDspCmtDirty x0 x1) := by
  intro x0 x1 h0
  unfold execDspCmtDirty
  repeat' (first
    | with_reducible assumption
    | with_reducible apply keptOut_next
    | with_reducible apply dspCmtWrite_kept
    )

theorem execDspBufFree_kept : ∀ x0 x1, Kept Q F x1 → (_ : Q.mbx = none := by assumption) → KeptOut Q F (execDspBufFree x0 x1) := by
  intro x0 x1 h0 _
  unfold execDspBufFree
  repeat' (first
    | with_reducible assumption
    | (extract_lets +onlyGivenNames x; clear_value x)
    | with_reducible apply keptOut_next
    | with_reducible apply command_kept
    | with_reducible apply reply_kept
    | with_reducible apply freeHandle_kept
    )

theorem execStaticRefreshStretch_kept : ∀ x0, Kept Q F x0 → KeptOut Q F (execStaticRefreshStretch x0) := by
  intro x0 h0
  unfold execStaticRefreshStretch
  repeat' (first
    | with_reducible assumption
    | (extract_lets +onlyGivenNames x; clear_value x)
    | with_reducible apply ite_kept
    | with_reducible apply keptOut_next
    | with_reducible apply State.setB_kept
    | with_reducible apply setDsp_kept
    )

theorem execDspCommit_kept : ∀ x0 x1, Kept Q F x1 → (_ : Q.mbx = none := by assumption) → KeptOut Q F (execDspCommit x0 x1) := by
  intro x0 x1 h0 _
  unfold execDspCommit
  repeat' (first
    | with_reducible assumption
    | (extract_lets +onlyGivenNames x; refine Kept.via Q F x ?_ (fun _ => ?_) <;> [subst x; clear_value x])
    | (extract_lets +onlyGivenNames x; clear_value x)
    | with_reducible apply keptOut_next
    | with_reducible apply command_kept
    | with_reducible apply askCopy_kept
    | with_reducible apply setDsp_kept
    )

theorem execDspStatus_kept : ∀ x0 x1, Kept Q F x1 → (_ : Q.mbx = none := by assumption) → KeptOut Q F (execDspStatus x0 x1) := by
  intro x0 x1 h0 _
  unfold execDspStatus
  repeat' (first
    | with_reducible assumption
    | with_reducible apply keptOut_next
    | with_reducible apply command_kept
    | with_reducible apply reply_kept
    )

theorem execDspCmtGo_kept : ∀ x0 x1, Kept Q F x1 → KeptOut Q F (execDspCmtGo x0 x1) := by
  intro x0 x1 h0
  unfold execDspCmtGo
  repeat' (first
    | with_reducible assumption
    | with_reducible apply keptOut_next
    | with_reducible apply dspCmtWrite_kept
    )

theorem execLinkTrainingEnd_kept : ∀ x0 x1 x2, Kept Q F x2 → KeptOut Q F (execLinkTrainingEnd x0 x1 x2) := by
  intro x0 x1 x2 h0
  unfold execLinkTrainingEnd
  repeat' (first
    | with_reducible assumption
    | (extract_lets +onlyGivenNames x; clear_value x)
    | with_reducible apply ite_kept
    | with_reducible apply keptOut_next
    | with_reducible apply setDsp_kept
    | with_reducible apply State.setF_kept
    | with_reducible apply linkFail_kept
    )

-- Machine/Monitor.lean

theorem setMon_kept : ∀ x0 x1, Kept Q F x0 → Kept Q F (setMon x0 x1) := by
  intro x0 x1 h0
  unfold setMon
  repeat' (first
    | with_reducible assumption
    | (extract_lets +onlyGivenNames x; clear_value x)
    | with_reducible apply mk_kept
    )

theorem fwSeal_kept : ∀ x0 x1, Kept Q F x0 → Kept Q F (fwSeal x0 x1) := by
  intro x0 x1 h0
  unfold fwSeal
  repeat' (first
    | with_reducible assumption
    | (with_reducible apply forEach_kept; intro _ _ _; beta_reduce)
    | with_reducible apply itemSeal_kept
    )

theorem setMonCore_kept : ∀ x0 x1 x2, Kept Q F x0 → Kept Q F (setMonCore x0 x1 x2) := by
  intro x0 x1 x2 h0
  unfold setMonCore
  repeat' (first
    | with_reducible assumption
    | (extract_lets +onlyGivenNames x; clear_value x)
    | with_reducible apply setMon_kept
    )

theorem showMon_kept : ∀ x0 x1 x2, Kept Q F x0 → Kept Q F (showMon x0 x1 x2) := by
  intro x0 x1 x2 h0
  unfold showMon
  repeat' (first
    | with_reducible assumption
    | with_reducible apply State.setF_kept
    )

theorem startEntry_kept : ∀ x0 x1 x2, Kept Q F x0 → Kept Q F (startEntry x0 x1 x2) := by
  intro x0 x1 x2 h0
  unfold startEntry
  repeat' (first
    | with_reducible assumption
    | (extract_lets +onlyGivenNames x; clear_value x)
    | with_reducible apply showMon_kept
    | with_reducible apply setMonCore_kept
    )

theorem resume_kept : ∀ x0 x1, Kept Q F x0 → Kept Q F (resume x0 x1) := by
  intro x0 x1 h0
  unfold resume
  repeat' (first
    | with_reducible assumption
    | (extract_lets +onlyGivenNames x; clear_value x)
    | with_reducible apply ite_kept
    | with_reducible apply startEntry_kept
    | with_reducible apply showMon_kept
    | with_reducible apply setMonCore_kept
    | split
    )

theorem injectStart_kept : ∀ x0 x1, Kept Q F x0 → Kept Q F (injectStart x0 x1) := by
  intro x0 x1 h0
  unfold injectStart
  repeat' (first
    | with_reducible assumption
    | (extract_lets +onlyGivenNames x; clear_value x)
    | with_reducible apply ite_kept
    | with_reducible apply State.setF_kept
    | with_reducible apply setMonCore_kept
    | with_reducible apply resume_kept
    )

theorem monCause_kept : ∀ x0 x1 x2, Kept Q F x0 → Kept Q F (monCause x0 x1 x2) := by
  intro x0 x1 x2 h0
  unfold monCause
  repeat' (first
    | with_reducible assumption
    | (extract_lets +onlyGivenNames x; refine Kept.via Q F x ?_ (fun _ => ?_) <;> [subst x; clear_value x])
    | with_reducible apply ite_kept
    | with_reducible apply State.setB_kept
    | with_reducible apply mk_kept
    )

theorem resumePair_kept : ∀ x0 x1, Kept Q F x0 → Kept Q F (resumePair x0 x1) := by
  intro x0 x1 h0
  unfold resumePair
  repeat' (first
    | with_reducible assumption
    | (extract_lets +onlyGivenNames x; refine Kept.via Q F x ?_ (fun _ => ?_) <;> [subst x; clear_value x])
    | (extract_lets +onlyGivenNames x; clear_value x)
    | with_reducible apply ite_kept
    | with_reducible apply resume_kept
    )

theorem moveOn_kept : ∀ x0 x1 x2, Kept Q F x0 → Kept Q F (moveOn x0 x1 x2) := by
  intro x0 x1 x2 h0
  unfold moveOn
  repeat' (first
    | with_reducible assumption
    | (extract_lets +onlyGivenNames x; refine Kept.via Q F x ?_ (fun _ => ?_) <;> [subst x; clear_value x])
    | (extract_lets +onlyGivenNames x; clear_value x)
    | with_reducible apply ite_kept
    | with_reducible apply setMonCore_kept
    | with_reducible apply startEntry_kept
    | with_reducible apply monCause_kept
    | with_reducible apply fire_kept
    | with_reducible apply resumePair_kept
    | with_reducible apply resume_kept
    | split
    )

theorem injectRequest_kept : ∀ x0 x1 x2, Kept Q F x0 → Kept Q F (injectRequest x0 x1 x2) := by
  intro x0 x1 x2 h0
  unfold injectRequest
  repeat' (first
    | with_reducible assumption
    | (extract_lets +onlyGivenNames x; refine Kept.via Q F x ?_ (fun _ => ?_) <;> [subst x; clear_value x])
    | (extract_lets +onlyGivenNames x; clear_value x)
    | with_reducible apply ite_kept
    | with_reducible apply setMon_kept
    | with_reducible apply fwSeal_kept
    | with_reducible apply injectStart_kept
    | with_reducible apply moveOn_kept
    )

theorem passStart_kept : ∀ x0 x1, Kept Q F x0 → Kept Q F (passStart x0 x1) := by
  intro x0 x1 h0
  unfold passStart
  repeat' (first
    | with_reducible assumption
    | (extract_lets +onlyGivenNames x; refine Kept.via Q F x ?_ (fun _ => ?_) <;> [subst x; clear_value x])
    | (extract_lets +onlyGivenNames x; clear_value x)
    | with_reducible apply ite_kept
    | with_reducible apply State.setF_kept
    | with_reducible apply State.setB_kept
    | with_reducible apply setMonCore_kept
    | with_reducible apply resume_kept
    )

theorem limits_kept : ∀ x0 x1 x2 x3, Kept Q F x0 → Kept Q F (limits x0 x1 x2 x3) := by
  intro x0 x1 x2 x3 h0
  unfold limits
  repeat' (first
    | with_reducible assumption
    | (extract_lets +onlyGivenNames x; clear_value x)
    | with_reducible apply ite_kept
    | (with_reducible apply forEach_kept; intro _ _ _; beta_reduce)
    | with_reducible apply report_kept
    | with_reducible apply monCause_kept
    | with_reducible apply fire_kept
    | with_reducible apply State.setB_kept
    )

theorem resultWord_kept : ∀ x0 x1 x2 x3 x4, Kept Q F x0 → Kept Q F (resultWord x0 x1 x2 x3 x4) := by
  intro x0 x1 x2 x3 x4 h0
  unfold resultWord
  repeat' (first
    | with_reducible assumption
    | (extract_lets +onlyGivenNames x; refine Kept.via Q F x ?_ (fun _ => ?_) <;> [subst x; clear_value x])
    | (extract_lets +onlyGivenNames x; clear_value x)
    | with_reducible apply ite_kept
    | (with_reducible apply forEach_kept; intro _ _ _; beta_reduce)
    | with_reducible apply State.wr_kept
    | with_reducible apply limits_kept
    | with_reducible apply addItem_kept
    )

theorem execMonEntryDone_kept : ∀ x0 x1 x2 x3, Kept Q F x3 → KeptOut Q F (execMonEntryDone x0 x1 x2 x3) := by
  intro x0 x1 x2 x3 h0
  unfold execMonEntryDone
  repeat' (first
    | with_reducible assumption
    | (extract_lets +onlyGivenNames x; refine Kept.via Q F x ?_ (fun _ => ?_) <;> [subst x; clear_value x])
    | (extract_lets +onlyGivenNames x; clear_value x)
    | with_reducible apply ite_kept
    | with_reducible apply keptOut_next
    | with_reducible apply moveOn_kept
    | with_reducible apply resultWord_kept
    | with_reducible apply setMonCore_kept
    | split
    )

theorem fastSample_kept : ∀ x0 x1 x2 x3, Kept Q F x0 → Kept Q F (fastSample x0 x1 x2 x3) := by
  intro x0 x1 x2 x3 h0
  unfold fastSample
  repeat' (first
    | with_reducible assumption
    | (extract_lets +onlyGivenNames x; refine Kept.via Q F x ?_ (fun _ => ?_) <;> [subst x; clear_value x])
    | (extract_lets +onlyGivenNames x; clear_value x)
    | with_reducible apply ite_kept
    | (with_reducible apply forEach_kept; intro _ _ _; beta_reduce)
    | with_reducible apply setMon_kept
    | with_reducible apply limits_kept
    | with_reducible apply addItem_kept
    )

theorem fwctrlWrite_kept : ∀ x0 x1, Kept Q F x0 → Kept Q F (fwctrlWrite x0 x1) := by
  intro x0 x1 h0
  unfold fwctrlWrite
  repeat' (first
    | with_reducible assumption
    | (extract_lets +onlyGivenNames x; refine Kept.via Q F x ?_ (fun _ => ?_) <;> [subst x; clear_value x])
    | (extract_lets +onlyGivenNames x; clear_value x)
    | with_reducible apply ite_kept
    | (with_reducible apply forEach_kept; intro _ _ _; beta_reduce)
    | with_reducible apply State.wr_kept
    | with_reducible apply setMon_kept
    | with_reducible apply fwSeal_kept
    | with_reducible apply setMonCore_kept
    | with_reducible apply resume_kept
    )

theorem monOff_kept : ∀ x0, Kept Q F x0 → Kept Q F (monOff x0) := by
  intro x0 h0
  unfold monOff
  repeat' (first
    | with_reducible assumption
    | (with_reducible apply forEach_kept; intro _ _ _; beta_reduce)
    | with_reducible apply setMon_kept
    | with_reducible apply showMon_kept
    )

theorem execFastWatchSample_kept : ∀ x0 x1 x2 x3, Kept Q F x3 → KeptOut Q F (execFastWatchSample x0 x1 x2 x3) := by
  intro x0 x1 x2 x3 h0
  unfold execFastWatchSample
  repeat' (first
    | with_reducible assumption
    | with_reducible apply ite_kept
    | with_reducible apply keptOut_next
    | with_reducible apply fastSample_kept
    )

theorem execMonRead_kept : ∀ x0 x1, Kept Q F x1 → (_ : Q.mbx = none := by assumption) → KeptOut Q F (execMonRead x0 x1) := by
  intro x0 x1 h0 _
  unfold execMonRead
  repeat' (first
    | with_reducible assumption
    | (extract_lets +onlyGivenNames x; clear_value x)
    | with_reducible apply keptOut_next
    | with_reducible apply command_kept
    | with_reducible apply reply_kept
    )

theorem monClear_kept : ∀ x0, Kept Q F x0 → Kept Q F (monClear x0) := by
  intro x0 h0
  unfold monClear
  repeat' (first
    | with_reducible assumption
    | with_reducible apply setMon_kept
    )

theorem execMonPassStart_kept : ∀ x0 x1, Kept Q F x1 → KeptOut Q F (execMonPassStart x0 x1) := by
  intro x0 x1 h0
  unfold execMonPassStart
  repeat' (first
    | with_reducible assumption
    | with_reducible apply ite_kept
    | with_reducible apply keptOut_next
    | with_reducible apply passStart_kept
    )

theorem execMonInject_kept : ∀ x0 x1, Kept Q F x1 → (_ : Q.mbx = none := by assumption) → KeptOut Q F (execMonInject x0 x1) := by
  intro x0 x1 h0 _
  unfold execMonInject
  repeat' (first
    | with_reducible assumption
    | (extract_lets +onlyGivenNames x; clear_value x)
    | with_reducible apply keptOut_next
    | with_reducible apply command_kept
    | with_reducible apply reply_kept
    | with_reducible apply setMon_kept
    )

theorem execMonFwSet_kept : ∀ x0 x1, Kept Q F x1 → (_ : Q.mbx = none := by assumption) → KeptOut Q F (execMonFwSet x0 x1) := by
  intro x0 x1 h0 _
  unfold execMonFwSet
  repeat' (first
    | with_reducible assumption
    | (extract_lets +onlyGivenNames x; clear_value x)
    | with_reducible apply keptOut_next
    | (with_reducible apply forEach_kept; intro _ _ _; beta_reduce)
    | with_reducible apply command_kept
    | with_reducible apply reply_kept
    | with_reducible apply fwctrlWrite_kept
    | with_reducible apply State.wr_kept
    )

theorem execMonCoreSet_kept : ∀ x0 x1, Kept Q F x1 → (_ : Q.mbx = none := by assumption) → KeptOut Q F (execMonCoreSet x0 x1) := by
  intro x0 x1 h0 _
  unfold execMonCoreSet
  repeat' (first
    | with_reducible assumption
    | (extract_lets +onlyGivenNames x; clear_value x)
    | with_reducible apply keptOut_next
    | (with_reducible apply forEach_kept; intro _ _ _; beta_reduce)
    | with_reducible apply command_kept
    | with_reducible apply reply_kept
    | with_reducible apply State.wr_kept
    )

theorem execInjectRequest_kept : ∀ x0 x1 x2, Kept Q F x2 → KeptOut Q F (execInjectRequest x0 x1 x2) := by
  intro x0 x1 x2 h0
  unfold execInjectRequest
  repeat' (first
    | with_reducible assumption
    | with_reducible apply ite_kept
    | with_reducible apply keptOut_next
    | with_reducible apply injectRequest_kept
    )

end Sys2Proof.Machine
end

