-- ==== Sys2Proof/Laws/KeptFlow.lean ====
section
/-! SUPPORT. `Kept` for every function of Machine/Flow, Beat: one lemma each, cited by those of its callers. -/
namespace Sys2Proof.Machine
variable {Q : Frame} {F : Fuses}

-- Machine/Flow.lean

theorem showRole_kept : ∀ x0 x1, Kept Q F x0 → Kept Q F (showRole x0 x1) := by
  intro x0 x1 h0
  unfold showRole
  repeat' (first
    | with_reducible assumption
    | with_reducible apply State.setF_kept
    )

theorem layoutMoved_kept : ∀ x0 x1, Kept Q F x0 → Kept Q F (layoutMoved x0 x1) := by
  intro x0 x1 h0
  unfold layoutMoved
  repeat' (first
    | with_reducible assumption
    | (extract_lets +onlyGivenNames x; refine Kept.via Q F x ?_ (fun _ => ?_) <;> [subst x; clear_value x])
    | (extract_lets +onlyGivenNames x; clear_value x)
    | with_reducible apply ite_kept
    | (with_reducible apply forEach_kept; intro _ _ _; beta_reduce)
    | with_reducible apply showRole_kept
    | with_reducible apply swapSkew_kept
    | with_reducible apply dropSkew_kept
    )

theorem shiftCounts_kept : ∀ x0 x1, Kept Q F x0 → Kept Q F (shiftCounts x0 x1) := by
  intro x0 x1 h0
  unfold shiftCounts
  repeat' (first
    | with_reducible assumption
    | (extract_lets +onlyGivenNames x; clear_value x)
    | with_reducible apply mk_kept
    )

theorem renumber_kept : ∀ x0 x1, Kept Q F x0 → Kept Q F (renumber x0 x1) := by
  intro x0 x1 h0
  unfold renumber
  repeat' (first
    | with_reducible assumption
    | (extract_lets +onlyGivenNames x; refine Kept.via Q F x ?_ (fun _ => ?_) <;> [subst x; clear_value x])
    | (extract_lets +onlyGivenNames x; clear_value x)
    | with_reducible apply shiftCounts_kept
    | with_reducible apply mk_kept
    )

theorem inDiscardOf_kept : ∀ x0 x1, Kept Q F x0 → Kept Q F (inDiscardOf x0 x1) := by
  intro x0 x1 h0
  unfold inDiscardOf
  repeat' (first
    | with_reducible assumption
    | (extract_lets +onlyGivenNames x; refine Kept.via Q F x ?_ (fun _ => ?_) <;> [subst x; clear_value x])
    | (extract_lets +onlyGivenNames x; clear_value x)
    | with_reducible apply ite_kept
    | with_reducible apply State.setB_kept
    | with_reducible apply setIn_kept
    | with_reducible apply mbxEvent_kept
    )

theorem restartProfileRun_kept : ∀ x0 x1, Kept Q F x0 → (_ : Q.active = none := by assumption) → (_ : Q.mbx = none := by assumption) → Kept Q F (restartProfileRun x0 x1) := by
  intro s r h _ _
  unfold restartProfileRun
  split
  · exact h
  · extract_lets +onlyGivenNames b e dense moved s1
    have h1 : Kept Q F s1 := layoutMoved_kept _ _ (mk_kept h)
    clear_value b e dense moved s1
    extract_lets +onlyGivenNames t1 s2
    have h2 : Kept Q F s2 := ticketGone_kept _ _ _ (profileApply_kept _ _ _ h1)
    clear_value t1 s2
    exact ticketAnswer_kept _ _ (showRate_kept _ (State.wr64_kept _ _ _ (cfgTake_kept _ _ (copyEvents_kept _ _ h2))))

theorem restartRun_kept : ∀ x0 x1, Kept Q F x0 → (_ : Q.active = none := by assumption) → (_ : Q.mbx = none := by assumption) → Kept Q F (restartRun x0 x1) := by
  intro x0 x1 h0 _ _
  unfold restartRun
  repeat' (first
    | with_reducible assumption
    | (extract_lets +onlyGivenNames x; refine Kept.via Q F x ?_ (fun _ => ?_) <;> [subst x; clear_value x])
    | (extract_lets +onlyGivenNames x; clear_value x)
    | with_reducible apply ite_kept
    | with_reducible apply answer_kept
    | with_reducible apply State.setF_kept
    | with_reducible apply reply_kept
    | with_reducible apply restartProfileRun_kept
    | with_reducible apply showRate_kept
    | split
    | with_reducible apply mk_keptActive
    | with_reducible apply mk_kept
    )

theorem execRestartRunStart_kept : ∀ x0, Kept Q F x0 → (_ : Q.active = none := by assumption) → (_ : Q.mbx = none := by assumption) → KeptOut Q F (execRestartRunStart x0) := by
  intro x0 h0 _ _
  unfold execRestartRunStart
  repeat' (first
    | with_reducible assumption
    | (extract_lets +onlyGivenNames x; refine Kept.via Q F x ?_ (fun _ => ?_) <;> [subst x; clear_value x])
    | (extract_lets +onlyGivenNames x; clear_value x)
    | with_reducible apply ite_kept
    | with_reducible apply ite_keptOut
    | with_reducible apply keptOut_next
    | with_reducible apply restartRun_kept
    | split
    )

theorem lanesOff_kept : ∀ x0, Kept Q F x0 → Kept Q F (lanesOff x0) := by
  intro x0 h0
  unfold lanesOff
  repeat' (first
    | with_reducible assumption
    | with_reducible apply ite_kept
    | (with_reducible apply forEach_kept; intro _ _ _; beta_reduce)
    | with_reducible apply State.setB_kept
    | with_reducible apply State.setLane_kept
    )

theorem pathsOff_kept : ∀ x0, Kept Q F x0 → Kept Q F (pathsOff x0) := by
  intro x0 h0
  unfold pathsOff
  repeat' (first
    | with_reducible assumption
    | (extract_lets +onlyGivenNames x; clear_value x)
    | with_reducible apply ite_kept
    | (with_reducible apply forEach_kept; intro _ _ _; beta_reduce)
    | with_reducible apply pathStop_kept
    )

theorem pulsesRelease_kept : ∀ x0, Kept Q F x0 → Kept Q F (pulsesRelease x0) := by
  intro x0 h0
  unfold pulsesRelease
  repeat' (first
    | with_reducible assumption
    | (with_reducible apply forEach_kept; intro _ _ _; beta_reduce)
    | with_reducible apply State.put_kept
    | with_reducible apply mk_kept
    )

theorem workDrop_kept : ∀ x0, Kept Q F x0 → Kept Q F (workDrop x0) := by
  intro x0 h0
  unfold workDrop
  repeat' (first
    | with_reducible assumption
    | (extract_lets +onlyGivenNames x; refine Kept.via Q F x ?_ (fun _ => ?_) <;> [subst x; clear_value x])
    | (extract_lets +onlyGivenNames x; clear_value x)
    | with_reducible apply lanesOff_kept
    | with_reducible apply pathsOff_kept
    | with_reducible apply pulsesRelease_kept
    | with_reducible apply mk_kept
    )

theorem carsAbandon_kept : ∀ x0, Kept Q F x0 → Kept Q F (carsAbandon x0) := by
  intro x0 h0
  unfold carsAbandon
  repeat' (first
    | with_reducible assumption
    | (with_reducible apply forEach_kept; intro _ _ _; beta_reduce)
    | with_reducible apply showCar_kept
    | with_reducible apply State.setCar_kept
    )

theorem streamHalt_kept : ∀ x0 x1, Kept Q F x0 → Kept Q F (streamHalt x0 x1) := by
  intro x0 x1 h0
  unfold streamHalt
  repeat' (first
    | with_reducible assumption
    | (extract_lets +onlyGivenNames x; refine Kept.via Q F x ?_ (fun _ => ?_) <;> [subst x; clear_value x])
    | (extract_lets +onlyGivenNames x; clear_value x)
    | with_reducible apply ite_kept
    | with_reducible apply State.setStream_kept
    | with_reducible apply mk_kept
    )

theorem haltReplies_kept : ∀ x0, Kept Q F x0 → (_ : Q.mbx = none := by assumption) → Kept Q F (haltReplies x0) := by
  intro x0 h0 _
  unfold haltReplies
  repeat' (first
    | with_reducible assumption
    | (extract_lets +onlyGivenNames x; refine Kept.via Q F x ?_ (fun _ => ?_) <;> [subst x; clear_value x])
    | with_reducible apply ite_kept
    | with_reducible apply deny_kept
    | with_reducible apply ticketGone_kept
    | split
    | with_reducible apply mk_kept
    )

theorem haltNow_kept : ∀ x0, Kept Q F x0 → (_ : Q.mbx = none := by assumption) → (_ : Q.sram = none := by assumption) → Kept Q F (haltNow x0) := by
  intro x0 h0 _ _
  unfold haltNow
  repeat' (first
    | with_reducible assumption
    | (extract_lets +onlyGivenNames x; refine Kept.via Q F x ?_ (fun _ => ?_) <;> [subst x; clear_value x])
    | (extract_lets +onlyGivenNames x; clear_value x)
    | with_reducible apply ite_kept
    | (with_reducible apply forEach_kept; intro _ _ _; beta_reduce)
    | with_reducible apply groupsIdle_kept
    | with_reducible apply workDrop_kept
    | with_reducible apply carsAbandon_kept
    | with_reducible apply streamHalt_kept
    | with_reducible apply stopEngine_kept
    | with_reducible apply dmaAbortIf_kept
    | with_reducible apply dspSleep_kept
    | with_reducible apply State.setDen_kept
    | with_reducible apply corrDiscard_kept
    | with_reducible apply showDen_kept
    | with_reducible apply haltReplies_kept
    | with_reducible apply State.setF_kept
    | with_reducible apply mk_kept
    | with_reducible apply mk_keptActive
    )

theorem loadDrop_kept : ∀ x0, Kept Q F x0 → Kept Q F (loadDrop x0) := by
  intro x0 h0
  unfold loadDrop
  repeat' (first
    | with_reducible assumption
    | (extract_lets +onlyGivenNames x; refine Kept.via Q F x ?_ (fun _ => ?_) <;> [subst x; clear_value x])
    | (extract_lets +onlyGivenNames x; clear_value x)
    | with_reducible apply ite_kept
    | with_reducible apply setTime_kept
    | with_reducible apply mk_kept
    | with_reducible apply mk_keptActive
    )

theorem inDiscard_kept : ∀ x0, Kept Q F x0 → Kept Q F (inDiscard x0) := by
  intro x0 h0
  unfold inDiscard
  repeat' (first
    | with_reducible assumption
    | with_reducible apply ite_kept
    | (with_reducible apply forEach_kept; intro _ _ _; beta_reduce)
    | with_reducible apply inDiscardOf_kept
    )

theorem groupsReset_kept : ∀ x0, Kept Q F x0 → (_ : Q.active = none := by assumption) → Kept Q F (groupsReset x0) := by
  intro s h _
  unfold groupsReset
  extract_lets s1 s2 left ents s3
  have h1 : Kept Q F s1 := mk_kept_of h { h.canonical with regs := Sparse.wf_filter _ h.canonical.regs, active := rfl } { h.frame with active := Frame.free ‹_› }
  have h2 : Kept Q F s2 := mk_kept h1
  have h3 : Kept Q F s3 := forEach_kept (fun n s k => State.setStream_kept s n _ k) h2
  exact mk_kept h3

theorem resetLevel_kept : ∀ x0 x1, Kept Q F x0 → (_ : Q.active = none := by assumption) → (_ : Q.mbx = none := by assumption) → (_ : Q.sram = none := by assumption) → (_ : Q.locks = none := by assumption) → Kept Q F (resetLevel x0 x1) := by
  intro x0 x1 h0 _ _ _ _
  unfold resetLevel
  repeat' (first
    | with_reducible assumption
    | (extract_lets +onlyGivenNames x; refine Kept.via Q F x ?_ (fun _ => ?_) <;> [subst x; clear_value x])
    | with_reducible apply ite_kept
    | (with_reducible apply forEach_kept; intro _ _ _; beta_reduce)
    | with_reducible apply inDiscard_kept
    | with_reducible apply ppeResetAll_kept
    | with_reducible apply freeLocks_kept
    | with_reducible apply groupsReset_kept
    | with_reducible apply dmaAbortIf_kept
    | with_reducible apply mk_kept
    )

theorem resetNow_kept : ∀ x0 x1, Kept Q F x0 → (_ : Q.active = none := by assumption) → (_ : Q.mbx = none := by assumption) → (_ : Q.sram = none := by assumption) → (_ : Q.locks = none := by assumption) → Kept Q F (resetNow x0 x1) := by
  intro x0 x1 h0 _ _ _ _
  unfold resetNow
  repeat' (first
    | with_reducible assumption
    | (extract_lets +onlyGivenNames x; refine Kept.via Q F x ?_ (fun _ => ?_) <;> [subst x; clear_value x])
    | (extract_lets +onlyGivenNames x; clear_value x)
    | with_reducible apply ite_kept
    | (with_reducible apply forEach_kept; intro _ _ _; beta_reduce)
    | with_reducible apply cancelTickets_kept
    | with_reducible apply loadDrop_kept
    | with_reducible apply workDrop_kept
    | with_reducible apply streamDiscard_kept
    | with_reducible apply groupsIdle_kept
    | with_reducible apply carsAbandon_kept
    | with_reducible apply corrDiscard_kept
    | with_reducible apply denDiscard_kept
    | with_reducible apply showGroup_kept
    | with_reducible apply fgAbort_kept
    | with_reducible apply resetLevel_kept
    | with_reducible apply gridEnd_kept
    | with_reducible apply gridAbort_kept
    | with_reducible apply cfgTake_kept
    | with_reducible apply showRate_kept
    | with_reducible apply State.orR_kept
    | with_reducible apply mk_kept
    | with_reducible apply mk_keptActive
    )

theorem denRetain_kept : ∀ x0, Kept Q F x0 → Kept Q F (denRetain x0) := by
  intro x0 h0
  unfold denRetain
  repeat' (first
    | with_reducible assumption
    | (extract_lets +onlyGivenNames x; clear_value x)
    | (with_reducible apply forEach_kept; intro _ _ _; beta_reduce)
    | with_reducible apply State.setDen_kept
    )

theorem fgAll_kept : ∀ x0, Kept Q F x0 → Kept Q F (fgAll x0) := by
  intro x0 h0
  unfold fgAll
  repeat' (first
    | with_reducible assumption
    | (with_reducible apply forEach_kept; intro _ _ _; beta_reduce)
    | with_reducible apply fgBegin_kept
    )

theorem calDue_kept : ∀ x0 x1, Kept Q F x0 → Kept Q F (calDue x0 x1) := by
  intro x0 x1 h0
  unfold calDue
  repeat' (first
    | with_reducible assumption
    | (extract_lets +onlyGivenNames x; refine Kept.via Q F x ?_ (fun _ => ?_) <;> [subst x; clear_value x])
    | (extract_lets +onlyGivenNames x; clear_value x)
    | with_reducible apply ite_kept
    | with_reducible apply fgAll_kept
    | with_reducible apply mk_kept
    | with_reducible apply mk_keptActive
    )

theorem gridCheck_kept : ∀ x0, Kept Q F x0 → Kept Q F (gridCheck x0) := by
  intro x0 h0
  unfold gridCheck
  repeat' (first
    | with_reducible assumption
    | (extract_lets +onlyGivenNames x; refine Kept.via Q F x ?_ (fun _ => ?_) <;> [subst x; clear_value x])
    | (extract_lets +onlyGivenNames x; clear_value x)
    | with_reducible apply ite_kept
    | with_reducible apply gridEnd_kept
    )

theorem restartClocks_kept : ∀ x0 x1, Kept Q F x0 → Kept Q F (restartClocks x0 x1) := by
  intro x0 x1 h0
  unfold restartClocks
  repeat' (first
    | with_reducible assumption
    | (extract_lets +onlyGivenNames x; refine Kept.via Q F x ?_ (fun _ => ?_) <;> [subst x; clear_value x])
    | (extract_lets +onlyGivenNames x; clear_value x)
    | with_reducible apply ite_kept
    | with_reducible apply setSclk_kept
    | with_reducible apply calDue_kept
    | with_reducible apply gridCheck_kept
    | with_reducible apply State.setB_kept
    | with_reducible apply setClk_kept
    | split
    )

theorem restartStopped_kept : ∀ x0, Kept Q F x0 → (_ : Q.mbx = none := by assumption) → Kept Q F (restartStopped x0) := by
  intro x0 h0 _
  unfold restartStopped
  repeat' (first
    | with_reducible assumption
    | with_reducible apply ite_kept
    | with_reducible apply restartClocks_kept
    | with_reducible apply cancelTickets_kept
    | split
    )

theorem carsStop_kept : ∀ x0, Kept Q F x0 → (_ : Q.hbm = none := by assumption) → Kept Q F (carsStop x0) := by
  intro x0 h0 _
  unfold carsStop
  repeat' (first
    | with_reducible assumption
    | (extract_lets +onlyGivenNames x; refine Kept.via Q F x ?_ (fun _ => ?_) <;> [subst x; clear_value x])
    | (extract_lets +onlyGivenNames x; clear_value x)
    | with_reducible apply ite_kept
    | (with_reducible apply forEach_kept; intro _ _ _; beta_reduce)
    | with_reducible apply carStopNow_kept
    | with_reducible apply State.setCar_kept
    )

theorem stopRun_kept : ∀ x0, Kept Q F x0 → (_ : Q.mbx = none := by assumption) → (_ : Q.hbm = none := by assumption) → Kept Q F (stopRun x0) := by
  intro x0 h0 _ _
  unfold stopRun
  repeat' (first
    | with_reducible assumption
    | (extract_lets +onlyGivenNames x; refine Kept.via Q F x ?_ (fun _ => ?_) <;> [subst x; clear_value x])
    | (extract_lets +onlyGivenNames x; clear_value x)
    | with_reducible apply ite_kept
    | with_reducible apply denRetain_kept
    | with_reducible apply cancelTickets_kept
    | with_reducible apply denFinal_kept
    | with_reducible apply restartStopped_kept
    | with_reducible apply groupsIdle_kept
    | with_reducible apply carsStop_kept
    | with_reducible apply corrFinal_kept
    | with_reducible apply mk_kept
    )

theorem streamsEnd_kept : ∀ x0 x1, Kept Q F x0 → Kept Q F (streamsEnd x0 x1) := by
  intro x0 x1 h0
  unfold streamsEnd
  repeat' (first
    | with_reducible assumption
    | (extract_lets +onlyGivenNames x; clear_value x)
    | with_reducible apply ite_kept
    | (with_reducible apply forEach_kept; intro _ _ _; beta_reduce)
    | with_reducible apply streamEnd_kept
    )

theorem restartStop_kept : ∀ x0 x1, Kept Q F x0 → (_ : Q.mbx = none := by assumption) → Kept Q F (restartStop x0 x1) := by
  intro x0 x1 h0 _
  unfold restartStop
  repeat' (first
    | with_reducible assumption
    | (extract_lets +onlyGivenNames x; refine Kept.via Q F x ?_ (fun _ => ?_) <;> [subst x; clear_value x])
    | (extract_lets +onlyGivenNames x; clear_value x)
    | with_reducible apply ite_kept
    | with_reducible apply restartStopped_kept
    | with_reducible apply mk_kept
    )

theorem execRestartStop_kept : ∀ x0, Kept Q F x0 → (_ : Q.mbx = none := by assumption) → KeptOut Q F (execRestartStop x0) := by
  intro x0 h0 _
  unfold execRestartStop
  repeat' (first
    | with_reducible assumption
    | with_reducible apply ite_kept
    | with_reducible apply keptOut_next
    | with_reducible apply restartStop_kept
    | split
    )

-- Machine/Beat.lean

theorem storedSettings_kept : ∀ x0, Kept Q F x0 → Kept Q F (storedSettings x0) := by
  intro x0 h0
  unfold storedSettings
  repeat' (first
    | with_reducible assumption
    | (extract_lets +onlyGivenNames x; refine Kept.via Q F x ?_ (fun _ => ?_) <;> [subst x; clear_value x])
    | (with_reducible apply forEach_kept; intro _ _ _; beta_reduce)
    | with_reducible apply State.setEthIf_kept
    | with_reducible apply State.wr_kept
    | split
    )

theorem carrierLeave_kept : ∀ x0 x1, Kept Q F x0 → Kept Q F (carrierLeave x0 x1) := by
  intro x0 x1 h0
  unfold carrierLeave
  repeat' (first
    | with_reducible assumption
    | (extract_lets +onlyGivenNames x; refine Kept.via Q F x ?_ (fun _ => ?_) <;> [subst x; clear_value x])
    | (extract_lets +onlyGivenNames x; clear_value x)
    | with_reducible apply ite_kept
    | with_reducible apply carrierStop_kept
    )

theorem streamsApply_kept : ∀ x0, Kept Q F x0 → Kept Q F (streamsApply x0) := by
  intro x0 h0
  unfold streamsApply
  repeat' (first
    | with_reducible assumption
    | (extract_lets +onlyGivenNames x; refine Kept.via Q F x ?_ (fun _ => ?_) <;> [subst x; clear_value x])
    | (extract_lets +onlyGivenNames x; clear_value x)
    | with_reducible apply ite_kept
    | (with_reducible apply forEach_kept; intro _ _ _; beta_reduce)
    | with_reducible apply streamEnd_kept
    | with_reducible apply State.setStream_kept
    | with_reducible apply carrierStart_kept
    | with_reducible apply streamFresh_kept
    | with_reducible apply carrierLeave_kept
    | split
    | with_reducible apply mk_keptActive
    | with_reducible apply mk_kept
    )

theorem boundaryEvents_kept : ∀ x0, Kept Q F x0 → Kept Q F (boundaryEvents x0) := by
  intro x0 h0
  unfold boundaryEvents
  repeat' (first
    | with_reducible assumption
    | (extract_lets +onlyGivenNames x; refine Kept.via Q F x ?_ (fun _ => ?_) <;> [subst x; clear_value x])
    | (extract_lets +onlyGivenNames x; clear_value x)
    | (with_reducible apply forEach_kept; intro _ _ _; beta_reduce)
    | with_reducible apply fireAll_kept
    | with_reducible apply vector_kept
    | with_reducible apply mk_kept
    )

theorem bootDone_kept : ∀ x0, Kept Q F x0 → Kept Q F (bootDone x0) := by
  intro x0 h0
  unfold bootDone
  repeat' (first
    | with_reducible assumption
    | with_reducible apply ite_kept
    | with_reducible apply State.setF_kept
    | with_reducible apply storedSettings_kept
    | with_reducible apply State.wr_kept
    )

theorem carrierSend_kept : ∀ x0 x1, Kept Q F x0 → Kept Q F (carrierSend x0 x1) := by
  intro s n h
  unfold carrierSend
  extract_lets q
  exact ite_kept (repeated_kept (fun s k => datagramSend_kept s n k) q s h)
    (ite_kept (repeated_kept (fun s k => nbrSend_kept s n 0 k) q s h)
      (ite_kept (repeated_kept (fun s k => nbrSend_kept s n 1 k) q s h) h))

theorem carriersSend_kept : ∀ x0, Kept Q F x0 → Kept Q F (carriersSend x0) := by
  intro x0 h0
  unfold carriersSend
  repeat' (first
    | with_reducible assumption
    | (extract_lets +onlyGivenNames x; refine Kept.via Q F x ?_ (fun _ => ?_) <;> [subst x; clear_value x])
    | (extract_lets +onlyGivenNames x; clear_value x)
    | with_reducible apply ite_kept
    | (with_reducible apply forEach_kept; intro _ _ _; beta_reduce)
    | with_reducible apply carrierSend_kept
    | with_reducible apply volumeKeep_kept
    | with_reducible apply carrierKeep_kept
    )

theorem boundaryRest_kept : ∀ x0, Kept Q F x0 → Kept Q F (boundaryRest x0) := by
  intro x0 h0
  unfold boundaryRest
  repeat' (first
    | with_reducible assumption
    | (extract_lets +onlyGivenNames x; refine Kept.via Q F x ?_ (fun _ => ?_) <;> [subst x; clear_value x])
    | with_reducible apply tdcBoundary_kept
    | with_reducible apply ppeBoundary_kept
    | with_reducible apply coresBoundary_kept
    | with_reducible apply boundaryEvents_kept
    | with_reducible apply gridMeasure_kept
    | with_reducible apply bootDone_kept
    | with_reducible apply showCmt_kept
    | with_reducible apply carriersSend_kept
    | with_reducible apply logItems_kept
    | with_reducible apply mk_kept
    )

theorem unitsApply_kept : ∀ x0, Kept Q F x0 → Kept Q F (unitsApply x0) := by
  intro x0 h0
  unfold unitsApply
  repeat' (first
    | with_reducible assumption
    | (extract_lets +onlyGivenNames x; refine Kept.via Q F x ?_ (fun _ => ?_) <;> [subst x; clear_value x])
    | (extract_lets +onlyGivenNames x; clear_value x)
    | with_reducible apply ite_kept
    | (with_reducible apply forEach_kept; intro _ _ _; beta_reduce)
    | with_reducible apply State.setUnit_kept
    | with_reducible apply State.setB_kept
    | with_reducible apply State.wr_kept
    | with_reducible apply showGroup_kept
    )

theorem beatNumber_kept : ∀ x0 x1 x2, Kept Q F x0 → Kept Q F (beatNumber x0 x1 x2) := by
  intro x0 x1 x2 h0
  unfold beatNumber
  repeat' (first
    | with_reducible assumption
    | (extract_lets +onlyGivenNames x; refine Kept.via Q F x ?_ (fun _ => ?_) <;> [subst x; clear_value x])
    | (extract_lets +onlyGivenNames x; clear_value x)
    | with_reducible apply State.wr64_kept
    | with_reducible apply mk_kept
    )

theorem countersFresh_kept : ∀ x0, Kept Q F x0 → Kept Q F (countersFresh x0) := by
  intro x0 h0
  unfold countersFresh
  repeat' (first
    | with_reducible assumption
    | (extract_lets +onlyGivenNames x; refine Kept.via Q F x ?_ (fun _ => ?_) <;> [subst x; clear_value x])
    | (extract_lets +onlyGivenNames x; clear_value x)
    | with_reducible apply ite_kept
    | with_reducible apply mk_kept
    | with_reducible apply mk_keptActive
    )

theorem markLack_kept : ∀ x0 x1 x2, Kept Q F x0 → Kept Q F (markLack x0 x1 x2) := by
  intro x0 x1 x2 h0
  unfold markLack
  repeat' (first
    | with_reducible assumption
    | (extract_lets +onlyGivenNames x; refine Kept.via Q F x ?_ (fun _ => ?_) <;> [subst x; clear_value x])
    | (extract_lets +onlyGivenNames x; clear_value x)
    | with_reducible apply ite_kept
    | with_reducible apply mk_kept
    | with_reducible apply mk_keptActive
    )

theorem stageFlags_kept : ∀ x0 x1 x2 x3, Kept Q F x0 → Kept Q F (stageFlags x0 x1 x2 x3) := by
  intro x0 x1 x2 x3 h0
  unfold stageFlags
  repeat' (first
    | with_reducible assumption
    | (extract_lets +onlyGivenNames x; refine Kept.via Q F x ?_ (fun _ => ?_) <;> [subst x; clear_value x])
    | (extract_lets +onlyGivenNames x; clear_value x)
    | with_reducible apply ite_kept
    | (with_reducible apply forEach_kept; intro _ _ _; beta_reduce)
    | with_reducible apply markPaths_kept
    | with_reducible apply State.setB_kept
    | with_reducible apply markLanes_kept
    | with_reducible apply markLack_kept
    | with_reducible apply flagQueue_kept
    | split
    | with_reducible apply mk_keptActive
    | with_reducible apply mk_kept
    )

theorem carsAgain_kept : ∀ x0, Kept Q F x0 → (_ : Q.hbm = none := by assumption) → Kept Q F (carsAgain x0) := by
  intro x0 h0 _
  unfold carsAgain
  repeat' (first
    | with_reducible assumption
    | (extract_lets +onlyGivenNames x; clear_value x)
    | with_reducible apply ite_kept
    | (with_reducible apply forEach_kept; intro _ _ _; beta_reduce)
    | with_reducible apply carEvent_kept
    | with_reducible apply showCar_kept
    | with_reducible apply carCause_kept
    | with_reducible apply State.setCar_kept
    | with_reducible apply segBegin_kept
    )

theorem enteringStop_kept : ∀ x0, Kept Q F x0 → Kept Q F (enteringStop x0) := by
  intro x0 h0
  unfold enteringStop
  repeat' (first
    | with_reducible assumption
    | (extract_lets +onlyGivenNames x; refine Kept.via Q F x ?_ (fun _ => ?_) <;> [subst x; clear_value x])
    | (extract_lets +onlyGivenNames x; clear_value x)
    | with_reducible apply ite_kept
    | (with_reducible apply forEach_kept; intro _ _ _; beta_reduce)
    | with_reducible apply gridAbort_kept
    | with_reducible apply fgAbort_kept
    )

theorem runBegin_kept : ∀ x0, Kept Q F x0 → Kept Q F (runBegin x0) := by
  intro x0 h0
  unfold runBegin
  repeat' (first
    | with_reducible assumption
    | (extract_lets +onlyGivenNames x; refine Kept.via Q F x ?_ (fun _ => ?_) <;> [subst x; clear_value x])
    | (extract_lets +onlyGivenNames x; clear_value x)
    | with_reducible apply ite_kept
    | with_reducible apply mk_kept
    | with_reducible apply mk_keptActive
    )

theorem buffersEmpty_kept : ∀ x0, Kept Q F x0 → (_ : Q.slcRam = none := by assumption) → Kept Q F (buffersEmpty x0) := by
  intro x0 h0 _
  unfold buffersEmpty
  repeat' (first
    | with_reducible assumption
    | (extract_lets +onlyGivenNames x; refine Kept.via Q F x ?_ (fun _ => ?_) <;> [subst x; clear_value x])
    | (extract_lets +onlyGivenNames x; clear_value x)
    | with_reducible apply ite_kept
    | (with_reducible apply forEach_kept; intro _ _ _; beta_reduce)
    | with_reducible apply clearDescs_kept
    )

theorem carsApply_kept : ∀ x0, Kept Q F x0 → (_ : Q.hbm = none := by assumption) → Kept Q F (carsApply x0) := by
  intro x0 h0 _
  unfold carsApply
  repeat' (first
    | with_reducible assumption
    | (extract_lets +onlyGivenNames x; refine Kept.via Q F x ?_ (fun _ => ?_) <;> [subst x; clear_value x])
    | (extract_lets +onlyGivenNames x; clear_value x)
    | with_reducible apply ite_kept
    | (with_reducible apply forEach_kept; intro _ _ _; beta_reduce)
    | with_reducible apply segClose_kept
    | with_reducible apply showCar_kept
    | with_reducible apply State.setCar_kept
    )

theorem orderMsi_kept : ∀ x0 x1, Kept Q F x1 → Kept Q F (orderMsi x0 x1) := by
  intro x0 x1 h0
  unfold orderMsi
  repeat' (first
    | with_reducible assumption
    | (extract_lets +onlyGivenNames x; refine Kept.via Q F x ?_ (fun _ => ?_) <;> [subst x; clear_value x])
    | (extract_lets +onlyGivenNames x; clear_value x)
    | with_reducible apply ite_kept
    | with_reducible apply mk_kept
    | with_reducible apply mk_keptActive
    )

theorem tickBoundary_kept : ∀ x0 x1, Kept Q F x0 → (_ : Q.mbx = none := by assumption) → (_ : Q.sram = none := by assumption) → Kept Q F (tickBoundary x0 x1) := by
  intro x0 x1 h0 _ _
  unfold tickBoundary
  repeat' (first
    | with_reducible assumption
    | (extract_lets +onlyGivenNames x; refine Kept.via Q F x ?_ (fun _ => ?_) <;> [subst x; clear_value x])
    | (extract_lets +onlyGivenNames x; clear_value x)
    | with_reducible apply ite_kept
    | (with_reducible apply forEach_kept; intro _ _ _; beta_reduce)
    | with_reducible apply tdcStreams_kept
    | with_reducible apply groupsClose_kept
    | with_reducible apply tdcBoundary_kept
    | with_reducible apply vector_kept
    | with_reducible apply carriersSend_kept
    | with_reducible apply logItems_kept
    | with_reducible apply haltNow_kept
    | with_reducible apply mk_kept
    | with_reducible apply mk_keptActive
    )

theorem codesCount_kept : ∀ x0 x1, Kept Q F x0 → Kept Q F (codesCount x0 x1) := by
  intro x0 x1 h0
  unfold codesCount
  repeat' (first
    | with_reducible assumption
    | (extract_lets +onlyGivenNames x; refine Kept.via Q F x ?_ (fun _ => ?_) <;> [subst x; clear_value x])
    | (extract_lets +onlyGivenNames x; clear_value x)
    | with_reducible apply ite_kept
    | (with_reducible apply forEach_kept; intro _ _ _; beta_reduce)
    | with_reducible apply coreBeat_kept
    )

theorem pwrAnswer_kept : ∀ x0 x1 x2, Kept Q F x0 → (_ : Q.mbx = none := by assumption) → Kept Q F (pwrAnswer x0 x1 x2) := by
  intro x0 x1 x2 h0 _
  unfold pwrAnswer
  repeat' (first
    | with_reducible assumption
    | (extract_lets +onlyGivenNames x; refine Kept.via Q F x ?_ (fun _ => ?_) <;> [subst x; clear_value x])
    | (extract_lets +onlyGivenNames x; clear_value x)
    | with_reducible apply ite_kept
    | with_reducible apply reply_kept
    | with_reducible apply deny_kept
    | split
    | with_reducible apply mk_keptActive
    | with_reducible apply mk_kept
    )

theorem beatInForce_kept : ∀ x0, Kept Q F x0 → Kept Q F (beatInForce x0) := by
  intro x0 h0
  unfold beatInForce
  repeat' (first
    | with_reducible assumption
    | (extract_lets +onlyGivenNames x; refine Kept.via Q F x ?_ (fun _ => ?_) <;> [subst x; clear_value x])
    | (extract_lets +onlyGivenNames x; clear_value x)
    | with_reducible apply ite_kept
    | with_reducible apply mk_kept
    | with_reducible apply mk_keptActive
    )

theorem settingsEnter_kept : ∀ x0 x1 x2, Kept Q F x0 → (_ : Q.hbm = none := by assumption) → Kept Q F (settingsEnter x0 x1 x2) := by
  intro x0 x1 x2 h0 _
  unfold settingsEnter
  repeat' (first
    | with_reducible assumption
    | (extract_lets +onlyGivenNames x; refine Kept.via Q F x ?_ (fun _ => ?_) <;> [subst x; clear_value x])
    | (extract_lets +onlyGivenNames x; clear_value x)
    | (with_reducible apply forEach_kept; intro _ _ _; beta_reduce)
    | with_reducible apply pathEnter_kept
    | with_reducible apply laneEnter_kept
    | with_reducible apply tracesTaken_kept
    | with_reducible apply unitsApply_kept
    | with_reducible apply carsApply_kept
    | with_reducible apply corrEnter_kept
    | with_reducible apply denEnter_kept
    )

theorem runAnew_kept : ∀ x0 x1, Kept Q F x0 → Kept Q F (runAnew x0 x1) := by
  intro x0 x1 h0
  unfold runAnew
  repeat' (first
    | with_reducible assumption
    | (extract_lets +onlyGivenNames x; refine Kept.via Q F x ?_ (fun _ => ?_) <;> [subst x; clear_value x])
    | (extract_lets +onlyGivenNames x; clear_value x)
    | with_reducible apply ite_kept
    | with_reducible apply mk_kept
    | with_reducible apply mk_keptActive
    )

theorem resetBoundary_kept : ∀ x0 x1 x2, Kept Q F x0 → (_ : Q.active = none := by assumption) → (_ : Q.mbx = none := by assumption) → (_ : Q.hbm = none := by assumption) → (_ : Q.sram = none := by assumption) → (_ : Q.slcRam = none := by assumption) → (_ : Q.locks = none := by assumption) → Kept Q F (resetBoundary x0 x1 x2) := by
  intro x0 x1 x2 h0 _ _ _ _ _ _
  unfold resetBoundary
  repeat' (first
    | with_reducible assumption
    | (extract_lets +onlyGivenNames x; refine Kept.via Q F x ?_ (fun _ => ?_) <;> [subst x; clear_value x])
    | (extract_lets +onlyGivenNames x; clear_value x)
    | with_reducible apply ite_kept
    | with_reducible apply countersFresh_kept
    | with_reducible apply renumber_kept
    | with_reducible apply logItems_kept
    | with_reducible apply resetNow_kept
    | with_reducible apply codesCount_kept
    | with_reducible apply mdllsRetry_kept
    | with_reducible apply buffersEmpty_kept
    | with_reducible apply beatNumber_kept
    | with_reducible apply pwrAnswer_kept
    | with_reducible apply boundaryRest_kept
    | with_reducible apply beatInForce_kept
    | with_reducible apply settingsEnter_kept
    | with_reducible apply runAnew_kept
    )

theorem carsClose_kept : ∀ x0, Kept Q F x0 → (_ : Q.hbm = none := by assumption) → Kept Q F (carsClose x0) := by
  intro x0 h0 _
  unfold carsClose
  repeat' (first
    | with_reducible assumption
    | (extract_lets +onlyGivenNames x; refine Kept.via Q F x ?_ (fun _ => ?_) <;> [subst x; clear_value x])
    | (extract_lets +onlyGivenNames x; clear_value x)
    | with_reducible apply ite_kept
    | (with_reducible apply forEach_kept; intro _ _ _; beta_reduce)
    | with_reducible apply carEnter_kept
    | with_reducible apply segClose_kept
    | with_reducible apply State.setCar_kept
    | with_reducible apply mk_kept
    )

theorem framesOld_kept : ∀ x0, Kept Q F x0 → Kept Q F (framesOld x0) := by
  intro x0 h0
  unfold framesOld
  repeat' (first
    | with_reducible assumption
    | (extract_lets +onlyGivenNames x; refine Kept.via Q F x ?_ (fun _ => ?_) <;> [subst x; clear_value x])
    | (extract_lets +onlyGivenNames x; clear_value x)
    | with_reducible apply ite_kept
    | with_reducible apply mk_kept
    | with_reducible apply mk_keptActive
    )

theorem counterLoad_kept : ∀ x0 x1 x2, Kept Q F x0 → (_ : Q.hbm = none := by assumption) → Kept Q F (counterLoad x0 x1 x2) := by
  intro x0 x1 x2 h0 _
  unfold counterLoad
  repeat' (first
    | with_reducible assumption
    | (extract_lets +onlyGivenNames x; refine Kept.via Q F x ?_ (fun _ => ?_) <;> [subst x; clear_value x])
    | (extract_lets +onlyGivenNames x; clear_value x)
    | with_reducible apply ite_kept
    | (with_reducible apply forEach_kept; intro _ _ _; beta_reduce)
    | with_reducible apply carsClose_kept
    | with_reducible apply framesOld_kept
    | with_reducible apply renumber_kept
    | with_reducible apply beatNumber_kept
    | with_reducible apply carsAgain_kept
    | with_reducible apply State.setUnit_kept
    | with_reducible apply setTime_kept
    | with_reducible apply mk_kept
    | with_reducible apply mk_keptActive
    )

theorem beatCount_kept : ∀ x0 x1 x2, Kept Q F x0 → (_ : Q.hbm = none := by assumption) → Kept Q F (beatCount x0 x1 x2) := by
  intro x0 x1 x2 h0 _
  unfold beatCount
  repeat' (first
    | with_reducible assumption
    | (extract_lets +onlyGivenNames x; refine Kept.via Q F x ?_ (fun _ => ?_) <;> [subst x; clear_value x])
    | (extract_lets +onlyGivenNames x; clear_value x)
    | with_reducible apply ite_kept
    | with_reducible apply counterLoad_kept
    | with_reducible apply beatNumber_kept
    | split
    )

theorem overruns_kept : ∀ x0 x1, Kept Q F x0 → Kept Q F (overruns x0 x1) := by
  intro x0 x1 h0
  unfold overruns
  repeat' (first
    | with_reducible assumption
    | (extract_lets +onlyGivenNames x; clear_value x)
    | with_reducible apply ite_kept
    | (with_reducible apply forEach_kept; intro _ _ _; beta_reduce)
    | with_reducible apply report_kept
    | with_reducible apply overrunMark_kept
    | with_reducible apply stageFlags_kept
    )

theorem haltBoundary_kept : ∀ x0 x1, Kept Q F x0 → (_ : Q.mbx = none := by assumption) → (_ : Q.hbm = none := by assumption) → (_ : Q.sram = none := by assumption) → (_ : Q.slcRam = none := by assumption) → Kept Q F (haltBoundary x0 x1) := by
  intro x0 x1 h0 _ _ _ _
  unfold haltBoundary
  repeat' (first
    | with_reducible assumption
    | (extract_lets +onlyGivenNames x; refine Kept.via Q F x ?_ (fun _ => ?_) <;> [subst x; clear_value x])
    | (extract_lets +onlyGivenNames x; clear_value x)
    | with_reducible apply ite_kept
    | with_reducible apply beatCount_kept
    | with_reducible apply codesCount_kept
    | with_reducible apply boundaryRest_kept
    | with_reducible apply haltNow_kept
    | with_reducible apply beatInForce_kept
    | with_reducible apply buffersEmpty_kept
    | with_reducible apply overruns_kept
    | with_reducible apply mk_kept
    | with_reducible apply mk_keptActive
    )

theorem specsReady_kept : ∀ x0 x1, Kept Q F x0 → (_ : Q.hbm = none := by assumption) → Kept Q F (specsReady x0 x1) := by
  intro x0 x1 h0 _
  unfold specsReady
  repeat' (first
    | with_reducible assumption
    | (extract_lets +onlyGivenNames x; refine Kept.via Q F x ?_ (fun _ => ?_) <;> [subst x; clear_value x])
    | (extract_lets +onlyGivenNames x; clear_value x)
    | with_reducible apply ite_kept
    | (with_reducible apply forEach_kept; intro _ _ _; beta_reduce)
    | with_reducible apply specObject_kept
    | with_reducible apply carSpec_kept
    )

theorem dropReady_kept : ∀ x0, Kept Q F x0 → Kept Q F (dropReady x0) := by
  intro x0 h0
  unfold dropReady
  repeat' (first
    | with_reducible assumption
    | with_reducible apply mk_kept
    )

theorem presents_kept : ∀ x0 x1, Kept Q F x0 → (_ : Q.hbm = none := by assumption) → (_ : Q.slcRam = none := by assumption) → Kept Q F (presents x0 x1) := by
  intro x0 x1 h0 _ _
  unfold presents
  repeat' (first
    | with_reducible assumption
    | (extract_lets +onlyGivenNames x; refine Kept.via Q F x ?_ (fun _ => ?_) <;> [subst x; clear_value x])
    | (extract_lets +onlyGivenNames x; clear_value x)
    | with_reducible apply ite_kept
    | (with_reducible apply forEach_kept; intro _ _ _; beta_reduce)
    | with_reducible apply specsReady_kept
    | with_reducible apply sliceReady_kept
    | with_reducible apply corrBeat_kept
    | with_reducible apply denBeat_kept
    | with_reducible apply trigTime_kept
    | with_reducible apply trigPpe_kept
    | with_reducible apply trigPattern_kept
    | with_reducible apply trigDensity_kept
    | with_reducible apply trigMask_kept
    | with_reducible apply carArmDue_kept
    | with_reducible apply carDue_kept
    | with_reducible apply carDrain_kept
    | with_reducible apply decideAll_kept
    | with_reducible apply dropReady_kept
    )

theorem flowBoundary_kept : ∀ x0 x1 x2, Kept Q F x0 → (_ : Q.mbx = none := by assumption) → (_ : Q.hbm = none := by assumption) → (_ : Q.slcRam = none := by assumption) → Kept Q F (flowBoundary x0 x1 x2) := by
  intro x0 x1 x2 h0 _ _ _
  unfold flowBoundary
  repeat' (first
    | with_reducible assumption
    | (extract_lets +onlyGivenNames x; refine Kept.via Q F x ?_ (fun _ => ?_) <;> [subst x; clear_value x])
    | (extract_lets +onlyGivenNames x; clear_value x)
    | with_reducible apply ite_kept
    | with_reducible apply overruns_kept
    | with_reducible apply denAge_kept
    | with_reducible apply beatCount_kept
    | with_reducible apply enteringStop_kept
    | with_reducible apply stopRun_kept
    | with_reducible apply runBegin_kept
    | with_reducible apply streamsApply_kept
    | with_reducible apply settingsEnter_kept
    | with_reducible apply beatInForce_kept
    | with_reducible apply streamsEnd_kept
    | with_reducible apply boundaryRest_kept
    | with_reducible apply presents_kept
    | split
    | with_reducible apply mk_keptActive
    | with_reducible apply mk_kept
    )

theorem emitsSeal_kept : ∀ x0, Kept Q F x0 → Kept Q F (emitsSeal x0) := by
  intro x0 h0
  unfold emitsSeal
  repeat' (first
    | with_reducible assumption
    | (with_reducible apply forEach_kept; intro _ _ _; beta_reduce)
    | with_reducible apply emitSeal_kept
    | with_reducible apply mk_kept
    )

theorem beatEnd_kept : ∀ x0 x1, Kept Q F x0 → Kept Q F (beatEnd x0 x1) := by
  intro x0 x1 h0
  unfold beatEnd
  repeat' (first
    | with_reducible assumption
    | (extract_lets +onlyGivenNames x; refine Kept.via Q F x ?_ (fun _ => ?_) <;> [subst x; clear_value x])
    | (with_reducible apply forEach_kept; intro _ _ _; beta_reduce)
    | with_reducible apply pathBeat_kept
    | with_reducible apply sliceBeat_kept
    | with_reducible apply iqBeat_kept
    | with_reducible apply patternGather_kept
    | with_reducible apply trigSamples_kept
    | with_reducible apply carBeat_kept
    | with_reducible apply gridSteps_kept
    | with_reducible apply codesCount_kept
    | with_reducible apply emitsSeal_kept
    | with_reducible apply tdcStreams_kept
    | with_reducible apply groupsClose_kept
    )

theorem boundaryGo_kept : ∀ x0 x1, Kept Q F x0 → (_ : Q.active = none := by assumption) → (_ : Q.mbx = none := by assumption) → (_ : Q.hbm = none := by assumption) → (_ : Q.sram = none := by assumption) → (_ : Q.slcRam = none := by assumption) → (_ : Q.locks = none := by assumption) → Kept Q F (boundaryGo x0 x1) := by
  intro x0 x1 h0 _ _ _ _ _ _
  unfold boundaryGo
  repeat' (first
    | with_reducible assumption
    | (extract_lets +onlyGivenNames x; refine Kept.via Q F x ?_ (fun _ => ?_) <;> [subst x; clear_value x])
    | (extract_lets +onlyGivenNames x; clear_value x)
    | with_reducible apply ite_kept
    | with_reducible apply setClock_kept
    | with_reducible apply tickBoundary_kept
    | with_reducible apply resetBoundary_kept
    | with_reducible apply haltBoundary_kept
    | with_reducible apply flowBoundary_kept
    | with_reducible apply beatEnd_kept
    | split
    )

theorem boundary_kept : ∀ x0 x1, Kept Q F x0 → (_ : Q.active = none := by assumption) → (_ : Q.mbx = none := by assumption) → (_ : Q.hbm = none := by assumption) → (_ : Q.sram = none := by assumption) → (_ : Q.slcRam = none := by assumption) → (_ : Q.locks = none := by assumption) → Kept Q F (boundary x0 x1) := by
  intro x0 x1 h0 _ _ _ _ _ _
  unfold boundary
  repeat' (first
    | with_reducible assumption
    | (extract_lets +onlyGivenNames x; refine Kept.via Q F x ?_ (fun _ => ?_) <;> [subst x; clear_value x])
    | with_reducible apply ite_kept
    | with_reducible apply orderMsi_kept
    | with_reducible apply boundaryGo_kept
    )

theorem syncReset_kept : ∀ x0 x1, Kept Q F x0 → (_ : Q.active = none := by assumption) → (_ : Q.mbx = none := by assumption) → (_ : Q.hbm = none := by assumption) → (_ : Q.sram = none := by assumption) → (_ : Q.slcRam = none := by assumption) → (_ : Q.locks = none := by assumption) → Kept Q F (syncReset x0 x1) := by
  intro x0 x1 h0 _ _ _ _ _ _
  unfold syncReset
  repeat' (first
    | with_reducible assumption
    | (extract_lets +onlyGivenNames x; refine Kept.via Q F x ?_ (fun _ => ?_) <;> [subst x; clear_value x])
    | with_reducible apply boundary_kept
    | with_reducible apply State.setF_kept
    | with_reducible apply State.setB_kept
    )

theorem execBeatBoundary_kept : ∀ x0 x1, Kept Q F x1 → (_ : Q.active = none := by assumption) → (_ : Q.mbx = none := by assumption) → (_ : Q.hbm = none := by assumption) → (_ : Q.sram = none := by assumption) → (_ : Q.slcRam = none := by assumption) → (_ : Q.locks = none := by assumption) → KeptOut Q F (execBeatBoundary x0 x1) := by
  intro x0 x1 h0 _ _ _ _ _ _
  unfold execBeatBoundary
  repeat' (first
    | with_reducible assumption
    | with_reducible apply keptOut_next
    | with_reducible apply boundary_kept
    )

theorem execBeatMark_kept : ∀ x0 x1, Kept Q F x1 → KeptOut Q F (execBeatMark x0 x1) := by
  intro x0 x1 h0
  unfold execBeatMark
  repeat' (first
    | with_reducible assumption
    | with_reducible apply ite_kept
    | with_reducible apply keptOut_next
    | with_reducible apply fire_kept
    )

theorem execSyncinEdge_kept : ∀ x0 x1 x2, Kept Q F x2 → (_ : Q.active = none := by assumption) → (_ : Q.mbx = none := by assumption) → (_ : Q.hbm = none := by assumption) → (_ : Q.sram = none := by assumption) → (_ : Q.slcRam = none := by assumption) → (_ : Q.locks = none := by assumption) → KeptOut Q F (execSyncinEdge x0 x1 x2) := by
  intro x0 x1 x2 h0 _ _ _ _ _ _
  unfold execSyncinEdge
  repeat' (first
    | with_reducible assumption
    | with_reducible apply ite_kept
    | with_reducible apply keptOut_next
    | with_reducible apply syncReset_kept
    | with_reducible apply State.setB_kept
    )

end Sys2Proof.Machine
end

