-- ==== Sys2Proof/Laws/KeptHost.lean ====
section
/-! SUPPORT. `Kept` for every function of Machine/Device, Power, Pcie, Secure, Register: one lemma each, cited by those of its callers. -/
namespace Sys2Proof.Machine
variable {Q : Frame} {F : Fuses}

-- Machine/Device.lean

theorem execLockPeek_kept : ∀ x0 x1, Kept Q F x1 → (_ : Q.mbx = none := by assumption) → KeptOut Q F (execLockPeek x0 x1) := by
  intro x0 x1 h0 _
  unfold execLockPeek
  repeat' (first
    | with_reducible assumption
    | (extract_lets +onlyGivenNames x; clear_value x)
    | with_reducible apply keptOut_next
    | with_reducible apply command_kept
    | with_reducible apply reply_kept
    )

theorem execQueryCaps_kept : ∀ x0 x1, Kept Q F x1 → (_ : Q.mbx = none := by assumption) → KeptOut Q F (execQueryCaps x0 x1) := by
  intro x0 x1 h0 _
  unfold execQueryCaps
  repeat' (first
    | with_reducible assumption
    | with_reducible apply keptOut_next
    | with_reducible apply command_kept
    | with_reducible apply reply_kept
    )

theorem execPing_kept : ∀ x0 x1, Kept Q F x1 → (_ : Q.mbx = none := by assumption) → KeptOut Q F (execPing x0 x1) := by
  intro x0 x1 h0 _
  unfold execPing
  repeat' (first
    | with_reducible assumption
    | with_reducible apply keptOut_next
    | with_reducible apply command_kept
    | with_reducible apply reply_kept
    )

theorem execDeviceIdGet_kept : ∀ x0 x1, Kept Q F x1 → (_ : Q.mbx = none := by assumption) → KeptOut Q F (execDeviceIdGet x0 x1) := by
  intro x0 x1 h0 _
  unfold execDeviceIdGet
  repeat' (first
    | with_reducible assumption
    | with_reducible apply keptOut_next
    | with_reducible apply command_kept
    | with_reducible apply reply_kept
    )

theorem setDeviceId_kept : ∀ x0 x1 x2, Kept Q F x0 → Kept Q F (setDeviceId x0 x1 x2) := by
  intro x0 x1 x2 h0
  unfold setDeviceId
  repeat' (first
    | with_reducible assumption
    | (extract_lets +onlyGivenNames x; clear_value x)
    | with_reducible apply mk_kept
    )

theorem execDeviceIdSet_kept : ∀ x0 x1, Kept Q F x1 → (_ : Q.mbx = none := by assumption) → KeptOut Q F (execDeviceIdSet x0 x1) := by
  intro x0 x1 h0 _
  unfold execDeviceIdSet
  repeat' (first
    | with_reducible assumption
    | (extract_lets +onlyGivenNames x; clear_value x)
    | with_reducible apply keptOut_next
    | with_reducible apply command_kept
    | with_reducible apply setDeviceId_kept
    | with_reducible apply reply_kept
    )

-- Machine/Power.lean

theorem retentionLost_kept : ∀ x0, Kept Q F x0 → (_ : Q.active = none := by assumption) → Kept Q F (retentionLost x0) := by
  intro s h _
  unfold retentionLost
  extract_lets s1 s2
  have h1 : Kept Q F s1 := mk_kept_of h { h.canonical with regs := Sparse.wf_filter _ h.canonical.regs, active := rfl } { h.frame with active := Frame.free ‹_› }
  exact report_kept _ _ _ (State.setB_kept _ _ _ _ (denDiscard_kept _ (mk_kept h1)))

theorem coresOff_kept : ∀ x0, Kept Q F x0 → Kept Q F (coresOff x0) := by
  intro x0 h0
  unfold coresOff
  repeat' (first
    | with_reducible assumption
    | (with_reducible apply forEach_kept; intro _ _ _; beta_reduce)
    | with_reducible apply State.setF_kept
    )

theorem showFuses_kept : ∀ x0, Kept Q F x0 → Kept Q F (showFuses x0) := by
  intro x0 h0
  unfold showFuses
  repeat' (first
    | with_reducible assumption
    | (extract_lets +onlyGivenNames x; refine Kept.via Q F x ?_ (fun _ => ?_) <;> [subst x; clear_value x])
    | with_reducible apply State.wr_kept
    )

theorem keepLatch_kept : ∀ x0 x1, Kept Q F x0 → Kept Q F x1 → Kept Q F (keepLatch x0 x1) := by
  intro x0 x1 h0 h1
  unfold keepLatch
  repeat' (first
    | with_reducible assumption
    | (extract_lets +onlyGivenNames x; refine Kept.via Q F x ?_ (fun _ => ?_) <;> [subst x; clear_value x])
    | with_reducible apply State.wr_kept
    | with_reducible apply State.setB_kept
    | with_reducible apply mk_kept
    )

theorem cleared_kept : ∀ x0, Kept Q F x0 → (_ : Q.active = none := by assumption) → (_ : Q.mbx = none := by assumption) → (_ : Q.hbm = none := by assumption) → (_ : Q.sram = none := by assumption) → (_ : Q.slcRam = none := by assumption) → (_ : Q.msix = none := by assumption) → (_ : Q.locks = none := by assumption) → Kept Q F (cleared x0) := fun _ h _ _ _ _ _ _ _ =>
  ⟨h.pending, h.fuses, ⟨rfl, rfl, rfl, rfl, rfl, rfl, h.canonical.flash, rfl, rfl, rfl⟩, { h.frame with
    active := Frame.free ‹_›, mbx := Frame.free ‹_›, hbm := Frame.free ‹_›, sram := Frame.free ‹_›, slcRam := Frame.free ‹_›,
    msix := Frame.free ‹_›, locks := Frame.free ‹_› }⟩

theorem warmReset_kept : ∀ x0, Kept Q F x0 → (_ : Q.active = none := by assumption) → (_ : Q.mbx = none := by assumption) → (_ : Q.hbm = none := by assumption) → (_ : Q.sram = none := by assumption) → (_ : Q.slcRam = none := by assumption) → (_ : Q.msix = none := by assumption) → (_ : Q.locks = none := by assumption) → Kept Q F (warmReset x0) := by
  intro x0 h0 _ _ _ _ _ _ _
  unfold warmReset
  repeat' (first
    | with_reducible assumption
    | (extract_lets +onlyGivenNames x; refine Kept.via Q F x ?_ (fun _ => ?_) <;> [subst x; clear_value x])
    | (extract_lets +onlyGivenNames x; clear_value x)
    | with_reducible apply ite_kept
    | (with_reducible apply forEach_kept; intro _ _ _; beta_reduce)
    | with_reducible apply keepLatch_kept
    | with_reducible apply cleared_kept
    | with_reducible apply State.wr_kept
    | with_reducible apply State.setF_kept
    | with_reducible apply State.setB_kept
    | with_reducible apply mk_kept
    | with_reducible apply mk_keptActive
    )

theorem digestRegs_kept : ∀ x0 x1 x2, Kept Q F x0 → Kept Q F (digestRegs x0 x1 x2) := by
  intro x0 x1 x2 h0
  unfold digestRegs
  repeat' (first
    | with_reducible assumption
    | (with_reducible apply forEach_kept; intro _ _ _; beta_reduce)
    | with_reducible apply State.wr_kept
    )

theorem bootSlot_kept : ∀ x0 x1 x2, Kept Q F x0 → Kept Q F (bootSlot x0 x1 x2) := by
  intro x0 x1 x2 h0
  unfold bootSlot
  repeat' (first
    | with_reducible assumption
    | (extract_lets +onlyGivenNames x; refine Kept.via Q F x ?_ (fun _ => ?_) <;> [subst x; clear_value x])
    | (extract_lets +onlyGivenNames x; clear_value x)
    | with_reducible apply ite_kept
    | with_reducible apply State.wr_kept
    | with_reducible apply digestRegs_kept
    | with_reducible apply report_kept
    | with_reducible apply mk_kept
    )

theorem showLink_kept : ∀ x0 x1 x2, Kept Q F x0 → Kept Q F (showLink x0 x1 x2) := by
  intro x0 x1 x2 h0
  unfold showLink
  repeat' (first
    | with_reducible assumption
    | with_reducible apply State.setF_kept
    )

theorem stackUp_kept : ∀ x0 x1, Kept Q F x0 → Kept Q F (stackUp x0 x1) := by
  intro x0 x1 h0
  unfold stackUp
  repeat' (first
    | with_reducible assumption
    | with_reducible apply ite_kept
    | (with_reducible apply forEach_kept; intro _ _ _; beta_reduce)
    | with_reducible apply State.setB_kept
    | with_reducible apply State.setF_kept
    )

theorem wakeSettings_kept : ∀ x0 x1, Kept Q F x0 → Kept Q F (wakeSettings x0 x1) := by
  intro x0 x1 h0
  unfold wakeSettings
  repeat' (first
    | with_reducible assumption
    | (extract_lets +onlyGivenNames x; refine Kept.via Q F x ?_ (fun _ => ?_) <;> [subst x; clear_value x])
    | with_reducible apply State.setF_kept
    | with_reducible apply State.wr_kept
    )

theorem leaveBegin_kept : ∀ x0 x1 x2, Kept Q F x0 → Kept Q F (leaveBegin x0 x1 x2) := by
  intro x0 x1 x2 h0
  unfold leaveBegin
  repeat' (first
    | with_reducible assumption
    | (extract_lets +onlyGivenNames x; refine Kept.via Q F x ?_ (fun _ => ?_) <;> [subst x; clear_value x])
    | with_reducible apply State.setF_kept
    | with_reducible apply mk_kept
    )

theorem pwrEffect_kept : ∀ x0 x1, Kept Q F x0 → (_ : Q.mbx = none := by assumption) → Kept Q F (pwrEffect x0 x1) := by
  intro x0 x1 h0 _
  unfold pwrEffect
  repeat' (first
    | with_reducible assumption
    | (extract_lets +onlyGivenNames x; refine Kept.via Q F x ?_ (fun _ => ?_) <;> [subst x; clear_value x])
    | (extract_lets +onlyGivenNames x; clear_value x)
    | with_reducible apply ite_kept
    | with_reducible apply wakeSettings_kept
    | with_reducible apply deny_kept
    | with_reducible apply answer_kept
    | with_reducible apply State.setF_kept
    | with_reducible apply leaveBegin_kept
    | split
    | with_reducible apply mk_keptActive
    | with_reducible apply mk_kept
    )

theorem identified_kept : ∀ x0 x1, Kept Q F x0 → Kept Q F (identified x0 x1) := by
  intro x0 x1 h0
  unfold identified
  repeat' (first
    | with_reducible assumption
    | (extract_lets +onlyGivenNames x; refine Kept.via Q F x ?_ (fun _ => ?_) <;> [subst x; clear_value x])
    | (extract_lets +onlyGivenNames x; clear_value x)
    | with_reducible apply ite_kept
    | with_reducible apply mk_kept
    | with_reducible apply mk_keptActive
    )

theorem mdllUp_kept : ∀ x0 x1, Kept Q F x0 → Kept Q F (mdllUp x0 x1) := by
  intro x0 x1 h0
  unfold mdllUp
  repeat' (first
    | with_reducible assumption
    | (extract_lets +onlyGivenNames x; refine Kept.via Q F x ?_ (fun _ => ?_) <;> [subst x; clear_value x])
    | with_reducible apply ite_kept
    | with_reducible apply State.setB_kept
    | with_reducible apply State.setF_kept
    | with_reducible apply mayTry_kept
    | with_reducible apply tryFirst_kept
    )

theorem showStep_kept : ∀ x0 x1 x2, Kept Q F x0 → Kept Q F (showStep x0 x1 x2) := by
  intro x0 x1 x2 h0
  unfold showStep
  repeat' (first
    | with_reducible assumption
    | with_reducible apply State.setF_kept
    )

theorem stepStarted_kept : ∀ x0 x1 x2 x3, Kept Q F x0 → Kept Q F (stepStarted x0 x1 x2 x3) := by
  intro x0 x1 x2 x3 h0
  unfold stepStarted
  repeat' (first
    | with_reducible assumption
    | with_reducible apply State.setF_kept
    | with_reducible apply showStep_kept
    )

theorem fclkStop_kept : ∀ x0, Kept Q F x0 → Kept Q F (fclkStop x0) := by
  intro s h
  unfold fclkStop
  apply ite_kept h
  extract_lets s1 s0 s2
  have h1 : Kept Q F s1 := shiftCounts_kept _ _ (gridBreak_kept _ h)
  have h0 : Kept Q F s0 := forEach_kept (fun n s k => showPend_kept _ _ (State.setCore_kept _ _ _ k)) h1
  have h2 : Kept Q F s2 := State.setB_kept _ _ _ _ h0
  clear_value s2 s0 s1
  exact ⟨h2.pending, h2.fuses, { h2.canonical with inBeat := h0.canonical.active }, h2.frame⟩

theorem mdllsOff_kept : ∀ x0, Kept Q F x0 → Kept Q F (mdllsOff x0) := by
  intro x0 h0
  unfold mdllsOff
  repeat' (first
    | with_reducible assumption
    | (with_reducible apply forEach_kept; intro _ _ _; beta_reduce)
    | with_reducible apply State.setB_kept
    | with_reducible apply State.setF_kept
    )

theorem stepsOffFrom_kept : ∀ (t : Nat) (l : List Nat) (s : State), Kept Q F s → Kept Q F (stepsOffFrom t l s)
  | _, [], _, k => k
  | t, n :: r, s, k => stepsOffFrom_kept _ r _ (State.useFree_kept _ (State.setF_kept _ _ _ _ _ (State.setF_kept _ _ _ _ _ (showStep_kept _ _ _ k))))

theorem stepsOff_kept : ∀ x0 x1 x2, Kept Q F x0 → Kept Q F (stepsOff x0 x1 x2) := by
  intro x0 x1 x2 h0
  unfold stepsOff
  repeat' (first
    | with_reducible assumption
    | (extract_lets +onlyGivenNames x; clear_value x)
    | with_reducible apply stepsOffFrom_kept
    )

theorem entryGate_kept : ∀ x0, Kept Q F x0 → (_ : Q.mbx = none := by assumption) → Kept Q F (entryGate x0) := by
  intro x0 h0 _
  unfold entryGate
  repeat' (first
    | with_reducible assumption
    | (extract_lets +onlyGivenNames x; refine Kept.via Q F x ?_ (fun _ => ?_) <;> [subst x; clear_value x])
    | (with_reducible apply forEach_kept; intro _ _ _; beta_reduce)
    | with_reducible apply cancelTickets_kept
    | with_reducible apply fgAbort_kept
    | with_reducible apply fclkStop_kept
    | with_reducible apply gridAbort_kept
    | with_reducible apply ppeResetAll_kept
    | with_reducible apply phasesLost_kept
    | with_reducible apply dspSleep_kept
    | with_reducible apply mdllsOff_kept
    | with_reducible apply coresOff_kept
    | with_reducible apply stepsOff_kept
    | with_reducible apply mk_kept
    )

theorem bootRom_kept : ∀ x0, Kept Q F x0 → Kept Q F (bootRom x0) := by
  intro x0 h0
  unfold bootRom
  repeat' (first
    | with_reducible assumption
    | (extract_lets +onlyGivenNames x; refine Kept.via Q F x ?_ (fun _ => ?_) <;> [subst x; clear_value x])
    | (extract_lets +onlyGivenNames x; clear_value x)
    | with_reducible apply digestRegs_kept
    | with_reducible apply bootSlot_kept
    | with_reducible apply report_kept
    | with_reducible apply State.wr_kept
    | split
    )

theorem wakeNow_kept : ∀ x0 x1, Kept Q F x0 → Kept Q F (wakeNow x0 x1) := by
  intro x0 x1 h0
  unfold wakeNow
  repeat' (first
    | with_reducible assumption
    | (extract_lets +onlyGivenNames x; refine Kept.via Q F x ?_ (fun _ => ?_) <;> [subst x; clear_value x])
    | with_reducible apply ite_kept
    | with_reducible apply State.setB_kept
    | with_reducible apply State.orR_kept
    | with_reducible apply stepStarted_kept
    | with_reducible apply bootRom_kept
    | with_reducible apply leaveBegin_kept
    | with_reducible apply State.setF_kept
    )

theorem heldWake_kept : ∀ x0, Kept Q F x0 → Kept Q F (heldWake x0) := by
  intro x0 h0
  unfold heldWake
  repeat' (first
    | with_reducible assumption
    | with_reducible apply ite_kept
    | with_reducible apply wakeNow_kept
    | with_reducible apply mk_kept
    )

theorem entered_kept : ∀ x0 x1 x2, Kept Q F x0 → Kept Q F (entered x0 x1 x2) := by
  intro x0 x1 x2 h0
  unfold entered
  repeat' (first
    | with_reducible assumption
    | with_reducible apply State.wr_kept
    | with_reducible apply State.setF_kept
    )

theorem selfRefresh_kept : ∀ x0, Kept Q F x0 → Kept Q F (selfRefresh x0) := by
  intro x0 h0
  unfold selfRefresh
  repeat' (first
    | with_reducible assumption
    | (extract_lets +onlyGivenNames x; refine Kept.via Q F x ?_ (fun _ => ?_) <;> [subst x; clear_value x])
    | (extract_lets +onlyGivenNames x; clear_value x)
    | with_reducible apply ite_kept
    | (with_reducible apply forEach_kept; intro _ _ _; beta_reduce)
    | with_reducible apply setMem_kept
    | with_reducible apply State.setF_kept
    | with_reducible apply State.setB_kept
    )

theorem tdcLose_kept : ∀ x0, Kept Q F x0 → Kept Q F (tdcLose x0) := by
  intro x0 h0
  unfold tdcLose
  repeat' (first
    | with_reducible assumption
    | (extract_lets +onlyGivenNames x; refine Kept.via Q F x ?_ (fun _ => ?_) <;> [subst x; clear_value x])
    | (extract_lets +onlyGivenNames x; clear_value x)
    | with_reducible apply ite_kept
    | (with_reducible apply forEach_kept; intro _ _ _; beta_reduce)
    | with_reducible apply setWarm_kept
    | with_reducible apply calLost_kept
    | with_reducible apply setTdc_kept
    | with_reducible apply showQueue_kept
    | with_reducible apply State.setB_kept
    )

theorem hibernateLose_kept : ∀ x0, Kept Q F x0 → (_ : Q.mbx = none := by assumption) → (_ : Q.locks = none := by assumption) → Kept Q F (hibernateLose x0) := by
  intro s h _ _
  unfold hibernateLose
  extract_lets +onlyGivenNames s1
  have h1 : Kept Q F s1 := mk_kept_of h { h.canonical with locks := rfl, mbx := rfl } { h.frame with locks := Frame.free ‹_›, mbx := Frame.free ‹_› }
  clear_value s1
  exact monOff_kept _ (State.setB_kept _ _ _ _ (tdcLose_kept _ (setTime_kept _ _ h1)))

theorem linksDown_kept : ∀ x0, Kept Q F x0 → Kept Q F (linksDown x0) := by
  intro x0 h0
  unfold linksDown
  repeat' (first
    | with_reducible assumption
    | (extract_lets +onlyGivenNames x; refine Kept.via Q F x ?_ (fun _ => ?_) <;> [subst x; clear_value x])
    | (extract_lets +onlyGivenNames x; clear_value x)
    | with_reducible apply ite_kept
    | (with_reducible apply forEach_kept; intro _ _ _; beta_reduce)
    | with_reducible apply State.setF_kept
    | with_reducible apply ethDown_kept
    | with_reducible apply nbrDown_kept
    | with_reducible apply mk_kept
    | with_reducible apply mk_keptActive
    )

theorem drivesFlush_kept : ∀ x0, Kept Q F x0 → Kept Q F (drivesFlush x0) := by
  intro x0 h0
  unfold drivesFlush
  repeat' (first
    | with_reducible assumption
    | with_reducible apply ite_kept
    | (with_reducible apply forEach_kept; intro _ _ _; beta_reduce)
    | with_reducible apply setNv_kept
    | with_reducible apply State.put_kept
    )

theorem hibernate_kept : ∀ x0, Kept Q F x0 → (_ : Q.mbx = none := by assumption) → (_ : Q.locks = none := by assumption) → Kept Q F (hibernate x0) := by
  intro x0 h0 _ _
  unfold hibernate
  repeat' (first
    | with_reducible assumption
    | (extract_lets +onlyGivenNames x; refine Kept.via Q F x ?_ (fun _ => ?_) <;> [subst x; clear_value x])
    | (extract_lets +onlyGivenNames x; clear_value x)
    | with_reducible apply ite_kept
    | with_reducible apply selfRefresh_kept
    | with_reducible apply hibernateLose_kept
    | with_reducible apply linksDown_kept
    | with_reducible apply drivesFlush_kept
    | with_reducible apply State.wr_kept
    | with_reducible apply State.setB_kept
    | with_reducible apply stepsOff_kept
    | with_reducible apply mk_kept
    | with_reducible apply mk_keptActive
    )

theorem stateEntry_kept : ∀ x0 x1, Kept Q F x0 → (_ : Q.mbx = none := by assumption) → (_ : Q.sram = none := by assumption) → (_ : Q.locks = none := by assumption) → Kept Q F (stateEntry x0 x1) := by
  intro x0 x1 h0 _ _ _
  unfold stateEntry
  repeat' (first
    | with_reducible assumption
    | (extract_lets +onlyGivenNames x; refine Kept.via Q F x ?_ (fun _ => ?_) <;> [subst x; clear_value x])
    | (extract_lets +onlyGivenNames x; clear_value x)
    | with_reducible apply ite_kept
    | with_reducible apply entryGate_kept
    | with_reducible apply heldWake_kept
    | with_reducible apply entered_kept
    | with_reducible apply dmaAbortIf_kept
    | with_reducible apply hibernate_kept
    )

theorem execStateEntry_kept : ∀ x0 x1, Kept Q F x1 → (_ : Q.mbx = none := by assumption) → (_ : Q.sram = none := by assumption) → (_ : Q.locks = none := by assumption) → KeptOut Q F (execStateEntry x0 x1) := by
  intro x0 x1 h0 _ _ _
  unfold execStateEntry
  repeat' (first
    | with_reducible assumption
    | with_reducible apply ite_kept
    | with_reducible apply keptOut_next
    | with_reducible apply stateEntry_kept
    )

theorem execVddCoreLow_kept : ∀ x0, Kept Q F x0 → KeptOut Q F (execVddCoreLow x0) := by
  intro x0 h0
  unfold execVddCoreLow
  repeat' (first
    | with_reducible assumption
    | with_reducible apply keptOut_next
    | with_reducible apply report_kept
    )

theorem nbrUpStep_kept : ∀ x0 x1, Kept Q F x0 → Kept Q F (nbrUpStep x0 x1) := by
  intro x0 x1 h0
  unfold nbrUpStep
  repeat' (first
    | with_reducible assumption
    | with_reducible apply ite_kept
    | with_reducible apply State.setF_kept
    )

theorem fclkStart_kept : ∀ x0, Kept Q F x0 → Kept Q F (fclkStart x0) := by
  intro x0 h0
  unfold fclkStart
  repeat' (first
    | with_reducible assumption
    | (extract_lets +onlyGivenNames x; refine Kept.via Q F x ?_ (fun _ => ?_) <;> [subst x; clear_value x])
    | with_reducible apply shiftCounts_kept
    | with_reducible apply State.wr64_kept
    | with_reducible apply State.setB_kept
    | with_reducible apply fire_kept
    | with_reducible apply mk_kept
    | with_reducible apply mk_keptActive
    )

theorem refinTake_kept : ∀ x0 x1, Kept Q F x0 → Kept Q F (refinTake x0 x1) := by
  intro x0 x1 h0
  unfold refinTake
  repeat' (first
    | with_reducible assumption
    | (extract_lets +onlyGivenNames x; clear_value x)
    | with_reducible apply State.setB_kept
    | with_reducible apply State.wr_kept
    | with_reducible apply report_kept
    | split
    )

theorem execPwrStatus_kept : ∀ x0 x1, Kept Q F x1 → (_ : Q.mbx = none := by assumption) → KeptOut Q F (execPwrStatus x0 x1) := by
  intro x0 x1 h0 _
  unfold execPwrStatus
  repeat' (first
    | with_reducible assumption
    | with_reducible apply keptOut_next
    | with_reducible apply command_kept
    | with_reducible apply reply_kept
    )

theorem faultEdge_kept : ∀ x0 x1, Kept Q F x0 → Kept Q F x1 → Kept Q F (faultEdge x0 x1) := by
  intro x0 x1 h0 h1
  unfold faultEdge
  repeat' (first
    | with_reducible assumption
    | with_reducible apply ite_kept
    | with_reducible apply State.put_kept
    )

theorem timeReturn_kept : ∀ x0, Kept Q F x0 → Kept Q F (timeReturn x0) := by
  intro x0 h0
  unfold timeReturn
  repeat' (first
    | with_reducible assumption
    | (extract_lets +onlyGivenNames x; refine Kept.via Q F x ?_ (fun _ => ?_) <;> [subst x; clear_value x])
    | (extract_lets +onlyGivenNames x; clear_value x)
    | with_reducible apply ite_kept
    | with_reducible apply State.wr64_kept
    | with_reducible apply setTime_kept
    | with_reducible apply State.setB_kept
    | with_reducible apply integRate_kept
    | with_reducible apply servoRestart_kept
    | with_reducible apply setClock_kept
    )

theorem porst_kept : ∀ x0 x1, Kept Q F x0 → (_ : Q.active = none := by assumption) → (_ : Q.mbx = none := by assumption) → (_ : Q.hbm = none := by assumption) → (_ : Q.sram = none := by assumption) → (_ : Q.slcRam = none := by assumption) → (_ : Q.msix = none := by assumption) → (_ : Q.locks = none := by assumption) → Kept Q F (porst x0 x1) := by
  intro x0 x1 h0 _ _ _ _ _ _ _
  unfold porst
  repeat' (first
    | with_reducible assumption
    | with_reducible apply State.wr_kept
    | with_reducible apply keepLatch_kept
    | with_reducible apply State.setB_kept
    | with_reducible apply cleared_kept
    | with_reducible apply mk_kept
    | with_reducible apply mk_keptActive
    )

theorem execPorstN_kept : ∀ x0 x1, Kept Q F x1 → (_ : Q.active = none := by assumption) → (_ : Q.mbx = none := by assumption) → (_ : Q.hbm = none := by assumption) → (_ : Q.sram = none := by assumption) → (_ : Q.slcRam = none := by assumption) → (_ : Q.msix = none := by assumption) → (_ : Q.locks = none := by assumption) → KeptOut Q F (execPorstN x0 x1) := by
  intro x0 x1 h0 _ _ _ _ _ _ _
  unfold execPorstN
  repeat' (first
    | with_reducible assumption
    | with_reducible apply keptOut_next
    | with_reducible apply faultEdge_kept
    | with_reducible apply porst_kept
    )

theorem wake_kept : ∀ x0 x1, Kept Q F x0 → Kept Q F (wake x0 x1) := by
  intro x0 x1 h0
  unfold wake
  repeat' (first
    | with_reducible assumption
    | with_reducible apply ite_kept
    | with_reducible apply wakeNow_kept
    | with_reducible apply mk_kept
    )

theorem execOwlTimerExpiry_kept : ∀ x0, Kept Q F x0 → KeptOut Q F (execOwlTimerExpiry x0) := by
  intro x0 h0
  unfold execOwlTimerExpiry
  repeat' (first
    | with_reducible assumption
    | with_reducible apply ite_kept
    | with_reducible apply keptOut_next
    | with_reducible apply wake_kept
    | with_reducible apply State.wr_kept
    )

theorem synthUp_kept : ∀ x0 x1, Kept Q F x0 → Kept Q F (synthUp x0 x1) := by
  intro x0 x1 h0
  unfold synthUp
  repeat' (first
    | with_reducible assumption
    | (extract_lets +onlyGivenNames x; refine Kept.via Q F x ?_ (fun _ => ?_) <;> [subst x; clear_value x])
    | (extract_lets +onlyGivenNames x; clear_value x)
    | with_reducible apply ite_kept
    | with_reducible apply State.setB_kept
    )

theorem trained_kept : ∀ x0 x1 x2, Kept Q F x0 → Kept Q F (trained x0 x1 x2) := by
  intro x0 x1 x2 h0
  unfold trained
  repeat' (first
    | with_reducible assumption
    | (extract_lets +onlyGivenNames x; refine Kept.via Q F x ?_ (fun _ => ?_) <;> [subst x; clear_value x])
    | (extract_lets +onlyGivenNames x; clear_value x)
    | with_reducible apply ite_kept
    | with_reducible apply showLink_kept
    | with_reducible apply State.setB_kept
    | with_reducible apply mk_kept
    | with_reducible apply mk_keptActive
    )

theorem porstOver_kept : ∀ x0, Kept Q F x0 → Kept Q F (porstOver x0) := by
  intro x0 h0
  unfold porstOver
  repeat' (first
    | with_reducible assumption
    | (extract_lets +onlyGivenNames x; refine Kept.via Q F x ?_ (fun _ => ?_) <;> [subst x; clear_value x])
    | (extract_lets +onlyGivenNames x; clear_value x)
    | with_reducible apply ite_kept
    | with_reducible apply assertFault_kept
    | with_reducible apply mk_kept
    | with_reducible apply mk_keptActive
    )

theorem bootEarly_kept : ∀ x0 x1 x2, Kept Q F x0 → Kept Q F (bootEarly x0 x1 x2) := by
  intro s r l h
  unfold bootEarly
  extract_lets +onlyGivenNames s1
  have h1 : Kept Q F s1 := clkReset_kept _ (showFuses_kept _ (porstOver_kept _ h))
  clear_value s1
  extract_lets +onlyGivenNames s2
  have h2 : Kept Q F s2 := forEach_kept (fun _ _ k => stepStarted_kept _ _ _ _ k) h1
  clear_value s2
  extract_lets +onlyGivenNames s3
  have h3 : Kept Q F s3 := refinTake_kept _ _ (mk_kept h2)
  clear_value s3
  exact bootRom_kept _ (identified_kept _ _ h3)

theorem execWarmRstN_kept : ∀ x0 x1 x2, Kept Q F x2 → (_ : Q.active = none := by assumption) → (_ : Q.mbx = none := by assumption) → (_ : Q.hbm = none := by assumption) → (_ : Q.sram = none := by assumption) → (_ : Q.slcRam = none := by assumption) → (_ : Q.msix = none := by assumption) → (_ : Q.locks = none := by assumption) → KeptOut Q F (execWarmRstN x0 x1 x2) := by
  intro x0 x1 x2 h0 _ _ _ _ _ _ _
  unfold execWarmRstN
  repeat' (first
    | with_reducible assumption
    | with_reducible apply ite_kept
    | with_reducible apply keptOut_next
    | with_reducible apply faultEdge_kept
    | with_reducible apply bootEarly_kept
    | with_reducible apply warmReset_kept
    )

theorem inStandby_kept : ∀ x0, Kept Q F x0 → Kept Q F (inStandby x0) := by
  intro x0 h0
  unfold inStandby
  repeat' (first
    | with_reducible assumption
    | (extract_lets +onlyGivenNames x; refine Kept.via Q F x ?_ (fun _ => ?_) <;> [subst x; clear_value x])
    | (extract_lets +onlyGivenNames x; clear_value x)
    | with_reducible apply ite_kept
    | with_reducible apply mk_kept
    | with_reducible apply mk_keptActive
    )

theorem afterStep_kept : ∀ x0 x1, Kept Q F x0 → Kept Q F (afterStep x0 x1) := by
  intro s n h
  unfold afterStep
  split
  · exact State.setF_kept _ _ _ _ _ (State.setF_kept _ _ _ _ _ h)
  · split
    · exact inStandby_kept _ (State.wr_kept _ _ _ (State.setF_kept _ _ _ _ _ (State.setF_kept _ _ _ _ _ h)))
    · split
      · exact mk_kept h
      · exact h

theorem endpointUp_kept : ∀ x0, Kept Q F x0 → Kept Q F (endpointUp x0) := by
  intro x0 h0
  unfold endpointUp
  repeat' (first
    | with_reducible assumption
    | (extract_lets +onlyGivenNames x; refine Kept.via Q F x ?_ (fun _ => ?_) <;> [subst x; clear_value x])
    | (extract_lets +onlyGivenNames x; clear_value x)
    | with_reducible apply ite_kept
    | with_reducible apply trained_kept
    )

theorem lanesUp_kept : ∀ x0 x1, Kept Q F x0 → Kept Q F (lanesUp x0 x1) := by
  intro x0 x1 h0
  unfold lanesUp
  repeat' (first
    | with_reducible assumption
    | (extract_lets +onlyGivenNames x; refine Kept.via Q F x ?_ (fun _ => ?_) <;> [subst x; clear_value x])
    | (extract_lets +onlyGivenNames x; clear_value x)
    | with_reducible apply ite_kept
    | (with_reducible apply forEach_kept; intro _ _ _; beta_reduce)
    | with_reducible apply State.setF_kept
    )

theorem backEndUp_kept : ∀ x0 x1, Kept Q F x0 → Kept Q F (backEndUp x0 x1) := by
  intro x0 x1 h0
  unfold backEndUp
  repeat' (first
    | with_reducible assumption
    | (extract_lets +onlyGivenNames x; refine Kept.via Q F x ?_ (fun _ => ?_) <;> [subst x; clear_value x])
    | (extract_lets +onlyGivenNames x; clear_value x)
    | with_reducible apply ite_kept
    | (with_reducible apply forEach_kept; intro _ _ _; beta_reduce)
    | with_reducible apply showRole_kept
    | with_reducible apply State.setF_kept
    | with_reducible apply State.setCore_kept
    )

theorem stepEffect_kept : ∀ x0 x1, Kept Q F x0 → (_ : Q.sram = none := by assumption) → Kept Q F (stepEffect x0 x1) := by
  intro x0 x1 h0 _
  unfold stepEffect
  repeat' (first
    | with_reducible assumption
    | with_reducible apply ite_kept
    | with_reducible apply State.setB_kept
    | with_reducible apply timeReturn_kept
    | with_reducible apply endpointUp_kept
    | with_reducible apply stackUp_kept
    | with_reducible apply lanesUp_kept
    | with_reducible apply nbrUpStep_kept
    | with_reducible apply dmaIdleAll_kept
    | with_reducible apply mdllUp_kept
    | with_reducible apply backEndUp_kept
    | with_reducible apply synthUp_kept
    | with_reducible apply dspReturn_kept
    | with_reducible apply fclkStart_kept
    )

theorem staggerStep_kept : ∀ x0 x1 x2, Kept Q F x0 → (_ : Q.active = none := by assumption) → (_ : Q.sram = none := by assumption) → Kept Q F (staggerStep x0 x1 x2) := by
  intro x0 x1 x2 h0 _ _
  unfold staggerStep
  repeat' (first
    | with_reducible assumption
    | (extract_lets +onlyGivenNames x; refine Kept.via Q F x ?_ (fun _ => ?_) <;> [subst x; clear_value x])
    | (extract_lets +onlyGivenNames x; clear_value x)
    | with_reducible apply ite_kept
    | with_reducible apply retentionLost_kept
    | with_reducible apply stepStarted_kept
    | with_reducible apply afterStep_kept
    | with_reducible apply stepEffect_kept
    | with_reducible apply mk_kept
    )

theorem execVddAonLoss_kept : ∀ x0, Kept Q F x0 → (_ : Q.active = none := by assumption) → (_ : Q.mbx = none := by assumption) → (_ : Q.hbm = none := by assumption) → (_ : Q.sram = none := by assumption) → (_ : Q.slcRam = none := by assumption) → (_ : Q.msix = none := by assumption) → (_ : Q.locks = none := by assumption) → KeptOut Q F (execVddAonLoss x0) := by
  intro x0 h0 _ _ _ _ _ _ _
  unfold execVddAonLoss
  repeat' (first
    | with_reducible assumption
    | with_reducible apply keptOut_next
    | with_reducible apply faultEdge_kept
    | with_reducible apply State.wr_kept
    | with_reducible apply cleared_kept
    )

theorem runTurn_kept : ∀ x0 x1, Kept Q F x0 → Kept Q F (runTurn x0 x1) := by
  intro x0 x1 h0
  unfold runTurn
  repeat' (first
    | with_reducible assumption
    | (extract_lets +onlyGivenNames x; refine Kept.via Q F x ?_ (fun _ => ?_) <;> [subst x; clear_value x])
    | (extract_lets +onlyGivenNames x; clear_value x)
    | with_reducible apply ite_kept
    | with_reducible apply mdllsRetry_kept
    | with_reducible apply mk_kept
    | with_reducible apply mk_keptActive
    )

theorem skipAbsent_kept : ∀ (n : Nat) (s : State), Kept Q F s → Kept Q F (skipAbsent n s)
  | 0, _, k => k
  | n + 1, s, k => by
    unfold skipAbsent
    exact ite_kept (skipAbsent_kept n _ (mk_kept (showStep_kept _ _ _ k))) k

theorem execStepFail_kept : ∀ x0 x1, Kept Q F x1 → KeptOut Q F (execStepFail x0 x1) := by
  intro x0 x1 h0
  unfold execStepFail
  repeat' (first
    | with_reducible assumption
    | (extract_lets +onlyGivenNames x; refine Kept.via Q F x ?_ (fun _ => ?_) <;> [subst x; clear_value x])
    | with_reducible apply ite_kept
    | with_reducible apply keptOut_next
    | with_reducible apply skipAbsent_kept
    | with_reducible apply report_kept
    | with_reducible apply State.setB_kept
    | with_reducible apply stepStarted_kept
    )

theorem fwStart_kept : ∀ x0 x1, Kept Q F x0 → Kept Q F (fwStart x0 x1) := by
  intro x0 x1 h0
  unfold fwStart
  repeat' (first
    | with_reducible assumption
    | (extract_lets +onlyGivenNames x; refine Kept.via Q F x ?_ (fun _ => ?_) <;> [subst x; clear_value x])
    | with_reducible apply ite_kept
    | (with_reducible apply forEach_kept; intro _ _ _; beta_reduce)
    | with_reducible apply State.setF_kept
    | with_reducible apply State.setB_kept
    | with_reducible apply State.wr_kept
    | with_reducible apply setNv_kept
    | with_reducible apply report_kept
    | with_reducible apply mk_kept
    )

theorem commandsLost_kept : ∀ x0, Kept Q F x0 → Kept Q F (commandsLost x0) := by
  intro x0 h0
  unfold commandsLost
  repeat' (first
    | with_reducible assumption
    | (with_reducible apply forEach_kept; intro _ _ _; beta_reduce)
    | with_reducible apply mbxEvent_kept
    | with_reducible apply State.setF_kept
    | with_reducible apply mk_kept
    )

theorem bandsLoad_kept : ∀ x0, Kept Q F x0 → Kept Q F (bandsLoad x0) := by
  intro x0 h0
  unfold bandsLoad
  repeat' (first
    | with_reducible assumption
    | (extract_lets +onlyGivenNames x; refine Kept.via Q F x ?_ (fun _ => ?_) <;> [subst x; clear_value x])
    | (extract_lets +onlyGivenNames x; clear_value x)
    | with_reducible apply ite_kept
    | (with_reducible apply forEach_kept; intro _ _ _; beta_reduce)
    | with_reducible apply State.wr_kept
    )

theorem memoryPowerOn_kept : ∀ x0, Kept Q F x0 → Kept Q F (memoryPowerOn x0) := by
  intro x0 h0
  unfold memoryPowerOn
  repeat' (first
    | with_reducible assumption
    | (extract_lets +onlyGivenNames x; refine Kept.via Q F x ?_ (fun _ => ?_) <;> [subst x; clear_value x])
    | (extract_lets +onlyGivenNames x; clear_value x)
    | with_reducible apply ite_kept
    | (with_reducible apply forEach_kept; intro _ _ _; beta_reduce)
    | with_reducible apply State.wr_kept
    | with_reducible apply sparesShow_kept
    | with_reducible apply layOut_kept
    | with_reducible apply layFrom_kept
    )

theorem execFirmwareStart_kept : ∀ x0 x1, Kept Q F x1 → KeptOut Q F (execFirmwareStart x0 x1) := by
  intro x0 x1 h0
  unfold execFirmwareStart
  repeat' (first
    | with_reducible assumption
    | (extract_lets +onlyGivenNames x; refine Kept.via Q F x ?_ (fun _ => ?_) <;> [subst x; clear_value x])
    | (extract_lets +onlyGivenNames x; clear_value x)
    | with_reducible apply ite_kept
    | with_reducible apply ite_keptOut
    | with_reducible apply keptOut_next
    | with_reducible apply fwStart_kept
    | with_reducible apply commandsLost_kept
    | with_reducible apply tdcBoot_kept
    | with_reducible apply bandsLoad_kept
    | with_reducible apply memoryPowerOn_kept
    | with_reducible apply State.setF_kept
    | with_reducible apply mk_kept
    | with_reducible apply mk_keptActive
    )

theorem pwrApply_kept : ∀ x0 x1 x2 x3, Kept Q F x0 → (_ : Q.mbx = none := by assumption) → Kept Q F (pwrApply x0 x1 x2 x3) := by
  intro x0 x1 x2 x3 h0 _
  unfold pwrApply
  repeat' (first
    | with_reducible assumption
    | (extract_lets +onlyGivenNames x; refine Kept.via Q F x ?_ (fun _ => ?_) <;> [subst x; clear_value x])
    | (extract_lets +onlyGivenNames x; clear_value x)
    | with_reducible apply ite_kept
    | with_reducible apply State.setF_kept
    | with_reducible apply pwrAnswer_kept
    | with_reducible apply runTurn_kept
    | with_reducible apply State.wr_kept
    | with_reducible apply mk_kept
    )

theorem execPwrTransitionApply_kept : ∀ x0 x1, Kept Q F x1 → (_ : Q.mbx = none := by assumption) → KeptOut Q F (execPwrTransitionApply x0 x1) := by
  intro x0 x1 h0 _
  unfold execPwrTransitionApply
  repeat' (first
    | with_reducible assumption
    | with_reducible apply ite_kept
    | with_reducible apply keptOut_next
    | with_reducible apply pwrApply_kept
    | split
    )

theorem execWakePin_kept : ∀ x0, Kept Q F x0 → KeptOut Q F (execWakePin x0) := by
  intro x0 h0
  unfold execWakePin
  repeat' (first
    | with_reducible assumption
    | with_reducible apply keptOut_next
    | with_reducible apply wake_kept
    )

theorem execThermalShutdown_kept : ∀ x0, Kept Q F x0 → (_ : Q.active = none := by assumption) → (_ : Q.mbx = none := by assumption) → (_ : Q.hbm = none := by assumption) → (_ : Q.sram = none := by assumption) → (_ : Q.slcRam = none := by assumption) → (_ : Q.msix = none := by assumption) → (_ : Q.locks = none := by assumption) → KeptOut Q F (execThermalShutdown x0) := by
  intro x0 h0 _ _ _ _ _ _ _
  unfold execThermalShutdown
  repeat' (first
    | with_reducible assumption
    | (extract_lets +onlyGivenNames x; refine Kept.via Q F x ?_ (fun _ => ?_) <;> [subst x; clear_value x])
    | (extract_lets +onlyGivenNames x; clear_value x)
    | with_reducible apply keptOut_next
    | (with_reducible apply forEach_kept; intro _ _ _; beta_reduce)
    | with_reducible apply keepLatch_kept
    | with_reducible apply cleared_kept
    | with_reducible apply State.wr_kept
    | with_reducible apply faultEdge_kept
    | with_reducible apply mk_kept
    )

theorem junction_kept : ∀ x0 x1, Kept Q F x0 → Kept Q F (junction x0 x1) := by
  intro x0 x1 h0
  unfold junction
  repeat' (first
    | with_reducible assumption
    | (extract_lets +onlyGivenNames x; refine Kept.via Q F x ?_ (fun _ => ?_) <;> [subst x; clear_value x])
    | (extract_lets +onlyGivenNames x; clear_value x)
    | (with_reducible apply forEach_kept; intro _ _ _; beta_reduce)
    | with_reducible apply State.setF_kept
    | with_reducible apply report_kept
    )

theorem execJunctionThreshold_kept : ∀ x0 x1, Kept Q F x1 → KeptOut Q F (execJunctionThreshold x0 x1) := by
  intro x0 x1 h0
  unfold execJunctionThreshold
  repeat' (first
    | with_reducible assumption
    | with_reducible apply keptOut_next
    | with_reducible apply junction_kept
    )

theorem wakeDone_kept : ∀ x0 x1, Kept Q F x0 → (_ : Q.mbx = none := by assumption) → Kept Q F (wakeDone x0 x1) := by
  intro x0 x1 h0 _
  unfold wakeDone
  repeat' (first
    | with_reducible assumption
    | (extract_lets +onlyGivenNames x; refine Kept.via Q F x ?_ (fun _ => ?_) <;> [subst x; clear_value x])
    | (extract_lets +onlyGivenNames x; clear_value x)
    | with_reducible apply State.wr_kept
    | with_reducible apply State.setF_kept
    | with_reducible apply reply_kept
    | split
    | with_reducible apply mk_kept
    )

theorem execReset_kept : ∀ x0 x1, Kept Q F x1 → (_ : Q.mbx = none := by assumption) → KeptOut Q F (execReset x0 x1) := by
  intro x0 x1 h0 _
  unfold execReset
  repeat' (first
    | with_reducible assumption
    | (extract_lets +onlyGivenNames x; clear_value x)
    | with_reducible apply keptOut_next
    | with_reducible apply command_kept
    | with_reducible apply mk_kept
    )

theorem execStaggerStep_kept : ∀ x0 x1 x2, Kept Q F x2 → (_ : Q.active = none := by assumption) → (_ : Q.mbx = none := by assumption) → (_ : Q.sram = none := by assumption) → KeptOut Q F (execStaggerStep x0 x1 x2) := by
  intro x0 x1 x2 h0 _ _ _
  unfold execStaggerStep
  repeat' (first
    | with_reducible assumption
    | (extract_lets +onlyGivenNames x; refine Kept.via Q F x ?_ (fun _ => ?_) <;> [subst x; clear_value x])
    | with_reducible apply ite_kept
    | with_reducible apply keptOut_next
    | with_reducible apply skipAbsent_kept
    | with_reducible apply haltNow_kept
    | with_reducible apply staggerStep_kept
    )

theorem execPwrStateSet_kept : ∀ x0 x1, Kept Q F x1 → (_ : Q.mbx = none := by assumption) → KeptOut Q F (execPwrStateSet x0 x1) := by
  intro x0 x1 h0 _
  unfold execPwrStateSet
  repeat' (first
    | with_reducible assumption
    | (extract_lets +onlyGivenNames x; refine Kept.via Q F x ?_ (fun _ => ?_) <;> [subst x; clear_value x])
    | (extract_lets +onlyGivenNames x; clear_value x)
    | with_reducible apply ite_kept
    | with_reducible apply ite_keptOut
    | with_reducible apply keptOut_next
    | with_reducible apply command_kept
    | with_reducible apply pwrEffect_kept
    )

theorem execColdBoot_kept : ∀ x0 x1 x2 x3, Kept Q F x3 → KeptOut Q F (execColdBoot x0 x1 x2 x3) := by
  intro x0 x1 x2 x3 h0
  unfold execColdBoot
  repeat' (first
    | with_reducible assumption
    | with_reducible apply ite_kept
    | with_reducible apply keptOut_next
    | with_reducible apply bootEarly_kept
    | with_reducible apply State.setB_kept
    )

theorem execRunFirstBeat_kept : ∀ x0 x1, Kept Q F x1 → (_ : Q.mbx = none := by assumption) → KeptOut Q F (execRunFirstBeat x0 x1) := by
  intro x0 x1 h0 _
  unfold execRunFirstBeat
  repeat' (first
    | with_reducible assumption
    | (extract_lets +onlyGivenNames x; clear_value x)
    | with_reducible apply ite_kept
    | with_reducible apply keptOut_next
    | with_reducible apply wakeDone_kept
    | with_reducible apply fgAll_kept
    | with_reducible apply mk_kept
    )

-- Machine/Pcie.lean

theorem sendPending_kept : ∀ x0, Kept Q F x0 → Kept Q F (sendPending x0) := by
  intro x0 h0
  unfold sendPending
  repeat' (first
    | with_reducible assumption
    | (extract_lets +onlyGivenNames x; clear_value x)
    | (with_reducible apply forEach_kept; intro _ _ _; beta_reduce)
    | with_reducible apply sendMsi_kept
    | with_reducible apply mk_kept
    )

theorem msixWrite_kept : ∀ x0 x1 x2, Kept Q F x0 → (_ : Q.msix = none := by assumption) → Kept Q F (msixWrite x0 x1 x2) := fun _ o v h _ =>
  sendPending_kept _ (mk_kept_of h { h.canonical with msix := Sparse.wf_set (d := msixDflt) o _ h.canonical.msix } { h.frame with msix := Frame.free ‹_› })

theorem queueOff_kept : ∀ x0 x1, Kept Q F x0 → Kept Q F (queueOff x0 x1) := by
  intro x0 x1 h0
  unfold queueOff
  repeat' (first
    | with_reducible assumption
    | (extract_lets +onlyGivenNames x; refine Kept.via Q F x ?_ (fun _ => ?_) <;> [subst x; clear_value x])
    | with_reducible apply State.setB_kept
    | with_reducible apply mk_kept
    )

theorem hostStreamsOff_kept : ∀ x0, Kept Q F x0 → Kept Q F (hostStreamsOff x0) := by
  intro x0 h0
  unfold hostStreamsOff
  repeat' (first
    | with_reducible assumption
    | (extract_lets +onlyGivenNames x; refine Kept.via Q F x ?_ (fun _ => ?_) <;> [subst x; clear_value x])
    | (extract_lets +onlyGivenNames x; clear_value x)
    | (with_reducible apply forEach_kept; intro _ _ _; beta_reduce)
    | with_reducible apply carrierStop_kept
    | with_reducible apply State.setStream_kept
    | with_reducible apply State.wr64_kept
    | with_reducible apply State.setB_kept
    | with_reducible apply mk_kept
    )

theorem setPci_kept : ∀ x0 x1, Kept Q F x0 → Kept Q F (setPci x0 x1) := by
  intro x0 x1 h0
  unfold setPci
  repeat' (first
    | with_reducible assumption
    | with_reducible apply mk_kept
    )

theorem execPerstRelease_kept : ∀ x0 x1 x2, Kept Q F x2 → KeptOut Q F (execPerstRelease x0 x1 x2) := by
  intro x0 x1 x2 h0
  unfold execPerstRelease
  repeat' (first
    | with_reducible assumption
    | (extract_lets +onlyGivenNames x; refine Kept.via Q F x ?_ (fun _ => ?_) <;> [subst x; clear_value x])
    | (extract_lets +onlyGivenNames x; clear_value x)
    | with_reducible apply ite_kept
    | with_reducible apply keptOut_next
    | with_reducible apply setPci_kept
    | with_reducible apply wake_kept
    | with_reducible apply trained_kept
    )

theorem mailboxHostReset_kept : ∀ x0, Kept Q F x0 → (_ : Q.mbx = none := by assumption) → Kept Q F (mailboxHostReset x0) := by
  intro s h _
  unfold mailboxHostReset
  extract_lets +onlyGivenNames lost empty s1
  have h1 : Kept Q F s1 := mk_kept_of h { h.canonical with mbx := Sparse.wf_filter _ h.canonical.mbx } { h.frame with mbx := Frame.free ‹_› }
  clear_value s1
  extract_lets +onlyGivenNames s2 s3 s4
  have h2 : Kept Q F s2 := forEach_kept (fun _ _ k => State.wr_kept _ _ _ (State.wr_kept _ _ _ (State.wr_kept _ _ _
    (State.setF_kept _ _ _ _ _ k)))) h1
  have h4 : Kept Q F s4 := State.setF_kept _ _ _ _ _ (State.wr_kept _ _ _ (State.setF_kept _ _ _ _ _ h2))
  exact forEach_kept (fun _ _ k => State.put_kept _ _ k) h4

theorem execAerError_kept : ∀ x0 x1 x2, Kept Q F x2 → KeptOut Q F (execAerError x0 x1 x2) := by
  intro x0 x1 x2 h0
  unfold execAerError
  repeat' (first
    | with_reducible assumption
    | (extract_lets +onlyGivenNames x; clear_value x)
    | with_reducible apply ite_kept
    | with_reducible apply keptOut_next
    | with_reducible apply report_kept
    | with_reducible apply setPci_kept
    )

theorem pciDefaults_kept : ∀ x0, Kept Q F x0 → (_ : Q.msix = none := by assumption) → Kept Q F (pciDefaults x0) := fun _ h _ =>
  mk_kept_of (setPci_kept _ _ h) { h.canonical with msix := rfl } { h.frame with msix := Frame.free ‹_› }

theorem hostReset_kept : ∀ x0, Kept Q F x0 → (_ : Q.mbx = none := by assumption) → (_ : Q.sram = none := by assumption) → (_ : Q.msix = none := by assumption) → (_ : Q.locks = none := by assumption) → Kept Q F (hostReset x0) := by
  intro x0 h0 _ _ _ _
  unfold hostReset
  repeat' (first
    | with_reducible assumption
    | (extract_lets +onlyGivenNames x; refine Kept.via Q F x ?_ (fun _ => ?_) <;> [subst x; clear_value x])
    | (with_reducible apply forEach_kept; intro _ _ _; beta_reduce)
    | with_reducible apply dmaAbortIf_kept
    | with_reducible apply freeLocks_kept
    | with_reducible apply mailboxHostReset_kept
    | with_reducible apply hostStreamsOff_kept
    | with_reducible apply queueOff_kept
    | with_reducible apply pciDefaults_kept
    | with_reducible apply dspHostGone_kept
    )

theorem execPerstAssert_kept : ∀ x0, Kept Q F x0 → (_ : Q.mbx = none := by assumption) → (_ : Q.sram = none := by assumption) → (_ : Q.msix = none := by assumption) → (_ : Q.locks = none := by assumption) → KeptOut Q F (execPerstAssert x0) := by
  intro x0 h0 _ _ _ _
  unfold execPerstAssert
  repeat' (first
    | with_reducible assumption
    | (extract_lets +onlyGivenNames x; refine Kept.via Q F x ?_ (fun _ => ?_) <;> [subst x; clear_value x])
    | (extract_lets +onlyGivenNames x; clear_value x)
    | with_reducible apply ite_kept
    | with_reducible apply keptOut_next
    | with_reducible apply State.setB_kept
    | with_reducible apply showLink_kept
    | with_reducible apply hostReset_kept
    | with_reducible apply setPci_kept
    )

theorem execPcieHotReset_kept : ∀ x0 x1, Kept Q F x1 → (_ : Q.mbx = none := by assumption) → (_ : Q.sram = none := by assumption) → (_ : Q.msix = none := by assumption) → (_ : Q.locks = none := by assumption) → KeptOut Q F (execPcieHotReset x0 x1) := by
  intro x0 x1 h0 _ _ _ _
  unfold execPcieHotReset
  repeat' (first
    | with_reducible assumption
    | with_reducible apply keptOut_next
    | with_reducible apply State.setB_kept
    | with_reducible apply hostReset_kept
    )

theorem execPcieSurpriseDown_kept : ∀ x0, Kept Q F x0 → (_ : Q.mbx = none := by assumption) → (_ : Q.sram = none := by assumption) → (_ : Q.msix = none := by assumption) → (_ : Q.locks = none := by assumption) → KeptOut Q F (execPcieSurpriseDown x0) := by
  intro x0 h0 _ _ _ _
  unfold execPcieSurpriseDown
  repeat' (first
    | with_reducible assumption
    | with_reducible apply keptOut_next
    | with_reducible apply report_kept
    | with_reducible apply State.setB_kept
    | with_reducible apply hostReset_kept
    )

theorem execPcieConfigWrite_kept : ∀ x0 x1 x2 x3 x4 x5 x6, Kept Q F x6 → KeptOut Q F (execPcieConfigWrite x0 x1 x2 x3 x4 x5 x6) := by
  intro x0 x1 x2 x3 x4 x5 x6 h0
  unfold execPcieConfigWrite
  repeat' (first
    | with_reducible assumption
    | (extract_lets +onlyGivenNames x; clear_value x)
    | with_reducible apply ite_kept
    | with_reducible apply keptOut_next
    | with_reducible apply sendPending_kept
    | with_reducible apply setPci_kept
    )

theorem execMsixUnmask_kept : ∀ x0 x1, Kept Q F x1 → (_ : Q.msix = none := by assumption) → KeptOut Q F (execMsixUnmask x0 x1) := by
  intro x0 x1 h0 _
  unfold execMsixUnmask
  repeat' (first
    | with_reducible assumption
    | with_reducible apply ite_kept
    | with_reducible apply keptOut_next
    | with_reducible apply onBar_kept
    | with_reducible apply msixWrite_kept
    )

theorem execPcieDowntrain_kept : ∀ x0 x1 x2, Kept Q F x2 → KeptOut Q F (execPcieDowntrain x0 x1 x2) := by
  intro x0 x1 x2 h0
  unfold execPcieDowntrain
  repeat' (first
    | with_reducible assumption
    | with_reducible apply ite_kept
    | with_reducible apply keptOut_next
    | with_reducible apply report_kept
    | with_reducible apply State.setB_kept
    | with_reducible apply trained_kept
    )

-- Machine/Secure.lean

theorem tuUnlock_kept : ∀ x0 x1, Kept Q F x0 → (_ : Q.mbx = none := by assumption) → Kept Q F (tuUnlock x0 x1) := by
  intro x0 x1 h0 _
  unfold tuUnlock
  repeat' (first
    | with_reducible assumption
    | (extract_lets +onlyGivenNames x; refine Kept.via Q F x ?_ (fun _ => ?_) <;> [subst x; clear_value x])
    | with_reducible apply report_kept
    | with_reducible apply reply_kept
    | with_reducible apply State.setB_kept
    | with_reducible apply mk_kept
    )

theorem setFuses_kept : ∀ (s : State) (f : Fuses), Kept Q F s → Fuses.Burned F f → Kept Q F (setFuses s f) := fun _ _ h hf =>
  showFuses_kept _ ⟨h.pending, hf, h.canonical, h.frame⟩

theorem ownerKeySet_kept : ∀ (s : State) (p : List Byte), Kept Q F s → (∀ y, s.fuses.ownerHash = some y → okHash p = y) →
    Kept Q F (ownerKeySet s p) := by
  intro s p h hy
  unfold ownerKeySet
  extract_lets st s1
  have h1 : Kept Q F s1 := mk_kept h
  refine setFuses_kept _ _ h1 (h.fuses.trans ⟨rfl, rfl, rfl, rfl, Nat.le_refl _, fun k => k, fun k => ?_, fun y k => ?_⟩)
  · show (s.fuses.noVendor || okRevoke p) = true
    simp [k]
  · show some (okHash p) = some y
    rw [hy y k]

theorem execFwStatus_kept : ∀ x0 x1, Kept Q F x1 → (_ : Q.mbx = none := by assumption) → KeptOut Q F (execFwStatus x0 x1) := by
  intro x0 x1 h0 _
  unfold execFwStatus
  repeat' (first
    | with_reducible assumption
    | with_reducible apply keptOut_next
    | with_reducible apply command_kept
    | with_reducible apply reply_kept
    )

theorem kxRefuse_kept : ∀ x0 x1 x2, Kept Q F x0 → (_ : Q.mbx = none := by assumption) → Kept Q F (kxRefuse x0 x1 x2) := by
  intro x0 x1 x2 h0 _
  unfold kxRefuse
  repeat' (first
    | with_reducible assumption
    | (extract_lets +onlyGivenNames x; refine Kept.via Q F x ?_ (fun _ => ?_) <;> [subst x; clear_value x])
    | with_reducible apply ite_kept
    | with_reducible apply State.addR_kept
    | with_reducible apply report_kept
    | with_reducible apply State.release_kept
    | with_reducible apply State.addSat_kept
    | with_reducible apply answerAs_kept
    | with_reducible apply deny_kept
    )

theorem setOperator_kept : ∀ x0 x1 x2, Kept Q F x0 → Kept Q F (setOperator x0 x1 x2) := by
  intro x0 x1 x2 h0
  unfold setOperator
  repeat' (first
    | with_reducible assumption
    | (extract_lets +onlyGivenNames x; clear_value x)
    | split
    | with_reducible apply mk_kept
    )

theorem showSess_kept : ∀ x0, Kept Q F x0 → Kept Q F (showSess x0) := by
  intro x0 h0
  unfold showSess
  repeat' (first
    | with_reducible assumption
    | with_reducible apply State.wr_kept
    )

theorem kxOpen_kept : ∀ x0 x1 x2, Kept Q F x0 → (_ : Q.mbx = none := by assumption) → Kept Q F (kxOpen x0 x1 x2) := by
  intro x0 x1 x2 h0 _
  unfold kxOpen
  repeat' (first
    | with_reducible assumption
    | (extract_lets +onlyGivenNames x; refine Kept.via Q F x ?_ (fun _ => ?_) <;> [subst x; clear_value x])
    | (extract_lets +onlyGivenNames x; clear_value x)
    | with_reducible apply setOperator_kept
    | with_reducible apply reply_kept
    | with_reducible apply State.addR_kept
    | with_reducible apply showSess_kept
    | with_reducible apply State.setSession_kept
    | with_reducible apply mk_kept
    )

theorem keyExchange_kept : ∀ x0 x1, Kept Q F x0 → (_ : Q.mbx = none := by assumption) → Kept Q F (keyExchange x0 x1) := by
  intro x0 x1 h0 _
  unfold keyExchange
  repeat' (first
    | with_reducible assumption
    | with_reducible apply ite_kept
    | with_reducible apply kxRefuse_kept
    | with_reducible apply kxOpen_kept
    | with_reducible apply deny_kept
    | split
    )

theorem closeSession_kept : ∀ x0 x1, Kept Q F x0 → Kept Q F (closeSession x0 x1) := by
  intro x0 x1 h0
  unfold closeSession
  repeat' (first
    | with_reducible assumption
    | with_reducible apply showSess_kept
    | with_reducible apply State.setSession_kept
    )

theorem closeOf_kept : ∀ x0 x1, Kept Q F x0 → Kept Q F (closeOf x0 x1) := by
  intro x0 x1 h0
  unfold closeOf
  repeat' (first
    | with_reducible assumption
    | (with_reducible apply forEach_kept; intro _ _ _; beta_reduce)
    | with_reducible apply closeSession_kept
    )

theorem execOperatorSet_kept : ∀ x0 x1, Kept Q F x1 → (_ : Q.mbx = none := by assumption) → KeptOut Q F (execOperatorSet x0 x1) := by
  intro x0 x1 h0 _
  unfold execOperatorSet
  repeat' (first
    | with_reducible assumption
    | (extract_lets +onlyGivenNames x; clear_value x)
    | with_reducible apply keptOut_next
    | with_reducible apply command_kept
    | with_reducible apply closeOf_kept
    | with_reducible apply setOperator_kept
    | with_reducible apply reply_kept
    )

theorem tuChallenge_kept : ∀ x0 x1, Kept Q F x0 → (_ : Q.mbx = none := by assumption) → Kept Q F (tuChallenge x0 x1) := by
  intro x0 x1 h0 _
  unfold tuChallenge
  repeat' (first
    | with_reducible assumption
    | (extract_lets +onlyGivenNames x; refine Kept.via Q F x ?_ (fun _ => ?_) <;> [subst x; clear_value x])
    | (extract_lets +onlyGivenNames x; clear_value x)
    | with_reducible apply reply_kept
    | with_reducible apply State.useFree_kept
    | with_reducible apply mk_kept
    )

theorem testUnlock_kept : ∀ x0 x1, Kept Q F x0 → (_ : Q.mbx = none := by assumption) → Kept Q F (testUnlock x0 x1) := by
  intro x0 x1 h0 _
  unfold testUnlock
  repeat' (first
    | with_reducible assumption
    | with_reducible apply ite_kept
    | with_reducible apply command_kept
    | with_reducible apply tuChallenge_kept
    | with_reducible apply tuUnlock_kept
    )

theorem execTestUnlockChallenge_kept : ∀ x0 x1, Kept Q F x1 → (_ : Q.mbx = none := by assumption) → KeptOut Q F (execTestUnlockChallenge x0 x1) := by
  intro x0 x1 h0 _
  unfold execTestUnlockChallenge
  repeat' (first
    | with_reducible assumption
    | with_reducible apply keptOut_next
    | with_reducible apply testUnlock_kept
    )

theorem execKeyClose_kept : ∀ x0 x1, Kept Q F x1 → (_ : Q.mbx = none := by assumption) → KeptOut Q F (execKeyClose x0 x1) := by
  intro x0 x1 h0 _
  unfold execKeyClose
  repeat' (first
    | with_reducible assumption
    | with_reducible apply keptOut_next
    | with_reducible apply command_kept
    | with_reducible apply closeSession_kept
    | with_reducible apply reply_kept
    )

theorem updateEnd_kept : ∀ x0 x1 x2, Kept Q F x0 → (_ : Q.flash = none := by assumption) → Kept Q F (updateEnd x0 x1 x2) := by
  intro s u r h _
  unfold updateEnd
  extract_lets +onlyGivenNames s1
  have h1 : Kept Q F s1 := mk_kept h
  clear_value s1
  apply ite_kept
  · exact State.wr_kept _ _ _ (mk_kept_of h1 { h1.canonical with
      flash := Memory.wf_write _ _ (Memory.wf_write _ _ h1.canonical.flash) } { h1.frame with flash := Frame.free ‹_› })
  · exact report_kept _ _ _ (State.wr_kept _ _ _ h1)

theorem rollbackCommit_kept : ∀ x0, Kept Q F x0 → Kept Q F (rollbackCommit x0) := by
  intro s h
  refine setFuses_kept _ _ h (h.fuses.trans ⟨rfl, rfl, rfl, rfl, Nat.le_max_left _ _, fun k => ?_, fun k => k, fun _ k => k⟩)
  show max s.fuses.svn (min 64 s.fwSvn) ≤ 64
  omega

theorem execRollbackCommit_kept : ∀ x0 x1, Kept Q F x1 → (_ : Q.mbx = none := by assumption) → KeptOut Q F (execRollbackCommit x0 x1) := by
  intro x0 x1 h0 _
  unfold execRollbackCommit
  repeat' (first
    | with_reducible assumption
    | with_reducible apply keptOut_next
    | with_reducible apply command_kept
    | with_reducible apply reply_kept
    | with_reducible apply rollbackCommit_kept
    )

theorem execSessionIdleTimeout_kept : ∀ x0 x1, Kept Q F x1 → KeptOut Q F (execSessionIdleTimeout x0 x1) := by
  intro x0 x1 h0
  unfold execSessionIdleTimeout
  repeat' (first
    | with_reducible assumption
    | with_reducible apply ite_kept
    | with_reducible apply keptOut_next
    | with_reducible apply closeSession_kept
    )

theorem execTestUnlock_kept : ∀ x0 x1, Kept Q F x1 → (_ : Q.mbx = none := by assumption) → KeptOut Q F (execTestUnlock x0 x1) := by
  intro x0 x1 h0 _
  unfold execTestUnlock
  repeat' (first
    | with_reducible assumption
    | with_reducible apply keptOut_next
    | with_reducible apply testUnlock_kept
    )

theorem slotWrite_kept : ∀ x0 x1 x2 x3, Kept Q F x0 → (_ : Q.flash = none := by assumption) → Kept Q F (slotWrite x0 x1 x2 x3) := fun _ _ _ _ h _ =>
  mk_kept_of h { h.canonical with
    flash := Memory.wf_write _ _ (Memory.wf_write _ _ (Sparse.wf_filter _ h.canonical.flash)) }
    { h.frame with flash := Frame.free ‹_› }

theorem fuEffect_kept : ∀ x0 x1, Kept Q F x0 → (_ : Q.mbx = none := by assumption) → (_ : Q.flash = none := by assumption) → Kept Q F (fuEffect x0 x1) := by
  intro x0 x1 h0 _ _
  unfold fuEffect
  repeat' (first
    | with_reducible assumption
    | (extract_lets +onlyGivenNames x; refine Kept.via Q F x ?_ (fun _ => ?_) <;> [subst x; clear_value x])
    | (extract_lets +onlyGivenNames x; clear_value x)
    | with_reducible apply slotWrite_kept
    | with_reducible apply State.wr_kept
    | with_reducible apply reply_kept
    | with_reducible apply mk_kept
    )

theorem execFwUpdate_kept : ∀ x0 x1, Kept Q F x1 → (_ : Q.mbx = none := by assumption) → (_ : Q.flash = none := by assumption) → KeptOut Q F (execFwUpdate x0 x1) := by
  intro x0 x1 h0 _ _
  unfold execFwUpdate
  repeat' (first
    | with_reducible assumption
    | with_reducible apply keptOut_next
    | with_reducible apply command_kept
    | with_reducible apply fuEffect_kept
    )

theorem execIdentityGet_kept : ∀ x0 x1, Kept Q F x1 → (_ : Q.mbx = none := by assumption) → KeptOut Q F (execIdentityGet x0 x1) := by
  intro x0 x1 h0 _
  unfold execIdentityGet
  repeat' (first
    | with_reducible assumption
    | with_reducible apply keptOut_next
    | with_reducible apply command_kept
    | with_reducible apply reply_kept
    )

theorem execFwUpdateEnd_kept : ∀ x0 x1, Kept Q F x1 → (_ : Q.flash = none := by assumption) → KeptOut Q F (execFwUpdateEnd x0 x1) := by
  intro x0 x1 h0 _
  unfold execFwUpdateEnd
  repeat' (first
    | with_reducible assumption
    | with_reducible apply keptOut_next
    | with_reducible apply updateEnd_kept
    | split
    )

theorem policySet_kept : ∀ x0 x1, Kept Q F x0 → Kept Q F (policySet x0 x1) := by
  intro x0 x1 h0
  unfold policySet
  repeat' (first
    | with_reducible assumption
    | (extract_lets +onlyGivenNames x; refine Kept.via Q F x ?_ (fun _ => ?_) <;> [subst x; clear_value x])
    | (extract_lets +onlyGivenNames x; clear_value x)
    | with_reducible apply State.wr_kept
    | with_reducible apply mk_kept
    )

theorem execPpePolicySet_kept : ∀ x0 x1, Kept Q F x1 → (_ : Q.mbx = none := by assumption) → KeptOut Q F (execPpePolicySet x0 x1) := by
  intro x0 x1 h0 _
  unfold execPpePolicySet
  repeat' (first
    | with_reducible assumption
    | (extract_lets +onlyGivenNames x; clear_value x)
    | with_reducible apply keptOut_next
    | with_reducible apply command_kept
    | with_reducible apply reply_kept
    | with_reducible apply policySet_kept
    )

theorem execAttest_kept : ∀ x0 x1 x2, Kept Q F x2 → (_ : Q.mbx = none := by assumption) → KeptOut Q F (execAttest x0 x1 x2) := by
  intro x0 x1 x2 h0 _
  unfold execAttest
  repeat' (first
    | with_reducible assumption
    | (extract_lets +onlyGivenNames x; refine Kept.via Q F x ?_ (fun _ => ?_) <;> [subst x; clear_value x])
    | (extract_lets +onlyGivenNames x; clear_value x)
    | with_reducible apply keptOut_next
    | with_reducible apply setClock_kept
    | with_reducible apply command_kept
    | with_reducible apply reply_kept
    | with_reducible apply State.useFree_kept
    | with_reducible apply mk_kept
    )

theorem execKeyExchange_kept : ∀ x0 x1, Kept Q F x1 → (_ : Q.mbx = none := by assumption) → KeptOut Q F (execKeyExchange x0 x1) := by
  intro x0 x1 h0 _
  unfold execKeyExchange
  repeat' (first
    | with_reducible assumption
    | with_reducible apply keptOut_next
    | with_reducible apply command_kept
    | with_reducible apply keyExchange_kept
    )

theorem execOwnerKeySet_kept : ∀ (q : Req) (s : State), Kept Q F s → (_ : Q.mbx = none := by assumption) → KeptOut Q F (execOwnerKeySet q s) := by
  intro q s h _
  show Kept Q F (command _ _ _ _ _ _)
  unfold command
  split
  · exact deny_kept _ _ _ _ h
  split
  · exact deny_kept _ _ _ _ h
  rename_i hc
  refine reply_kept _ _ _ _ _ (ownerKeySet_kept _ _ h ?_)
  intro y hy
  simp only [okChecks, hy, firstFail] at hc
  split at hc
  · exact absurd hc (by simp)
  split at hc
  · exact absurd hc (by simp)
  rename_i hx
  simp only [Bool.or_eq_true, not_or] at hx
  simpa using hx.1

-- Machine/Register.lean

theorem latchPut_kept : ∀ x0 x1 x2, Kept Q F x0 → Kept Q F (latchPut x0 x1 x2) := by
  intro x0 x1 x2 h0
  unfold latchPut
  repeat' (first
    | with_reducible assumption
    | (with_reducible apply forEach_kept; intro _ _ _; beta_reduce)
    | split
    | with_reducible apply mk_kept
    )

theorem stampRead_kept : ∀ x0 x1 x2, Kept Q F x0 → Kept Q F (stampRead x0 x1 x2) := by
  intro x0 x1 x2 h0
  unfold stampRead
  repeat' (first
    | with_reducible assumption
    | (extract_lets +onlyGivenNames x; refine Kept.viaSnd Q F x ?_ (fun _ => ?_) <;> [subst x; clear_value x])
    | (extract_lets +onlyGivenNames x; clear_value x)
    | with_reducible apply tdcPop_kept
    | with_reducible apply latchPut_kept
    | with_reducible apply State.put_kept
    )

theorem execTdcChstamp0Read_kept : ∀ x0 x1 x2, Kept Q F x2 → KeptOut Q F (execTdcChstamp0Read x0 x1 x2) := by
  intro x0 x1 x2 h0
  unfold execTdcChstamp0Read
  repeat' (first
    | with_reducible assumption
    | with_reducible apply ite_kept
    | with_reducible apply keptOut_next
    | with_reducible apply onBar_kept
    | with_reducible apply stampRead_kept
    )

theorem readLatch_kept : ∀ x0 x1 x2 x3, Kept Q F x0 → Kept Q F (readLatch x0 x1 x2 x3) := by
  intro x0 x1 x2 x3 h0
  unfold readLatch
  repeat' (first
    | with_reducible assumption
    | with_reducible apply ite_kept
    | with_reducible apply State.put_kept
    | with_reducible apply latchPut_kept
    )

theorem beatRead_kept : ∀ x0 x1 x2, Kept Q F x0 → Kept Q F (beatRead x0 x1 x2) := by
  intro x0 x1 x2 h0
  unfold beatRead
  repeat' (first
    | with_reducible assumption
    | with_reducible apply latchPut_kept
    | with_reducible apply readLatch_kept
    | with_reducible apply mk_kept
    )

theorem execGlbBeatLoRead_kept : ∀ x0 x1 x2, Kept Q F x2 → KeptOut Q F (execGlbBeatLoRead x0 x1 x2) := by
  intro x0 x1 x2 h0
  unfold execGlbBeatLoRead
  repeat' (first
    | with_reducible assumption
    | with_reducible apply keptOut_next
    | with_reducible apply onBar_kept
    | with_reducible apply beatRead_kept
    )

theorem fieldsWrite_kept : ∀ x0 x1 x2 x3, Kept Q F x0 → Kept Q F (fieldsWrite x0 x1 x2 x3) := by
  intro x0 x1 x2 x3 h0
  unfold fieldsWrite
  repeat' (first
    | with_reducible assumption
    | (extract_lets +onlyGivenNames x; clear_value x)
    | with_reducible apply State.wr_kept
    )

theorem shadowRefused_kept : ∀ x0 x1, Kept Q F x0 → Kept Q F (shadowRefused x0 x1) := by
  intro x0 x1 h0
  unfold shadowRefused
  repeat' (first
    | with_reducible assumption
    | with_reducible apply report_kept
    | with_reducible apply State.setB_kept
    | with_reducible apply State.put_kept
    | split
    )

theorem shadowWrite_kept : ∀ x0 x1 x2 x3, Kept Q F x0 → Kept Q F (shadowWrite x0 x1 x2 x3) := by
  intro x0 x1 x2 x3 h0
  unfold shadowWrite
  repeat' (first
    | with_reducible assumption
    | with_reducible apply ite_kept
    | with_reducible apply shadowRefused_kept
    | with_reducible apply fieldsWrite_kept
    | split
    )

theorem msixByte_kept : ∀ x0 x1 x2, Kept Q F x0 → (_ : Q.msix = none := by assumption) → Kept Q F (msixByte x0 x1 x2) := by
  intro x0 x1 x2 h0 _
  unfold msixByte
  repeat' (first
    | with_reducible assumption
    | (extract_lets +onlyGivenNames x; clear_value x)
    | with_reducible apply ite_kept
    | with_reducible apply msixWrite_kept
    )

theorem msixBytes_kept : ∀ (s : State) (o : Nat) (l : List Byte), Kept Q F s → (_ : Q.msix = none := by assumption) → Kept Q F (msixBytes s o l)
  | _, _, [], k, _ => k
  | s, o, b :: t, k, _ => msixBytes_kept _ (o + 1) t (msixByte_kept s o b k)

theorem windowWrite_kept : ∀ x0 x1 x2 x3, Kept Q F x0 → (_ : Q.mbx = none := by assumption) → (_ : Q.sram = none := by assumption) → (_ : Q.msix = none := by assumption) → Kept Q F (windowWrite x0 x1 x2 x3) := by
  intro x0 x1 x2 x3 h0 _ _ _
  unfold windowWrite
  repeat' (first
    | with_reducible assumption
    | with_reducible apply ite_kept
    | with_reducible apply mailboxWrite_kept
    | with_reducible apply State.sramWrite_kept
    | with_reducible apply msixBytes_kept
    )

theorem swevt_kept : ∀ x0 x1, Kept Q F x0 → Kept Q F (swevt x0 x1) := by
  intro x0 x1 h0
  unfold swevt
  repeat' (first
    | with_reducible assumption
    | with_reducible apply ite_kept
    | with_reducible apply fire_kept
    )

theorem logStopWrite_kept : ∀ x0 x1, Kept Q F x0 → Kept Q F (logStopWrite x0 x1) := by
  intro x0 x1 h0
  unfold logStopWrite
  repeat' (first
    | with_reducible assumption
    | with_reducible apply State.setB_kept
    | with_reducible apply State.wr_kept
    )

theorem servoRegWrite_kept : ∀ x0 x1, Kept Q F x0 → Kept Q F (servoRegWrite x0 x1) := by
  intro x0 x1 h0
  unfold servoRegWrite
  repeat' (first
    | with_reducible assumption
    | (extract_lets +onlyGivenNames x; refine Kept.via Q F x ?_ (fun _ => ?_) <;> [subst x; clear_value x])
    | (extract_lets +onlyGivenNames x; clear_value x)
    | with_reducible apply ite_kept
    | with_reducible apply State.wr_kept
    | with_reducible apply servoRestart_kept
    )

theorem rateWrite_kept : ∀ x0 x1, Kept Q F x0 → Kept Q F (rateWrite x0 x1) := by
  intro x0 x1 h0
  unfold rateWrite
  repeat' (first
    | with_reducible assumption
    | with_reducible apply ite_kept
    | with_reducible apply State.wr_kept
    | with_reducible apply rebase_kept
    )

theorem srcCfgWrite_kept : ∀ x0 x1 x2, Kept Q F x0 → Kept Q F (srcCfgWrite x0 x1 x2) := by
  intro x0 x1 x2 h0
  unfold srcCfgWrite
  repeat' (first
    | with_reducible assumption
    | (extract_lets +onlyGivenNames x; clear_value x)
    | with_reducible apply ite_kept
    | (with_reducible apply forEach_kept; intro _ _ _; beta_reduce)
    | with_reducible apply setSrcCfg_kept
    )

theorem map_keptOpt {α : Type} {f : α → State} (hf : ∀ a, Kept Q F (f a)) : ∀ o : Option α, KeptOpt Q F (o.map f)
  | none => trivial
  | some a => hf a
theorem ruledGlobal_kept : ∀ (s : State) (m : Master) (a : Nat) (v : Word), Kept Q F s → (_ : Q.locks = none := by assumption) → KeptOpt Q F (ruledGlobal s m a v) := by
  intro s m a v h _
  unfold ruledGlobal
  refine ite_keptOpt (keptOpt_some (swevt_kept _ _ h)) ?_
  refine ite_keptOpt (keptOpt_some (logStopWrite_kept _ _ h)) ?_
  refine ite_keptOpt (keptOpt_some (ackClasses_kept _ _ h)) ?_
  refine ite_keptOpt (keptOpt_some (ite_kept (inject_kept _ _ _ _ _ h) h)) ?_
  refine ite_keptOpt (keptOpt_some (syncWrite_kept _ _ h)) ?_
  refine ite_keptOpt (keptOpt_some (servoRegWrite_kept _ _ h)) ?_
  refine ite_keptOpt (keptOpt_some (rateWrite_kept _ _ h)) ?_
  refine ite_keptOpt (keptOpt_some (dspCmtWrite_kept _ _ h)) ?_
  refine ite_keptOpt (keptOpt_some (ite_kept h (fwctrlWrite_kept _ _ h))) ?_
  split
  · exact keptOpt_some (ite_kept (setLock_kept _ _ _ h) h)
  split
  · exact keptOpt_some (clearSticky_kept _ _ _ h)
  · exact map_keptOpt (fun w => srcCfgWrite_kept _ _ _ h) _

theorem ruledMailbox_kept : ∀ (s : State) (m : Master) (a : Nat) (v : Word), Kept Q F s → KeptOpt Q F (ruledMailbox s m a v) := by
  intro s m a v h
  unfold ruledMailbox
  split
  · exact keptOpt_some (ite_kept (ringCommand_kept _ _ _ h) h)
  split
  · exact keptOpt_some (State.wr_kept _ _ _ h)
  split
  · have h1 := fun e => State.w1c_kept s (MBX_PESTAT e) 0x60 v h
    exact keptOpt_some (ite_kept (engineIrq_kept _ _ _ (setOut_kept _ _ _ (h1 _))) (h1 _))
  · exact map_keptOpt (fun c => ringCluster_kept _ _ _ _ h) _

theorem ppeCtrlWrite_kept : ∀ x0 x1 x2, Kept Q F x0 → Kept Q F (ppeCtrlWrite x0 x1 x2) := by
  intro x0 x1 x2 h0
  unfold ppeCtrlWrite
  repeat' (first
    | with_reducible assumption
    | (extract_lets +onlyGivenNames x; refine Kept.via Q F x ?_ (fun _ => ?_) <;> [subst x; clear_value x])
    | with_reducible apply ite_kept
    | with_reducible apply State.wr_kept
    | with_reducible apply State.setF_kept
    )

theorem ruledUnit_kept : ∀ x0 x1 x2 x3, Kept Q F x0 → (_ : Q.mbx = none := by assumption) → (_ : Q.sram = none := by assumption) → KeptOpt Q F (ruledUnit x0 x1 x2 x3) := by
  intro x0 x1 x2 x3 h0 _ _
  unfold ruledUnit
  repeat' (first
    | with_reducible assumption
    | exact keptOpt_none
    | with_reducible apply keptOpt_some
    | with_reducible apply pwrdnWrite_kept
    | with_reducible apply bgcalWrite_kept
    | with_reducible apply ppeCtrlWrite_kept
    | with_reducible apply setGate_kept
    | with_reducible apply dmaCtrlWrite_kept
    | split
    )

theorem eqctrlWrite_kept : ∀ x0 x1 x2, Kept Q F x0 → Kept Q F (eqctrlWrite x0 x1 x2) := by
  intro x0 x1 x2 h0
  unfold eqctrlWrite
  repeat' (first
    | with_reducible assumption
    | with_reducible apply ite_kept
    | with_reducible apply queueOff_kept
    | with_reducible apply State.wr_kept
    )

theorem ruledLink_kept : ∀ x0 x1 x2, Kept Q F x0 → KeptOpt Q F (ruledLink x0 x1 x2) := by
  intro x0 x1 x2 h0
  unfold ruledLink
  repeat' (first
    | with_reducible assumption
    | exact keptOpt_none
    | with_reducible apply keptOpt_some
    | with_reducible apply hconsApply_kept
    | with_reducible apply nbrEnable_kept
    | with_reducible apply State.w1c_kept
    | with_reducible apply eqctrlWrite_kept
    | split
    | with_reducible apply mk_kept
    )

theorem ruled_kept : ∀ x0 x1 x2 x3, Kept Q F x0 → (_ : Q.mbx = none := by assumption) → (_ : Q.sram = none := by assumption) → (_ : Q.locks = none := by assumption) → KeptOpt Q F (ruled x0 x1 x2 x3) := by
  intro x0 x1 x2 x3 h0 _ _ _
  unfold ruled
  repeat' (first
    | with_reducible assumption
    | with_reducible apply ite_keptOpt
    | with_reducible apply ruledGlobal_kept
    | with_reducible apply ruledMailbox_kept
    | with_reducible apply ruledUnit_kept
    | with_reducible apply ruledLink_kept
    )

theorem afterWrite_kept : ∀ x0 x1 x2, Kept Q F x0 → Kept Q F (afterWrite x0 x1 x2) := by
  intro x0 x1 x2 h0
  unfold afterWrite
  repeat' (first
    | with_reducible assumption
    | with_reducible apply ite_kept
    | with_reducible apply warmFollow_kept
    | with_reducible apply State.wr_kept
    | with_reducible apply State.setF_kept
    | with_reducible apply mk_kept
    | with_reducible apply mk_keptActive
    )

theorem registerWrite_kept : ∀ x0 x1 x2 x3, Kept Q F x0 → (_ : Q.mbx = none := by assumption) → (_ : Q.sram = none := by assumption) → (_ : Q.locks = none := by assumption) → Kept Q F (registerWrite x0 x1 x2 x3) := by
  intro x0 x1 x2 x3 h0 _ _ _
  unfold registerWrite
  repeat' (first
    | with_reducible assumption
    | with_reducible apply ite_kept
    | with_reducible apply shadowWrite_kept
    | refine KeptOpt.get (ruled_kept _ _ _ _ ?_ ?_ ?_ ?_) (by with_reducible assumption)
    | with_reducible apply afterWrite_kept
    | with_reducible apply fieldsWrite_kept
    | split
    )

theorem badAccess_kept : ∀ x0 x1, Kept Q F x0 → Kept Q F (badAccess x0 x1) := by
  intro x0 x1 h0
  unfold badAccess
  repeat' (first
    | with_reducible assumption
    | (extract_lets +onlyGivenNames x; refine Kept.via Q F x ?_ (fun _ => ?_) <;> [subst x; clear_value x])
    | (extract_lets +onlyGivenNames x; clear_value x)
    | with_reducible apply ite_kept
    | with_reducible apply State.setB_kept
    )

theorem barWrite_kept : ∀ x0 x1 x2 x3, Kept Q F x0 → (_ : Q.mbx = none := by assumption) → (_ : Q.sram = none := by assumption) → (_ : Q.msix = none := by assumption) → (_ : Q.locks = none := by assumption) → Kept Q F (barWrite x0 x1 x2 x3) := by
  intro x0 x1 x2 x3 h0 _ _ _ _
  unfold barWrite
  repeat' (first
    | with_reducible assumption
    | (extract_lets +onlyGivenNames x; refine Kept.via Q F x ?_ (fun _ => ?_) <;> [subst x; clear_value x])
    | with_reducible apply ite_kept
    | with_reducible apply windowWrite_kept
    | with_reducible apply registerWrite_kept
    | with_reducible apply badAccess_kept
    )

theorem nowRead_kept : ∀ x0 x1 x2, Kept Q F x0 → Kept Q F (nowRead x0 x1 x2) := by
  intro x0 x1 x2 h0
  unfold nowRead
  repeat' (first
    | with_reducible assumption
    | (extract_lets +onlyGivenNames x; refine Kept.via Q F x ?_ (fun _ => ?_) <;> [subst x; clear_value x])
    | (extract_lets +onlyGivenNames x; clear_value x)
    | with_reducible apply ite_kept
    | with_reducible apply readLatch_kept
    | with_reducible apply setClock_kept
    )

theorem execRegisterWrite_kept : ∀ x0 x1 x2 x3, Kept Q F x3 → (_ : Q.mbx = none := by assumption) → (_ : Q.sram = none := by assumption) → (_ : Q.msix = none := by assumption) → (_ : Q.locks = none := by assumption) → KeptOut Q F (execRegisterWrite x0 x1 x2 x3) := by
  intro x0 x1 x2 x3 h0 _ _ _ _
  unfold execRegisterWrite
  repeat' (first
    | with_reducible assumption
    | with_reducible apply keptOut_next
    | with_reducible apply onBar_kept
    | with_reducible apply barWrite_kept
    )

theorem calRead_kept : ∀ x0 x1 x2, Kept Q F x0 → Kept Q F (calRead x0 x1 x2) := by
  intro x0 x1 x2 h0
  unfold calRead
  repeat' (first
    | with_reducible assumption
    | (extract_lets +onlyGivenNames x; refine Kept.via Q F x ?_ (fun _ => ?_) <;> [subst x; clear_value x])
    | (extract_lets +onlyGivenNames x; clear_value x)
    | with_reducible apply ite_kept
    | with_reducible apply readLatch_kept
    )

theorem execCnvCaltimeLoRead_kept : ∀ x0 x1 x2, Kept Q F x2 → KeptOut Q F (execCnvCaltimeLoRead x0 x1 x2) := by
  intro x0 x1 x2 h0
  unfold execCnvCaltimeLoRead
  repeat' (first
    | with_reducible assumption
    | with_reducible apply ite_kept
    | with_reducible apply keptOut_next
    | with_reducible apply onBar_kept
    | with_reducible apply calRead_kept
    )

theorem windowRead_kept : ∀ x0 x1 x2 x3, Kept Q F x0 → Kept Q F (windowRead x0 x1 x2 x3) := by
  intro x0 x1 x2 x3 h0
  unfold windowRead
  repeat' (first
    | with_reducible assumption
    | (extract_lets +onlyGivenNames x; refine Kept.via Q F x ?_ (fun _ => ?_) <;> [subst x; clear_value x])
    | (extract_lets +onlyGivenNames x; refine Kept.viaFst Q F x ?_ (fun _ => ?_) <;> [subst x; clear_value x])
    | (extract_lets +onlyGivenNames x; clear_value x)
    | with_reducible apply ite_kept
    | with_reducible apply mailboxRead_kept
    | refine Kept.fst (mailboxRead_kept _ _ _ _ ?_) (by with_reducible assumption)
    | with_reducible apply State.put_kept
    )

theorem rawRead_kept : ∀ x0 x1 x2, Kept Q F x0 → Kept Q F (rawRead x0 x1 x2) := by
  intro x0 x1 x2 h0
  unfold rawRead
  repeat' (first
    | with_reducible assumption
    | (extract_lets +onlyGivenNames x; refine Kept.via Q F x ?_ (fun _ => ?_) <;> [subst x; clear_value x])
    | with_reducible apply State.put_kept
    | with_reducible apply readLatch_kept
    | with_reducible apply setClock_kept
    | split
    | with_reducible apply mk_kept
    )

theorem plainRead_kept : ∀ x0 x1 x2, Kept Q F x0 → Kept Q F (plainRead x0 x1 x2) := by
  intro x0 x1 x2 h0
  unfold plainRead
  repeat' (first
    | with_reducible assumption
    | (extract_lets +onlyGivenNames x; refine Kept.via Q F x ?_ (fun _ => ?_) <;> [subst x; clear_value x])
    | (extract_lets +onlyGivenNames x; clear_value x)
    | with_reducible apply ite_kept
    | with_reducible apply State.put_kept
    | split
    )

theorem readReg_kept : ∀ x0 x1 x2 x3, Kept Q F x0 → (_ : Q.locks = none := by assumption) → Kept Q F (readReg x0 x1 x2 x3) := by
  intro x0 x1 x2 x3 h0 _
  unfold readReg
  repeat' (first
    | with_reducible assumption
    | (extract_lets +onlyGivenNames x; refine Kept.via Q F x ?_ (fun _ => ?_) <;> [subst x; clear_value x])
    | (extract_lets +onlyGivenNames x; clear_value x)
    | with_reducible apply ite_kept
    | with_reducible apply rawRead_kept
    | with_reducible apply nowRead_kept
    | with_reducible apply beatRead_kept
    | with_reducible apply State.wr_kept
    | with_reducible apply State.put_kept
    | with_reducible apply lockRead_kept
    | with_reducible apply calRead_kept
    | with_reducible apply stampRead_kept
    | with_reducible apply readLatch_kept
    | with_reducible apply plainRead_kept
    | split
    )

theorem dwRead_kept : ∀ x0 x1 x2 x3, Kept Q F x0 → (_ : Q.locks = none := by assumption) → Kept Q F (dwRead x0 x1 x2 x3) := by
  intro x0 x1 x2 x3 h0 _
  unfold dwRead
  repeat' (first
    | with_reducible assumption
    | (extract_lets +onlyGivenNames x; refine Kept.via Q F x ?_ (fun _ => ?_) <;> [subst x; clear_value x])
    | (extract_lets +onlyGivenNames x; clear_value x)
    | with_reducible apply ite_kept
    | with_reducible apply State.put_kept
    | with_reducible apply readReg_kept
    )

theorem barRead_kept : ∀ x0 x1 x2 x3 x4, Kept Q F x0 → (_ : Q.locks = none := by assumption) → Kept Q F (barRead x0 x1 x2 x3 x4) := by
  intro x0 x1 x2 x3 x4 h0 _
  unfold barRead
  repeat' (first
    | with_reducible assumption
    | (extract_lets +onlyGivenNames x; refine Kept.via Q F x ?_ (fun _ => ?_) <;> [subst x; clear_value x])
    | (extract_lets +onlyGivenNames x; clear_value x)
    | with_reducible apply ite_kept
    | with_reducible apply windowRead_kept
    | with_reducible apply dwRead_kept
    | with_reducible apply State.put_kept
    | with_reducible apply badAccess_kept
    )

theorem execPairLoRead_kept : ∀ x0 x1 x2 x3, Kept Q F x3 → (_ : Q.locks = none := by assumption) → KeptOut Q F (execPairLoRead x0 x1 x2 x3) := by
  intro x0 x1 x2 x3 h0 _
  unfold execPairLoRead
  repeat' (first
    | with_reducible assumption
    | with_reducible apply keptOut_next
    | with_reducible apply onBar_kept
    | with_reducible apply barRead_kept
    )

theorem execGlbSwevtWrite_kept : ∀ x0 x1 x2, Kept Q F x2 → KeptOut Q F (execGlbSwevtWrite x0 x1 x2) := by
  intro x0 x1 x2 h0
  unfold execGlbSwevtWrite
  repeat' (first
    | with_reducible assumption
    | with_reducible apply keptOut_next
    | with_reducible apply onBar_kept
    | with_reducible apply swevt_kept
    )

theorem execShadowRegisterWrite_kept : ∀ x0 x1 x2 x3, Kept Q F x3 → KeptOut Q F (execShadowRegisterWrite x0 x1 x2 x3) := by
  intro x0 x1 x2 x3 h0
  unfold execShadowRegisterWrite
  repeat' (first
    | with_reducible assumption
    | with_reducible apply keptOut_next
    | with_reducible apply onBar_kept
    | with_reducible apply shadowWrite_kept
    )

theorem execTimNowLoRead_kept : ∀ x0 x1 x2, Kept Q F x2 → KeptOut Q F (execTimNowLoRead x0 x1 x2) := by
  intro x0 x1 x2 h0
  unfold execTimNowLoRead
  repeat' (first
    | with_reducible assumption
    | with_reducible apply keptOut_next
    | with_reducible apply onBar_kept
    | with_reducible apply nowRead_kept
    )

end Sys2Proof.Machine
end

