-- ==== Sys2Proof/Laws/Exec.lean ====
section
/-! SUPPORT. What every command leaves as it found it, once for all rows: the queue, the fuses or more of them burned,
canonical tables, and every memory that the row does not store to (Safety.lean names the rows that do). -/
namespace Sys2Proof.Machine
variable {Q : Frame} {F : Fuses}

/-- What `exec` keeps of a frame, given that the frame names no table that the row may change. -/
theorem exec_kept (c : Instr) (s : State) (h : Kept Q F s)
    (hactive : changesActive c = true → Q.active = none) (hmbx : storesMbx c = true → Q.mbx = none)
    (hhbm : storesHbm c = true → Q.hbm = none) (hsram : storesSram c = true → Q.sram = none)
    (hflash : storesFlash c = true → Q.flash = none) (hslcRam : storesSlcRam c = true → Q.slcRam = none)
    (hmsix : storesMsix c = true → Q.msix = none) (hlocks : changesLocks c = true → Q.locks = none) :
    KeptOut Q F (exec c s) := by
  cases c with
  | ping q => exact execPing_kept q s h (hmbx rfl)
  | deviceIdGet q => exact execDeviceIdGet_kept q s h (hmbx rfl)
  | deviceIdSet q => exact execDeviceIdSet_kept q s h (hmbx rfl)
  | queryCaps q => exact execQueryCaps_kept q s h (hmbx rfl)
  | lockPeek q => exact execLockPeek_kept q s h (hmbx rfl)
  | commit q w => exact execCommit_kept q w s h (hmbx rfl)
  | commitCopy => exact execCommitCopy_kept s h (hactive rfl) (hmbx rfl)
  | commitStatus q => exact execCommitStatus_kept q s h (hmbx rfl)
  | commitCancel q w => exact execCommitCancel_kept q w s h (hmbx rfl)
  | budgetCheck q => exact execBudgetCheck_kept q s h (hmbx rfl)
  | profileSet q w => exact execProfileSet_kept q w s h (hmbx rfl)
  | profileGet q => exact execProfileGet_kept q s h (hmbx rfl)
  | activeRead q group word => exact execActiveRead_kept q group word s h (hmbx rfl)
  | restartStop => exact execRestartStop_kept s h (hmbx rfl)
  | restartRunStart => exact execRestartRunStart_kept s h (hactive rfl) (hmbx rfl)
  | beatBoundary b => exact execBeatBoundary_kept b s h (hactive rfl) (hmbx rfl) (hhbm rfl) (hsram rfl) (hslcRam rfl) (hlocks rfl)
  | beatMark n => exact execBeatMark_kept n s h
  | syncinEdge rising b => exact execSyncinEdge_kept rising b s h (hactive rfl) (hmbx rfl) (hhbm rfl) (hsram rfl) (hslcRam rfl) (hlocks rfl)
  | cnvDivide q w => exact execCnvDivide_kept q w s h (hmbx rfl)
  | calForeground q => exact execCalForeground_kept q s h (hmbx rfl)
  | foregroundCalEnd quad r => exact execForegroundCalEnd_kept quad r s h
  | calStatus q => exact execCalStatus_kept q s h (hmbx rfl)
  | calAbort q => exact execCalAbort_kept q s h (hmbx rfl)
  | calBackground q => exact execCalBackground_kept q s h (hmbx rfl)
  | cnvStatus q => exact execCnvStatus_kept q s h (hmbx rfl)
  | cnvBgcalWrite m core v => exact execCnvBgcalWrite_kept m core v s h
  | bgCalIntervalEnd core e => exact execBgCalIntervalEnd_kept core e s h
  | bgStepLanding => exact execBgStepLanding_kept s h
  | cnvPwrdnWrite m core v => exact execCnvPwrdnWrite_kept m core v s h
  | coreReady core => exact execCoreReady_kept core s h
  | overRangeEpisode core cyc ovd => exact execOverRangeEpisode_kept core cyc ovd s h
  | overRangeTailEnd core s1 => exact execOverRangeTailEnd_kept core s1 s h
  | pthConfig q => exact execPthConfig_kept q s h (hmbx rfl)
  | firLoad q => exact execFirLoad_kept q s h (hmbx rfl)
  | pthStatus q => exact execPthStatus_kept q s h (hmbx rfl)
  | fadeStart path => exact execFadeStart_kept path s h
  | fadeEnd path => exact execFadeEnd_kept path s h
  | coarseToFine path => exact execCoarseToFine_kept path s h
  | slcConfig q => exact execSlcConfig_kept q s h (hmbx rfl)
  | windowLoad q => exact execWindowLoad_kept q s h (hmbx rfl) (hslcRam rfl)
  | windowLoadAbandon slice bank => exact execWindowLoadAbandon_kept slice bank s h
  | traceClear q => exact execTraceClear_kept q s h (hmbx rfl)
  | traceRestart slice lane traces => exact execTraceRestart_kept slice lane traces s h
  | slcStatus q => exact execSlcStatus_kept q s h (hmbx rfl)
  | denSet q => exact execDenSet_kept q s h (hmbx rfl)
  | denPathSet q => exact execDenPathSet_kept q s h (hmbx rfl)
  | denRegionSet q => exact execDenRegionSet_kept q s h (hmbx rfl)
  | corrSet q => exact execCorrSet_kept q s h (hmbx rfl)
  | denStatus q => exact execDenStatus_kept q s h (hmbx rfl)
  | densityFlush => exact execDensityFlush_kept s h
  | densityReadoutStart => exact execDensityReadoutStart_kept s h (hhbm rfl)
  | densityReadoutEnd spans => exact execDensityReadoutEnd_kept spans s h (hhbm rfl)
  | corrIntegrationEnd => exact execCorrIntegrationEnd_kept s h
  | corrBankSwap => exact execCorrBankSwap_kept s h (hhbm rfl)
  | corrDumpEnd => exact execCorrDumpEnd_kept s h (hhbm rfl)
  | trgConfig q => exact execTrgConfig_kept q s h (hmbx rfl)
  | trgArm q => exact execTrgArm_kept q s h (hmbx rfl)
  | groupArm m => exact execGroupArm_kept m s h
  | trgDisarm q => exact execTrgDisarm_kept q s h (hmbx rfl)
  | groupDisarm m => exact execGroupDisarm_kept m s h
  | trgForce q => exact execTrgForce_kept q s h (hmbx rfl)
  | forcedFire m => exact execForcedFire_kept m s h
  | holdoffEnd m => exact execHoldoffEnd_kept m s h
  | trigioPulseEnd pin => exact execTrigioPulseEnd_kept pin s h
  | maskLoad q => exact execMaskLoad_kept q s h (hmbx rfl)
  | maskVersionRelease m => exact execMaskVersionRelease_kept m s h
  | carConfig q => exact execCarConfig_kept q s h (hmbx rfl)
  | carArm q => exact execCarArm_kept q s h (hmbx rfl)
  | carStop q => exact execCarStop_kept q s h (hmbx rfl)
  | segmentStopClose c => exact execSegmentStopClose_kept c s h (hhbm rfl)
  | carStatus q => exact execCarStatus_kept q s h (hmbx rfl)
  | segmentEnd c => exact execSegmentEnd_kept c s h (hhbm rfl)
  | segmentGapEnd c => exact execSegmentGapEnd_kept c s h (hhbm rfl)
  | overflowResume c => exact execOverflowResume_kept c s h (hhbm rfl)
  | ppeLoad q => exact execPpeLoad_kept q s h (hmbx rfl)
  | ppeStart q => exact execPpeStart_kept q s h (hmbx rfl)
  | ppeStop q => exact execPpeStop_kept q s h (hmbx rfl)
  | ppeTaskSet q => exact execPpeTaskSet_kept q s h (hmbx rfl)
  | ppeStatus q => exact execPpeStatus_kept q s h (hmbx rfl)
  | ppeMemWrite q => exact execPpeMemWrite_kept q s h (hmbx rfl)
  | ppeMemRead q => exact execPpeMemRead_kept q s h (hmbx rfl)
  | ppeCluster q => exact execPpeCluster_kept q s h (hmbx rfl)
  | taskDispatch e => exact execTaskDispatch_kept e s h
  | taskBudgetExpiry e => exact execTaskBudgetExpiry_kept e s h
  | ppeBundleIssue e stall => exact execPpeBundleIssue_kept e stall s h (hmbx rfl) (hlocks rfl)
  | ppeInterrupt e hold idle => exact execPpeInterrupt_kept e hold idle s h
  | mbCtlIntake e => exact execMbCtlIntake_kept e s h
  | mbCtlOutring e => exact execMbCtlOutring_kept e s h
  | clusterGate c => exact execClusterGate_kept c s h
  | clusterWake c => exact execClusterWake_kept c s h
  | streamSet q => exact execStreamSet_kept q s h (hmbx rfl)
  | streamStatus q => exact execStreamStatus_kept q s h (hmbx rfl)
  | volFormat q => exact execVolFormat_kept q s h (hmbx rfl)
  | volFormatDone v => exact execVolFormatDone_kept v s h
  | volStatus q => exact execVolStatus_kept q s h (hmbx rfl)
  | hostRingWrite stream => exact execHostRingWrite_kept stream s h (hmbx rfl) (hsram rfl)
  | ocHconsWrite h1 hi v => exact execOcHconsWrite_kept h1 hi v s h
  | chunkWrite v => exact execChunkWrite_kept v s h
  | chunkFlushTime v => exact execChunkFlushTime_kept v s h
  | datagramLaunch stream tclk => exact execDatagramLaunch_kept stream tclk s h
  | memRegionSet q => exact execMemRegionSet_kept q s h (hmbx rfl)
  | memStatus q => exact execMemStatus_kept q s h (hmbx rfl)
  | memRetiredRead q => exact execMemRetiredRead_kept q s h (hmbx rfl)
  | arbWindowEnd uses => exact execArbWindowEnd_kept uses s h
  | hbmRefresh chan => exact execHbmRefresh_kept chan s h
  | stackOverTemperature stack temp => exact execStackOverTemperature_kept stack temp s h
  | retrain g => exact execRetrain_kept g s h
  | retrainEnd chan ok => exact execRetrainEnd_kept chan ok s h
  | parityError chan replays persist => exact execParityError_kept chan replays persist s h
  | patrolScrub h1 => exact execPatrolScrub_kept h1 s h
  | rowRepair chan page spares => exact execRowRepair_kept chan page spares s h
  | bar2Access write x n bytes h1 => exact execBar2Access_kept write x n bytes h1 s h (hhbm rfl)
  | dmaStart q fe => exact execDmaStart_kept q fe s h (hmbx rfl) (hsram rfl)
  | dmaAbort q => exact execDmaAbort_kept q s h (hmbx rfl) (hsram rfl)
  | dmaStatus q => exact execDmaStatus_kept q s h (hmbx rfl)
  | dmaSramWrite q => exact execDmaSramWrite_kept q s h (hmbx rfl) (hsram rfl)
  | dmaCtrlStart m n v fe => exact execDmaCtrlStart_kept m n v fe s h (hmbx rfl) (hsram rfl)
  | dmaCtrlAbort m n v => exact execDmaCtrlAbort_kept m n v s h (hmbx rfl) (hsram rfl)
  | move n => exact execMove_kept n s h (hmbx rfl) (hsram rfl)
  | loop n fe => exact execLoop_kept n fe s h (hmbx rfl) (hsram rfl)
  | wait n fe => exact execWait_kept n fe s h (hmbx rfl) (hsram rfl)
  | waitComplete n fe => exact execWaitComplete_kept n fe s h (hmbx rfl) (hsram rfl)
  | waitTimeout n => exact execWaitTimeout_kept n s h (hmbx rfl) (hsram rfl)
  | dmaSignal n fe => exact execDmaSignal_kept n fe s h (hmbx rfl) (hsram rfl)
  | dmaEnd n => exact execDmaEnd_kept n s h (hmbx rfl) (hsram rfl)
  | burstStart n cyc => exact execBurstStart_kept n cyc s h
  | burstEnd n data err h1 fe => exact execBurstEnd_kept n data err h1 fe s h (hmbx rfl) (hhbm rfl) (hsram rfl)
  | linkStatus q => exact execLinkStatus_kept q s h (hmbx rfl)
  | ethMode q => exact execEthMode_kept q s h (hmbx rfl)
  | ethIfSet q => exact execEthIfSet_kept q s h (hmbx rfl)
  | ethFilterSet q => exact execEthFilterSet_kept q s h (hmbx rfl)
  | nbrSet q => exact execNbrSet_kept q s h (hmbx rfl)
  | nvmeReset q => exact execNvmeReset_kept q s h (hmbx rfl)
  | nvmeInfo q => exact execNvmeInfo_kept q s h (hmbx rfl)
  | nvmeRead q => exact execNvmeRead_kept q s h (hmbx rfl)
  | bisorPortSet q => exact execBisorPortSet_kept q s h (hmbx rfl)
  | driveBringUp port d => exact execDriveBringUp_kept port d s h
  | nvmeCompletion port ok data => exact execNvmeCompletion_kept port ok data s h (hmbx rfl) (hhbm rfl)
  | nvmeCommandTimeout port => exact execNvmeCommandTimeout_kept port s h (hmbx rfl)
  | nvmePortFail port => exact execNvmePortFail_kept port s h (hmbx rfl)
  | smartPoll port temp crit used written => exact execSmartPoll_kept port temp crit used written s h
  | ethFrameReceive f => exact execEthFrameReceive_kept f s h (hhbm rfl) (hsram rfl)
  | ethLinkUp port => exact execEthLinkUp_kept port s h
  | ethLinkDown port => exact execEthLinkDown_kept port s h
  | nextHopRetry => exact execNextHopRetry_kept s h
  | neighbourRefresh seconds => exact execNeighbourRefresh_kept seconds s h
  | lnkEqtailWrite q v => exact execLnkEqtailWrite_kept q v s h
  | txDescriptor q host frame tclk => exact execTxDescriptor_kept q host frame tclk s h (hhbm rfl) (hsram rfl)
  | frameLaunch q host frame tclk => exact execFrameLaunch_kept q host frame tclk s h (hhbm rfl) (hsram rfl)
  | tokenReceive port content cyc => exact execTokenReceive_kept port content cyc s h
  | tokenPresent => exact execTokenPresent_kept s h
  | gridFlitReceive port beat grid tclk stamp => exact execGridFlitReceive_kept port beat grid tclk stamp s h
  | gridFlitSend => exact execGridFlitSend_kept s h
  | nbrRecordReceive port record => exact execNbrRecordReceive_kept port record s h
  | creditReceive port n => exact execCreditReceive_kept port n s h
  | echoRequestReceive port content => exact execEchoRequestReceive_kept port content s h
  | echoReplyReceive port content tclk => exact execEchoReplyReceive_kept port content tclk s h
  | echoSend port tclk => exact execEchoSend_kept port tclk s h
  | flitCrcFail port record token => exact execFlitCrcFail_kept port record token s h
  | nbrPortUp port => exact execNbrPortUp_kept port s h
  | nbrPortDown port => exact execNbrPortDown_kept port s h
  | pcieHotReset flr => exact execPcieHotReset_kept flr s h (hmbx rfl) (hsram rfl) (hmsix rfl) (hlocks rfl)
  | perstAssert => exact execPerstAssert_kept s h (hmbx rfl) (hsram rfl) (hmsix rfl) (hlocks rfl)
  | perstRelease gen width => exact execPerstRelease_kept gen width s h
  | pcieSurpriseDown => exact execPcieSurpriseDown_kept s h (hmbx rfl) (hsram rfl) (hmsix rfl) (hlocks rfl)
  | pcieDowntrain gen width => exact execPcieDowntrain_kept gen width s h
  | msixUnmask v => exact execMsixUnmask_kept v s h (hmsix rfl)
  | timeGet q w => exact execTimeGet_kept q w s h (hmbx rfl)
  | timeStep q => exact execTimeStep_kept q s h (hmbx rfl)
  | timeAdjust q => exact execTimeAdjust_kept q s h (hmbx rfl)
  | servoSet q tclk => exact execServoSet_kept q tclk s h (hmbx rfl)
  | ptpSet q => exact execPtpSet_kept q s h (hmbx rfl)
  | ptpStatus q => exact execPtpStatus_kept q s h (hmbx rfl)
  | gridAlign q => exact execGridAlign_kept q s h (hmbx rfl)
  | gridAlignAbort => exact execGridAlignAbort_kept s h
  | utcSet q => exact execUtcSet_kept q s h (hmbx rfl)
  | servoSample tclk => exact execServoSample_kept tclk s h
  | sampleMissing tclk => exact execSampleMissing_kept tclk s h
  | holdmaxExpiry => exact execHoldmaxExpiry_kept s h
  | jumpApply tclk => exact execJumpApply_kept tclk s h
  | ptpMessageSend kind tclk => exact execPtpMessageSend_kept kind tclk s h
  | announceReceiptTimeout => exact execAnnounceReceiptTimeout_kept s h
  | gridAvgWindowEnd => exact execGridAvgWindowEnd_kept s h
  | gridSlewEnd => exact execGridSlewEnd_kept s h
  | gridLoad tclk stamp => exact execGridLoad_kept tclk stamp s h
  | leapSecond tclk => exact execLeapSecond_kept tclk s h
  | ppsoutRise => exact execPpsoutRise_kept s h
  | ppsoutFall => exact execPpsoutFall_kept s h
  | tdcChanSet q => exact execTdcChanSet_kept q s h (hmbx rfl)
  | tdcCal q => exact execTdcCal_kept q s h (hmbx rfl)
  | tdcCalAbort q => exact execTdcCalAbort_kept q s h (hmbx rfl)
  | tdcRead q => exact execTdcRead_kept q s h (hmbx rfl)
  | freqStart q => exact execFreqStart_kept q s h (hmbx rfl)
  | freqStop q => exact execFreqStop_kept q s h (hmbx rfl)
  | freqResult q => exact execFreqResult_kept q s h (hmbx rfl)
  | tdcStatus q => exact execTdcStatus_kept q s h (hmbx rfl)
  | tdcEdge c rise tclk half code cyc => exact execTdcEdge_kept c rise tclk half code cyc s h
  | blindTimeEnd c level => exact execBlindTimeEnd_kept c level s h
  | widthCalEnd c hits => exact execWidthCalEnd_kept c hits s h
  | tdcRecal => exact execTdcRecal_kept s h
  | freqGateEnd f => exact execFreqGateEnd_kept f s h
  | freqResultWrite f => exact execFreqResultWrite_kept f s h
  | ocxoWarmChange level => exact execOcxoWarmChange_kept level s h
  | tbWarmCriterion secs => exact execTbWarmCriterion_kept secs s h
  | clkSclkSet q => exact execClkSclkSet_kept q s h (hmbx rfl)
  | clkBandSet q => exact execClkBandSet_kept q s h (hmbx rfl)
  | clkPhaseStep q => exact execClkPhaseStep_kept q s h (hmbx rfl)
  | clkStatus q => exact execClkStatus_kept q s h (hmbx rfl)
  | clkSyncArm v => exact execClkSyncArm_kept v s h
  | clkSyncCancel v => exact execClkSyncCancel_kept v s h
  | refinLoss cyc => exact execRefinLoss_kept cyc s h (hmbx rfl)
  | refinReturn => exact execRefinReturn_kept s h
  | synthLossOfLock n cyc => exact execSynthLossOfLock_kept n cyc s h (hmbx rfl)
  | synthLock n => exact execSynthLock_kept n s h
  | bypassReturn n => exact execBypassReturn_kept n s h
  | bandAttemptTimeout q => exact execBandAttemptTimeout_kept q s h
  | hbmPllLossOfLock n => exact execHbmPllLossOfLock_kept n s h
  | sclkinLoss pin cyc => exact execSclkinLoss_kept pin cyc s h
  | dspModeSet q => exact execDspModeSet_kept q s h (hmbx rfl)
  | dspBufReg q => exact execDspBufReg_kept q s h (hmbx rfl)
  | dspBufFree q => exact execDspBufFree_kept q s h (hmbx rfl)
  | dspCommit q => exact execDspCommit_kept q s h (hmbx rfl)
  | dspPalSet q => exact execDspPalSet_kept q s h (hmbx rfl)
  | dspAux q sink => exact execDspAux_kept q sink s h (hmbx rfl)
  | dspStatus q => exact execDspStatus_kept q s h (hmbx rfl)
  | dspCmtGo v => exact execDspCmtGo_kept v s h
  | dspCmtDirty v => exact execDspCmtDirty_kept v s h
  | copyPoint h1 => exact execCopyPoint_kept h1 s h (hactive rfl) (hmbx rfl) (hhbm rfl)
  | scanoutLine under h1 => exact execScanoutLine_kept under h1 s h
  | staticRefreshStretch => exact execStaticRefreshStretch_kept s h
  | hpdFall => exact execHpdFall_kept s h
  | hpdRise => exact execHpdRise_kept s h
  | linkTrainingEnd ok adaptive => exact execLinkTrainingEnd_kept ok adaptive s h
  | monCoreSet q => exact execMonCoreSet_kept q s h (hmbx rfl)
  | monInject q => exact execMonInject_kept q s h (hmbx rfl)
  | monRead q => exact execMonRead_kept q s h (hmbx rfl)
  | monFwSet q => exact execMonFwSet_kept q s h (hmbx rfl)
  | monPassStart m => exact execMonPassStart_kept m s h
  | monEntryDone m codes before => exact execMonEntryDone_kept m codes before s h
  | injectRequest m last => exact execInjectRequest_kept m last s h
  | fastWatchSample m code skip => exact execFastWatchSample_kept m code skip s h
  | pwrStateSet q => exact execPwrStateSet_kept q s h (hmbx rfl)
  | pwrTransitionApply us => exact execPwrTransitionApply_kept us s h (hmbx rfl)
  | stateEntry us => exact execStateEntry_kept us s h (hmbx rfl) (hsram rfl) (hlocks rfl)
  | staggerStep us retOk => exact execStaggerStep_kept us retOk s h (hactive rfl) (hmbx rfl) (hsram rfl)
  | stepFail us => exact execStepFail_kept us s h
  | runFirstBeat us => exact execRunFirstBeat_kept us s h (hmbx rfl)
  | pwrStatus q => exact execPwrStatus_kept q s h (hmbx rfl)
  | reset q => exact execReset_kept q s h (hmbx rfl)
  | wakePin => exact execWakePin_kept s h
  | owlTimerExpiry => exact execOwlTimerExpiry_kept s h
  | porstN pgood => exact execPorstN_kept pgood s h (hactive rfl) (hmbx rfl) (hhbm rfl) (hsram rfl) (hslcRam rfl) (hmsix rfl) (hlocks rfl)
  | warmRstN refin starts => exact execWarmRstN_kept refin starts s h (hactive rfl) (hmbx rfl) (hhbm rfl) (hsram rfl) (hslcRam rfl) (hmsix rfl) (hlocks rfl)
  | vddAonLoss => exact execVddAonLoss_kept s h (hactive rfl) (hmbx rfl) (hhbm rfl) (hsram rfl) (hslcRam rfl) (hmsix rfl) (hlocks rfl)
  | coldBoot refin starts strap => exact execColdBoot_kept refin starts strap s h
  | firmwareStart idOk => exact execFirmwareStart_kept idOk s h
  | vddCoreLow => exact execVddCoreLow_kept s h
  | junctionThreshold temp => exact execJunctionThreshold_kept temp s h
  | thermalShutdown => exact execThermalShutdown_kept s h (hactive rfl) (hmbx rfl) (hhbm rfl) (hsram rfl) (hslcRam rfl) (hmsix rfl) (hlocks rfl)
  | fltStatus q => exact execFltStatus_kept q s h (hmbx rfl)
  | fltAck q => exact execFltAck_kept q s h (hmbx rfl)
  | fltConfig q => exact execFltConfig_kept q s h (hmbx rfl)
  | logRead q => exact execLogRead_kept q s h (hmbx rfl)
  | logClear q => exact execLogClear_kept q s h (hmbx rfl)
  | fltInject q => exact execFltInject_kept q s h (hmbx rfl)
  | fltRelease q => exact execFltRelease_kept q s h (hmbx rfl)
  | fltInjectRegister v => exact execFltInjectRegister_kept v s h
  | fltClspendWrite v => exact execFltClspendWrite_kept v s h
  | fltStickyWrite n v => exact execFltStickyWrite_kept n v s h
  | fltRailbadWrite n v => exact execFltRailbadWrite_kept n v s h
  | faultReport src code cyc => exact execFaultReport_kept src code cyc s h
  | railPairFail src => exact execRailPairFail_kept src s h
  | fwStatus q => exact execFwStatus_kept q s h (hmbx rfl)
  | fwUpdate q => exact execFwUpdate_kept q s h (hmbx rfl) (hflash rfl)
  | fwUpdateEnd result => exact execFwUpdateEnd_kept result s h (hflash rfl)
  | attest q w => exact execAttest_kept q w s h (hmbx rfl)
  | keyExchange q => exact execKeyExchange_kept q s h (hmbx rfl)
  | keyClose q => exact execKeyClose_kept q s h (hmbx rfl)
  | sessionIdleTimeout n => exact execSessionIdleTimeout_kept n s h
  | operatorSet q => exact execOperatorSet_kept q s h (hmbx rfl)
  | identityGet q => exact execIdentityGet_kept q s h (hmbx rfl)
  | rollbackCommit q => exact execRollbackCommit_kept q s h (hmbx rfl)
  | ppePolicySet q => exact execPpePolicySet_kept q s h (hmbx rfl)
  | ownerKeySet q => exact execOwnerKeySet_kept q s h (hmbx rfl)
  | testUnlockChallenge q => exact execTestUnlockChallenge_kept q s h (hmbx rfl)
  | testUnlock q => exact execTestUnlock_kept q s h (hmbx rfl)
  | mbxHcdbWrite n v => exact execMbxHcdbWrite_kept n v s h
  | mailboxDataWrite m addr bytes => exact execMailboxDataWrite_kept m addr bytes s h (hmbx rfl)
  | mailboxTake => exact execMailboxTake_kept s h (hmbx rfl)
  | networkPacketTake => exact execNetworkPacketTake_kept s h (hmbx rfl)
  | mbxHrackWrite n => exact execMbxHrackWrite_kept n s h
  | mailboxTimeout box => exact execMailboxTimeout_kept box s h (hmbx rfl)
  | mbxCldbWrite m c v => exact execMbxCldbWrite_kept m c v s h
  | mbxPestatOutack m e => exact execMbxPestatOutack_kept m e s h
  | mbxCountRead m which => exact execMbxCountRead_kept m which s h
  | glbLockRead n ms => exact execGlbLockRead_kept n ms s h (hlocks rfl)
  | glbLockRelease m n v => exact execGlbLockRelease_kept m n v s h (hlocks rfl)
  | pairLoRead m addr tclk => exact execPairLoRead_kept m addr tclk s h (hlocks rfl)
  | glbBeatLoRead m cyc => exact execGlbBeatLoRead_kept m cyc s h
  | timNowLoRead m tclk => exact execTimNowLoRead_kept m tclk s h
  | cnvCaltimeLoRead m core => exact execCnvCaltimeLoRead_kept m core s h
  | tdcChstamp0Read m ch => exact execTdcChstamp0Read_kept m ch s h
  | glbSwevtWrite m v => exact execGlbSwevtWrite_kept m v s h
  | shadowRegisterWrite m addr v => exact execShadowRegisterWrite_kept m addr v s h
  | registerWrite m addr bytes => exact execRegisterWrite_kept m addr bytes s h (hmbx rfl) (hsram rfl) (hmsix rfl) (hlocks rfl)
  | clusterWakeEnd c => exact execClusterWakeEnd_kept c s h
  | trigioLevelChange pin level cyc => exact execTrigioLevelChange_kept pin level cyc s h
  | clkPhaseStepEnd => exact execClkPhaseStepEnd_kept s h (hmbx rfl)
  | pcieConfigWrite bme d3 msixEn fmask mps mrrs => exact execPcieConfigWrite_kept bme d3 msixEn fmask mps mrrs s h
  | aerError uncor err => exact execAerError_kept uncor err s h

/-- A step keeps what the command at the front of its queue keeps. -/
theorem step_kept {s : State} {c : Instr} {rest : List Instr} (hp : s.pending = c :: rest) (hs : s.canonical) :
    KeptOut ⟨rest, none, none, none, none, none, none, none, none⟩ s.fuses (step s) := by
  have h : Kept ⟨rest, none, none, none, none, none, none, none, none⟩ s.fuses { s with pending := rest } :=
    ⟨rfl, Fuses.Burned.refl _, hs, ⟨by simp, by simp, by simp, by simp, by simp, by simp, by simp, by simp⟩⟩
  simp only [step, hp]
  apply exec_kept c _ h <;> intros <;> rfl

end Sys2Proof.Machine
end

