-- ==== Sys2Proof/WellFormed.lean ====
section
/-! DEFINITION. Which operands a command can carry: the ranges that the spec gives the fields, units and pins that a row
names. The machine itself gives every term of `Instr` a meaning; what a parameter field holds is checked by the commands
(R8). -/
namespace Sys2Proof

/-- A mailbox pair exists (R77); a network peer's fields fit the frame's (R388, R391). -/
def Src.wf : Src → Bool
  | .mailbox n => decide (n < 8)
  | .net p => decide (p.port < 8) && decide (p.ifc < 4) && decide (p.vlan < 4097) && decide (p.addr < 2 ^ 128) && decide (p.udp < 65536)
/-- Sessions are 0–16 (R63), epochs 16 bits (R90), parameters at most 4,072 bytes (R63). -/
def Req.wf (q : Req) : Bool :=
  q.src.wf && decide (q.session ≤ 16) && decide (q.epoch < 65536) && decide (q.params.length ≤ 4072)
/-- A beat has 512 FCLK cycles (R20); TIM_RAW has 64 bits (R409). -/
def At.wf (a : At) : Bool := decide (a.cyc < 512) && decide (a.tclk < 2 ^ 64)
/-- The bus masters of R94. -/
def Master.wf : Master → Bool
  | .host => true
  | .mgmt i => decide (1 ≤ i ∧ i ≤ 4)
  | .ppe e => decide (e < 64)
  | .other => true
/-- Stages 0–4 and 6 can overrun, stage 1 in the slices that bits 16–31 name (R40, R42); samples come from the 32 cores (R102). -/
def BeatInput.wf (i : BeatInput) : Bool :=
  decide (i.tclk < 2 ^ 64) && decide (i.overruns < 2 ^ 32) && decide (i.overruns / 128 % 512 = 0) && !i.overruns.testBit 5 &&
  i.overruns.testBit 1 == decide (65536 ≤ i.overruns) && (i.samples ++ i.ahead).all (fun p => decide (p.1 < 32))
/-- A frame arrives at one of eight ports; the stamp's parts stay in their ranges. -/
def RxFrame.wf (f : RxFrame) : Bool := decide (f.port < 8) && decide (f.ns < 1000000000) && decide (f.frac < 65536)
/-- ECC words are numbered by eight bytes. -/
def EccHits.wf (h : EccHits) : Bool := (h.ce ++ h.ue).all (fun a => decide (a < 2 ^ 40))
/-- There are 64 pseudo-channels (R334), six classes of request and patrol scrubbing, and 2,560 slots in a window (R338, R339). -/
def ArbUse.wf (u : ArbUse) : Bool :=
  decide (u.chan < 64) && u.arrive.all (fun p => decide (p.1 < 2560) && decide (p.2.cls < 7)) &&
  (u.paused ++ u.slow).all (fun t => decide (t < 2560))
/-- Estimates cover the four classes of CNV_BGCAL (R122). -/
def BgEst.wf (e : BgEst) : Bool := decide (e.conf < 16)
/-- A drive's serial and model are 20 and 40 characters (R403). -/
def DriveReport.wf (d : DriveReport) : Bool := decide (d.serial.length = 20) && decide (d.model.length = 40)
/-- PCIe link widths. -/
def linkWidth (w : Nat) : Bool := decide (w ∈ [1, 2, 4, 8, 16])

/-- Every operand of the command is in its range. -/
def Instr.wf : Instr → Bool
  | .ping q => q.wf
  | .deviceIdGet q => q.wf
  | .deviceIdSet q => q.wf
  | .queryCaps q => q.wf
  | .lockPeek q => q.wf
  | .commit q w => q.wf && w.wf
  | .commitCopy => true
  | .commitStatus q => q.wf
  | .commitCancel q w => q.wf && w.wf
  | .budgetCheck q => q.wf
  | .profileSet q w => q.wf && w.wf
  | .profileGet q => q.wf
  | .activeRead q group word => q.wf && decide (group < 2 ^ 16) && decide (word < 2 ^ 16)
  | .restartStop => true
  | .restartRunStart => true
  | .beatBoundary b => b.wf
  | .beatMark n => decide (n < 8)
  | .syncinEdge _ b => b.wf
  | .cnvDivide q w => q.wf && w.wf
  | .calForeground q => q.wf
  | .foregroundCalEnd quad r => decide (quad < 4) && r.all (fun x => decide (x.core / 8 = quad))
  | .calStatus q => q.wf
  | .calAbort q => q.wf
  | .calBackground q => q.wf
  | .cnvStatus q => q.wf
  | .cnvBgcalWrite m core _ => m.wf && decide (core < 32)
  | .bgCalIntervalEnd core e => decide (core < 32) && e.wf
  | .bgStepLanding => true
  | .cnvPwrdnWrite m core _ => m.wf && decide (core < 32)
  | .coreReady core => decide (core < 32)
  | .overRangeEpisode core cyc _ => decide (core < 32) && decide (cyc < 512)
  | .overRangeTailEnd core _ => decide (core < 32)
  | .pthConfig q => q.wf
  | .firLoad q => q.wf
  | .pthStatus q => q.wf
  | .fadeStart path => decide (path < 32)
  | .fadeEnd path => decide (path < 32)
  | .coarseToFine path => decide (path < 32)
  | .slcConfig q => q.wf
  | .windowLoad q => q.wf
  | .windowLoadAbandon slice bank => decide (slice < 16) && decide (bank < 2)
  | .traceClear q => q.wf
  | .traceRestart slice lane traces => decide (slice < 16) && decide (lane < 2) && decide (traces < 16)
  | .slcStatus q => q.wf
  | .fltStatus q => q.wf
  | .fltAck q => q.wf
  | .fltConfig q => q.wf
  | .logRead q => q.wf
  | .logClear q => q.wf
  | .fltInject q => q.wf
  | .fltRelease q => q.wf
  | .fltInjectRegister _ => true
  | .fltClspendWrite _ => true
  | .fltStickyWrite n _ => decide (n < 8)
  | .fltRailbadWrite n _ => decide (n < 8)
  | .faultReport src code cyc => decide (src < 256) && decide (code < 65536) && decide (cyc < 512)
  | .railPairFail src => decide (src < 256)
  | .mbxHcdbWrite n _ => decide (n < 8)
  | .mailboxDataWrite m addr bytes => m.wf && decide (bytes ≠ []) && decide (addr + bytes.length ≤ 2 ^ 32)
  | .mailboxTake => true
  | .networkPacketTake => true
  | .mbxHrackWrite n => decide (n < 8)
  | .mailboxTimeout box => decide (box < 80)
  | .mbxCldbWrite m c _ => m.wf && decide (c < 8)
  | .mbxPestatOutack m e => m.wf && decide (e < 64)
  | .mbxCountRead m which => m.wf && decide (which < 3)
  | .glbLockRead n ms => decide (n < 256) && ms.all Master.wf && decide (ms ≠ [])
  | .glbLockRelease m n _ => m.wf && decide (n < 256)
  | .carConfig q => q.wf
  | .carArm q => q.wf
  | .carStop q => q.wf
  | .segmentStopClose c => decide (c < 4)
  | .carStatus q => q.wf
  | .segmentEnd c => decide (c < 4)
  | .segmentGapEnd c => decide (c < 4)
  | .overflowResume c => decide (c < 4)
  | .trgConfig q => q.wf
  | .trgArm q => q.wf
  | .groupArm m => decide (m < 32)
  | .trgDisarm q => q.wf
  | .groupDisarm m => decide (m < 32)
  | .trgForce q => q.wf
  | .forcedFire m => decide (m < 32)
  | .holdoffEnd m => decide (m < 32)
  | .trigioPulseEnd pin => decide (pin < 32)
  | .maskLoad q => q.wf
  | .maskVersionRelease m => decide (m < 64)
  | .denSet q => q.wf
  | .denPathSet q => q.wf
  | .denRegionSet q => q.wf
  | .corrSet q => q.wf
  | .denStatus q => q.wf
  | .densityFlush => true
  | .densityReadoutStart => true
  | .densityReadoutEnd _ => true
  | .corrIntegrationEnd => true
  | .corrBankSwap => true
  | .corrDumpEnd => true
  | .timeGet q w => q.wf && w.wf
  | .timeStep q => q.wf
  | .timeAdjust q => q.wf
  | .servoSet q tclk => q.wf && decide (tclk < 2 ^ 64)
  | .gridAlign q => q.wf
  | .gridAlignAbort => true
  | .utcSet q => q.wf
  | .servoSample tclk => decide (tclk < 2 ^ 64)
  | .sampleMissing tclk => decide (tclk < 2 ^ 64)
  | .holdmaxExpiry => true
  | .jumpApply tclk => decide (tclk < 2 ^ 64)
  | .gridAvgWindowEnd => true
  | .gridSlewEnd => true
  | .gridLoad tclk _ => decide (tclk < 2 ^ 64)
  | .leapSecond tclk => decide (tclk < 2 ^ 64)
  | .ppsoutRise => true
  | .ppsoutFall => true
  | .streamSet q => q.wf
  | .streamStatus q => q.wf
  | .volFormat q => q.wf
  | .volFormatDone v => decide (v < 4)
  | .volStatus q => q.wf
  | .hostRingWrite stream => decide (stream < 32)
  | .ocHconsWrite h _ _ => decide (h < 32)
  | .chunkWrite v => decide (v < 4)
  | .chunkFlushTime v => decide (v < 4)
  | .datagramLaunch stream tclk => decide (stream < 32) && decide (tclk < 2 ^ 64)
  | .memRegionSet q => q.wf
  | .memStatus q => q.wf
  | .memRetiredRead q => q.wf
  | .arbWindowEnd uses => uses.all ArbUse.wf
  | .hbmRefresh chan => decide (chan < 64)
  | .stackOverTemperature stack _ => decide (stack < 2)
  | .retrain g => decide (g < 16)
  | .retrainEnd chan _ => decide (chan < 64)
  | .parityError chan _ _ => decide (chan < 64)
  | .patrolScrub h => h.wf
  | .rowRepair chan page spares => decide (chan < 64) && decide (page < 1048576) && decide (spares < 256)
  | .bar2Access write _ n bytes h => h.wf && (if write then decide (bytes.length = n) else decide (bytes = []))
  | .ptpSet q => q.wf
  | .ptpStatus q => q.wf
  | .ptpMessageSend kind tclk => decide (tclk < 2 ^ 64) && decide (kind < 3)
  | .announceReceiptTimeout => true
  | .linkStatus q => q.wf
  | .ethMode q => q.wf
  | .ethIfSet q => q.wf
  | .ethFilterSet q => q.wf
  | .nbrSet q => q.wf
  | .nvmeReset q => q.wf
  | .nvmeInfo q => q.wf
  | .nvmeRead q => q.wf
  | .bisorPortSet q => q.wf
  | .driveBringUp port d => decide (port < 4) && d.wf
  | .nvmeCompletion port _ _ => decide (port < 4)
  | .nvmeCommandTimeout port => decide (port < 4)
  | .nvmePortFail port => decide (port < 4)
  | .smartPoll port temp crit used written => decide (port < 4) && decide (crit < 256) && decide (used < 256) && decide (temp < 2 ^ 16) && decide (written < 2 ^ 128)
  | .ethFrameReceive f => f.wf
  | .ethLinkUp port => decide (port < 8)
  | .ethLinkDown port => decide (port < 8)
  | .nextHopRetry => true
  | .neighbourRefresh _ => true
  | .lnkEqtailWrite q _ => decide (q < 16)
  | .txDescriptor q _ _ tclk => decide (q < 16) && decide (tclk < 2 ^ 64)
  | .frameLaunch q _ _ tclk => decide (q < 16) && decide (tclk < 2 ^ 64)
  | .tokenReceive port content cyc => decide (port < 2) && decide (cyc < 512) && decide (content.length = 20)
  | .tokenPresent => true
  | .gridFlitReceive port beat _ tclk _ => decide (port < 2) && decide (tclk < 2 ^ 64) && decide (beat < 2 ^ 64)
  | .gridFlitSend => true
  | .nbrRecordReceive port _ => decide (port < 2)
  | .creditReceive port _ => decide (port < 2)
  | .echoRequestReceive port _ => decide (port < 2)
  | .echoReplyReceive port _ tclk => decide (port < 2) && decide (tclk < 2 ^ 64)
  | .echoSend port tclk => decide (port < 2) && decide (tclk < 2 ^ 64)
  | .flitCrcFail port _ _ => decide (port < 2)
  | .nbrPortUp port => decide (port < 2)
  | .nbrPortDown port => decide (port < 2)
  | .ppeLoad q => q.wf
  | .ppeStart q => q.wf
  | .ppeStop q => q.wf
  | .ppeTaskSet q => q.wf
  | .ppeStatus q => q.wf
  | .ppeMemWrite q => q.wf
  | .ppeMemRead q => q.wf
  | .ppeCluster q => q.wf
  | .taskDispatch e => decide (e < 64)
  | .taskBudgetExpiry e => decide (e < 64)
  | .ppeBundleIssue e _ => decide (e < 64)
  | .ppeInterrupt e _ _ => decide (e < 64)
  | .mbCtlIntake e => decide (e < 64)
  | .mbCtlOutring e => decide (e < 64)
  | .clusterGate c => decide (c < 8)
  | .clusterWake c => decide (c < 8)
  | .clusterWakeEnd c => decide (c < 8)
  | .dmaStart q fe => q.wf && decide (fe < 3)
  | .dmaAbort q => q.wf
  | .dmaStatus q => q.wf
  | .dmaSramWrite q => q.wf
  | .dmaCtrlStart m n _ fe => m.wf && decide (n < 128) && decide (fe < 3)
  | .dmaCtrlAbort m n _ => m.wf && decide (n < 128)
  | .move n => decide (n < 128)
  | .loop n fe => decide (n < 128) && decide (fe < 3)
  | .wait n fe => decide (n < 128) && decide (fe < 3)
  | .waitComplete n fe => decide (n < 128) && decide (fe < 3)
  | .waitTimeout n => decide (n < 128)
  | .dmaSignal n fe => decide (n < 128) && decide (fe < 3)
  | .dmaEnd n => decide (n < 128)
  | .burstStart n cyc => decide (n < 128) && decide (cyc < 512)
  | .burstEnd n _ _ h fe => decide (n < 128) && h.wf && decide (fe < 3)
  | .tdcChanSet q => q.wf
  | .tdcCal q => q.wf
  | .tdcCalAbort q => q.wf
  | .tdcRead q => q.wf
  | .freqStart q => q.wf
  | .freqStop q => q.wf
  | .freqResult q => q.wf
  | .tdcStatus q => q.wf
  | .tdcEdge c _ tclk _ code cyc => decide (c < 17) && decide (tclk < 2 ^ 64) && decide (code < 1024) && decide (cyc < 512)
  | .blindTimeEnd c _ => decide (c < 17)
  | .widthCalEnd c _ => decide (c < 17)
  | .tdcRecal => true
  | .freqGateEnd f => decide (f < 4)
  | .freqResultWrite f => decide (f < 4)
  | .ocxoWarmChange _ => true
  | .tbWarmCriterion _ => true
  | .clkSclkSet q => q.wf
  | .clkBandSet q => q.wf
  | .clkPhaseStep q => q.wf
  | .clkStatus q => q.wf
  | .clkSyncArm _ => true
  | .clkSyncCancel _ => true
  | .refinLoss cyc => decide (cyc < 512)
  | .refinReturn => true
  | .synthLossOfLock n cyc => decide (n < 12) && decide (cyc < 512)
  | .synthLock n => decide (n < 16)
  | .bypassReturn n => decide (n < 12)
  | .bandAttemptTimeout q => decide (q < 4)
  | .hbmPllLossOfLock n => decide (n < 2)
  | .sclkinLoss pin cyc => decide (pin < 2) && decide (cyc < 512)
  | .clkPhaseStepEnd => true
  | .dspModeSet q => q.wf
  | .dspBufReg q => q.wf
  | .dspBufFree q => q.wf
  | .dspCommit q => q.wf
  | .dspPalSet q => q.wf
  | .dspAux q _ => q.wf
  | .dspStatus q => q.wf
  | .dspCmtGo _ => true
  | .dspCmtDirty _ => true
  | .copyPoint h => h.wf
  | .scanoutLine _ h => h.wf
  | .staticRefreshStretch => true
  | .hpdFall => true
  | .hpdRise => true
  | .linkTrainingEnd _ _ => true
  | .monCoreSet q => q.wf
  | .monInject q => q.wf
  | .monRead q => q.wf
  | .monFwSet q => q.wf
  | .monPassStart m => decide (m < 4)
  | .monEntryDone m codes _ => decide (m < 4) && codes.all (fun x => decide (x < 4096))
  | .injectRequest m _ => decide (m < 4)
  | .fastWatchSample m code _ => decide (m < 4) && decide (code < 4096)
  | .pwrStateSet q => q.wf
  | .pwrTransitionApply us => decide (us < 2 ^ 32)
  | .stateEntry us => decide (us < 2 ^ 32)
  | .staggerStep us _ => decide (us < 2 ^ 32)
  | .stepFail us => decide (us < 2 ^ 32)
  | .runFirstBeat us => decide (us < 2 ^ 32)
  | .pwrStatus q => q.wf
  | .reset q => q.wf
  | .wakePin => true
  | .owlTimerExpiry => true
  | .porstN _ => true
  | .warmRstN _ _ => true
  | .vddAonLoss => true
  | .coldBoot _ _ _ => true
  | .firmwareStart _ => true
  | .vddCoreLow => true
  | .junctionThreshold _ => true
  | .thermalShutdown => true
  | .pcieHotReset _ => true
  | .perstAssert => true
  | .perstRelease gen width => decide (1 ≤ gen ∧ gen ≤ 5) && linkWidth width
  | .pcieSurpriseDown => true
  | .pcieDowntrain gen width => decide (1 ≤ gen ∧ gen ≤ 5) && linkWidth width
  | .msixUnmask v => decide (v < 512)
  | .pcieConfigWrite _ _ _ _ mps mrrs => decide (mps < 8192) && decide (mrrs < 8192)
  | .aerError uncor err => decide (err < (if uncor then 10 else 8))
  | .trigioLevelChange pin _ cyc => decide (pin < 32) && decide (cyc < 512)
  | .fwStatus q => q.wf
  | .fwUpdate q => q.wf
  | .fwUpdateEnd result => decide (result < 3)
  | .attest q w => q.wf && w.wf
  | .keyExchange q => q.wf
  | .keyClose q => q.wf
  | .sessionIdleTimeout n => decide (1 ≤ n ∧ n ≤ 16)
  | .operatorSet q => q.wf
  | .identityGet q => q.wf
  | .rollbackCommit q => q.wf
  | .ppePolicySet q => q.wf
  | .ownerKeySet q => q.wf
  | .testUnlockChallenge q => q.wf
  | .testUnlock q => q.wf
  | .pairLoRead m addr tclk => m.wf && decide (tclk < 2 ^ 64) && decide (addr.base < 2 ^ 26) && decide (addr.len ≤ 4096)
  | .glbBeatLoRead m cyc => m.wf && decide (cyc < 512)
  | .timNowLoRead m tclk => m.wf && decide (tclk < 2 ^ 64)
  | .cnvCaltimeLoRead m core => m.wf && decide (core < 32)
  | .tdcChstamp0Read m ch => m.wf && decide (ch < 17)
  | .glbSwevtWrite m _ => m.wf
  | .shadowRegisterWrite m addr _ => m.wf && decide (addr % 4 = 0)
  | .registerWrite m addr bytes => m.wf && decide (addr % 4 = 0) && (bytes.length == 4 || bytes.length == 8)

end Sys2Proof
end

