-- ==== Sys2Proof/Tests/Slice0.lean ====
section
/-! SUPPORT. The model's own tests: witnesses for the hypotheses of every statement, single steps whose results the spec's
worked cases and tables give, and an ill-formed term for each check of well-formedness. -/
namespace Sys2Proof.Tests
open Sys2Proof Sys2Proof.Machine
set_option maxRecDepth 4000
set_option Elab.async false

/-- A request at host mailbox 0 with the given parameter bytes. -/
def rq (l : List Byte) : Req := ⟨.mailbox 0, 0, 0, 0, l⟩
/-- The part out of reset, in RUN. -/
def runS : State := { State.reset.wr PWR_STAT 0x20000000 with bt := { porst := false } }
/-- The same with registers set. -/
def stR (l : List (Nat × Word)) : State := l.foldl (fun s p => s.wr p.1 p.2) runS
/-- The same in beat 1,000 with FCLK running. -/
def clkS (l : List (Nat × Word)) : State := l.foldl (fun s p => s.wr p.1 p.2) (stR [(GLB_BEATSTAT, 4), (GLB_BEAT_LO, 1000)])
/-- Values in force of shadowed registers. -/
def inForce (s : State) (l : List (Nat × Word)) : State := l.foldl (fun s p => s.wrA p.1 p.2) s
/-- A stream-table entry with the given bytes at the given places. -/
def entryOf (l : List (Nat × Byte)) : List Byte := l.foldl (fun e p => e.set p.1 p.2) (zeros 64)
/-- A pending ticket of path 0 for beat 2,000, and an applied one. -/
def tick1 : Ticket := ⟨1, 1, 2000, false, false, true, 0, 0, none, none, false⟩
/-- A layout restart that stops after beat 10. -/
def rst1 : Restart := ⟨0, 0x0104, rq [], 1, 10, 0, false, false⟩
def qr1 : QRec := ⟨zeros 64, 0, 0, 0, 0⟩
def ck1 : Chunk := ⟨0, [], 0, 0, 0, 0, 0, true, false⟩
def fl1 : Flush := ⟨0, [0], [], false, true, 0, 0, 10, [], 1, [], false⟩
/-- Engine 0 RUNNING, its cluster on. -/
def ppeS (p : PpeSt) : State := { stR [(PPE_STAT 0, 0x40000000), (PWR_STEP 34, 0x40000000)] with ppe := [(0, p)] }
/-- DMA channel 0 in RUN with a fetched instruction. -/
def dmaS (i : Nat) : State := { clkS [(DMA_STAT 0, 0x20000000)] with dma := [(0, { instr := i })] }
def nv1 : NvCmd := ⟨0, 2, 0, false, 0, none, [], 0⟩
/-- A broadcast frame of 60 bytes that carries no IP packet. -/
def bcast : RxFrame := ⟨0, List.replicate 6 0xFF ++ zeros 54, true, true, 0, 0, 0, []⟩
/-- A TX descriptor of 64 bytes, with flags. -/
def desc (f : Byte) : List Byte := zeros 8 ++ [64, 0, 0, 0, f] ++ zeros 19
/-- A display mode of 640 × 480 lines at 25 MHz on four lanes. -/
def mode1 : List Byte := b4 25000 ++ b2 640 ++ b2 16 ++ b2 96 ++ b2 48 ++ b2 480 ++ b2 10 ++ b2 2 ++ b2 33 ++ b2 0 ++ [4, 2]
/-- A DMA engine image of one bundle, unsigned (its digest is not checked here). -/
def image1 : List Byte := b4 0x7FA50C01 ++ b2 1 ++ b2 0 ++ b4 8 ++ zeros 12 ++ List.replicate 32 0xFF ++ zeros 80
/-- A KEY_EXCHANGE packet of session 0. -/
def kxPk : List Byte := b2 0xB150 ++ [1, 0] ++ zeros 8 ++ b2 0x0F03 ++ zeros 10
def peer0 : Peer := ⟨0, 0, 0, false, 0, 0⟩


-- Witnesses: for every statement with hypotheses, a state and operands that meet them, clause by clause.

/-- The hypotheses of StepRunsFrontCommand can be met. -/
theorem witness_StepRunsFrontCommand :
    (∃ (c : Instr) (rest : List Instr) (s : State), s.pending = c :: rest) :=
  ⟨.beatMark 0, [], { runS with pending := [.beatMark 0] }, by decide⟩

/-- The hypotheses of EmptyQueueIdles can be met. -/
theorem witness_EmptyQueueIdles :
    (∃ (s : State), s.pending = []) :=
  ⟨runS, by decide⟩

/-- The hypotheses of StepKeepsCanonicalTables can be met. -/
theorem witness_StepKeepsCanonicalTables :
    (∃ (s t : State), s.canonical ∧ step s = .next t) :=
  ⟨State.reset, State.reset, ⟨by decide, by decide, by decide, by decide, by decide, by decide, by decide, by decide, by decide, by decide⟩, rfl⟩

/-- The hypotheses of StepBurnsFusesOneWay can be met. -/
theorem witness_StepBurnsFusesOneWay :
    (∃ (s t : State), s.canonical ∧ step s = .next t) :=
  ⟨State.reset, State.reset, ⟨by decide, by decide, by decide, by decide, by decide, by decide, by decide, by decide, by decide, by decide⟩, rfl⟩

/-- The hypotheses of EveryCommandAnswersAndKeepsTheQueue can be met. -/
theorem witness_EveryCommandAnswersAndKeepsTheQueue :
    (∃ (s : State), s.canonical) :=
  ⟨State.reset, ⟨by decide, by decide, by decide, by decide, by decide, by decide, by decide, by decide, by decide, by decide⟩⟩

/-- The hypotheses of OnlyTheNamedCommandsTouchMemory can be met. -/
theorem witness_OnlyTheNamedCommandsTouchMemory :
    (∃ (c : Instr) (s t : State), s.canonical ∧ exec c s = .next t ∧ storesHbm c = false ∧ storesSram c = false ∧ storesFlash c = false ∧ storesSlcRam c = false ∧ storesMsix c = false ∧ changesLocks c = false ∧ changesActive c = false ∧ storesMbx c = false) :=
  ⟨.glbSwevtWrite .host 511, State.reset, State.reset, ⟨by decide, by decide, by decide, by decide, by decide, by decide, by decide, by decide, by decide, by decide⟩, rfl, by decide⟩

/-- The hypotheses of FirstFailingCheckDecides can be met. -/
theorem witness_FirstFailingCheckDecides :
    (∃ (s : State) (op : Nat) (q : Req) (st : Nat), gate s op q true = some st) ∧
    (∃ (s : State) (op : Nat) (q : Req) (lenOk : Bool) (checks a b : List (Bool × Nat)) (st : Nat), gate s op q lenOk = none ∧ checks = a ++ (true, st) :: b ∧ (∀ c ∈ a, c.1 = false)) ∧
    (∃ (s : State) (op : Nat) (q : Req) (checks : List (Bool × Nat)), gate s op q true = none ∧ (∀ c ∈ checks, c.1 = false)) :=
  ⟨⟨State.reset, 0x0100, rq [], ST_STATE, by decide⟩,
    ⟨runS, 0, rq [], true, [(false, ST_BUSY), (true, ST_STATE)], [(false, ST_BUSY)], [], ST_STATE, by decide⟩,
    ⟨runS, 0, rq [], [(false, ST_BUSY)], by decide⟩⟩

/-- The hypotheses of EveryBisorCommandPassesTheGate can be met. -/
theorem witness_EveryBisorCommandPassesTheGate :
    (∃ (i : Instr) (op : Nat) (q : Req) (s : State) (st : Nat), requestOf i = some (op, q) ∧ gate (arrivalOf i s) op q true = some st) :=
  ⟨.commitStatus (rq []), 0x0101, rq [], State.reset, ST_STATE, by decide⟩

/-- The hypotheses of QueryCommandsOnlyReply can be met. -/
theorem witness_QueryCommandsOnlyReply :
    (∃ (i : Instr) (op : Nat) (q : Req), isQuery i = true ∧ requestOf i = some (op, q)) :=
  ⟨.pthStatus (rq []), 0x0302, rq [], by decide⟩

/-- The hypotheses of ReplyLandsInItsMailbox can be met. -/
theorem witness_ReplyLandsInItsMailbox :
    (∃ (s : State) (op n : Nat) (q : Req) (payload : List Byte), q.src = .mailbox n ∧ q.epoch = hostEpoch s ∧ (replyPacket s op q (decide (0 < q.session)) payload).length < 65536) ∧
    (∃ (s : State) (n : Nat) (q : Req), q.src = .mailbox n ∧ q.epoch ≠ hostEpoch s) :=
  ⟨⟨runS, 0, 0, rq [], [], by decide⟩,
    ⟨stR [(MBX_EPOCH, 1)], 0, rq [], by decide⟩⟩

/-- The hypotheses of LockReadAcquires can be met. -/
theorem witness_LockReadAcquires :
    (∃ (s : State) (n : Nat) (m : Master), n < 256 ∧ (m = .host → s.pci.d3 = false) ∧ m ≠ .other ∧ lockOwner s n = none) ∧
    (∃ (s : State) (n : Nat) (m : Master) (o : Nat), n < 256 ∧ (m = .host → s.pci.d3 = false) ∧ m ≠ .other ∧ lockOwner s n = some o) ∧
    (∃ (s : State) (n : Nat) (m : Master), n < 256 ∧ (m = .host → s.pci.d3 = false) ∧ m = .other) :=
  ⟨⟨runS, 255, .host, by decide⟩,
    ⟨setLock runS 40 (some 28), 40, .ppe 3, 28, by decide⟩,
    ⟨runS, 0, .other, by decide⟩⟩

/-- The hypotheses of LockReleaseByItsOwner can be met. -/
theorem witness_LockReleaseByItsOwner :
    (∃ (s : State) (n : Nat) (m : Master) (v : Word), n < 256 ∧ m ≠ .other ∧ (m = .host → s.pci.d3 = false) ∧ lockOwner s n = some (masterId m) ∧ fld v 6 0 = masterId m) ∧
    (∃ (s : State) (n : Nat) (m : Master) (v : Word), n < 256 ∧ m ≠ .other ∧ (m = .host → s.pci.d3 = false) ∧ (lockOwner s n ≠ some (masterId m) ∨ fld v 6 0 ≠ masterId m)) :=
  ⟨⟨setLock runS 40 (some 28), 40, .ppe 12, 28, by decide⟩,
    ⟨setLock runS 40 (some 28), 40, .ppe 12, 19, by decide⟩⟩

/-- The hypotheses of LowestReaderWinsALock can be met. -/
theorem witness_LowestReaderWinsALock :
    (∃ (s : State) (n : Nat) (ms : List Master), n < 256 ∧ s.pci.d3 = false ∧ lockOwner s n = none ∧ (∃ m ∈ ms, m ≠ .other)) :=
  ⟨runS, 40, [.ppe 3, .host], by decide⟩

/-- The hypotheses of DoorbellTakenOrRefused can be met. -/
theorem witness_DoorbellTakenOrRefused :
    (∃ (s : State) (n : Nat) (v : Word), n < 8 ∧ s.pci.d3 = false ∧ fwReady s = true ∧ hcFull s n = false ∧ 24 ≤ fld v 12 0 ∧ fld v 12 0 ≤ 4096) ∧
    (∃ (s : State) (n : Nat) (v : Word), n < 8 ∧ s.pci.d3 = false ∧ fwReady s = true ∧ (hcFull s n = true ∨ fld v 12 0 < 24 ∨ 4096 < fld v 12 0) ∧ s.rb (FLT_RAILBAD 7) 4 = false) :=
  ⟨⟨stR [(MBX_STAT, 0x80000000)], 7, 24, by decide⟩,
    ⟨stR [(MBX_STAT, 0x80000000)], 0, 4097, by decide⟩⟩

/-- The hypotheses of AcknowledgeEmptiesTheReplyMailbox can be met. -/
theorem witness_AcknowledgeEmptiesTheReplyMailbox :
    (∃ (s : State) (n : Nat), n < 8 ∧ s.pci.d3 = false) :=
  ⟨runS, 7, by decide⟩

/-- The hypotheses of ShadowWriteReachesOnlyTheShadow can be met. -/
theorem witness_ShadowWriteReachesOnlyTheShadow :
    (∃ (s : State) (m : Master) (a : Nat) (r : RegRow) (l : List Nat) (g : Nat), regAt a = some (r, l) ∧ groupOf a = some g ∧ addrAbsent s a = false ∧ (m = .host → s.pci.d3 = false) ∧ groupLocked s g = false) ∧
    (∃ (s : State) (m : Master) (a : Nat) (r : RegRow) (l : List Nat) (g : Nat), regAt a = some (r, l) ∧ groupOf a = some g ∧ addrAbsent s a = false ∧ groupLocked s g = true ∧ m ≠ .host) ∧
    (∃ (s : State) (m : Master) (a : Nat) (r : RegRow) (l : List Nat) (g : Nat), regAt a = some (r, l) ∧ groupOf a = some g ∧ addrAbsent s a = false ∧ (m = .host → s.pci.d3 = false) ∧ groupLocked s g = true ∧ m = .host ∧ s.rb (FLT_RAILBAD 7) 5 = false) :=
  ⟨⟨runS, .host, PTH_CTRL 0, _, _, 0, rfl, by decide⟩,
    ⟨{ runS with locked := [31] }, .ppe 0, PTH_CTRL 31, _, _, 31, rfl, by decide⟩,
    ⟨{ runS with locked := [31] }, .host, PTH_CTRL 31, _, _, 31, rfl, by decide⟩⟩

/-- The hypotheses of StreamSetWritesTheShadowOnly can be met. -/
theorem witness_StreamSetWritesTheShadowOnly :
    (∃ (s : State) (q : Req), gate s 0x0800 q (q.params.length == 68) = none ∧ u16 q.params 0 < 256 ∧ zeroAt q.params 2 2 = true ∧ groupLocked s 53 = false) ∧
    (∃ (s : State) (q : Req), gate s 0x0800 q (q.params.length == 68) = none ∧ u16 q.params 0 < 256 ∧ zeroAt q.params 2 2 = true ∧ groupLocked s 53 = true) :=
  ⟨⟨runS, rq (255 :: zeros 67), by decide⟩,
    ⟨{ runS with locked := [53] }, rq (zeros 68), by decide⟩⟩

/-- The hypotheses of MemoryReadsWhatWasWritten can be met. -/
theorem witness_MemoryReadsWhatWasWritten :
    (∃ (m : List Host.Cell), Memory.wf m = true) :=
  ⟨[(1, 2), (5, 7)], by decide⟩

/-- The hypotheses of Bar2MapsHbm can be met. -/
theorem witness_Bar2MapsHbm :
    (∃ (s : State) (x n : Nat) (b : List Byte), s.pci.d3 = false ∧ memReady s = true ∧ x + n ≤ 48 * 2 ^ 30 ∧ inFirmware (0x1000000000 + x) n = false ∧ failedIn s (0x1000000000 + x) n = false ∧ b.length = n ∧ s.mem.excluded = [] ∧ s.mem.poison = []) ∧
    (∃ (s : State) (x n : Nat) (b : List Byte), s.pci.d3 = false ∧ memReady s = true ∧ x + n ≤ 48 * 2 ^ 30 ∧ inFirmware (0x1000000000 + x) n = false ∧ failedIn s (0x1000000000 + x) n = false ∧ b.length = n ∧ s.mem.excluded = [] ∧ x % 8 = 0 ∧ n % 8 = 0) ∧
    (∃ (s : State) (x n : Nat), s.pci.d3 = false ∧ memReady s = true ∧ x + n ≤ 48 * 2 ^ 30 ∧ failedIn s (0x1000000000 + x) n = true) ∧
    (∃ (s : State) (x n : Nat), s.pci.d3 = false ∧ 48 * 2 ^ 30 ≤ x ∧ 0 < n) :=
  ⟨⟨stR [(MEM_STAT, 1)], 48 * 2 ^ 30 - 4, 4, [1, 2, 3, 4], by decide⟩,
    ⟨stR [(MEM_STAT, 1)], 48 * 2 ^ 30 - 8, 8, [1, 2, 3, 4, 5, 6, 7, 8], by decide⟩,
    ⟨stR [(MEM_STAT, 1), (MEM_PCSTAT 0, 0xC0000000)], 0, 8, by decide⟩,
    ⟨runS, 48 * 2 ^ 30, 1, by decide⟩⟩

/-- The hypotheses of DmaSramWriteStoresItsBytes can be met. -/
theorem witness_DmaSramWriteStoresItsBytes :
    (∃ (s : State) (q : Req), gate s 0x0913 q (decide (4 ≤ q.params.length ∧ q.params.length ≤ 4072)) = none ∧ u32 q.params 0 + (q.params.length - 4) ≤ 0x80000) ∧
    (∃ (s : State) (q : Req), gate s 0x0913 q (decide (4 ≤ q.params.length ∧ q.params.length ≤ 4072)) = none ∧ 0x80000 < u32 q.params 0 + (q.params.length - 4)) :=
  ⟨⟨runS, rq (b4 0x7FFFE ++ [1, 2]), by decide⟩,
    ⟨runS, rq (b4 0x7FFFE ++ [1, 2, 3]), by decide⟩⟩

/-- The hypotheses of MaskedVectorIsHeldOnce can be met. -/
theorem witness_MaskedVectorIsHeldOnce :
    (∃ (s : State) (v : Nat), vectorMasked s v = true) ∧
    (∃ (s : State) (v : Nat), vectorMasked s v = false) ∧
    (∃ (s : State) (v : Nat), v < 2048 ∧ s.pci.d3 = true) ∧
    (∃ (s : State) (v : Nat), v < 2048 ∧ s.pci.d3 = false ∧ s.pba = [v] ∧ s.pci.msixEn = true ∧ s.pci.fmask = false) :=
  ⟨⟨State.reset, 0, by decide⟩,
    ⟨{ runS with pci := { runS.pci with msixEn := true, fmask := false }, msix := [(12, 0)] }, 0, by decide⟩,
    ⟨{ runS with pci := { runS.pci with d3 := true } }, 2047, by decide⟩,
    ⟨{ runS with pba := [319], pci := { runS.pci with msixEn := true, fmask := false } }, 319, by decide⟩⟩

/-- The hypotheses of RateChangeKeepsTime can be met. -/
theorem witness_RateChangeKeepsTime :
    (∃ (s : State) (b : List Byte), servo s = SV_FREE ∧ b.length = 4) :=
  ⟨runS, [1, 2, 3, 4], by decide⟩

/-- The hypotheses of FatalLatchRefusesRun can be met. -/
theorem witness_FatalLatchRefusesRun :
    (∃ (s : State) (q : Req), gate s 0x0E00 q (q.params.length == 16) = none ∧ (pwrChecks s q).head? = some (false, ST_BAD_PARAM) ∧ u8 q.params 0 ≤ 1 ∧ s.rb FLT_FATALSRC 31 = true) :=
  ⟨stR [(FLT_FATALSRC, 0x80000000)], rq (zeros 16), by decide⟩

/-- The hypotheses of FaultReportIsRecorded can be met. -/
theorem witness_FaultReportIsRecorded :
    (∃ (s : State) (src : Nat), src < 256 ∧ srcReserved src = false ∧ srcAbsent s src = false ∧ s.rb (FLT_RAILBAD (src / 32)) (src % 32) = false ∧ 128 ≤ srcCfg s src) ∧
    (∃ (s : State) (src : Nat), src < 256 ∧ (srcReserved src = true ∨ srcAbsent s src = true ∨ s.rb (FLT_RAILBAD (src / 32)) (src % 32) = true)) :=
  ⟨⟨runS, 228, by decide⟩,
    ⟨runS, 255, by decide⟩⟩

/-- The hypotheses of StickyWriteClearsNamedBits can be met. -/
theorem witness_StickyWriteClearsNamedBits :
    (∃ (n : Nat), n < 8) :=
  ⟨7, by decide⟩

/-- The hypotheses of RollbackCommitBurnsToRunningSvn can be met. -/
theorem witness_RollbackCommitBurnsToRunningSvn :
    (∃ (s : State) (q : Req), gate s 0x0F07 q (q.params.length == 0) = none ∧ updating s = false ∧ s.fuses.svn ≤ 64 ∧ s.fwSvn ≤ s.fuses.svn) :=
  ⟨runS, rq [], by decide⟩

/-- The hypotheses of KeyCloseEndsTheSession can be met. -/
theorem witness_KeyCloseEndsTheSession :
    (∃ (s : State) (q : Req), gate s 0x0F04 q (q.params.length == 0) = none ∧ q.session = 0) ∧
    (∃ (s : State) (q : Req), gate s 0x0F04 q (q.params.length == 0) = none ∧ q.session ≠ 0) :=
  ⟨⟨runS, rq [], by decide⟩,
    ⟨runS, { rq [] with session := 16 }, by decide⟩⟩

/-- The hypotheses of EngineRegisterZeroAndReservedSpecials can be met. -/
theorem witness_EngineRegisterZeroAndReservedSpecials :
    (∃ (w : PpeWr), w.key = 0) ∧
    (∃ (w : PpeWr), w.key < 256 ∧ w.key % 128 ≠ 0) :=
  ⟨⟨⟨1, false, 0, 1⟩, by decide⟩,
    ⟨⟨1, false, 255, 1⟩, by decide⟩⟩

/-- The hypotheses of FirmwareOwnedChannelIgnoresOthers can be met. -/
theorem witness_FirmwareOwnedChannelIgnoresOthers :
    (∃ (s : State) (m : Master) (n : Nat) (b : List Byte), n < 128 ∧ b.length = 4 ∧ (m = .host → s.pci.d3 = false) ∧ isMgmt m = false ∧ s.rb (DMA_CTRL n) 7 = true) ∧
    (∃ (s : State) (m : Master) (n : Nat) (b : List Byte), n < 128 ∧ b.length = 4 ∧ (m = .host → s.pci.d3 = false) ∧ chanRuns s n = true) :=
  ⟨⟨stR [(DMA_CTRL 127, 0x80)], .host, 127, [1, 0, 0, 0], by decide⟩,
    ⟨stR [(DMA_STAT 127, 0x40000000)], .host, 127, [1, 2, 3, 4], by decide⟩⟩

/-- The hypotheses of SoftwareEventsBelow512AreIgnored can be met. -/
theorem witness_SoftwareEventsBelow512AreIgnored :
    (∃ (s : State) (m : Master) (v : Word), (m = .host → s.pci.d3 = false) ∧ fld v 9 0 < 512) ∧
    (∃ (s : State) (m : Master) (v : Word), (m = .host → s.pci.d3 = false) ∧ 512 ≤ fld v 9 0) :=
  ⟨⟨runS, .host, 511, by decide⟩,
    ⟨runS, .host, 512, by decide⟩⟩

/-- The hypotheses of BeatMarkFires can be met. -/
theorem witness_BeatMarkFires :
    (∃ (s : State) (n : Nat), n < 8 ∧ fclkRuns s = true ∧ s.rb (GLB_MARK n) 31 = true ∧ s.beat % 2 ^ s.rf (GLB_MARK n) 28 24 = s.rf (GLB_MARK n) 23 0) ∧
    (∃ (s : State) (n : Nat), n < 8 ∧ (s.rb (GLB_MARK n) 31 = false ∨ s.beat % 2 ^ s.rf (GLB_MARK n) 28 24 ≠ s.rf (GLB_MARK n) 23 0)) ∧
    (∃ (s : State) (n : Nat) (m : Master) (b : List Byte), n < 8 ∧ b.length = 4 ∧ (m = .host → s.pci.d3 = false) ∧ 2 ^ fld (w32 (u32 b 0)) 28 24 ≤ fld (w32 (u32 b 0)) 23 0) ∧
    (∃ (s : State) (n : Nat) (m : Master) (b : List Byte), n < 8 ∧ b.length = 4 ∧ (m = .host → s.pci.d3 = false) ∧ fld (w32 (u32 b 0)) 28 24 ≤ 24 ∧ fld (w32 (u32 b 0)) 23 0 < 2 ^ fld (w32 (u32 b 0)) 28 24) :=
  ⟨⟨clkS [(GLB_MARK 7, 0x83000000)], 7, by decide⟩,
    ⟨clkS [(GLB_MARK 7, 0x83000001)], 7, by decide⟩,
    ⟨runS, 0, .host, b4 0x83000008, by decide⟩,
    ⟨runS, 0, .host, b4 0x83000007, by decide⟩⟩

/-- The hypotheses of AcceptedSequenceIsRefusedAgain can be met. -/
theorem witness_AcceptedSequenceIsRefusedAgain :
    (∃ (w w' : Session) (n : Nat), n < 2 ^ 32 ∧ w.high < 2 ^ 32 ∧ replayStep w n = some w') ∧
    (∃ (w : Session) (n : Nat), n < 2 ^ 32 ∧ w.high < 2 ^ 32 ∧ w.empty = false ∧ 1023 < (w.high + 2 ^ 32 - n) % 2 ^ 32 ∧ 2 ^ 31 ≤ (n + 2 ^ 32 - w.high) % 2 ^ 32) :=
  ⟨⟨⟨0, 0, true, 0, 0, 0⟩, ⟨0, 0, false, 7, 1, 0⟩, 7, by decide⟩,
    ⟨⟨0, 0, false, 5000, 1, 0⟩, 3976, by decide⟩⟩

/-- The hypotheses of DeviceCommitAndBeatCommandsComplete can be met. -/
theorem witness_DeviceCommitAndBeatCommandsComplete_1 :
    (∃ (s : State) (q : Req),
      accepted s 0x0000 q (decide (q.params.length ≤ 4068)) [] = true) ∧
    (∃ (s : State) (q : Req),
      accepted s 0x0001 q (q.params.length == 0) [] = true) ∧
    (∃ (s : State) (q : Req),
      let p := q.params
      accepted s 0x0002 q (p.length == 8) [(decide (2 ^ 20 ≤ u32 p 0) || decide (2 ≤ u32 p 4), ST_BAD_PARAM)] = true) ∧
    (∃ (s : State) (q : Req),
      accepted s 0x0003 q (q.params.length == 0) [] = true) ∧
    (∃ (s : State) (q : Req),
      let n := u16 q.params 0
      accepted s 0x0004 q (q.params.length == 4) [(decide (256 ≤ n) || !zeroAt q.params 2 2, ST_BAD_PARAM)] = true) ∧
    (∃ (s : State) (q : Req) (w : At),
      let s' := arrive s w
      let p := q.params
      accepted s' 0x0100 q (p.length == 24) (commitChecks s' p) = true ∧
      (commitTrial s' p).excess = none) ∧
    (∃ (s : State) (q : Req) (t : Ticket) (e : Nat),
      accepted s 0x0101 q (q.params.length == 4) [((findTicket s (u32 q.params 0)).isNone, ST_BAD_PARAM)] = true ∧
      findTicket s (u32 q.params 0) = some (t, e)) ∧
    (∃ (s : State) (q : Req) (w : At) (t : Ticket),
      let s' := arrive s w
      accepted s' 0x0102 q (q.params.length == 4) [((findTicket s' (u32 q.params 0)).isNone, ST_BAD_PARAM)] = true ∧
      findTicket s' (u32 q.params 0) = some (t, 3) ∧
      cancelLate s' t = false) ∧
    (∃ (s : State) (q : Req),
      let p := q.params
      let o := applyTickets s (activeCfg s) s.tickets
      accepted s 0x0103 q (p.length == 16) (budgetChecks s p) = true) ∧
    (∃ (s : State) (q : Req) (w : At),
      let s' := arrive s w
      accepted s' 0x0104 q (q.params.length == 24) (profileChecks s' q.params) = true ∧
      (profTrial s' q.params).excess = none) :=
  ⟨⟨runS, rq [], by decide⟩,
    ⟨runS, rq [], by decide⟩,
    ⟨runS, rq (zeros 8), by decide⟩,
    ⟨runS, rq [], by decide⟩,
    ⟨runS, rq (zeros 4), by decide⟩,
    ⟨runS, rq (b8 1 ++ zeros 16), ⟨0, 0⟩, by decide⟩,
    ⟨{ runS with tickets := [tick1] }, rq [1, 0, 0, 0], tick1, 3, by decide⟩,
    ⟨{ clkS [] with tickets := [tick1] }, rq [1, 0, 0, 0], ⟨0, 0⟩, tick1, by decide⟩,
    ⟨runS, rq (zeros 16), by decide⟩,
    ⟨runS, rq (zeros 24), ⟨0, 0⟩, by decide⟩⟩

/-- The hypotheses of DeviceCommitAndBeatCommandsComplete can be met. -/
theorem witness_DeviceCommitAndBeatCommandsComplete_2 :
    (∃ (s : State) (q : Req),
      accepted s 0x0105 q (q.params.length == 0) [] = true) ∧
    (∃ (s : State) (q : Req) (group : Nat) (word : Nat),
      accepted s 0x0106 q true [(groupAbsent s group, ST_UNIT_ABSENT), (decide (55 < group) || decide ((groupWords s group).length ≤ word), ST_BAD_PARAM)] = true) ∧
    (∃ (s : State) (q : Req) (w : At),
      let s' := arrive s w
      accepted s' 0x0200 q (q.params.length == 16) (divideChecks s' q.params) = true) ∧
    (∃ (s : State) (r : Restart),
      s.restart = some r ∧
      restartStopDue s r = true) ∧
    (∃ (s : State) (r : Restart),
      s.restart = some r ∧
      restartReady s r = true) ∧
    (∃ (s : State) (n : Nat),
      (n < 8 ∧ markDue s n)) ∧
    (∃ (s : State) (rising : Bool) (b : BeatInput),
      s.rb CLK_SYNC 31 = true ∧
      rising ≠ s.rb CLK_SYNC 29) :=
  ⟨⟨runS, rq [], by decide⟩,
    ⟨runS, rq [], 0, 0, by decide⟩,
    ⟨runS, rq (1 :: zeros 15), ⟨0, 0⟩, by decide⟩,
    ⟨{ clkS [] with restart := some rst1 }, rst1, by decide⟩,
    ⟨{ clkS [] with restart := some { rst1 with stopped := true } }, { rst1 with stopped := true }, by decide⟩,
    ⟨clkS [(GLB_MARK 0, 0x80000000)], 0, by decide⟩,
    ⟨stR [(CLK_SYNC, 0x80000000)], true, ⟨0, 0, [], [], 0, 0⟩, by decide⟩⟩

/-- The hypotheses of ConverterCommandsComplete can be met. -/
theorem witness_ConverterCommandsComplete_1 :
    (∃ (s : State) (q : Req),
      accepted s 0x0201 q (q.params.length == 4) (calFgChecks s q.params) = true) ∧
    (∃ (s : State) (quad : Nat) (r : List FgCore),
      (fgRunning s quad ∧ quad < 4)) ∧
    (∃ (s : State) (q : Req),
      accepted s 0x0202 q (q.params.length == 0) [] = true) ∧
    (∃ (s : State) (q : Req),
      accepted s 0x0203 q (q.params.length == 4) [((calQuads q.params).any (fun k => !quadPresent s k), ST_UNIT_ABSENT), (calParamBad q.params, ST_BAD_PARAM)] = true) ∧
    (∃ (s : State) (q : Req),
      let v := w32 (u32 q.params 4)
      let l := bitList 32 (u32 q.params 0)
      accepted s 0x0204 q (q.params.length == 8) [(l.any (fun n => !corePresent s n), ST_UNIT_ABSENT), (bgcalBad v || v &&& ~~~0xFFB#32 != 0, ST_BAD_PARAM)] = true) ∧
    (∃ (s : State) (q : Req),
      let n := u16 q.params 0
      accepted s 0x0205 q (q.params.length == 4) [(decide (n < 32) && !corePresent s n, ST_UNIT_ABSENT), (decide (32 ≤ n) || !zeroAt q.params 2 2, ST_BAD_PARAM)] = true) ∧
    (∃ (s : State) (m : Master) (core : Nat) (v : Word),
      (m = .host → s.pci.d3 = false) ∧
      core < 32 ∧
      corePresent s core = true ∧
      bgcalBad v = false) ∧
    (∃ (s : State) (core : Nat) (e : BgEst),
      (corePresent s core ∧ core < 32 ∧ (s.core core).ivlEnd)) ∧
    (∃ (s : State) (m : Master) (core : Nat) (v : Word),
      (m = .host → s.pci.d3 = false) ∧
      (core < 32 ∧ corePresent s core)) ∧
    (∃ (s : State) (core : Nat),
      let c := s.core core
      (c.waking ∧ !s.rb (CNV_CTRL core) 0 ∧ !fgRunning s (core / 8))) :=
  ⟨⟨runS, rq [1, 0, 0, 0], by decide⟩,
    ⟨{ runS with fgStart := [(0, 1)] }, 0, [], by decide⟩,
    ⟨runS, rq [], by decide⟩,
    ⟨runS, rq (zeros 4), by decide⟩,
    ⟨runS, rq ([1, 0, 0, 0] ++ b4 0x60), by decide⟩,
    ⟨runS, rq (zeros 4), by decide⟩,
    ⟨runS, .host, 0, 0x60, by decide⟩,
    ⟨{ runS with cores := [(0, { ivlEnd := true })] }, 0, ⟨0, []⟩, by decide⟩,
    ⟨runS, .host, 0, 0, by decide⟩,
    ⟨{ runS with cores := [(0, { waking := true })] }, 0, by decide⟩⟩

/-- The hypotheses of ConverterCommandsComplete can be met. -/
theorem witness_ConverterCommandsComplete_2 :
    (∃ (s : State) (core : Nat) (cyc : Nat) (ovd : Bool),
      (corePresent s core ∧ core < 32 ∧ !(s.core core).down ∧ !fgRunning s (core / 8))) ∧
    (∃ (s : State) (core : Nat) (s1 : Int),
      ((s.core core).ep)) :=
  ⟨⟨runS, 0, 0, false, by decide⟩,
    ⟨{ runS with cores := [(0, { ep := true })] }, 0, 0, by decide⟩⟩

/-- The hypotheses of PathAndSliceCommandsComplete can be met. -/
theorem witness_PathAndSliceCommandsComplete_1 :
    (∃ (s : State) (q : Req),
      accepted s 0x0300 q (q.params.length == 36) (pthConfigChecks s q.params) = true) ∧
    (∃ (s : State) (q : Req),
      let p := q.params
      let h := coeffs p 8 (u16 p 4)
      accepted s 0x0301 q (p.length == 8 + 4 * u16 p 4) (firChecks s p) = true) ∧
    (∃ (s : State) (q : Req),
      let n := u16 q.params 0
      accepted s 0x0302 q (q.params.length == 4) [(decide (n < 32) && !corePresent s n, ST_UNIT_ABSENT), (decide (32 ≤ n) || !zeroAt q.params 2 2, ST_BAD_PARAM)] = true) ∧
    (∃ (s : State) (path : Nat) (b : Nat) (x : Nat),
      path < 32 ∧
      (s.path path).fade = none ∧
      (s.path path).queued = some (b, x) ∧
      b ≠ (s.path path).bankNow) ∧
    (∃ (s : State) (path : Nat) (f : Fade),
      path < 32 ∧
      (s.path path).fade = some f ∧
      f.left = 0) ∧
    (∃ (s : State) (path : Nat),
      let p := s.path path
      (p.fineDue)) ∧
    (∃ (s : State) (q : Req),
      let p := q.params
      let k := u16 p 0
      accepted s 0x0400 q (p.length == 52) [(decide (k < 16) && !slicePresent s k, ST_UNIT_ABSENT),
         (decide (16 ≤ k) || decide (2 ≤ u8 p 2) || !zeroAt p 3 1 || reservedSet p 4 laneRegMasks, ST_BAD_PARAM),
         (groupLocked s (32 + k), ST_BUSY)] = true) ∧
    (∃ (s : State) (q : Req),
      let ok := decide (16 ≤ q.params.length) && q.params.length == 16 + 4 * u16 q.params 12
      accepted (if ok then winInvalid s q else s) 0x0401 q ok (windowChecks s q) = true) ∧
    (∃ (s : State) (slice : Nat) (bank : Nat) (x : WinLoad),
      slice < 16 ∧
      bank < 2 ∧
      winLoad s slice bank = some x) ∧
    (∃ (s : State) (q : Req),
      let p := q.params
      let k := u16 p 0
      let key := laneKey k (u8 p 2)
      accepted s 0x0402 q (p.length == 4) [(decide (k < 16) && !slicePresent s k, ST_UNIT_ABSENT),
         (decide (16 ≤ k ∨ 2 ≤ u8 p 2 ∨ 16 ≤ u8 p 3), ST_BAD_PARAM)] = true) :=
  ⟨⟨runS, rq (zeros 36), by decide⟩,
    ⟨runS, rq ([0, 0, 1, 0, 1, 0, 0, 0] ++ b4 1), by decide⟩,
    ⟨runS, rq (zeros 4), by decide⟩,
    ⟨{ runS with paths := [(0, { queued := some (1, 4) })] }, 0, 1, 4, by decide⟩,
    ⟨{ runS with paths := [(0, { fade := some ⟨0, 1, 4, 0⟩ })] }, 0, ⟨0, 1, 4, 0⟩, by decide⟩,
    ⟨{ runS with paths := [(0, { fineDue := true })] }, 0, by decide⟩,
    ⟨runS, rq (zeros 52), by decide⟩,
    ⟨runS, rq ([0, 0, 0, 1, 9, 0, 0, 0] ++ zeros 4 ++ [1, 0, 0, 0] ++ zeros 4), by decide⟩,
    ⟨{ runS with winLoads := [(0, some ⟨.mailbox 0, 0, 9, []⟩)] }, 0, 0, ⟨.mailbox 0, 0, 9, []⟩, by decide⟩,
    ⟨runS, rq (zeros 4), by decide⟩⟩

/-- The hypotheses of PathAndSliceCommandsComplete can be met. -/
theorem witness_PathAndSliceCommandsComplete_2 :
    (∃ (s : State) (slice : Nat) (lane : Nat) (traces : Nat),
      let key := laneKey slice lane
      let get := fun (k : Nat) => Sparse.get (fun _ => 0) s.traceClr k
      let put := fun (l : List (Nat × Nat)) (k v : Nat) => Sparse.set (fun _ => 0) l k v
      let due := get key &&& traces
      (¬(due = 0 ∨ 16 ≤ slice ∨ 2 ≤ lane))) ∧
    (∃ (s : State) (q : Req),
      let k := u16 q.params 0
      accepted s 0x0403 q (q.params.length == 4) [(decide (k < 16) && !slicePresent s k, ST_UNIT_ABSENT), (decide (16 ≤ k) || !zeroAt q.params 2 2, ST_BAD_PARAM)] = true) :=
  ⟨⟨{ runS with traceClr := [(0, 3)] }, 0, 0, 1, by decide⟩,
    ⟨runS, rq (zeros 4), by decide⟩⟩

/-- The hypotheses of DensityAndCorrelationCommandsComplete can be met. -/
theorem witness_DensityAndCorrelationCommandsComplete_1 :
    (∃ (s : State) (q : Req),
      accepted s 0x0500 q (q.params.length == 16) [(reservedSet q.params 0 [0xFFFF, 0xFFFFF000, 0xFF, 0x1FF], ST_BAD_PARAM), (groupLocked s 48, ST_BUSY)] = true) ∧
    (∃ (s : State) (q : Req),
      let p := u16 q.params 0
      accepted s 0x0501 q (q.params.length == 12) [(decide (p < 32) && !corePresent s p, ST_UNIT_ABSENT),
         (decide (32 ≤ p) || !zeroAt q.params 2 2 || reservedSet q.params 4 [0xFFFFFFF1, 0xFFFFFFFF], ST_BAD_PARAM), (groupLocked s 48, ST_BUSY)] = true) ∧
    (∃ (s : State) (q : Req),
      let n := u16 q.params 0
      accepted s 0x0502 q (q.params.length == 12) [(decide (16 ≤ n) || !zeroAt q.params 2 2 || reservedSet q.params 4 [0x9F0FFFFF, 0xFFFF], ST_BAD_PARAM), (groupLocked s 48, ST_BUSY)] = true) ∧
    (∃ (s : State) (q : Req),
      accepted s 0x0503 q (q.params.length == 52) [(!corrPresent s, ST_UNIT_ABSENT),
         (reservedSet q.params 0 ([0xF0001, 0x1FFFFFF, 0xFFFFF000, 0xFF, 0x1FF] ++ List.replicate 8 0xFFFFFFFF), ST_BAD_PARAM), (groupLocked s 49, ST_BUSY)] = true) ∧
    (∃ (s : State) (q : Req),
      accepted s 0x0504 q (q.params.length == 0) [] = true) ∧
    (∃ (s : State),
      let fp := s.af DEN_CTRL 15 0
      (fclkRuns s ∧ fp ≠ 0 ∧ s.beat % fp = 0 ∧ !s.denMarks.contains 0)) ∧
    (∃ (s : State) (f : Flush) (t : List Flush),
      let f' := { f with
        modes := f.paths.map (fun p => (p, s.rdA (DEN_PCFG p))), slots := f.paths.map (fun p => (p, denSlot s p)), start := s.beat }
      s.denRun = none ∧
      s.denWait = f :: t ∧
      f.due = true) ∧
    (∃ (s : State) (spans : List (Nat × Nat)) (f : Flush),
      s.denRun = some f) ∧
    (∃ (s : State) (c : CorrSt),
      s.corr = some c ∧
      s.ab CORR_CTRL 0 = false) ∧
    (∃ (s : State) (c : CorrSt),
      let per := fld (nth 0 c.cfg 1) 24 0
      s.corr = some c ∧
      c.ended = none ∧
      c.age ≠ 0 ∧
      s.ab CORR_CTRL 0 = true ∧
      per ≠ 0 ∧
      s.beat % per = 0 ∧
      (c.late && s.corrDump.isSome) = false) :=
  ⟨⟨runS, rq (zeros 16), by decide⟩,
    ⟨runS, rq (zeros 12), by decide⟩,
    ⟨runS, rq (zeros 12), by decide⟩,
    ⟨runS, rq (zeros 52), by decide⟩,
    ⟨runS, rq [], by decide⟩,
    ⟨{ inForce (clkS []) [(DEN_CTRL, 10)] with running := true, den := [(0, { on := true })] }, by decide⟩,
    ⟨{ clkS [] with denWait := [fl1] }, fl1, [], by decide⟩,
    ⟨{ runS with denRun := some fl1 }, [], fl1, by decide⟩,
    ⟨{ clkS [] with corr := some {} }, {}, by decide⟩,
    ⟨{ inForce (clkS []) [(CORR_CTRL, 1)] with corr := some { age := 2, cfg := [1, 10] } }, { age := 2, cfg := [1, 10] }, by decide⟩⟩

/-- The hypotheses of DensityAndCorrelationCommandsComplete can be met. -/
theorem witness_DensityAndCorrelationCommandsComplete_2 :
    (∃ (s : State) (c : CorrSt) (r : Nat),
      s.corr = some c ∧
      c.ended = some r ∧
      c.endAge ≠ 0 ∧
      s.corrDump = none) ∧
    (∃ (s : State) (c : CorrSt) (d : CorrSt) (r : Nat),
      s.corr = some c ∧
      c.ended = some r ∧
      c.endAge ≠ 0 ∧
      s.corrDump = some d ∧
      c.final = false) ∧
    (∃ (s : State) (c : CorrSt),
      s.corrDump = some c) :=
  ⟨⟨{ clkS [] with corr := some { ended := some 10, endAge := 1 } }, { ended := some 10, endAge := 1 }, 10, by decide⟩,
    ⟨{ clkS [] with corr := some { ended := some 10, endAge := 1 }, corrDump := some {} }, { ended := some 10, endAge := 1 }, {}, 10, by decide⟩,
    ⟨{ runS with corrDump := some {} }, {}, by decide⟩⟩

/-- The hypotheses of TriggerAndCarouselCommandsComplete can be met. -/
theorem witness_TriggerAndCarouselCommandsComplete_1 :
    (∃ (s : State) (q : Req),
      let u := u16 q.params 0
      accepted s 0x0600 q (q.params.length == 48) [(decide (32 ≤ u) || !zeroAt q.params 2 2 || reservedSet q.params 4 trgMasks, ST_BAD_PARAM), (groupLocked s 50, ST_BUSY)] = true) ∧
    (∃ (s : State) (q : Req),
      let p := q.params
      let l := masterList p
      let abs := u32 p 4 == 1
      let target := if abs then u64 p 8 else s.beat + 1
      accepted s 0x0601 q (p.length == 16) [(decide (2 ≤ u32 p 4) || notMaster s p, ST_BAD_PARAM), (r503 s || (abs && decide (target ≤ s.beat)), ST_STATE)] = true) ∧
    (∃ (s : State) (m : Nat),
      isMaster s.rdA m = true ∧
      dueReq s s.armReq m = true ∧
      (s.unit m).st ≠ 1) ∧
    (∃ (s : State) (q : Req),
      let p := q.params
      accepted s 0x0602 q (p.length == 8) [(!zeroAt p 4 4 || notMaster s p, ST_BAD_PARAM)] = true) ∧
    (∃ (s : State) (m : Nat),
      (m < 32 ∧ dueReq s s.disReq m)) ∧
    (∃ (s : State) (q : Req),
      let p := q.params
      accepted s 0x0603 q (p.length == 8) [(!zeroAt p 4 4 || notMaster s p, ST_BAD_PARAM), (r503 s || (masterList p).any (fun m => (s.unit m).st != 1), ST_STATE)] = true) ∧
    (∃ (s : State) (m : Nat),
      isMaster s.rdA m = true ∧
      dueReq s s.forceReq m = true ∧
      (s.unit m).st = 1 ∧
      dueReq s s.disReq m = false) ∧
    (∃ (s : State) (m : Nat),
      let x := s.unit m
      let due := if bit (s.rdA (TRG_HOLD m)) 31 then x.holdLeft == 0 && decide (x.holdTo ≤ s.beat) else decide (x.holdTo ≤ s.beat)
      (isMaster s.rdA m ∧ x.st = 2 ∧ due)) ∧
    (∃ (s : State) (pin : Nat),
      let past (p : Nat × Nat) : Bool := p.1 == pin && decide (p.2 + 1 ≤ s.beat)
      (s.pulses.any past)) ∧
    (∃ (s : State) (q : Req),
      let p := q.params
      accepted s 0x0604 q (decide (4 ≤ p.length) && p.length == 4 + 4 * u16 p 2) [(decide (63 < u8 p 0 ∨ 1 < u8 p 1 ∨ 256 < u16 p 2) || !ascending (maskVerts p), ST_BAD_PARAM), (maskBusy s (u8 p 0), ST_BUSY)] = true) :=
  ⟨⟨runS, rq (zeros 48), by decide⟩,
    ⟨runS, rq (zeros 16), by decide⟩,
    ⟨{ inForce (clkS []) [(TRG_CTRL 0, 0x80000000)] with armReq := [(0, 1000)] }, 0, by decide⟩,
    ⟨runS, rq (zeros 8), by decide⟩,
    ⟨{ clkS [] with disReq := [(0, 1000)] }, 0, by decide⟩,
    ⟨runS, rq (zeros 8), by decide⟩,
    ⟨{ inForce (clkS []) [(TRG_CTRL 0, 0x80000000)] with forceReq := [(0, 1000)], units := [(0, { st := 1 })] }, 0, by decide⟩,
    ⟨{ inForce (clkS []) [(TRG_CTRL 0, 0x80000000)] with units := [(0, { st := 2 })] }, 0, by decide⟩,
    ⟨{ clkS [] with pulses := [(0, 999)] }, 0, by decide⟩,
    ⟨runS, rq [0, 0, 0, 0], by decide⟩⟩

/-- The hypotheses of TriggerAndCarouselCommandsComplete can be met. -/
theorem witness_TriggerAndCarouselCommandsComplete_2 :
    (∃ (s : State) (m : Nat),
      (m < 64 ∧ (maskOf s m).fromBeat ≤ s.beat ∧ (List.range 32).all (laneTested s m (maskOf s m).fromBeat) ∧
          s.maskRes.all (fun r => decide ((maskOf s m).fromBeat ≤ r.posBeat)))) ∧
    (∃ (s : State) (q : Req),
      let c := u16 q.params 0
      accepted s 0x0605 q (q.params.length == 36) [(decide (4 ≤ c) || !zeroAt q.params 2 2 || reservedSet q.params 4 carConfigMasks, ST_BAD_PARAM), (groupLocked s 51, ST_BUSY)] = true) ∧
    (∃ (s : State) (q : Req),
      let l := chMask q.params
      accepted s 0x0606 q (q.params.length == 4) [(decide (16 ≤ u32 q.params 0), ST_BAD_PARAM), (r503 s || l.any (fun c => !carEn s.rdA c), ST_STATE)] = true) ∧
    (∃ (s : State) (q : Req),
      accepted s 0x0607 q (q.params.length == 4) [(decide (16 ≤ u32 q.params 0), ST_BAD_PARAM)] = true) ∧
    (∃ (s : State) (c : Nat) (b : Nat),
      (s.car c).stopAt = some b ∧
      c < 4 ∧
      b ≤ s.beat) ∧
    (∃ (s : State) (q : Req),
      let c := u16 q.params 0
      accepted s 0x0608 q (q.params.length == 4) [(decide (4 ≤ c) || !zeroAt q.params 2 2, ST_BAD_PARAM)] = true) ∧
    (∃ (s : State) (c : Nat),
      let x := s.car c
      (¬(4 ≤ c ∨ x.st ≠ 2 ∨ !segFull s c))) ∧
    (∃ (s : State) (c : Nat),
      let x := s.car c
      (c < 4 ∧ x.st = 3 ∧ x.gapAt < s.beat)) ∧
    (∃ (s : State) (c : Nat),
      let x := s.car c
      (c < 4 ∧ x.st = 4 ∧ x.resume ∧ x.fill = 0)) :=
  ⟨⟨runS, 0, by decide⟩,
    ⟨runS, rq (zeros 36), by decide⟩,
    ⟨runS, rq (zeros 4), by decide⟩,
    ⟨runS, rq (zeros 4), by decide⟩,
    ⟨{ clkS [] with cars := [(0, { stopAt := some 1000 })] }, 0, 1000, by decide⟩,
    ⟨runS, rq (zeros 4), by decide⟩,
    ⟨{ runS with cars := [(0, { st := 2, count := 5, fire := some ⟨0, 0, 0, 0, 0, false, false, false, false, some 0⟩ })] }, 0, by decide⟩,
    ⟨{ clkS [] with cars := [(0, { st := 3, gapAt := 999 })] }, 0, by decide⟩,
    ⟨{ runS with cars := [(0, { st := 4, resume := true })] }, 0, by decide⟩⟩

/-- The hypotheses of EngineCommandsComplete can be met. -/
theorem witness_EngineCommandsComplete :
    (∃ (s : State) (q : Req),
      let es := bitList 64 (u64 q.params 0)
      let a := u64 q.params 8
      let len := u32 q.params 16
      let b := s.hbmRead a (min len 328192)
      let i := imageOf b
      accepted s 0x0700 q (q.params.length == 24) [(es.any (fun e => !enginePresent s e), ST_UNIT_ABSENT),
          (es == [] || a % 8 != 0 || !inHbm a len || !zeroAt q.params 20 4 || imageMalformed b len, ST_BAD_PARAM)] = true ∧
      policyRefusal s i = none ∧
      (r503 s || es.any (fun e => decide (2 ≤ ppeState s e))) = false ∧
      es.any (taskHeld s) = false ∧
      es.any (loadFails s) = false) ∧
    (∃ (s : State) (q : Req),
      let es := bitList 64 (u64 q.params 0)
      accepted s 0x0701 q (q.params.length == 8) [(es.any (fun e => !enginePresent s e), ST_UNIT_ABSENT),
         (r503 s || es.any (fun e => ppeState s e == 0 || ppeState s e == 3), ST_STATE)] = true) ∧
    (∃ (s : State) (q : Req),
      let es := bitList 64 (u64 q.params 0)
      accepted s 0x0702 q (q.params.length == 8) [(es.any (fun e => !enginePresent s e), ST_UNIT_ABSENT), (es.any (taskHeld s), ST_IN_USE)] = true) ∧
    (∃ (s : State) (q : Req),
      let p := q.params
      let e := u16 p 0
      let w0 := u32 p 4
      let w1 := u32 p 8
      accepted s 0x0703 q (p.length == 12) [(!enginePresent s e, ST_UNIT_ABSENT),
         (decide (7 < u8 p 2) || !zeroAt p 3 1 || bitsOf w0 29 28 != 0 || bitsOf w0 23 21 != 0 || decide (1024 ≤ w1), ST_BAD_PARAM),
         (s.locked.contains 52, ST_BUSY)] = true) ∧
    (∃ (s : State) (q : Req),
      let e := u16 q.params 0
      accepted s 0x0704 q (q.params.length == 4) [(!enginePresent s e, ST_UNIT_ABSENT), (decide (1 < u16 q.params 2), ST_BAD_PARAM)] = true) ∧
    (∃ (s : State) (q : Req),
      let p := q.params
      let e := u16 p 0
      let sp := u8 p 2
      accepted s 0x0705 q (decide (8 ≤ p.length ∧ p.length ≤ 4072)) [(!enginePresent s e, ST_UNIT_ABSENT),
         (decide (1 < sp) || !zeroAt p 3 1 || decide (spaceSize sp < u32 p 4 + (p.length - 8)), ST_BAD_PARAM),
         (sp == 0 && ppeState s e != 1, ST_STATE)] = true) ∧
    (∃ (s : State) (q : Req),
      let p := q.params
      let e := u16 p 0
      let sp := u8 p 2
      let n := u32 p 8
      accepted s 0x0706 q (p.length == 12) [(!enginePresent s e, ST_UNIT_ABSENT),
         (decide (1 < sp) || !zeroAt p 3 1 || decide (4064 < n) || decide (spaceSize sp < u32 p 4 + n), ST_BAD_PARAM)] = true) ∧
    (∃ (s : State) (q : Req),
      let p := q.params
      let c := u8 p 0
      let s' := setGate s c (u8 p 1 == 1)
      accepted s 0x0707 q (p.length == 4) [(!clusterPresent s c, ST_UNIT_ABSENT), (decide (1 < u8 p 1) || !zeroAt p 2 2, ST_BAD_PARAM)] = true) :=
  ⟨⟨{ stR [(PWR_STEP 34, 0x40000000)] with hbm := Mem.write [] HBM0 image1 }, rq (b8 1 ++ b8 HBM0 ++ b4 136 ++ zeros 4), by decide⟩,
    ⟨runS, rq (zeros 8), by decide⟩,
    ⟨runS, rq (zeros 8), by decide⟩,
    ⟨runS, rq (zeros 12), by decide⟩,
    ⟨runS, rq (zeros 4), by decide⟩,
    ⟨runS, rq ([0, 0, 1, 0] ++ zeros 5), by decide⟩,
    ⟨runS, rq (zeros 12), by decide⟩,
    ⟨runS, rq (zeros 4), by decide⟩⟩

/-- The hypotheses of EngineActivityCompletes can be met. -/
theorem witness_EngineActivityCompletes :
    (∃ (s : State) (e : Nat) (t : Nat) (rest : List Nat),
      e < 64 ∧
      (s.ppeEng e).due = t :: rest ∧
      (s.ppeEng e).task = none ∧
      ppeState s e = 2 ∧
      engFenced s e = false ∧
      clusterOn s (e / 8) = true) ∧
    (∃ (s : State) (e : Nat) (t : Nat),
      let p := s.ppeEng e
      p.task = some t ∧
      ppeState s e = 2 ∧
      (taskBudget p.table t ≤ p.cyc ∨ p.taskBeat ≠ s.beat ∨ (p.ctx.getD {}).waiting = true)) ∧
    (∃ (s : State) (e : Nat) (stall : Nat) (c0 : PpeCtx) (x : Nat) (s2 : State) (wr : List PpeWr),
      let c := if c0.ieNext then { c0 with ie := true, ieNext := false } else c0
      let s1 := (visibleNow s (s.ppeEng e)).1
      let p := { (visibleNow s (s.ppeEng e)).2 with ctx := some c }
      let w := Sparse.get (fun _ => 0) s1.pm.code (8192 * e + c.pc)
      let t := (s1.setPpe e p).setF (PPE_PC e) 12 0 c.pc
      let oa := (decodeSlot (w % 2 ^ 32)).getD .nop
      let ob := (decodeSlot (w / 2 ^ 32)).getD .nop
      let a := slotAct t p false c.pc oa
      let b := slotAct t p true c.pc ob
      issueable s e = some c0 ∧
      bundleIllegal c (decodeSlot (w % 2 ^ 32)) (decodeSlot (w / 2 ^ 32)) = none ∧
      twoWindows a b = false ∧
      (a.accErr || b.accErr) = false ∧
      extraCycles t e p oa = some x ∧
      bundleMemory t p e oa ob a b = some (s2, wr)) ∧
    (∃ (s : State) (e : Nat) (hold : Nat) (idle : Nat) (c : PpeCtx),
      (s.ppeEng e).ctx = some c ∧
      ppeLive s e = true ∧
      takeable (s.ppeEng e) c = true) ∧
    (∃ (s : State) (e : Nat),
      ppeLive s e = true ∧
      inFull s e = true) ∧
    (∃ (s : State) (e : Nat),
      ppeLive s e = true ∧
      outFull s e = false) ∧
    (∃ (s : State) (c : Nat),
      (clusterPresent s c && clusterOn s c && s.rb (PPE_CLCTRL c) 0 && decide (250 ≤ idleBeats s c) && clusterIdle s c)) ∧
    (∃ (s : State) (c : Nat),
      (clusterPresent s c && s.rf (PPE_CLSTAT c) 1 0 == 1 && (s.wakeReq.contains c || !s.rb (PPE_CLCTRL c) 0))) ∧
    (∃ (s : State) (c : Nat),
      (clusterPresent s c && s.rf (PPE_CLSTAT c) 1 0 == 2)) :=
  ⟨⟨ppeS { due := [3] }, 0, 3, [], by decide⟩,
    ⟨ppeS { task := some 2 }, 0, 2, by decide⟩,
    ⟨ppeS { ctx := some {} }, 0, 0, {}, 0, _, [], by decide, by decide, by decide, by decide, by decide, rfl⟩,
    ⟨ppeS { ctx := some { ie := true }, ien := 1, ipend := 1, entries := List.replicate 16 4 }, 0, 0, 0, { ie := true }, by decide⟩,
    ⟨(ppeS {}).wr (MBX_PESTAT 0) 1, 0, by decide⟩,
    ⟨ppeS {}, 0, by decide⟩,
    ⟨{ stR [(PPE_CLCTRL 0, 1)] with pm := { idle := [(0, 250)] } }, 0, by decide⟩,
    ⟨{ stR [(PPE_CLSTAT 0, 1)] with wakeReq := [0] }, 0, by decide⟩,
    ⟨stR [(PPE_CLSTAT 0, 2)], 0, by decide⟩⟩

/-- The hypotheses of StreamCommandsComplete can be met. -/
theorem witness_StreamCommandsComplete_1 :
    (∃ (s : State) (q : Req),
      let n := u16 q.params 0
      accepted s 0x0800 q (q.params.length == 68) [(decide (256 ≤ n) || !zeroAt q.params 2 2, ST_BAD_PARAM), (groupLocked s 53, ST_BUSY)] = true) ∧
    (∃ (s : State) (q : Req),
      accepted s 0x0801 q (q.params.length == 4) [(decide (256 ≤ u16 q.params 0) || decide (1 < u16 q.params 2), ST_BAD_PARAM)] = true) ∧
    (∃ (s : State) (q : Req),
      accepted s 0x0802 q (q.params.length == 8) (volFormatChecks s q.params) = true) ∧
    (∃ (s : State) (v : Nat),
      ((s.volume v).state = 1)) ∧
    (∃ (s : State) (q : Req),
      let v := s.volume (u8 q.params 0)
      accepted s 0x0803 q (q.params.length == 4) [(nvmePorts s == 0, ST_UNIT_ABSENT), (decide (3 < u8 q.params 0) || !zeroAt q.params 1 3, ST_BAD_PARAM)] = true) ∧
    (∃ (s : State) (stream : Nat) (r : QRec),
      let e := outEntry s stream
      let t := s.stream stream
      let size := 2 ^ u8 e 33
      let off := t.prod % size
      let skip := if size < off + r.bytes.length then size - off else 0
      headRec s stream = some r ∧
      carries s stream 0 = true ∧
      s.pci.bme = true ∧
      t.prod + skip + r.bytes.length ≤ size + t.cons) ∧
    (∃ (s : State) (h : Nat) (hi : Bool) (v : Word),
      s.pci.d3 = false ∧
      h < 32 ∧
      hi = false) ∧
    (∃ (s : State) (h : Nat) (hi : Bool) (v : Word) (n : Nat),
      let c := v.toNat * 2 ^ 32 + (Sparse.get wordDflt s.hconsLo h).toNat
      s.pci.d3 = false ∧
      h < 32 ∧
      hi = true ∧
      ringOf s h = some n ∧
      (s.stream n).cons ≤ c ∧
      c ≤ (s.stream n).prod) ∧
    (∃ (s : State) (v : Nat) (c : Chunk),
      let s' := chunkFill s v
      (s'.volume v).chunks.find? (fun c => c.closed) = some c ∧
      (s'.volume v).state = 2) ∧
    (∃ (s : State) (v : Nat) (c : Chunk),
      let s' := chunksDue (chunkFill s v) v
      (s'.volume v).chunks.find? (fun c => c.closed) = some c ∧
      (s'.volume v).state = 2) :=
  ⟨⟨runS, rq (zeros 68), by decide⟩,
    ⟨runS, rq (zeros 4), by decide⟩,
    ⟨stR [(LNK_NVSTAT 0, 0x40000000)], rq ([0, 1, 0, 0] ++ b4 1), by decide⟩,
    ⟨{ runS with volumes := [(0, { state := 1 })] }, 0, by decide⟩,
    ⟨runS, rq (zeros 4), by decide⟩,
    ⟨{ runS with pci := { bme := true }, strActive := [(0, entryOf [(33, 12)])], streams := [(0, { queue := [qr1] })] }, 0, qr1, by decide⟩,
    ⟨runS, 0, false, 0, by decide⟩,
    ⟨{ runS with strActive := [(0, entryOf [(0, 1)])] }, 0, true, 0, 0, by decide⟩,
    ⟨{ runS with volumes := [(0, { state := 2, chunks := [ck1] })] }, 0, ck1, by decide⟩,
    ⟨{ clkS [] with volumes := [(0, { state := 2, flushb := 10, chunks := [{ ck1 with closed := false }] })] }, 0, ck1, by decide⟩⟩

/-- The hypotheses of StreamCommandsComplete can be met. -/
theorem witness_StreamCommandsComplete_2 :
    (∃ (s : State) (stream : Nat) (tclk : Nat) (r : QRec) (rest : List QRec) (x : Nat × Nat),
      let s' := setClock s tclk
      let e := outEntry s' stream
      let u := datagramMove s' stream e x r
      carries s' stream 2 = true ∧
      enLaunch e = true ∧
      (s'.stream stream).queue = r :: rest ∧
      wayOf s' e = some x ∧
      ctxEmpty s' e = true ∧
      launchDue e r.bytes ≤ timeNow s') ∧
    (∃ (s : State) (stream : Nat) (tclk : Nat) (b : List Byte) (x : Nat × Nat),
      let s' := setClock s tclk
      let e := outEntry s' stream
      carries s' stream 2 = true ∧
      enLaunch e = true ∧
      ctxEmpty s' e = false ∧
      txFirst s' (ethCtx (dgPort e) (enChan e)) = some b ∧
      wayOf s' e = some x ∧
      launchDue e b ≤ timeNow s') :=
  ⟨⟨{ stR [(LNK_ETHSTAT 0, 0x80000000)] with ifs := [(0, { en := true })], strActive := [(0, entryOf [(0, 5), (2, 2), (33, 4), (48, 224)])], streams := [(0, { queue := [qr1] })] }, 0, 0, qr1, [], _, by decide, by decide, by decide, rfl, by decide, by decide⟩,
    ⟨{ stR [(LNK_ETHSTAT 0, 0x80000000)] with ifs := [(0, { en := true })], strActive := [(0, entryOf [(0, 5), (2, 2), (33, 4), (48, 224)])], txCtx := [(ethCtx 0 0 / 0x1000, zeros 64)] }, 0, 0, _, _, by decide, by decide, by decide, rfl, rfl, by decide⟩⟩

/-- The hypotheses of CaptureMemoryCommandsComplete can be met. -/
theorem witness_CaptureMemoryCommandsComplete_1 :
    (∃ (s : State) (q : Req),
      let s' := regionSet s q.params
      accepted s 0x0900 q (q.params.length == 24) [(regionBad q.params, ST_BAD_PARAM), (carsBusy s || anyStream s, ST_STATE)] = true) ∧
    (∃ (s : State) (q : Req),
      accepted s 0x0901 q (q.params.length == 0) [] = true) ∧
    (∃ (s : State) (q : Req),
      let l := ((s.store.retired.drop (u32 q.params 0)).take 1015)
      accepted s 0x0902 q (q.params.length == 4) [] = true) ∧
    (∃ (s : State) (uses : List ArbUse),
      (beatOrTick s % 16 = 0 ∧ memReady s)) ∧
    (∃ (s : State) (chan : Nat),
      (memReady s ∧ chan < 64 ∧ s.rf (MEM_PCSTAT chan) 31 30 ≠ 3 ∧ !s.rb MEM_STAT 1)) ∧
    (∃ (s : State) (stack : Nat) (temp : Int),
      (stack < 2)) ∧
    (∃ (s : State) (g : Nat),
      (g < 16 ∧ beatOrTick s % 80000 = 5000 * g ∧ pwrState s ∈ [PS_RUN, PS_IDLE, PS_STANDBY] ∧ !s.rb MEM_STAT 1)) ∧
    (∃ (s : State) (chan : Nat) (ok : Bool),
      (¬(64 ≤ chan ∨ (pcState s chan ≠ 0 ∧ pcState s chan ≠ 2)))) ∧
    (∃ (s : State) (chan : Nat) (replays : Nat) (persist : Bool),
      (¬(64 ≤ chan ∨ pcState s chan = 3))) ∧
    (∃ (s : State) (h : EccHits),
      (s.rb MEM_CTRL 0 && memReady s && !s.rb MEM_STAT 1)) :=
  ⟨⟨runS, rq (b4 16384 ++ b4 0 ++ b4 0 ++ b4 16384 ++ zeros 8), by decide⟩,
    ⟨runS, rq [], by decide⟩,
    ⟨runS, rq (zeros 4), by decide⟩,
    ⟨stR [(MEM_STAT, 1)], [], by decide⟩,
    ⟨stR [(MEM_STAT, 1)], 0, by decide⟩,
    ⟨runS, 0, 0, by decide⟩,
    ⟨runS, 0, by decide⟩,
    ⟨runS, 0, false, by decide⟩,
    ⟨runS, 0, 0, false, by decide⟩,
    ⟨stR [(MEM_STAT, 1), (MEM_CTRL, 1)], ⟨[], []⟩, by decide⟩⟩

/-- The hypotheses of CaptureMemoryCommandsComplete can be met. -/
theorem witness_CaptureMemoryCommandsComplete_2 :
    (∃ (s : State) (chan : Nat) (page : Nat) (spares : Nat),
      (¬(!s.mem.failing.contains (chan, page) ∨ !memReady s ∨ s.rb MEM_STAT 1 ∨ pcState s chan = 3 ∨
          (List.range 64).any (fun c => pcState s c == 2)))) ∧
    (∃ (s : State) (write : Bool) (x : Nat) (n : Nat) (bytes : List Byte) (h : EccHits),
      s.pci.d3 = false ∧
      memReady s = true ∧
      x + n ≤ 48 * 2 ^ 30 ∧
      inFirmware (HBM0 + x) n = false ∧
      failedIn s (HBM0 + x) n = false ∧
      write = true) ∧
    (∃ (s : State) (write : Bool) (x : Nat) (n : Nat) (bytes : List Byte) (h : EccHits),
      s.pci.d3 = false ∧
      memReady s = true ∧
      x + n ≤ 48 * 2 ^ 30 ∧
      inFirmware (HBM0 + x) n = false ∧
      failedIn s (HBM0 + x) n = false ∧
      write = false) :=
  ⟨⟨{ stR [(MEM_STAT, 1)] with mem := { failing := [(0, 0)] } }, 0, 0, 0, by decide⟩,
    ⟨stR [(MEM_STAT, 1)], true, 0x40000000, 4, [1, 2, 3, 4], ⟨[], []⟩, by decide⟩,
    ⟨stR [(MEM_STAT, 1)], false, 0x40000000, 4, [], ⟨[], []⟩, by decide⟩⟩

/-- The hypotheses of DmaCommandsAndInstructionsComplete can be met. -/
theorem witness_DmaCommandsAndInstructionsComplete_1 :
    (∃ (s : State) (q : Req) (fe : Nat),
      let p := q.params
      let n := u16 p 0
      let prog := u64 p 4
      let fl := u16 p 2
      let sp := Mem.read s.sram (blockOf n + 0x20) 4
      accepted s 0x0910 q (p.length == 12) [(decide (128 ≤ n) || !progOk prog || sp.any (fun b => decide (5 < b.toNat)) || bitsOf fl 3 1 != 0 || decide (128 ≤ fl), ST_BAD_PARAM),
         (chanRuns s n, ST_STATE), (fwOwn s n, ST_IN_USE)] = true) ∧
    (∃ (s : State) (q : Req),
      let l := maskChans q.params
      accepted s 0x0911 q (q.params.length == 16) [(l.any (fwOwn s), ST_IN_USE)] = true) ∧
    (∃ (s : State) (q : Req),
      let n := u16 q.params 0
      accepted s 0x0912 q (q.params.length == 4) [(decide (128 ≤ n) || !zeroAt q.params 2 2, ST_BAD_PARAM)] = true) ∧
    (∃ (s : State) (q : Req),
      let p := q.params
      accepted s 0x0913 q (decide (4 ≤ p.length ∧ p.length ≤ 4072)) [(decide (0x80000 < u32 p 0 + (p.length - 4)), ST_BAD_PARAM)] = true) ∧
    (∃ (s : State) (m : Master) (n : Nat) (v : Word) (fe : Nat),
      let w := putBit v 0 true
      (m = .host → s.pci.d3 = false) ∧
      n < 128 ∧
      (fwOwn s n = true → isMgmt m = true) ∧
      chanRuns s n = false ∧
      bit w 1 = false) ∧
    (∃ (s : State) (m : Master) (n : Nat) (v : Word),
      let w := putBit v 1 true
      (m = .host → s.pci.d3 = false) ∧
      n < 128 ∧
      (fwOwn s n = true → isMgmt m = true) ∧
      chanRuns s n = true ∧
      bit w 0 = false) ∧
    (∃ (s : State) (n : Nat),
      let d := s.dmaCh n
      let m0 : DmaMove := { bucket := 4 * mvBurst d.instr, bucketAt := cycleNow s s.cyc }
      let m' := { m0 with on := mvPace d.instr == 1 && fillOn s d m0 }
      issues s n 1 = true ∧
      moveIllegal d = false ∧
      paceBad s d = false) ∧
    (∃ (s : State) (n : Nat) (fe : Nat),
      issues s n 2 = true ∧
      loopIllegal s n (s.dmaCh n).instr = false) ∧
    (∃ (s : State) (n : Nat) (fe : Nat),
      let d := s.dmaCh n
      let i := d.instr
      issues s n 3 = true ∧
      wtN i ≠ 0 ∧
      bitsOf i 81 0 = 0) ∧
    (∃ (s : State) (n : Nat) (fe : Nat),
      (n < 128 ∧ chanState s n = 2 ∧ wtN (s.dmaCh n).instr ≤ (s.dmaCh n).ecnt)) :=
  ⟨⟨runS, rq (zeros 4 ++ b8 0x0F20000000), 0, by decide⟩,
    ⟨runS, rq (zeros 16), by decide⟩,
    ⟨runS, rq (zeros 4), by decide⟩,
    ⟨runS, rq [0, 0, 0, 0, 7], by decide⟩,
    ⟨runS, .host, 0, 0, 0, by decide⟩,
    ⟨stR [(DMA_STAT 0, 0x20000000)], .host, 0, 0, by decide⟩,
    ⟨dmaS (2 ^ 124 + 64 * 2 ^ 84), 0, by decide⟩,
    ⟨(dmaS (2 * 2 ^ 124 + 2 ^ 107)).wr (DMA_STAT 0) 0x20000001, 0, 0, by decide⟩,
    ⟨dmaS (3 * 2 ^ 124 + 2 ^ 98), 0, 0, by decide⟩,
    ⟨{ stR [(DMA_STAT 0, 0x40000000)] with dma := [(0, { instr := 3 * 2 ^ 124 + 2 ^ 98, ecnt := 1 })] }, 0, 0, by decide⟩⟩

/-- The hypotheses of DmaCommandsAndInstructionsComplete can be met. -/
theorem witness_DmaCommandsAndInstructionsComplete_2 :
    (∃ (s : State) (n : Nat),
      let d := s.dmaCh n
      (n < 128 ∧ chanState s n = 2 ∧ d.ecnt < wtN d.instr ∧ wtTmo d.instr ≠ 0 ∧ d.waitAt + (wtTmo d.instr : Int) ≤ (beatOrTick s : Int))) ∧
    (∃ (s : State) (n : Nat) (fe : Nat),
      let i := (s.dmaCh n).instr
      issues s n 4 = true ∧
      signalIllegal i = false) ∧
    (∃ (s : State) (n : Nat),
      issues s n 5 = true ∧
      bitsOf (s.dmaCh n).instr 123 0 = 0) ∧
    (∃ (s : State) (n : Nat) (cyc : Nat) (m : DmaMove),
      let s' := { s with cyc := cyc % 512 }
      let d := s'.dmaCh n
      let now := cycleNow s' (cyc % 512)
      d.mv = some m ∧
      n < 128 ∧
      chanState s' n = 1 ∧
      m.inFlight = 0 ∧
      d.abort = false ∧
      paced s' d m now = false ∧
      destReady s' d = true ∧
      hasTurn s' n (cyc % 512) = true) ∧
    (∃ (s : State) (n : Nat) (data : List Byte) (err : Bool) (h : EccHits) (fe : Nat) (m : DmaMove),
      let d := s.dmaCh n
      let src := burstSource d m
      let hbm := mvSrcSpace d == 0 && decide (dmaSpace src.1 = some .hbm)
      let r := if hbm then eccRead s src.1 src.2 h else (s, false)
      let byte : Nat → Byte := fun k => if mvSrcSpace d = 0 then devByte r.1 (mvSrc d + k) else BitVec.ofNat 8 (byteAt data k)
      d.mv = some m ∧
      n < 128 ∧
      chanState s n = 1 ∧
      m.inFlight ≠ 0 ∧
      err = false ∧
      sideOk s (mvSrcSpace d) (devReadable s n src.1 src.2) = true ∧
      sideOk s (mvDstSpace d) (devWritable s n ((mvDst d + m.pos) % 2 ^ 64) m.inFlight) = true ∧
      r.2 = false) :=
  ⟨⟨{ clkS [(DMA_STAT 0, 0x40000000)] with dma := [(0, { instr := 3 * 2 ^ 124 + 2 ^ 98 + 5 * 2 ^ 82 })] }, 0, by decide⟩,
    ⟨dmaS (4 * 2 ^ 124 + 2 ^ 122 + 600 * 2 ^ 112), 0, 0, by decide⟩,
    ⟨dmaS (5 * 2 ^ 124), 0, by decide⟩,
    ⟨{ dmaS (2 ^ 124 + 64 * 2 ^ 84) with dma := [(0, { instr := 2 ^ 124 + 64 * 2 ^ 84, mv := some {} })] }, 0, 0, {}, by decide⟩,
    ⟨{ dmaS 0 with dma := [(0, { instr := 2 ^ 124 + 64 * 2 ^ 84, a := [0x0F20000000, 0, 0, 0], mv := some { inFlight := 64 } })] }, 0, [], false, ⟨[], []⟩, 0, { inFlight := 64 }, by decide⟩⟩

/-- The hypotheses of LinkCommandsAndDrivesComplete can be met. -/
theorem witness_LinkCommandsAndDrivesComplete_1 :
    (∃ (s : State) (q : Req),
      accepted s 0x0810 q (q.params.length == 0) [] = true) ∧
    (∃ (s : State) (q : Req),
      let p := q.params
      accepted s 0x0811 q (p.length == 4) [(decide (2 < u8 p 0) || decide (1 < u8 p 1) || !zeroAt p 2 2, ST_BAD_PARAM), (ethModeInUse s, ST_IN_USE)] = true) ∧
    (∃ (s : State) (q : Req),
      let p := q.params
      accepted s 0x0812 q (p.length == 52) (ethIfChecks s p) = true) ∧
    (∃ (s : State) (q : Req),
      let p := q.params
      accepted s 0x0813 q (p.length == 28) [(decide (31 < u8 p 0) || decide (3 < u8 p 2) || decide (3 < u8 p 3) || decide (u8 p 4 < 8 ∨ 15 < u8 p 4) || u8 p 5 != 0 ||
          !zeroAt p 10 2 || s.rf (LNK_EQCTRL (u8 p 4)) 19 16 != u8 p 1, ST_BAD_PARAM)] = true) ∧
    (∃ (s : State) (q : Req),
      let p := q.params
      accepted s 0x0814 q (p.length == 4) [(decide (1 < u8 p 0) || decide (1 < u8 p 1) || !zeroAt p 2 2, ST_BAD_PARAM)] = true) ∧
    (∃ (s : State) (q : Req),
      let l := maskPorts q.params
      accepted s 0x0815 q (q.params.length == 4) [(nvmePorts s == 0, ST_UNIT_ABSENT), (decide (16 ≤ u8 q.params 0) || !zeroAt q.params 1 3, ST_BAD_PARAM),
         (l.any (fun d => (portVolumes s d).any (fun v => volStreams s v != [])), ST_IN_USE)] = true) ∧
    (∃ (s : State) (q : Req),
      let p := u8 q.params 0
      let d := s.drive p
      accepted s 0x0816 q (q.params.length == 4) [(nvmePorts s == 0, ST_UNIT_ABSENT), (decide (3 < p) || !zeroAt q.params 1 3, ST_BAD_PARAM)] = true) ∧
    (∃ (s : State) (q : Req),
      let p := q.params
      accepted s 0x0817 q (p.length == 24) (nvReadChecks s p) = true) ∧
    (∃ (s : State) (q : Req),
      let p := q.params
      accepted s 0x0818 q (p.length == 4) [(decide (1 < u16 p 2), ST_BAD_PARAM)] = true) ∧
    (∃ (s : State) (port : Nat) (d : DriveReport),
      (¬(nvmePorts s ≤ port ∨ nvState s port ≠ 1))) :=
  ⟨⟨runS, rq [], by decide⟩,
    ⟨runS, rq (zeros 4), by decide⟩,
    ⟨runS, rq (zeros 48 ++ b2 1500 ++ zeros 2), by decide⟩,
    ⟨runS, rq ([0, 0, 0, 0, 8] ++ zeros 23), by decide⟩,
    ⟨runS, rq (zeros 4), by decide⟩,
    ⟨runS, rq (zeros 4), by decide⟩,
    ⟨runS, rq (zeros 4), by decide⟩,
    ⟨stR [(LNK_NVSTAT 0, 0x40000000)], rq (zeros 12 ++ zeros 4 ++ b8 (HBM0 + 0x40000000)), by decide⟩,
    ⟨runS, rq (zeros 4), by decide⟩,
    ⟨stR [(LNK_NVSTAT 0, 0x20000000)], 0, ⟨512, 0, 4096, true, false, 0, [], [], 4, 5⟩, by decide⟩⟩

/-- The hypotheses of LinkCommandsAndDrivesComplete can be met. -/
theorem witness_LinkCommandsAndDrivesComplete_2 :
    (∃ (s : State) (port : Nat) (ok : Bool) (data : List Byte) (c : NvCmd) (s' : State),
      nvTake s port = some (c, s')) ∧
    (∃ (s : State) (port : Nat) (c : NvCmd) (s' : State),
      nvTake s port = some (c, s')) ∧
    (∃ (s : State) (port : Nat),
      (¬(nvmePorts s ≤ port ∨ nvState s port = 0 ∨ nvState s port = 4))) ∧
    (∃ (s : State) (port : Nat) (temp : Nat) (crit : Nat) (used : Nat) (written : Nat),
      (¬(nvmePorts s ≤ port ∨ nvState s port ≠ 2))) :=
  ⟨⟨{ runS with nvCmds := [nv1] }, 0, false, [], nv1, _, rfl⟩,
    ⟨{ runS with nvCmds := [nv1] }, 0, nv1, _, rfl⟩,
    ⟨stR [(LNK_NVSTAT 0, 0x40000000)], 0, by decide⟩,
    ⟨stR [(LNK_NVSTAT 0, 0x40000000)], 0, 0, 0, 0, 0, by decide⟩⟩

/-- The hypotheses of EthernetAndNeighbourTrafficCompletes can be met. -/
theorem witness_EthernetAndNeighbourTrafficCompletes_1 :
    (∃ (s : State) (f : RxFrame) (i : Nat),
      let t := takeApart f.bytes
      let s' := if f.fecOk then s else s.setB (LNK_ETHSTAT f.port) 1 true
      ethUp s f.port = true ∧
      step1Bad s' f t = false ∧
      ifOfVlan s' f.port (t.tci % 4096) = some i) ∧
    (∃ (s : State) (port : Nat),
      (¬(ethPorts s ≤ port))) ∧
    (∃ (s : State) (q : Nat) (v : Word),
      (q < 16)) ∧
    (∃ (s : State) (q : Nat) (host : List Byte) (frame : List Byte) (tclk : Nat),
      let s' := setClock s tclk
      let d := descAt s' q host
      let b := if (u8 d 12).testBit 0 then padTo (u16 d 8) frame else deviceBytes s' (u64 d 0) (u16 d 8)
      txReady s' q d = true ∧
      s'.txDue.any (fun x => x.1 == q) = false ∧
      txRefused d = false ∧
      ethUp s' (s'.rf (LNK_EQCTRL q) 19 16) = true) ∧
    (∃ (s : State) (q : Nat) (host : List Byte) (frame : List Byte) (tclk : Nat),
      let s' := setClock s tclk
      let d := descAt s' q host
      let b := if (u8 d 12).testBit 0 then padTo (u16 d 8) frame else deviceBytes s' (u64 d 0) (u16 d 8)
      txReady s' q d = true ∧
      s'.txDue.any (fun x => x.1 == q) = true ∧
      txRefused d = false ∧
      ethUp s' (s'.rf (LNK_EQCTRL q) 19 16) = true ∧
      (u8 d 12).testBit 2 = true ∧
      descTime d ≤ timeNow s') ∧
    (∃ (s : State) (port : Nat) (content : List Byte) (cyc : Nat),
      let s' := { s with cyc := cyc % 512 }
      port < 2 ∧
      nbrUp s' port = true ∧
      tokenBad content = false) ∧
    (∃ (s : State) (port : Nat) (beat : Nat) (grid : Bool) (tclk : Nat) (stamp : Int),
      let s' := setClock s tclk
      (port < 2 ∧ nbrUp s' port ∧ grid ∧ servoSrc s' = 3 + port)) ∧
    (∃ (s : State),
      (fclkRuns s ∧ s.beat % 2500000 = 0 ∧ !halted s)) ∧
    (∃ (s : State) (port : Nat) (record : List Byte) (n : Nat),
      let s' := sendFlit s port 0x40 (b2 (kib record))
      port < 2 ∧
      nbrUp s port = true ∧
      halted s' = false ∧
      forwardOf s' port (u16 record 6) = some n ∧
      queueFill (s'.stream n) + record.length ≤ enQueue (s'.entry n) ∧
      volBlocked s' (s'.entry n) = false) ∧
    (∃ (s : State) (port : Nat) (n : Nat),
      (port < 2 ∧ nbrUp s port)) :=
  ⟨⟨{ stR [(LNK_ETHSTAT 0, 0x80000000)] with ifs := [(0, { en := true })] }, bcast, 0, by decide⟩,
    ⟨runS, 0, by decide⟩,
    ⟨runS, 0, 0, by decide⟩,
    ⟨{ stR [(LNK_ETHSTAT 0, 0x80000000), (LNK_EQCTRL 0, 0xC0000000), (LNK_EQTAIL 0, 1)] with pci := { bme := true } }, 0, desc 1, [], 0, by decide⟩,
    ⟨{ stR [(LNK_ETHSTAT 0, 0x80000000), (LNK_EQCTRL 0, 0xC0000000), (LNK_EQTAIL 0, 1)] with pci := { bme := true }, txDue := [(0, 0)] }, 0, desc 5, [], 0, by decide⟩,
    ⟨stR [(LNK_NBSTAT 0, 0x80000000)], 0, [0, 0, 1] ++ zeros 17, 0, by decide⟩,
    ⟨stR [(LNK_NBSTAT 0, 0x80000000), (TIM_SERVO, 0x60000000)], 0, 0, true, 0, 0, by decide⟩,
    ⟨stR [(GLB_BEATSTAT, 4)], by decide⟩,
    ⟨{ stR [(LNK_NBSTAT 0, 0x80000000)] with strActive := [(0, entryOf [(0, 1), (1, 0xFF), (4, 1), (13, 6)])] }, 0, zeros 64, 0, by decide⟩,
    ⟨stR [(LNK_NBSTAT 0, 0x80000000)], 0, 0, by decide⟩⟩

/-- The hypotheses of EthernetAndNeighbourTrafficCompletes can be met. -/
theorem witness_EthernetAndNeighbourTrafficCompletes_2 :
    (∃ (s : State) (port : Nat) (content : List Byte),
      (port < 2 ∧ nbrUp s port ∧ !halted s)) ∧
    (∃ (s : State) (port : Nat) (content : List Byte) (tclk : Nat),
      let s' := setClock s tclk
      (port < 2 ∧ nbrUp s' port)) ∧
    (∃ (s : State) (port : Nat) (tclk : Nat),
      let s' := setClock s tclk
      (port < 2 ∧ nbrUp s' port ∧ !halted s')) ∧
    (∃ (s : State) (port : Nat) (record : Bool) (token : Bool),
      (¬(2 ≤ port))) ∧
    (∃ (s : State) (port : Nat),
      (port < 2 ∧ nbrEn s port ∧ !nbrUp s port)) :=
  ⟨⟨stR [(LNK_NBSTAT 0, 0x80000000)], 0, [], by decide⟩,
    ⟨stR [(LNK_NBSTAT 0, 0x80000000)], 0, [], 0, by decide⟩,
    ⟨stR [(LNK_NBSTAT 0, 0x80000000)], 0, 0, by decide⟩,
    ⟨runS, 0, false, false, by decide⟩,
    ⟨runS, 0, by decide⟩⟩

/-- The hypotheses of PcieEventsComplete can be met. -/
theorem witness_PcieEventsComplete :
    (∃ (s : State),
      (¬(s.pci.perst))) ∧
    (∃ (s : State) (gen : Nat) (width : Nat),
      (¬(!s.pci.perst))) ∧
    (∃ (s : State) (gen : Nat) (width : Nat),
      (linkOk gen width && !s.pci.perst && (decide (gen < s.rf LNK_PCISTAT 31 28) || decide (width < s.rf LNK_PCISTAT 27 23)))) ∧
    (∃ (s : State) (v : Nat),
      (v < 2048)) ∧
    (∃ (s : State) (bme : Bool) (d3 : Bool) (msixEn : Bool) (fmask : Bool) (mps : Nat) (mrrs : Nat),
      (¬(s.pci.perst))) ∧
    (∃ (s : State) (uncor : Bool) (err : Nat),
      uncor = true ∧
      err < 10) ∧
    (∃ (s : State) (uncor : Bool) (err : Nat),
      uncor = false ∧
      err < 8) :=
  ⟨⟨runS, by decide⟩,
    ⟨{ runS with pci := { perst := true } }, 0, 0, by decide⟩,
    ⟨stR [(LNK_PCISTAT, 0x58000000)], 4, 8, by decide⟩,
    ⟨runS, 0, by decide⟩,
    ⟨runS, false, false, false, false, 0, 0, by decide⟩,
    ⟨runS, true, 0, by decide⟩,
    ⟨runS, false, 0, by decide⟩⟩

/-- The hypotheses of TimeAndPtpCommandsComplete can be met. -/
theorem witness_TimeAndPtpCommandsComplete_1 :
    (∃ (s : State) (q : Req) (w : At),
      let s' := setClock { s with cyc := w.cyc % 512 } w.tclk
      accepted s' 0x0A00 q (q.params.length == 4) [(decide (2 ≤ u32 q.params 0), ST_BAD_PARAM)] = true) ∧
    (∃ (s : State) (q : Req),
      accepted s 0x0A01 q (q.params.length == 16) (timeStepChecks q.params) = true) ∧
    (∃ (s : State) (q : Req),
      accepted s 0x0A02 q (q.params.length == 4) [(adjustBig s q.params, ST_BAD_PARAM), (servo s != SV_FREE || gridOn s, ST_STATE)] = true ∧
      adjustBig s q.params = false) ∧
    (∃ (s : State) (q : Req) (tclk : Nat),
      let s' := setClock s tclk
      accepted s' 0x0A03 q (q.params.length == 24) (servoChecks q.params) = true) ∧
    (∃ (s : State) (q : Req),
      accepted s 0x0A06 q (q.params.length == 4) (gridAlignChecks s q.params) = true) ∧
    (∃ (s : State) (q : Req),
      let p := q.params
      accepted s 0x0A07 q (p.length == 4) [(decide (3 < u16 p 2), ST_BAD_PARAM), (s.ptp.port == 9 && s.ptp.flags.testBit 0, ST_STATE)] = true) ∧
    (∃ (s : State) (tclk : Nat) (x : ServoIn) (t : List ServoIn),
      let s' := setClock (setTime s { s.time with samples := t }) tclk
      s.time.samples = x :: t ∧
      x.src = servoSrc s' ∧
      0 < x.tau) ∧
    (∃ (s : State) (tclk : Nat),
      (¬(servoSrc s = 0))) ∧
    (∃ (s : State),
      (servo s = SV_HOLDOVER)) ∧
    (∃ (s : State) (tclk : Nat),
      (¬(s.time.jumps = []))) :=
  ⟨⟨runS, rq (zeros 4), ⟨0, 0⟩, by decide⟩,
    ⟨runS, rq (zeros 16), by decide⟩,
    ⟨runS, rq (zeros 4), by decide⟩,
    ⟨runS, rq ([0, 0, 1, 0, 1, 0, 0, 0] ++ b4 0 ++ b4 1 ++ zeros 8), 0, by decide⟩,
    ⟨clkS [], rq [1, 0, 0, 0], by decide⟩,
    ⟨runS, rq (zeros 4), by decide⟩,
    ⟨{ runS with time := { samples := [⟨0, 0, 1, false, false⟩] } }, 0, ⟨0, 0, 1, false, false⟩, [], by decide⟩,
    ⟨stR [(TIM_SERVO, 0x40000000)], 0, by decide⟩,
    ⟨stR [(TIM_STAT, 0x80000000)], by decide⟩,
    ⟨{ runS with time := { jumps := [⟨1, 0, false⟩] } }, 0, by decide⟩⟩

/-- The hypotheses of TimeAndPtpCommandsComplete can be met. -/
theorem witness_TimeAndPtpCommandsComplete_2 :
    (∃ (s : State) (sum : Int) (n : Nat) (b : Nat),
      let g := rdiv (sum * 15625) (1024 * n)
      let s' := setTime s { s.time with gDone := none }
      s.time.gDone = some (sum, n, b)) ∧
    (∃ (s : State),
      (gridState s = G_SLEW ∧ s.time.slew.natAbs ≤ stepRoom s)) ∧
    (∃ (s : State) (tclk : Nat) (stamp : Int),
      (s.time.loadDue ∧ gridState s = G_VERIFY ∧ s.resetAt = none ∧ pwrState s ≠ PS_ENTERING)) ∧
    (∃ (s : State) (tclk : Nat),
      let s' := setClock s tclk
      s'.rb TIM_UTCOFF 16 = true ∧
      utcSecond s' = 0) ∧
    (∃ (s : State) (tclk : Nat),
      let s' := setClock s tclk
      s'.rb TIM_UTCOFF 16 = false ∧
      s'.rb TIM_UTCOFF 17 = true ∧
      utcSecond s' = 86399) ∧
    (∃ (s : State),
      (s.rb GLB_PINCTRL 30 ∧ timeIsSet s ∧ pwrState s ≠ PS_HIBERNATE)) ∧
    (∃ (s : State),
      (s.time.pps)) ∧
    (∃ (s : State) (q : Req),
      accepted s 0x0A04 q (q.params.length == 12) (ptpSetChecks s q.params) = true) ∧
    (∃ (s : State) (q : Req),
      accepted s 0x0A05 q (q.params.length == 0) [] = true) ∧
    (∃ (s : State) (kind : Nat) (tclk : Nat),
      let s' := ptpWake (setClock s tclk)
      s'.ptp.on = true ∧
      kind = 0 ∧
      s'.ptp.port = PT_MASTER) :=
  ⟨⟨{ runS with time := { gDone := some (0, 1, 0) } }, 0, 1, 0, by decide⟩,
    ⟨stR [(TIM_GRID, 0x40000000)], by decide⟩,
    ⟨{ stR [(TIM_GRID, 0x60000000)] with time := { loadDue := true } }, 0, 0, by decide⟩,
    ⟨stR [(TIM_UTCOFF, 0x10000)], 0, by decide⟩,
    ⟨{ stR [(TIM_UTCOFF, 0x20000)] with time := { o := 86399 * 65536000000000 } }, 0, by decide⟩,
    ⟨stR [(GLB_PINCTRL, 0x40000000), (TIM_STAT, 0x10000000)], by decide⟩,
    ⟨{ runS with time := { pps := true } }, by decide⟩,
    ⟨{ runS with ifs := [(0, { en := true, ptp := true })] }, rq (zeros 12), by decide⟩,
    ⟨runS, rq [], by decide⟩,
    ⟨{ runS with ptp := { on := true, port := 6 } }, 0, 0, by decide⟩⟩

/-- The hypotheses of TimeAndPtpCommandsComplete can be met. -/
theorem witness_TimeAndPtpCommandsComplete_3 :
    (∃ (s : State) (kind : Nat) (tclk : Nat),
      let s' := ptpWake (setClock s tclk)
      s'.ptp.on = true ∧
      kind = 1 ∧
      s'.ptp.port = PT_MASTER) ∧
    (∃ (s : State) (kind : Nat) (tclk : Nat),
      let s' := ptpWake (setClock s tclk)
      s'.ptp.on = true ∧
      2 ≤ kind ∧
      (s'.ptp.p2p = true ∨ s'.ptp.port ∈ [PT_UNCAL, PT_SLAVE])) ∧
    (∃ (s : State),
      let p := s.ptp
      (p.on ∧ p.port ∈ [PT_LISTENING, PT_PASSIVE, PT_UNCAL, PT_SLAVE])) :=
  ⟨⟨{ runS with ptp := { on := true, port := 6 } }, 1, 0, by decide⟩,
    ⟨{ runS with ptp := { on := true, port := 9 } }, 2, 0, by decide⟩,
    ⟨{ runS with ptp := { on := true, port := 9 } }, by decide⟩⟩

/-- The hypotheses of TimeStampCommandsComplete can be met. -/
theorem witness_TimeStampCommandsComplete_1 :
    (∃ (s : State) (q : Req),
      let p := q.params
      let v := w32 (u32 p 4)
      accepted s 0x0A10 q (p.length == 8) [(decide (16 < u16 p 0) || !zeroAt p 2 2 || chctrlBad v, ST_BAD_PARAM)] = true) ∧
    (∃ (s : State) (q : Req),
      let l := bitList 17 (u32 q.params 0)
      accepted s 0x0A11 q (q.params.length == 8) [(decide (2 ^ 17 ≤ u32 q.params 0) || decide (1 < u32 q.params 4), ST_BAD_PARAM),
          (!(u32 q.params 4 == 1) && l.any (calibrating s), ST_BUSY), (!(u32 q.params 4 == 1) && l.contains 16 && ppsInUse s, ST_IN_USE)] = true ∧
      u32 q.params 4 = 0) ∧
    (∃ (s : State) (q : Req),
      let l := bitList 17 (u32 q.params 0)
      accepted s 0x0A11 q (q.params.length == 8) [(decide (2 ^ 17 ≤ u32 q.params 0) || decide (1 < u32 q.params 4), ST_BAD_PARAM),
          (!(u32 q.params 4 == 1) && l.any (calibrating s), ST_BUSY), (!(u32 q.params 4 == 1) && l.contains 16 && ppsInUse s, ST_IN_USE)] = true ∧
      u32 q.params 4 = 1) ∧
    (∃ (s : State) (q : Req),
      let p := q.params
      let c := u16 p 0
      let r := tdcPop s c (u16 p 2)
      accepted s 0x0A12 q (p.length == 4) [(decide (16 < c) || decide (u16 p 2 < 1 ∨ 254 < u16 p 2), ST_BAD_PARAM), ((takerOf s c).isSome, ST_IN_USE)] = true) ∧
    (∃ (s : State) (q : Req),
      let p := q.params
      let start := if (u8 p 1).testBit 1 then u64 p 12 else beatOrTick s + 1
      accepted s 0x0A13 q (p.length == 20) [(freqBad p, ST_BAD_PARAM),
          ((u8 p 1).testBit 1 && decide (u64 p 12 ≤ beatOrTick s), ST_STATE)] = true ∧
      (u8 p 1).testBit 3 = false) ∧
    (∃ (s : State) (q : Req),
      let p := q.params
      let u := freqUnit s (u8 p 0)
      let stop := beatOrTick s + 1
      accepted s 0x0A13 q (p.length == 20) [(freqBad p, ST_BAD_PARAM)] = true ∧
      (u8 p 1).testBit 3 = true) ∧
    (∃ (s : State) (q : Req),
      let f := u8 q.params 0
      accepted s 0x0A14 q (q.params.length == 4) [(decide (3 < f) || !zeroAt q.params 1 3, ST_BAD_PARAM)] = true) ∧
    (∃ (s : State) (q : Req),
      let c := u16 q.params 0
      accepted s 0x0A15 q (q.params.length == 4) [(decide (16 < c) || !zeroAt q.params 2 2, ST_BAD_PARAM)] = true) ∧
    (∃ (s : State) (c : Nat) (rise : Bool) (tclk : Nat) (half : Bool) (code : Nat) (cyc : Nat),
      let s' := setClock { s with cyc := cyc % 512 } tclk
      let t := stampTime s' c tclk half (code % 1024)
      (¬(17 ≤ c ∨ !tdcOn s ∨ calibrating s c ∨ blind s' c t))) ∧
    (∃ (s : State) (c : Nat) (level : Bool) (t : Nat) (rise : Bool) (cyc : Nat) (b : Nat),
      let s' := setTdcCh s c { tdcCh s c with last := none }
      let p := beatOf s' (t + 4 * 65536)
      (tdcCh s c).last = some (t, rise, cyc, b) ∧
      level ≠ rise ∧
      tdcOn s' = true ∧
      calibrating s' c = false) :=
  ⟨⟨runS, rq (zeros 4 ++ [1, 0, 0, 0]), by decide⟩,
    ⟨runS, rq (zeros 8), by decide⟩,
    ⟨runS, rq (zeros 4 ++ [1, 0, 0, 0]), by decide⟩,
    ⟨runS, rq [0, 0, 1, 0], by decide⟩,
    ⟨runS, rq (zeros 8 ++ [1, 0, 0, 0] ++ zeros 8), by decide⟩,
    ⟨runS, rq ([0, 8] ++ zeros 6 ++ [1, 0, 0, 0] ++ zeros 8), by decide⟩,
    ⟨runS, rq (zeros 4), by decide⟩,
    ⟨runS, rq (zeros 4), by decide⟩,
    ⟨runS, 0, false, 0, false, 0, 0, by decide⟩,
    ⟨{ runS with ext := { tdc := { chans := [(0, { last := some (0, true, 0, 0) })] } } }, 0, false, 0, true, 0, 0, by decide⟩⟩

/-- The hypotheses of TimeStampCommandsComplete can be met. -/
theorem witness_TimeStampCommandsComplete_2 :
    (∃ (s : State) (c : Nat) (hits : List Nat),
      c < 17 ∧
      calibrating s c = true ∧
      histBad hits = false) ∧
    (∃ (s : State) (c : Nat) (hits : List Nat),
      c < 17 ∧
      calibrating s c = true ∧
      histBad hits = true) ∧
    (∃ (s : State),
      let c := if s.ext.tdc.next % 17 = 16 ∧ ppsInUse s then 0 else s.ext.tdc.next % 17
      let s' := setTdc s { s.ext.tdc with next := (c + 1) % 17 }
      s.rf TDC_CTRL 15 0 ≠ 0 ∧
      calibrating s' c = false) ∧
    (∃ (s : State) (f : Nat),
      let u := freqUnit s f
      (¬(4 ≤ f ∨ !u.run ∨ u.endAt.isSome ∨ beatOrTick s < u.stop))) ∧
    (∃ (s : State) (f : Nat) (r : FreqRes),
      let t0 := setFreq s f { freqUnit s f with result := none, shown := r.start }
      let t1 := ((t0.wr64 (TDC_FRES_LO f) r.fres).wr (TDC_FRMS f) (w32 r.frms)).wr (TDC_FN f) (w32 r.fn)
      let t := fire (tdcCause t1 (17 + f)) (353 + f)
      (freqUnit s f).result = some r ∧
      f < 4 ∧
      r.due ≤ beatOrTick s) ∧
    (∃ (s : State) (secs : Nat),
      let steady := decide (16 ≤ s.time.rates.length) && decide (rateSpread s.time.rates * 1000000000 ≤ (s.rf TDC_WARM 15 0 : Int) * 2 ^ 40)
      (s.rb TDC_WARM 30 && rpllLocked s && decide (s.rf TDC_WARM 28 16 ≤ secs) && (servoSrc s == 0 || steady))) ∧
    (∃ (s : State) (pin : Nat) (level : Bool) (cyc : Nat),
      (pin < 32 ∧ fclkRuns s)) :=
  ⟨⟨stR [(TDC_CHSTAT 0, 2)], 0, [], by decide +kernel⟩,
    ⟨stR [(TDC_CHSTAT 0, 2)], 0, [131072], by decide +kernel⟩,
    ⟨stR [(TDC_CTRL, 1)], by decide⟩,
    ⟨{ runS with ext := { tdc := { units := [(0, { run := true })] } } }, 0, by decide⟩,
    ⟨{ runS with ext := { tdc := { units := [(0, { result := some ⟨0, 0, 0, 0, 0, 0, false, false, 0, 0, 0⟩ })] } } }, 0, ⟨0, 0, 0, 0, 0, 0, false, false, 0, 0, 0⟩, by decide⟩,
    ⟨stR [(TDC_WARM, 0x40000000), (CLK_LOCK, 1)], 0, by decide⟩,
    ⟨clkS [], 0, false, 0, by decide⟩⟩

/-- The hypotheses of ClockCommandsComplete can be met. -/
theorem witness_ClockCommandsComplete_1 :
    (∃ (s : State) (q : Req),
      let p := q.params
      let t := u64 p 8
      accepted s 0x0B00 q (p.length == 16) [(sclkBad s p, ST_BAD_PARAM), (r503 s || s.coolMode || restarting s || (t != 0 && decide (t ≤ s.beat)), ST_STATE),
         (anyFg s || aligning s, ST_BUSY)] = true) ∧
    (∃ (s : State) (q : Req),
      let p := q.params
      let v := w32 (u32 p 4)
      accepted s 0x0B01 q (p.length == 8) [(!quadPresent s (u8 p 0), ST_UNIT_ABSENT),
         (decide (31 < u8 p 1) || !zeroAt p 2 2 || bit v 30 || decide (fld v 23 12 < fld v 11 0), ST_BAD_PARAM)] = true) ∧
    (∃ (s : State) (q : Req),
      let p := q.params
      let qs := bitList 4 (u8 p 0)
      accepted s 0x0B02 q (p.length == 4) [(qs.any (fun k => !quadPresent s k), ST_UNIT_ABSENT),
         (decide (16 ≤ u8 p 0) || !zeroAt p 1 1 || u16 p 2 == 0x8000, ST_BAD_PARAM),
         (clkSrc s == 1 || qs.any (quadBypass s), ST_STATE), (gridState s != G_OFF || s.rb CLK_SYNC 31, ST_BUSY)] = true) ∧
    (∃ (s : State) (q : Req),
      accepted s 0x0B03 q (q.params.length == 0) [] = true) ∧
    (∃ (s : State) (cyc : Nat),
      let s' := { s with cyc := cyc % 512 }
      (s'.rb CLK_STAT 7)) ∧
    (∃ (s : State) (n : Nat) (cyc : Nat),
      (n < 12 ∧ synthPresent s n ∧ locked s n)) ∧
    (∃ (s : State) (n : Nat),
      (n < 16 ∧ synthPresent s n ∧ !locked s n ∧ mayLock s n)) ∧
    (∃ (s : State) (n : Nat),
      (n < 12 ∧ onBypass s n ∧ locked s (lockOf s n) ∧ refGood s n)) ∧
    (∃ (s : State) (q : Nat),
      (q < 4 ∧ s.rf (CLK_SMDLL q) 2 1 = 1 ∧ !locked s (1 + q))) ∧
    (∃ (s : State) (n : Nat),
      (n < 2 ∧ locked s (14 + n))) :=
  ⟨⟨runS, rq ([1, 0] ++ b2 8000 ++ zeros 12), by decide⟩,
    ⟨runS, rq (zeros 8), by decide⟩,
    ⟨runS, rq (zeros 4), by decide⟩,
    ⟨runS, rq [], by decide⟩,
    ⟨stR [(CLK_STAT, 0x80)], 0, by decide⟩,
    ⟨stR [(CLK_LOCK, 1)], 0, 0, by decide⟩,
    ⟨{ stR [(CLK_STAT, 0x80), (CLK_BYP, 1), (CLK_LOCK, 0)] with stepNo := 40 }, 0, by decide⟩,
    ⟨stR [(CLK_STAT, 0x80), (CLK_BYP, 1), (CLK_LOCK, 1)], 0, by decide⟩,
    ⟨stR [(CLK_SMDLL 0, 2), (CLK_LOCK, 0)], 0, by decide⟩,
    ⟨stR [(CLK_LOCK, 0xC000)], 0, by decide⟩⟩

/-- The hypotheses of ClockCommandsComplete can be met. -/
theorem witness_ClockCommandsComplete_2 :
    (∃ (s : State) (pin : Nat) (cyc : Nat),
      (pin < 2 ∧ locked s (12 + pin))) ∧
    (∃ (s : State) (r : PhaseRun),
      phaseEnding s = some r) :=
  ⟨⟨stR [(CLK_LOCK, 0x3000)], 0, 0, by decide⟩,
    ⟨{ runS with ext := { clk := { phases := [⟨rq [], [0], 1, 0⟩] } } }, ⟨rq [], [0], 1, 0⟩, by decide⟩⟩

/-- The hypotheses of DisplayCommandsComplete can be met. -/
theorem witness_DisplayCommandsComplete_1 :
    (∃ (s : State) (q : Req),
      let p := q.params
      accepted s 0x0C00 q (p.length == 24) [(!displayPresent s, ST_UNIT_ABSENT), (modeBad p, ST_BAD_PARAM), (r503 s, ST_STATE)] = true) ∧
    (∃ (s : State) (q : Req),
      let p := q.params
      let b : DspBuf := ⟨u64 p 0, u32 p 8, u8 p 12, u16 p 14, u16 p 16, u16 p 18, w32 (u32 p 20), !isNet q.src⟩
      accepted s 0x0C01 q (p.length == 24) [(!displayPresent s, ST_UNIT_ABSENT), (!zeroAt p 13 1 || bufBad s b, ST_BAD_PARAM), (decide (64 ≤ s.dsp.bufs.length), ST_BUSY)] = true) ∧
    (∃ (s : State) (q : Req),
      let h := u32 q.params 0
      accepted s 0x0C02 q (q.params.length == 4) [(!displayPresent s, ST_UNIT_ABSENT), ((bufOf s h).isNone, ST_BAD_PARAM), (handleInUse s h, ST_IN_USE)] = true) ∧
    (∃ (s : State) (q : Req),
      accepted s 0x0C03 q (q.params.length == 0) [(!displayPresent s, ST_UNIT_ABSENT), (r503 s, ST_STATE)] = true) ∧
    (∃ (s : State) (q : Req),
      let p := q.params
      let n := u16 p 4
      accepted s 0x0C04 q (decide (8 ≤ p.length) && p.length == 8 + n * (if u8 p 0 = 0 then 1 else 2)) [(!displayPresent s, ST_UNIT_ABSENT),
         (decide (1 < u8 p 0) || !zeroAt p 1 1 || !zeroAt p 6 2 || decide (256 < u16 p 2 + n), ST_BAD_PARAM)] = true) ∧
    (∃ (s : State) (q : Req) (sink : Option (List Byte)) (b : List Byte),
      let p := q.params
      let n := u8 p 1
      let s' := s.put (.aux (u8 p 0) (u32 p 2) (if u8 p 0 % 2 = 1 then p.drop 6 else []))
      accepted s 0x0C05 q (decide (6 ≤ p.length) && p.length == 6 + n) [(!displayPresent s, ST_UNIT_ABSENT), (decide (3 < u8 p 0) || n == 0 || decide (16 < n), ST_BAD_PARAM), (!s.rb DSP_STAT 8, ST_STATE)] = true ∧
      sink = some b) ∧
    (∃ (s : State) (q : Req),
      accepted s 0x0C06 q (q.params.length == 0) [(!displayPresent s, ST_UNIT_ABSENT)] = true) ∧
    (∃ (s : State) (v : Word),
      let t := if bit (putBit v 0 true) 1 then endStretch (setDsp s { s.dsp with dirty := true }) else s
      displayPresent s = true) ∧
    (∃ (s : State) (v : Word),
      let t := endStretch (setDsp s { s.dsp with dirty := true })
      displayPresent s = true) ∧
    (∃ (s : State) (h : EccHits),
      (dspAwake s && atCopy s.dsp)) :=
  ⟨⟨runS, rq mode1, by decide⟩,
    ⟨runS, rq (b8 (HBM0 + 607000 * 65536) ++ b4 8192 ++ [0, 0] ++ b2 64 ++ b2 1 ++ b2 64 ++ zeros 4), by decide⟩,
    ⟨{ runS with ext := { dsp := { bufs := [(5, ⟨0, 0, 0, 0, 0, 0, 0, true⟩)] } } }, rq [5, 0, 0, 0], by decide⟩,
    ⟨runS, rq [], by decide⟩,
    ⟨runS, rq (zeros 8), by decide⟩,
    ⟨stR [(DSP_STAT, 0x100)], rq [0, 1, 0, 0, 0, 0, 9], some [7], [7], by decide⟩,
    ⟨runS, rq [], by decide⟩,
    ⟨runS, 0, by decide⟩,
    ⟨runS, 0, by decide⟩,
    ⟨{ runS with ext := { dsp := { modeReq := mode1 } } }, ⟨[], []⟩, by decide⟩⟩

/-- The hypotheses of DisplayCommandsComplete can be met. -/
theorem witness_DisplayCommandsComplete_2 :
    (∃ (s : State) (under : List (Nat × Nat)) (h : EccHits),
      (dspAwake s && s.dsp.mode != [] && !atCopy s.dsp)) ∧
    (∃ (s : State),
      (dspAwake s && s.dsp.mode != [] && mayStretch s && !s.rb DSP_STAT 9 && !s.dsp.copied)) ∧
    (∃ (s : State),
      (displayPresent s ∧ s.rb DSP_STAT 8)) ∧
    (∃ (s : State),
      (displayPresent s)) ∧
    (∃ (s : State) (ok : Bool) (adaptive : Bool),
      (¬(dspLink s ≠ 1))) :=
  ⟨⟨{ runS with ext := { dsp := { mode := mode1, vtot := 525 } } }, [], ⟨[], []⟩, by decide⟩,
    ⟨{ stR [(DSP_STAT, 2), (DSP_CTRL, 2)] with ext := { dsp := { mode := mode1, vtot := 525, still := 120, async := true } } }, by decide⟩,
    ⟨stR [(DSP_STAT, 0x100)], by decide⟩,
    ⟨runS, by decide⟩,
    ⟨stR [(DSP_STAT, 1)], false, false, by decide⟩⟩

/-- The hypotheses of MonitorCommandsComplete can be met. -/
theorem witness_MonitorCommandsComplete :
    (∃ (s : State) (q : Req),
      let p := q.params
      let ws := monWords p (u8 p 0)
      accepted s 0x0D00 q (p.length == 208) [(decide (3 < u8 p 0) || !zeroAt p 1 3 || ws.any (fun r => r.1.2.2 r.2 || r.2 &&& ~~~ w32 r.1.2.1 != 0), ST_BAD_PARAM)] = true) ∧
    (∃ (s : State) (q : Req),
      accepted s 0x0D01 q (q.params.length == 4) [(decide (16 ≤ u32 q.params 0), ST_BAD_PARAM)] = true) ∧
    (∃ (s : State) (q : Req),
      let m := u8 q.params 0
      accepted s 0x0D02 q (q.params.length == 4) [(decide (3 < m) || !zeroAt q.params 1 3, ST_BAD_PARAM)] = true) ∧
    (∃ (s : State) (q : Req),
      let p := q.params
      let v := w32 (u32 p 0)
      accepted s 0x0D03 q (p.length == 20) [(fwBad v || v &&& ~~~ 0xC000FEFE#32 != 0, ST_BAD_PARAM)] = true) ∧
    (∃ (s : State) (m : Nat),
      let c := monCore s m
      let v := s.rd (MON_CTRL m)
      let now := beatOrTick s
      m < 4 ∧
      monAwake s = true ∧
      bit v 31 = true ∧
      fastOn s (pairOf m) = false ∧
      (bit v 30 = true → now % 2 ^ fld v 21 17 = 0 ∧ c.startAt ≠ some now) ∧
      c.pass = none) ∧
    (∃ (s : State) (m : Nat) (codes : List Nat) (before : Bool) (x : Nat × Word × Word) (t : List (Nat × Word × Word)),
      let s' := if (monCore s m).flight = [] then moveOn s m true else s
      m < 4 ∧
      (monCore s' m).flight = x :: t) ∧
    (∃ (s : State) (m : Nat) (last : Bool),
      (m < 4 ∧ s.ext.mon.req.contains m ∧ monAwake s)) ∧
    (∃ (s : State) (m : Nat) (code : Nat) (skip : Nat),
      let p := pairOf m
      let i := Sparse.get (fun _ => 0) s.ext.mon.fwIdx p + skip
      m < 4 ∧
      fastOn s p = true ∧
      (monCore s (2 * p)).inj = none ∧
      (monCore s (2 * p + 1)).inj = none ∧
      monAwake s = true ∧
      i % 2 = m % 2) :=
  ⟨⟨runS, rq (zeros 16 ++ (List.replicate 16 (b4 4)).flatten ++ zeros 64 ++ (List.replicate 4 (b4 4)).flatten ++ zeros 48), by decide⟩,
    ⟨runS, rq (zeros 4), by decide⟩,
    ⟨runS, rq (zeros 4), by decide⟩,
    ⟨runS, rq (zeros 20), by decide⟩,
    ⟨stR [(MON_CTRL 0, 0x80000000)], 0, by decide⟩,
    ⟨{ runS with ext := { mon := { cores := [(0, { flight := [(0, 0, 0)] })] } } }, 0, [], false, (0, 0, 0), [], by decide⟩,
    ⟨{ runS with ext := { mon := { req := [0] } } }, 0, false, by decide⟩,
    ⟨stR [(MON_FWCTRL, 0x80000000)], 0, 0, 0, by decide⟩⟩

/-- The hypotheses of PowerAndResetCommandsComplete can be met. -/
theorem witness_PowerAndResetCommandsComplete_1 :
    (∃ (s : State) (q : Req),
      accepted s 0x0E00 q (q.params.length == 16) (pwrChecks s q) = true) ∧
    (∃ (s : State) (us : Nat) (c : Nat) (b : Nat),
      s.pwrAt = some (c, b) ∧
      b ≤ s.beat + 1 ∧
      s.haltDue = false) ∧
    (∃ (s : State) (us : Nat),
      (entryMay s)) ∧
    (∃ (s : State) (us : Nat) (retOk : Bool),
      let s' := skipAbsent 40 s
      stepMay s = true ∧
      s.haltDue = false ∧
      s'.stepNo < 40) ∧
    (∃ (s : State) (us : Nat),
      let s' := skipAbsent 40 s
      (stepMay s ∧ s'.stepNo < 40)) ∧
    (∃ (s : State) (us : Nat),
      fclkRuns s = true ∧
      s.firstRunAt = some (s.beat + 1) ∧
      waking s = true) ∧
    (∃ (s : State) (us : Nat),
      fclkRuns s = true ∧
      s.firstRunAt = some (s.beat + 1) ∧
      waking s = false ∧
      pwrState s = PS_BOOTING) ∧
    (∃ (s : State) (q : Req),
      accepted s 0x0E01 q (q.params.length == 0) [] = true) ∧
    (∃ (s : State) (q : Req),
      let p := q.params
      accepted s 0x0E02 q (p.length == 4) [(decide (2 < u8 p 0) || !zeroAt p 1 3, ST_BAD_PARAM), (decide (pwrState s ∉ [PS_RUN, PS_IDLE]), ST_STATE),
         (s.resetAt.isSome || inTransition s || restarting s, ST_BUSY)] = true) ∧
    (∃ (s : State),
      s.rb PWR_WAKECFG 0 = true ∧
      pwrState s = PS_ENTERING) :=
  ⟨⟨runS, rq (1 :: zeros 15), by decide⟩,
    ⟨{ runS with pwrAt := some (2, 0) }, 0, 2, 0, by decide⟩,
    ⟨stR [(PWR_STAT, 0xA0000000)], 0, by decide⟩,
    ⟨stR [(PWR_STAT, 0)], 0, false, by decide⟩,
    ⟨stR [(PWR_STAT, 0)], 0, by decide⟩,
    ⟨{ clkS [(PWR_STAT, 0xC0000000)] with firstRunAt := some 1001 }, 0, by decide⟩,
    ⟨{ clkS [(PWR_STAT, 0)] with firstRunAt := some 1001 }, 0, by decide⟩,
    ⟨runS, rq [], by decide⟩,
    ⟨runS, rq (zeros 4), by decide⟩,
    ⟨stR [(PWR_STAT, 0xA0000000), (PWR_WAKECFG, 1)], by decide⟩⟩

/-- The hypotheses of PowerAndResetCommandsComplete can be met. -/
theorem witness_PowerAndResetCommandsComplete_2 :
    (∃ (s : State),
      s.rb PWR_WAKECFG 0 = true ∧
      pwrState s = PS_STANDBY ∧
      wakeTo s ≠ PS_STANDBY ∧
      latchSet s = false) ∧
    (∃ (s : State),
      s.rb PWR_WAKECFG 0 = true ∧
      pwrState s = PS_HIBERNATE) ∧
    (∃ (s : State),
      (decide (pwrState s ∈ [PS_STANDBY, PS_HIBERNATE]) && s.rd PWR_OWLTMR != 0)) ∧
    (∃ (s : State) (refin : Option Nat) (starts : List Nat),
      (¬(s.bt.porst || s.bt.off))) ∧
    (∃ (s : State) (refin : Option Nat) (starts : List Nat) (strap : Bool),
      (s.bt.porst)) ∧
    (∃ (s : State) (idOk : Bool),
      (¬(s.bt.porst || s.bt.off || fwReady s || !bootedSlot s || decide (s.stepNo < 5)))) :=
  ⟨⟨stR [(PWR_STAT, 0x60000000), (PWR_WAKECFG, 1)], by decide⟩,
    ⟨stR [(PWR_STAT, 0x80000000), (PWR_WAKECFG, 1)], by decide⟩,
    ⟨stR [(PWR_STAT, 0x60000000), (PWR_OWLTMR, 5)], by decide⟩,
    ⟨runS, none, [], by decide⟩,
    ⟨State.reset, none, [], false, by decide⟩,
    ⟨{ runS with stepNo := 5 }, false, by decide⟩⟩

/-- The hypotheses of FaultCommandsComplete can be met. -/
theorem witness_FaultCommandsComplete_1 :
    (∃ (s : State) (q : Req),
      accepted s 0x0E10 q (q.params.length == 0) [] = true) ∧
    (∃ (s : State) (q : Req),
      accepted s 0x0E11 q (q.params.length == 68) [(decide (16 ≤ u8 q.params 0) || !zeroAt q.params 1 3, ST_BAD_PARAM)] = true) ∧
    (∃ (s : State) (q : Req),
      let src := u8 q.params 0
      let v := u8 q.params 1
      accepted s 0x0E12 q (q.params.length == 4) [(srcAbsent s src, ST_UNIT_ABSENT), (!zeroAt q.params 2 2 || cfgByteBad src v, ST_BAD_PARAM)] = true) ∧
    (∃ (s : State) (q : Req),
      let mx := u16 q.params 4
      let r := logFrom s (u32 q.params 0) mx
      accepted s 0x0E13 q (q.params.length == 8) [(decide (mx < 1 ∨ 253 < mx) || !zeroAt q.params 6 2, ST_BAD_PARAM)] = true) ∧
    (∃ (s : State) (q : Req),
      accepted s 0x0E14 q (q.params.length == 0) [] = true) ∧
    (∃ (s : State) (q : Req),
      let p := q.params
      accepted s 0x0E15 q (p.length == 8) [(srcAbsent s (u8 p 0), ST_UNIT_ABSENT), (decide (3 < u8 p 1) || decide (1 < u32 p 4), ST_BAD_PARAM),
         (!s.rb FLT_TEST 0, ST_LOCKED)] = true) ∧
    (∃ (s : State) (q : Req),
      let l := bitList 64 (u64 q.params 0)
      accepted s 0x0E16 q (q.params.length == 8) [(l.any (fun e => !enginePresent s e), ST_UNIT_ABSENT)] = true) ∧
    (∃ (s : State) (v : Word),
      (s.rb FLT_TEST 0)) ∧
    (∃ (s : State) (n : Nat) (v : Word),
      (n < 8)) ∧
    (∃ (s : State) (n : Nat) (v : Word),
      (n < 8)) :=
  ⟨⟨runS, rq [], by decide⟩,
    ⟨runS, rq (zeros 68), by decide⟩,
    ⟨runS, rq [80, 0x80, 0, 0], by decide⟩,
    ⟨runS, rq [0, 0, 0, 0, 1, 0, 0, 0], by decide⟩,
    ⟨runS, rq [], by decide⟩,
    ⟨stR [(FLT_TEST, 1)], rq (zeros 8), by decide⟩,
    ⟨runS, rq (zeros 8), by decide⟩,
    ⟨stR [(FLT_TEST, 1)], 0, by decide⟩,
    ⟨runS, 0, 0, by decide⟩,
    ⟨runS, 0, 0, by decide⟩⟩

/-- The hypotheses of FaultCommandsComplete can be met. -/
theorem witness_FaultCommandsComplete_2 :
    (∃ (s : State) (src : Nat) (code : Nat) (cyc : Nat),
      let s' := { s with cyc := cyc % 512 }
      srcReserved src = false ∧
      srcAbsent s' src = false ∧
      s'.rb (FLT_RAILBAD (src / 32)) (src % 32) = false) ∧
    (∃ (s : State) (src : Nat),
      (src < 256)) :=
  ⟨⟨runS, 0, 0, 0, by decide⟩,
    ⟨runS, 0, by decide⟩⟩

/-- The hypotheses of SecurityCommandsComplete can be met. -/
theorem witness_SecurityCommandsComplete_1 :
    (∃ (s : State) (q : Req),
      accepted s 0x0F00 q (q.params.length == 0) [] = true) ∧
    (∃ (s : State) (q : Req),
      let p := q.params
      let h := fuHeader s p
      let c := imageCause s h (fuBody s p)
      accepted s 0x0F01 q (p.length == 16) [(fuAddr p % 4096 != 0 || !zeroAt p 12 4 || decide (fuLength p ≤ 4096) || decide (0x3000000 < fuLength p) ||
          !inGeneral s (fuAddr p) (fuLength p), ST_BAD_PARAM), (updating s, ST_BUSY)] = true) ∧
    (∃ (s : State) (result : Nat) (u : Update),
      s.update = some u) ∧
    (∃ (s : State) (q : Req) (w : At),
      let s' := setClock { s with cyc := w.cyc % 512 } w.tclk
      let m := quote s' q.params
      accepted s' 0x0F02 q (q.params.length == 32) [(s'.identBad, ST_HW_ERROR)] = true) ∧
    (∃ (s : State) (q : Req) (n : Nat),
      accepted s 0x0F03 q true [] = true ∧
      q.params.length = 780 ∧
      kxSlot s (kxOp q.params) = some n) ∧
    (∃ (s : State) (q : Req),
      accepted s 0x0F04 q (q.params.length == 0) [(q.session == 0, ST_STATE)] = true) ∧
    (∃ (s : State) (n : Nat),
      ((s.session n).isSome)) ∧
    (∃ (s : State) (q : Req),
      let p := q.params
      accepted s 0x0F05 q (p.length == 392) [(decide (7 < u8 p 0) || u8 p 1 != 0, ST_BAD_PARAM)] = true) ∧
    (∃ (s : State) (q : Req),
      accepted s 0x0F06 q (q.params.length == 0) [] = true) ∧
    (∃ (s : State) (q : Req),
      accepted s 0x0F07 q (q.params.length == 0) [(updating s, ST_BUSY)] = true) :=
  ⟨⟨runS, rq [], by decide⟩,
    ⟨runS, rq (b8 (HBM0 + 607000 * 65536) ++ b4 8192 ++ zeros 4), by decide⟩,
    ⟨{ runS with update := some ⟨1, {}⟩ }, 0, ⟨1, {}⟩, by decide⟩,
    ⟨runS, rq (zeros 32), ⟨0, 0⟩, by decide⟩,
    ⟨runS, rq (zeros 780), 1, by decide⟩,
    ⟨runS, { rq [] with session := 1 }, by decide⟩,
    ⟨{ runS with sessions := [(1, some ⟨0, 0, true, 0, 0, 0⟩)] }, 1, by decide⟩,
    ⟨runS, rq (zeros 392), by decide⟩,
    ⟨runS, rq [], by decide⟩,
    ⟨runS, rq [], by decide⟩⟩

/-- The hypotheses of SecurityCommandsComplete can be met. -/
theorem witness_SecurityCommandsComplete_2 :
    (∃ (s : State) (q : Req),
      let n := u8 q.params 0
      accepted s 0x0F08 q (q.params.length == 4) [(decide (2 < n) || !zeroAt q.params 1 3, ST_BAD_PARAM), (n == 2 && s.fuses.ownerHash.isNone, ST_STATE)] = true) ∧
    (∃ (s : State) (q : Req),
      accepted s 0x0F09 q (q.params.length == 392) (okChecks s q.params) = true) ∧
    (∃ (s : State) (q : Req),
      accepted s 0x0F0A q true [(tuLocked s, ST_LOCKED)] = true ∧
      q.params = []) ∧
    (∃ (s : State) (q : Req) (c : BitVec 256),
      accepted s 0x0F0A q true [(tuLocked s, ST_LOCKED)] = true ∧
      q.params.length = 384 ∧
      s.challenge = some c) :=
  ⟨⟨runS, rq (zeros 4), by decide⟩,
    ⟨runS, rq (zeros 392), by decide⟩,
    ⟨stR [(FLT_TEST, 2)], rq [], by decide⟩,
    ⟨{ stR [(FLT_TEST, 2)] with challenge := some 5 }, rq (zeros 384), 5, by decide⟩⟩

/-- The hypotheses of MailboxAndLockAccessesComplete can be met. -/
theorem witness_MailboxAndLockAccessesComplete_1 :
    (∃ (s : State) (n : Nat) (v : Word),
      s.pci.d3 = false ∧
      n < 8 ∧
      fwReady s = true ∧
      hcFull s n = false ∧
      24 ≤ fld v 12 0 ∧
      fld v 12 0 ≤ 4096) ∧
    (∃ (s : State) (m : Master) (addr : Nat) (bytes : List Byte),
      m = .host ∧
      s.pci.d3 = false ∧
      bytes ≠ [] ∧
      addr + bytes.length ≤ boxEnd addr ∧
      0x80000 ≤ addr ∧
      addr < 0x88000 ∧
      fwReady s = true ∧
      hcFull s ((addr - 0x80000) / 0x1000) = false) ∧
    (∃ (s : State) (m : Master) (addr : Nat) (bytes : List Byte) (i : Nat),
      m = .mgmt i ∧
      bytes ≠ [] ∧
      addr + bytes.length ≤ boxEnd addr ∧
      0x88000 ≤ addr ∧
      addr < 0x90000 ∧
      fwReady s = true ∧
      hrFull s ((addr - 0x88000) / 0x1000) = false) ∧
    (∃ (s : State) (m : Master) (addr : Nat) (bytes : List Byte),
      let e := (addr - 0x90000) / 0x1000
      bytes ≠ [] ∧
      addr + bytes.length ≤ boxEnd addr ∧
      0x90000 ≤ addr ∧
      addr < 0xD0000 ∧
      engFenced s e = false ∧
      0x800 ≤ (addr - 0x90000) % 0x1000 ∧
      m = .ppe e ∧
      outFull s e = false) ∧
    (∃ (s : State) (m : Master) (addr : Nat) (bytes : List Byte),
      let e := (addr - 0x90000) / 0x1000
      m = .host ∧
      s.pci.d3 = false ∧
      bytes ≠ [] ∧
      addr + bytes.length ≤ boxEnd addr ∧
      0x90000 ≤ addr ∧
      addr < 0xD0000 ∧
      engFenced s e = false ∧
      (addr - 0x90000) % 0x1000 < 0x800 ∧
      inFull s e = false) ∧
    (∃ (s : State) (m : Master) (addr : Nat) (bytes : List Byte) (i : Nat),
      let e := (addr - 0x90000) / 0x1000
      m = .mgmt i ∧
      bytes ≠ [] ∧
      addr + bytes.length ≤ boxEnd addr ∧
      0x90000 ≤ addr ∧
      addr < 0xD0000 ∧
      engFenced s e = false ∧
      (addr - 0x90000) % 0x1000 < 0x800 ∧
      inFull s e = false) ∧
    (∃ (s : State) (n : Nat) (len : Nat),
      nextDoorbell s = some (n, len) ∧
      fwReady s = true) ∧
    (∃ (s : State) (p : Peer) (pk : List Byte) (t : State),
      let s' := { s with netQueue := s.netQueue.erase (p, pk) }
      let q := pkReq pk (.net p) 0
      s.netQueue.find? (netFree s) = some (p, pk) ∧
      fwReady s = true ∧
      headerCheck s' pk = some 0 ∧
      authOk s' pk true = true ∧
      replayCheck s' q.session q.seq.toNat = some t) ∧
    (∃ (s : State) (n : Nat),
      s.pci.d3 = false ∧
      (n < 8)) ∧
    (∃ (s : State) (box : Nat),
      s.rf MBX_TMO 15 0 ≠ 0 ∧
      box < 8 ∧
      hcFull s box = true) :=
  ⟨⟨stR [(MBX_STAT, 0x80000000)], 0, 24, by decide⟩,
    ⟨stR [(MBX_STAT, 0x80000000)], .host, 0x80000, [1, 2, 3, 4], by decide⟩,
    ⟨stR [(MBX_STAT, 0x80000000)], .mgmt 1, 0x88000, [1, 2, 3, 4], 1, by decide⟩,
    ⟨stR [(PWR_STEP 34, 0x40000000)], .ppe 0, 0x90800, [1, 2, 3, 4], by decide⟩,
    ⟨stR [(PWR_STEP 34, 0x40000000)], .host, 0x90000, [1, 2, 3, 4], by decide⟩,
    ⟨stR [(PWR_STEP 34, 0x40000000)], .mgmt 2, 0x90000, [1, 2, 3, 4], 2, by decide⟩,
    ⟨{ stR [(MBX_STAT, 0x80000000)] with doorbells := [(0, 24)] }, 0, 24, by decide⟩,
    ⟨{ stR [(MBX_STAT, 0x80000000)] with netQueue := [(peer0, kxPk)] }, peer0, kxPk, _, by decide, by decide, by decide, by decide, rfl⟩,
    ⟨runS, 0, by decide⟩,
    ⟨stR [(MBX_HCSTAT 0, 1)], 0, by decide⟩⟩

/-- The hypotheses of MailboxAndLockAccessesComplete can be met. -/
theorem witness_MailboxAndLockAccessesComplete_2 :
    (∃ (s : State) (box : Nat),
      let e := box - 16
      let host := s.rf (MBX_PESTAT e) 15 9 == 0
      let sent := s.bt.fwMsgs.filter (fun x => x.1 == e)
      let t := (setIn { s with bt := { s.bt with fwMsgs := s.bt.fwMsgs.filter (fun x => x.1 != e) } } e false).setB (MBX_PESTAT e) 6 true
      s.rf MBX_TMO 15 0 ≠ 0 ∧
      16 ≤ box ∧
      box < 80 ∧
      inFull s e = true) ∧
    (∃ (s : State) (m : Master) (c : Nat) (v : Word),
      let l := (bitList 8 v.toNat).map (fun j => 8 * c + j)
      (m = .host → s.pci.d3 = false) ∧
      c < 8 ∧
      clusterPresent s c = true ∧
      mayRing m = true ∧
      (∀ e ∈ l, engFenced s e = false ∧ inFull s e = false)) ∧
    (∃ (s : State) (m : Master) (e : Nat),
      (m = .host → s.pci.d3 = false) ∧
      (e < 64 ∧ enginePresent s e ∧ outFull s e)) ∧
    (∃ (s : State) (m : Master) (which : Nat),
      let a := if which = 0 then MBX_DROPCNT else if which = 1 then MBX_AUTHCNT else MBX_REPLAYCNT
      (m = .host → s.pci.d3 = false)) ∧
    (∃ (s : State) (n : Nat) (ms : List Master),
      let up := ms.filter (fun m => !(decide (m = .host) && s.pci.d3))
      n < 256) ∧
    (∃ (s : State) (m : Master) (n : Nat) (v : Word),
      (m = .host → s.pci.d3 = false) ∧
      (lockable m ∧ lockOwner s n = some (masterId m) ∧ fld v 6 0 = masterId m)) :=
  ⟨⟨stR [(MBX_PESTAT 0, 1)], 16, by decide⟩,
    ⟨runS, .host, 0, 0, by decide⟩,
    ⟨stR [(MBX_PESTAT 0, 4)], .host, 0, by decide⟩,
    ⟨runS, .host, 0, by decide⟩,
    ⟨runS, 0, [], by decide⟩,
    ⟨{ runS with locks := [(0, 1)] }, .host, 0, 0, by decide⟩⟩

/-- The hypotheses of RegisterAccessesComplete can be met. -/
theorem witness_RegisterAccessesComplete_1 :
    (∃ (s : State) (m : Master) (addr : Span) (tclk : Nat),
      (m = .host → s.pci.d3 = false) ∧
      addr.base = TIM_RAW_LO ∧
      addr.len = 4) ∧
    (∃ (s : State) (m : Master) (addr : Span) (tclk : Nat),
      (m = .host → s.pci.d3 = false) ∧
      addr.base % 4 = 0 ∧
      addr.len = 4 ∧
      inWindow addr.base = false ∧
      (0x1710000 ≤ addr.base → 0x1720000 ≤ addr.base)) ∧
    (∃ (s : State) (m : Master) (addr : Span) (tclk : Nat),
      (m = .host → s.pci.d3 = false) ∧
      addr.base % 4 = 0 ∧
      addr.len = 4 ∧
      0x1710000 ≤ addr.base ∧
      addr.base < 0x1720000) ∧
    (∃ (s : State) (m : Master) (addr : Span) (tclk : Nat),
      (m = .host → s.pci.d3 = false) ∧
      inWindow addr.base = true ∧
      windowOk s m addr.len s.pci.mrrs = true) ∧
    (∃ (s : State) (m : Master) (cyc : Nat),
      (m = .host → s.pci.d3 = false)) ∧
    (∃ (s : State) (m : Master) (tclk : Nat),
      (m = .host → s.pci.d3 = false)) ∧
    (∃ (s : State) (m : Master) (core : Nat),
      (core < 32)) ∧
    (∃ (s : State) (m : Master) (ch : Nat),
      (ch < 17)) ∧
    (∃ (s : State) (m : Master) (v : Word),
      (m = .host → s.pci.d3 = false) ∧
      512 ≤ fld v 9 0) ∧
    (∃ (s : State) (m : Master) (addr : Nat) (v : Word) (r : RegRow) (l : List Nat) (g : Nat),
      (m = .host → s.pci.d3 = false) ∧
      regAt addr = some (r, l) ∧
      groupOf addr = some g ∧
      addrAbsent s addr = false ∧
      groupLocked s g = false) :=
  ⟨⟨runS, .host, ⟨TIM_RAW_LO, 4⟩, 0, by decide⟩,
    ⟨runS, .host, ⟨DEN_LASTFLUSH_LO, 4⟩, 0, by decide⟩,
    ⟨runS, .host, ⟨0x1710000, 4⟩, 0, by decide⟩,
    ⟨runS, .host, ⟨0x3080000, 4⟩, 0, by decide⟩,
    ⟨runS, .host, 0, by decide⟩,
    ⟨runS, .host, 0, by decide⟩,
    ⟨runS, .host, 0, by decide⟩,
    ⟨runS, .host, 0, by decide⟩,
    ⟨runS, .host, 600, by decide⟩,
    ⟨runS, .host, PTH_CTRL 0, 0, _, _, 0, by decide, rfl, by decide, by decide, by decide⟩⟩

/-- The hypotheses of RegisterAccessesComplete can be met. -/
theorem witness_RegisterAccessesComplete_2 :
    (∃ (s : State) (m : Master) (addr : Nat) (bytes : List Byte),
      (m = .host → s.pci.d3 = false) ∧
      inWindow addr = false ∧
      addr % 4 = 0 ∧
      bytes.length = 4) ∧
    (∃ (s : State) (m : Master) (addr : Nat) (bytes : List Byte),
      (m = .host → s.pci.d3 = false) ∧
      inWindow addr = false ∧
      addr % 4 = 0 ∧
      bytes.length = 8) ∧
    (∃ (s : State) (m : Master) (addr : Nat) (bytes : List Byte),
      (m = .host → s.pci.d3 = false) ∧
      inWindow addr = true ∧
      windowOk s m bytes.length s.pci.mps = true) :=
  ⟨⟨runS, .host, 0, [0, 0, 0, 0], by decide⟩,
    ⟨runS, .host, 0, zeros 8, by decide⟩,
    ⟨runS, .host, 0x3080000, [1, 2], by decide⟩⟩

-- Results: one step each, on a small state; the expected values are the spec's.

/-- What the last command answered: the state, or the state before when it stopped. -/
def after (s : State) (c : Instr) : State :=
  match exec c s with
  | .next t => t
  | _ => s
/-- The status in reply mailbox 0 (R66). -/
def statusOf (s : State) : Nat := leAt (s.mbxRead 0x88018 2) 0 2

/-- The addresses of the worked case of R582. -/
theorem test_register_addresses : CNV_CALCNT 19 = 0x01013010 ∧ SLC_LFFT 5 1 = 0x0140A204 ∧ TRG_STAT 20 = 0x0170502C ∧
    PPE_STAT 40 = 0x02280004 ∧ MON_RES 2 17 = 0x03400944 := by decide
/-- The worked case of R97: PPE12 releases lock 40, then the host wins over PPE3. -/
theorem test_lock_release : lockOwner (after (setLock runS 40 (some 28)) (.glbLockRelease (.ppe 12) 40 28)) 40 = none := by decide
theorem test_lock_read : (after runS (.glbLockRead 40 [.ppe 3, .host])).out =
    [.readData .host 0x80000000, .readData (.ppe 3) 0] := by decide
/-- The worked case of R69. -/
theorem test_replay_window :
    let w : Session := ⟨0, 0, false, 5000, 1, 0⟩
    let w1 := (replayStep w 5003).getD w
    let w2 := (replayStep w1 5001).getD w
    w1.high = 5003 ∧ w2.high = 5003 ∧ replayStep w2 5001 = none ∧ replayStep w2 3979 = none ∧
      (replayStep w2 3980).isSome = true ∧ replayStep w2 (5003 + 2 ^ 31) = none ∧
      (replayStep { w with high := 0xFFFFFFFE } 1).isSome = true := by decide
/-- PING echoes its parameters behind a REPLY header and a status (R66, R75). -/
theorem test_ping : (after runS (.ping ⟨.mailbox 0, 0, 7, 0, [1, 2]⟩)).mbxRead 0x88000 30 =
    [0x50, 0xB1, 1, 1, 0, 0, 0, 0, 7, 0, 0, 0, 0, 0, 6, 0] ++ zeros 8 ++ [0, 0, 0, 0, 1, 2] := by decide
theorem test_ping_mailbox : (after runS (.ping ⟨.mailbox 0, 0, 7, 0, [1, 2]⟩)).rd (MBX_HRSTAT 0) = 0x1E0001 := by decide
/-- A command of an older host epoch is executed and its reply discarded (R91). -/
theorem test_stale_epoch : (after (stR [(MBX_EPOCH, 2)]) (.ping (rq [1]))).mbx = [] := by decide
/-- Statuses of R8: while BOOTING, for a wrong length, an absent unit, a bad parameter. -/
theorem test_booting : statusOf (after State.reset (.commitStatus (rq []))) = 0x0108 := by decide
theorem test_bad_length : statusOf (after runS (.pthStatus (rq []))) = 0x0102 := by decide
theorem test_absent : statusOf (after { runS with fuses := { runS.fuses with cap0 := 0x00040F43 } } (.pthStatus (rq [20, 0, 0, 0]))) = 0x0104 := by decide
theorem test_bad_param : statusOf (after runS (.pthStatus (rq [32, 0, 0, 0]))) = 0x0103 := by decide
theorem test_commit_empty : statusOf (after runS (.commit (rq (zeros 24)) ⟨0, 0⟩)) = 0x0103 := by decide
/-- The worked case of R55: a next-beat commit of group 6 that arrives at cycle 503 of beat 1,000, in the closing window,
takes effect in beat 1,002, late. -/
theorem test_commit_ticket : (after (clkS []) (.commit (rq (b8 64 ++ zeros 16)) ⟨503, 0⟩)).tickets.map
    (fun t => (t.groups, t.target, t.arrCyc, t.late)) = [(64, 1002, 503, true)] := by decide
/-- A shadow write is not in force (R43). -/
theorem test_shadow : let t := after runS (.shadowRegisterWrite .host (PTH_NCOPH 3) 5)
    t.rd (PTH_NCOPH 3) = 5 ∧ t.rdA (PTH_NCOPH 3) = 0 := by decide
/-- Software events (R586): below 512 nothing, from 512 on the event. -/
theorem test_swevt_low : (after runS (.glbSwevtWrite .host 511)).out = [] := by decide
theorem test_swevt : (after runS (.glbSwevtWrite .host 700)).out = [.event 700] := by decide
/-- BAR2 (R335). -/
theorem test_bar2 : (after (stR [(MEM_STAT, 1)]) (.bar2Access true 0x40000000 2 [0xAB, 0xCD] ⟨[], []⟩)).hbmRead 0x1040000000 3 =
    [0xAB, 0xCD, 0] := by decide
theorem test_bar2_top : (after (stR [(MEM_STAT, 1)]) (.bar2Access false (48 * 2 ^ 30) 2 [] ⟨[], []⟩)).out =
    [.readBytes .host [255, 255]] := by decide
/-- A masked vector is pending once and sends one message when it is unmasked (R379). -/
theorem test_vector_pending : (vector (vector runS 5) 5).pba = [5] := by decide
theorem test_msix_unmask : (after { runS with pba := [5], pci := { runS.pci with msixEn := true }, msix := [(80, 0x1000), (88, 7)] }
    (.msixUnmask 5)).out = [.msi 5 0x1000 7] := by decide
/-- The group of the worked case of R316: A_max 0.1, 0.01, 10^-4.5 and 10^-5.5 code as 3,277, 328, 1 and 0 with X = 49. -/
theorem test_bfp12 : let a (n d : Nat) : Nat := n * 2 ^ 119 / d
    bfpScale true (a 1 10) 12 = -15 ∧ bfpMant true (a 1 10) (-15) = 3277 ∧ bfpMant true (a 1 100) (-15) = 328 ∧
      bfpMant true (a 3162 100000000) (-15) = 1 ∧ bfpMant true (a 3162 1000000000) (-15) = 0 := by decide
/-- The rank filter of the worked case of R185: bin 103 (index 3) has median −80.0 from bin 104; bin 102 has −80.0. -/
theorem test_rank_filter : let db (x : Int) : Int := 128 * x / 10
    let lg := [db (-800), db (-810), db (-790), db (-520), db (-800), db (-805), db (-800)]
    rankBins lg 2 3 = (db (-800), 4) ∧ (rankBins lg 2 2).1 = db (-800) := by decide
/-- A lock, an acknowledgement and a latch: MBX_HRACK empties the reply mailbox (R78). -/
theorem test_hrack : (after (stR [(MBX_HRSTAT 3, 0x1E0001)]) (.mbxHrackWrite 3)).rd (MBX_HRSTAT 3) = 0 := by decide
/-- A doorbell fills the mailbox with the host epoch (R78); a length of 23 is refused with REJECT (R80). -/
theorem test_doorbell : let t := after (stR [(MBX_STAT, 0x80000000), (MBX_EPOCH, 9)]) (.mbxHcdbWrite 2 24)
    t.rd (MBX_HCSTAT 2) = 0x90001 ∧ t.doorbells = [(2, 24)] := by decide
theorem test_doorbell_refused : let t := after (stR [(MBX_STAT, 0x80000000)]) (.mbxHcdbWrite 2 23)
    t.rb (MBX_HCSTAT 2) 5 = true ∧ t.rd MBX_ERRSRC = 0x80000002 ∧ t.rd (FLT_STICKY 7) = 0x10 := by decide
/-- ROLLBACK_COMMIT burns up to the running svn, at most 64 (R548). -/
theorem test_rollback : (rollbackCommit { runS with fwSvn := 70 }).fuses.svn = 64 := by decide
/-- PORST_N keeps FLT_FATALSRC (R531). -/
theorem test_porst : (after (stR [(FLT_FATALSRC, 0x80000010), (PWR_WAKECFG, 1)]) (.porstN false)).rd FLT_FATALSRC = 0x80000010 := by decide
/-- A step takes the front command (log 5). -/
theorem test_step : (match step { runS with pending := [.glbSwevtWrite .host 700, .ping (rq [])] } with
    | .next t => t.pending.length == 1 && t.out == [.event 700]
    | _ => false) = true := by decide

-- Well-formedness: one ill-formed term for each check, and a well-formed one of each row that has a check.

/-- A request that every check of Req.wf takes. -/
def okReq : Req := ⟨.mailbox 0, 0, 0, 0, []⟩
/-- A request of a session that does not exist. -/
def badReq : Req := ⟨.mailbox 0, 17, 0, 0, []⟩
def okBeat : BeatInput := ⟨0, 0, [], [], 0, 0⟩
def okFrame : RxFrame := ⟨0, [], true, true, 0, 0, 0, []⟩
def okDrive : DriveReport := ⟨0, 0, 0, true, false, 0, zeros 20, zeros 40, 4, 4⟩
theorem test_wf_req : [(⟨.mailbox 8, 0, 0, 0, []⟩ : Req), ⟨.net ⟨8, 0, 0, false, 0, 0⟩, 0, 0, 0, []⟩, ⟨.net ⟨0, 4, 0, false, 0, 0⟩, 0, 0, 0, []⟩,
    ⟨.net ⟨0, 0, 4097, false, 0, 0⟩, 0, 0, 0, []⟩, ⟨.net ⟨0, 0, 0, true, 2 ^ 128, 0⟩, 0, 0, 0, []⟩, ⟨.net ⟨0, 0, 0, false, 0, 65536⟩, 0, 0, 0, []⟩,
    badReq, ⟨.mailbox 0, 0, 0, 65536, []⟩].all (fun q => !q.wf) = true := by decide
theorem test_wf_req_length : (⟨.mailbox 0, 0, 0, 0, List.replicate 4073 0⟩ : Req).wf = false := by
  simp only [Req.wf, List.length_replicate]; decide
theorem test_wf_operands :
    ([(⟨512, 0⟩ : At), ⟨0, 2 ^ 64⟩].all (fun a => !a.wf) && [Master.mgmt 0, .mgmt 5, .ppe 64].all (fun m => !m.wf) &&
    [{ okBeat with tclk := 2 ^ 64 }, { okBeat with overruns := 128 }, { okBeat with overruns := 32 }, { okBeat with overruns := 2 }, { okBeat with overruns := 2 ^ 32 }, { okBeat with samples := [(32, [])] }].all (fun b => !b.wf) &&
    [{ okFrame with port := 8 }, { okFrame with ns := 1000000000 }, { okFrame with frac := 65536 }].all (fun f => !f.wf) &&
    [(⟨[2 ^ 40], []⟩ : EccHits), ⟨[], [2 ^ 40]⟩].all (fun h => !h.wf) &&
    [(⟨64, [], [], []⟩ : ArbUse), ⟨0, [(2560, ⟨0, 0, false⟩)], [], []⟩, ⟨0, [(0, ⟨7, 0, false⟩)], [], []⟩, ⟨0, [], [2560], []⟩, ⟨0, [], [], [2560]⟩].all (fun u => !u.wf) &&
    !(⟨16, []⟩ : BgEst).wf && [{ okDrive with serial := [] }, { okDrive with model := [] }].all (fun d => !d.wf)) = true := by decide

theorem test_wf_refuses_1 : (([.ping badReq, .deviceIdGet badReq, .deviceIdSet badReq, .queryCaps badReq, .lockPeek badReq, .commit badReq
      ⟨0, 0⟩, .commit okReq ⟨512, 0⟩, .commitStatus badReq, .commitCancel badReq ⟨0, 0⟩, .commitCancel okReq ⟨512,
      0⟩, .budgetCheck badReq, .profileSet badReq ⟨0, 0⟩, .profileSet okReq ⟨512, 0⟩, .profileGet badReq,
      .activeRead badReq 0 0, .activeRead okReq (2 ^ 16) 0, .activeRead okReq 0 (2 ^ 16), .beatBoundary ⟨2 ^ 64,
      0, [], [], 0, 0⟩, .beatMark (8), .syncinEdge false ⟨2 ^ 64, 0, [], [], 0, 0⟩, .cnvDivide badReq ⟨0, 0⟩,
      .cnvDivide okReq ⟨512, 0⟩, .calForeground badReq, .foregroundCalEnd (4) [], .foregroundCalEnd 0 [⟨8, true,
      false, [], 0, 0⟩], .calStatus badReq, .calAbort badReq, .calBackground badReq, .cnvStatus badReq,
      .cnvBgcalWrite (.mgmt 0) 0 0, .cnvBgcalWrite .host (32) 0, .bgCalIntervalEnd (32) ⟨0, []⟩, .bgCalIntervalEnd
      0 ⟨16, []⟩, .cnvPwrdnWrite (.mgmt 0) 0 0, .cnvPwrdnWrite .host (32) 0, .coreReady (32), .overRangeEpisode
      (32) 0 false, .overRangeEpisode 0 (512) false, .overRangeTailEnd (32) 0, .pthConfig badReq, .firLoad badReq,
      .pthStatus badReq, .fadeStart (32), .fadeEnd (32), .coarseToFine (32), .slcConfig badReq, .windowLoad
      badReq, .windowLoadAbandon (16) 0, .windowLoadAbandon 0 (2), .traceClear badReq, .traceRestart (16) 0 0,
      .traceRestart 0 (2) 0, .traceRestart 0 0 (16), .slcStatus badReq] : List Instr)).all (fun i => !i.wf) = true := by decide

theorem test_wf_takes_1 : ([.ping okReq, .deviceIdGet okReq, .deviceIdSet okReq, .queryCaps okReq, .lockPeek okReq, .commit okReq ⟨0,
      0⟩, .commitStatus okReq, .commitCancel okReq ⟨0, 0⟩, .budgetCheck okReq, .profileSet okReq ⟨0, 0⟩,
      .profileGet okReq, .activeRead okReq 0 0, .beatBoundary okBeat, .beatMark 0, .syncinEdge false okBeat,
      .cnvDivide okReq ⟨0, 0⟩, .calForeground okReq, .foregroundCalEnd 0 [], .calStatus okReq, .calAbort okReq,
      .calBackground okReq, .cnvStatus okReq, .cnvBgcalWrite .host 0 0, .bgCalIntervalEnd 0 ⟨0, []⟩,
      .cnvPwrdnWrite .host 0 0, .coreReady 0, .overRangeEpisode 0 0 false, .overRangeTailEnd 0 0, .pthConfig
      okReq, .firLoad okReq, .pthStatus okReq, .fadeStart 0, .fadeEnd 0, .coarseToFine 0, .slcConfig okReq,
      .windowLoad okReq, .windowLoadAbandon 0 0, .traceClear okReq, .traceRestart 0 0 0, .slcStatus okReq] : List Instr).all Instr.wf = true := by decide

theorem test_wf_refuses_2 : (([.fltStatus badReq, .fltAck badReq, .fltConfig badReq, .logRead badReq, .logClear badReq, .fltInject badReq,
      .fltRelease badReq, .fltStickyWrite (8) 0, .fltRailbadWrite (8) 0, .faultReport (256) 0 0, .faultReport 0
      (65536) 0, .faultReport 0 0 (512), .railPairFail (256), .mbxHcdbWrite (8) 0, .mailboxDataWrite (.mgmt 0) 0
      [0], .mailboxDataWrite .host 0 [], .mailboxDataWrite .host (2 ^ 32) [0], .mbxHrackWrite (8), .mailboxTimeout
      (80), .mbxCldbWrite (.mgmt 0) 0 0, .mbxCldbWrite .host (8) 0, .mbxPestatOutack (.mgmt 0) 0, .mbxPestatOutack
      .host (64), .mbxCountRead (.mgmt 0) 0, .mbxCountRead .host (3), .glbLockRead (256) [.host], .glbLockRead 0
      [.ppe 64], .glbLockRead 0 [], .glbLockRelease (.mgmt 0) 0 0, .glbLockRelease .host (256) 0, .carConfig
      badReq, .carArm badReq, .carStop badReq, .segmentStopClose (4), .carStatus badReq, .segmentEnd (4),
      .segmentGapEnd (4), .overflowResume (4), .trgConfig badReq, .trgArm badReq, .groupArm (32), .trgDisarm
      badReq, .groupDisarm (32), .trgForce badReq, .forcedFire (32), .holdoffEnd (32), .trigioPulseEnd (32),
      .maskLoad badReq, .maskVersionRelease (64), .denSet badReq] : List Instr)).all (fun i => !i.wf) = true := by decide

theorem test_wf_takes_2 : ([.fltStatus okReq, .fltAck okReq, .fltConfig okReq, .logRead okReq, .logClear okReq, .fltInject okReq,
      .fltRelease okReq, .fltStickyWrite 0 0, .fltRailbadWrite 0 0, .faultReport 0 0 0, .railPairFail 0,
      .mbxHcdbWrite 0 0, .mailboxDataWrite .host 0 [0], .mbxHrackWrite 0, .mailboxTimeout 0, .mbxCldbWrite .host 0
      0, .mbxPestatOutack .host 0, .mbxCountRead .host 0, .glbLockRead 0 [.host], .glbLockRelease .host 0 0,
      .carConfig okReq, .carArm okReq, .carStop okReq, .segmentStopClose 0, .carStatus okReq, .segmentEnd 0,
      .segmentGapEnd 0, .overflowResume 0, .trgConfig okReq, .trgArm okReq, .groupArm 0, .trgDisarm okReq,
      .groupDisarm 0, .trgForce okReq, .forcedFire 0, .holdoffEnd 0, .trigioPulseEnd 0, .maskLoad okReq,
      .maskVersionRelease 0, .denSet okReq] : List Instr).all Instr.wf = true := by decide

theorem test_wf_refuses_3 : (([.denPathSet badReq, .denRegionSet badReq, .corrSet badReq, .denStatus badReq, .timeGet badReq ⟨0, 0⟩,
      .timeGet okReq ⟨512, 0⟩, .timeStep badReq, .timeAdjust badReq, .servoSet badReq 0, .servoSet okReq (2 ^ 64),
      .gridAlign badReq, .utcSet badReq, .servoSample (2 ^ 64), .sampleMissing (2 ^ 64), .jumpApply (2 ^ 64),
      .gridLoad (2 ^ 64) 0, .leapSecond (2 ^ 64), .streamSet badReq, .streamStatus badReq, .volFormat badReq,
      .volFormatDone (4), .volStatus badReq, .hostRingWrite (32), .ocHconsWrite (32) false 0, .chunkWrite (4),
      .chunkFlushTime (4), .datagramLaunch (32) 0, .datagramLaunch 0 (2 ^ 64), .memRegionSet badReq, .memStatus
      badReq, .memRetiredRead badReq, .arbWindowEnd [⟨64, [], [], []⟩], .hbmRefresh (64), .stackOverTemperature
      (2) 0, .retrain (16), .retrainEnd (64) false, .parityError (64) 0 false, .patrolScrub ⟨[2 ^ 40], []⟩,
      .rowRepair (64) 0 0, .rowRepair 0 (1048576) 0, .rowRepair 0 0 (256), .bar2Access false 0 0 [] ⟨[2 ^ 40],
      []⟩, .bar2Access false 0 0 [0] ⟨[], []⟩, .ptpSet badReq, .ptpStatus badReq, .ptpMessageSend 0 (2 ^ 64),
      .ptpMessageSend (3) 0] : List Instr)).all (fun i => !i.wf) = true := by decide

theorem test_wf_takes_3 : ([.denPathSet okReq, .denRegionSet okReq, .corrSet okReq, .denStatus okReq, .timeGet okReq ⟨0, 0⟩, .timeStep
      okReq, .timeAdjust okReq, .servoSet okReq 0, .gridAlign okReq, .utcSet okReq, .servoSample 0, .sampleMissing
      0, .jumpApply 0, .gridLoad 0 0, .leapSecond 0, .streamSet okReq, .streamStatus okReq, .volFormat okReq,
      .volFormatDone 0, .volStatus okReq, .hostRingWrite 0, .ocHconsWrite 0 false 0, .chunkWrite 0,
      .chunkFlushTime 0, .datagramLaunch 0 0, .memRegionSet okReq, .memStatus okReq, .memRetiredRead okReq,
      .arbWindowEnd [], .hbmRefresh 0, .stackOverTemperature 0 0, .retrain 0, .retrainEnd 0 false, .parityError 0
      0 false, .patrolScrub ⟨[], []⟩, .rowRepair 0 0 0, .bar2Access false 0 0 [] ⟨[], []⟩, .ptpSet okReq,
      .ptpStatus okReq, .ptpMessageSend 0 0] : List Instr).all Instr.wf = true := by decide

theorem test_wf_refuses_4 : (([.linkStatus badReq, .ethMode badReq, .ethIfSet badReq, .ethFilterSet badReq, .nbrSet badReq, .nvmeReset
      badReq, .nvmeInfo badReq, .nvmeRead badReq, .bisorPortSet badReq, .driveBringUp (4) okDrive, .driveBringUp 0
      ({ okDrive with serial := [] }), .nvmeCompletion (4) false [], .nvmeCommandTimeout (4), .nvmePortFail (4),
      .smartPoll (4) 0 0 0 0, .smartPoll 0 0 (256) 0 0, .smartPoll 0 0 0 (256) 0, .smartPoll 0 (2 ^ 16) 0 0 0,
      .smartPoll 0 0 0 0 (2 ^ 128), .ethFrameReceive ({ okFrame with port := 8 }), .ethLinkUp (8), .ethLinkDown
      (8), .lnkEqtailWrite (16) 0, .txDescriptor (16) [] [] 0, .txDescriptor 0 [] [] (2 ^ 64), .frameLaunch (16)
      [] [] 0, .frameLaunch 0 [] [] (2 ^ 64), .tokenReceive (2) (List.replicate 20 0) 0, .tokenReceive 0
      (List.replicate 20 0) (512), .tokenReceive 0 [] 0, .gridFlitReceive (2) 0 false 0 0, .gridFlitReceive 0 0
      false (2 ^ 64) 0, .gridFlitReceive 0 (2 ^ 64) false 0 0, .nbrRecordReceive (2) [], .creditReceive (2) 0,
      .echoRequestReceive (2) [], .echoReplyReceive (2) [] 0, .echoReplyReceive 0 [] (2 ^ 64), .echoSend (2) 0,
      .echoSend 0 (2 ^ 64), .flitCrcFail (2) false false, .nbrPortUp (2), .nbrPortDown (2), .ppeLoad badReq,
      .ppeStart badReq, .ppeStop badReq, .ppeTaskSet badReq, .ppeStatus badReq, .ppeMemWrite badReq, .ppeMemRead
      badReq, .ppeCluster badReq, .taskDispatch (64), .taskBudgetExpiry (64)] : List Instr)).all (fun i => !i.wf) = true := by decide

theorem test_wf_takes_4 : ([.linkStatus okReq, .ethMode okReq, .ethIfSet okReq, .ethFilterSet okReq, .nbrSet okReq, .nvmeReset okReq,
      .nvmeInfo okReq, .nvmeRead okReq, .bisorPortSet okReq, .driveBringUp 0 okDrive, .nvmeCompletion 0 false [],
      .nvmeCommandTimeout 0, .nvmePortFail 0, .smartPoll 0 0 0 0 0, .ethFrameReceive okFrame, .ethLinkUp 0,
      .ethLinkDown 0, .lnkEqtailWrite 0 0, .txDescriptor 0 [] [] 0, .frameLaunch 0 [] [] 0, .tokenReceive 0
      (List.replicate 20 0) 0, .gridFlitReceive 0 0 false 0 0, .nbrRecordReceive 0 [], .creditReceive 0 0,
      .echoRequestReceive 0 [], .echoReplyReceive 0 [] 0, .echoSend 0 0, .flitCrcFail 0 false false, .nbrPortUp 0,
      .nbrPortDown 0, .ppeLoad okReq, .ppeStart okReq, .ppeStop okReq, .ppeTaskSet okReq, .ppeStatus okReq,
      .ppeMemWrite okReq, .ppeMemRead okReq, .ppeCluster okReq, .taskDispatch 0, .taskBudgetExpiry 0] : List Instr).all Instr.wf = true := by decide

theorem test_wf_refuses_5 : (([.ppeBundleIssue (64) 0, .ppeInterrupt (64) 0 0, .mbCtlIntake (64), .mbCtlOutring (64), .clusterGate (8),
      .clusterWake (8), .clusterWakeEnd (8), .dmaStart badReq 0, .dmaStart okReq (3), .dmaAbort badReq, .dmaStatus
      badReq, .dmaSramWrite badReq, .dmaCtrlStart (.mgmt 0) 0 0 0, .dmaCtrlStart .host (128) 0 0, .dmaCtrlStart
      .host 0 0 (3), .dmaCtrlAbort (.mgmt 0) 0 0, .dmaCtrlAbort .host (128) 0, .move (128), .loop (128) 0, .loop 0
      (3), .wait (128) 0, .wait 0 (3), .waitComplete (128) 0, .waitComplete 0 (3), .waitTimeout (128), .dmaSignal
      (128) 0, .dmaSignal 0 (3), .dmaEnd (128), .burstStart (128) 0, .burstStart 0 (512), .burstEnd (128) [] false
      ⟨[], []⟩ 0, .burstEnd 0 [] false ⟨[2 ^ 40], []⟩ 0, .burstEnd 0 [] false ⟨[], []⟩ (3), .tdcChanSet badReq,
      .tdcCal badReq, .tdcCalAbort badReq, .tdcRead badReq, .freqStart badReq, .freqStop badReq, .freqResult
      badReq, .tdcStatus badReq, .tdcEdge (17) false 0 false 0 0, .tdcEdge 0 false (2 ^ 64) false 0 0, .tdcEdge 0
      false 0 false (1024) 0, .tdcEdge 0 false 0 false 0 (512), .blindTimeEnd (17) false, .widthCalEnd (17) [],
      .freqGateEnd (4), .freqResultWrite (4), .clkSclkSet badReq, .clkBandSet badReq, .clkPhaseStep badReq,
      .clkStatus badReq, .refinLoss (512)] : List Instr)).all (fun i => !i.wf) = true := by decide

theorem test_wf_takes_5 : ([.ppeBundleIssue 0 0, .ppeInterrupt 0 0 0, .mbCtlIntake 0, .mbCtlOutring 0, .clusterGate 0, .clusterWake 0,
      .clusterWakeEnd 0, .dmaStart okReq 0, .dmaAbort okReq, .dmaStatus okReq, .dmaSramWrite okReq, .dmaCtrlStart
      .host 0 0 0, .dmaCtrlAbort .host 0 0, .move 0, .loop 0 0, .wait 0 0, .waitComplete 0 0, .waitTimeout 0,
      .dmaSignal 0 0, .dmaEnd 0, .burstStart 0 0, .burstEnd 0 [] false ⟨[], []⟩ 0, .tdcChanSet okReq, .tdcCal
      okReq, .tdcCalAbort okReq, .tdcRead okReq, .freqStart okReq, .freqStop okReq, .freqResult okReq, .tdcStatus
      okReq, .tdcEdge 0 false 0 false 0 0, .blindTimeEnd 0 false, .widthCalEnd 0 [], .freqGateEnd 0,
      .freqResultWrite 0, .clkSclkSet okReq, .clkBandSet okReq, .clkPhaseStep okReq, .clkStatus okReq, .refinLoss
      0] : List Instr).all Instr.wf = true := by decide

theorem test_wf_refuses_6 : (([.synthLossOfLock (12) 0, .synthLossOfLock 0 (512), .synthLock (16), .bypassReturn (12), .bandAttemptTimeout
      (4), .hbmPllLossOfLock (2), .sclkinLoss (2) 0, .sclkinLoss 0 (512), .dspModeSet badReq, .dspBufReg badReq,
      .dspBufFree badReq, .dspCommit badReq, .dspPalSet badReq, .dspAux badReq none, .dspStatus badReq, .copyPoint
      ⟨[2 ^ 40], []⟩, .scanoutLine [] ⟨[2 ^ 40], []⟩, .monCoreSet badReq, .monInject badReq, .monRead badReq,
      .monFwSet badReq, .monPassStart (4), .monEntryDone (4) [] false, .monEntryDone 0 [4096] false,
      .injectRequest (4) false, .fastWatchSample (4) 0 0, .fastWatchSample 0 (4096) 0, .pwrStateSet badReq,
      .pwrTransitionApply (2 ^ 32), .stateEntry (2 ^ 32), .staggerStep (2 ^ 32) false, .stepFail (2 ^ 32),
      .runFirstBeat (2 ^ 32), .pwrStatus badReq, .reset badReq, .perstRelease 6 1, .perstRelease 1 3,
      .pcieDowntrain 6 1, .pcieDowntrain 1 3, .msixUnmask (512), .pcieConfigWrite false false false false (8192)
      0, .pcieConfigWrite false false false false 0 (8192), .aerError false 8, .trigioLevelChange (32) false 0,
      .trigioLevelChange 0 false (512), .fwStatus badReq, .fwUpdate badReq, .fwUpdateEnd (3)] : List Instr)).all (fun i => !i.wf) = true := by decide

theorem test_wf_takes_6 : ([.synthLossOfLock 0 0, .synthLock 0, .bypassReturn 0, .bandAttemptTimeout 0, .hbmPllLossOfLock 0, .sclkinLoss
      0 0, .dspModeSet okReq, .dspBufReg okReq, .dspBufFree okReq, .dspCommit okReq, .dspPalSet okReq, .dspAux
      okReq none, .dspStatus okReq, .copyPoint ⟨[], []⟩, .scanoutLine [] ⟨[], []⟩, .monCoreSet okReq, .monInject
      okReq, .monRead okReq, .monFwSet okReq, .monPassStart 0, .monEntryDone 0 [] false, .injectRequest 0 false,
      .fastWatchSample 0 0 0, .pwrStateSet okReq, .pwrTransitionApply 0, .stateEntry 0, .staggerStep 0 false,
      .stepFail 0, .runFirstBeat 0, .pwrStatus okReq, .reset okReq, .perstRelease 1 1, .pcieDowntrain 1 1,
      .msixUnmask 0, .pcieConfigWrite false false false false 0 0, .aerError false 0, .trigioLevelChange 0 false
      0, .fwStatus okReq, .fwUpdate okReq, .fwUpdateEnd 0] : List Instr).all Instr.wf = true := by decide

theorem test_wf_refuses_7 : (([.attest badReq ⟨0, 0⟩, .attest okReq ⟨512, 0⟩, .keyExchange badReq, .keyClose badReq, .sessionIdleTimeout
      17, .operatorSet badReq, .identityGet badReq, .rollbackCommit badReq, .ppePolicySet badReq, .ownerKeySet
      badReq, .testUnlockChallenge badReq, .testUnlock badReq, .pairLoRead (.mgmt 0) ⟨0, 4⟩ 0, .pairLoRead .host
      ⟨0, 4⟩ (2 ^ 64), .pairLoRead .host ⟨2 ^ 26, 4⟩ 0, .pairLoRead .host ⟨0, 4097⟩ 0, .glbBeatLoRead (.mgmt 0) 0,
      .glbBeatLoRead .host (512), .timNowLoRead (.mgmt 0) 0, .timNowLoRead .host (2 ^ 64), .cnvCaltimeLoRead
      (.mgmt 0) 0, .cnvCaltimeLoRead .host (32), .tdcChstamp0Read (.mgmt 0) 0, .tdcChstamp0Read .host (17),
      .glbSwevtWrite (.mgmt 0) 0, .shadowRegisterWrite (.mgmt 0) 0 0, .shadowRegisterWrite .host 2 0,
      .registerWrite (.mgmt 0) 0 [0, 0, 0, 0], .registerWrite .host 2 [0, 0, 0, 0], .registerWrite .host 0 [0]] : List Instr)).all (fun i => !i.wf) = true := by decide

theorem test_wf_takes_7 : ([.attest okReq ⟨0, 0⟩, .keyExchange okReq, .keyClose okReq, .sessionIdleTimeout 1, .operatorSet okReq,
      .identityGet okReq, .rollbackCommit okReq, .ppePolicySet okReq, .ownerKeySet okReq, .testUnlockChallenge
      okReq, .testUnlock okReq, .pairLoRead .host ⟨0, 4⟩ 0, .glbBeatLoRead .host 0, .timNowLoRead .host 0,
      .cnvCaltimeLoRead .host 0, .tdcChstamp0Read .host 0, .glbSwevtWrite .host 0, .shadowRegisterWrite .host 0 0,
      .registerWrite .host 0 [0, 0, 0, 0]] : List Instr).all Instr.wf = true := by decide

end Sys2Proof.Tests
end

section
/-! PROOFS. What every step and every command keeps: the outcome of a command on a state with canonical tables, the gate of
R8 that every Bisor command passes, byte memories, sticky fault bits, the reset state, and the accesses to BAR0. -/
namespace Sys2Proof.Machine

-- Outcomes that keep a frame

/-- An outcome that keeps a frame is a next state: no command faults or is refused. -/
theorem KeptOut.exists_next {K : Frame} {f : Fuses} {o : Host.Outcome State Fault Refusal} (h : KeptOut K f o) :
    ∃ t, o = .next t ∧ Kept K f t := by
  cases o with
  | next t => exact ⟨t, rfl, h⟩
  | fault r => exact h.elim
  | refused r => exact h.elim

/-- Every command answers a next state that keeps the queue and canonical tables. -/
theorem exec_exists_next (c : Instr) {s : State} (hs : s.canonical) :
    ∃ t, exec c s = .next t ∧ t.pending = s.pending ∧ t.canonical := by
  have hk : Kept { queue := s.pending } s.fuses s :=
    ⟨rfl, Fuses.Burned.refl _, hs, ⟨by simp, by simp, by simp, by simp, by simp, by simp, by simp, by simp⟩⟩
  have hout : KeptOut { queue := s.pending } s.fuses (exec c s) := by
    apply exec_kept c s hk <;> intros <;> rfl
  obtain ⟨t, ht, hkept⟩ := hout.exists_next
  exact ⟨t, ht, hkept.pending, hkept.canonical⟩

/-- A step answers a next state with canonical tables and the front command taken off the queue. -/
theorem step_exists_next {s : State} (hs : s.canonical) :
    ∃ t, step s = .next t ∧ t.pending = s.pending.tail ∧ t.canonical := by
  cases hp : s.pending with
  | nil => exact ⟨s, by simp [step, hp], by simp [hp], hs⟩
  | cons c rest =>
    obtain ⟨t, ht, hkept⟩ := (step_kept hp hs).exists_next
    exact ⟨t, ht, hkept.pending, hkept.canonical⟩

/-- Settles O4: the step's one next state has canonical tables. -/
theorem stepKeepsCanonicalTables : Obligations.StepKeepsCanonicalTables := by
  intro s t hs hstep
  obtain ⟨t', ht', -, hc⟩ := step_exists_next hs
  cases hstep.symm.trans ht'
  exact hc

/-- Settles O6: the one command, then the step that takes it off the queue. -/
theorem everyCommandAnswersAndKeepsTheQueue : Obligations.EveryCommandAnswersAndKeepsTheQueue := by
  constructor
  · intro c s hs
    obtain ⟨t, ht, hqueue, -⟩ := exec_exists_next c hs
    exact ⟨t, ht, hqueue⟩
  · intro s hs
    obtain ⟨t, ht, hqueue, -⟩ := step_exists_next hs
    exact ⟨t, ht, hqueue⟩

-- The gate of R8

/-- The gate's checks in the order of R8: role, network source, BOOTING, length. -/
theorem gate_eq (s : State) (op : Nat) (q : Req) (lenOk : Bool) :
    gate s op q lenOk =
      if roleOk s op q = false then some ST_LOCKED
      else if isNet q.src = true ∧ op ∈ netLocked then some ST_LOCKED
      else if pwrState s = PS_BOOTING ∧ bootAllowed op = false then some ST_STATE
      else if lenOk = false then some ST_BAD_LENGTH else none := by
  simp only [gate, firstFail, Bool.not_eq_true', Bool.and_eq_true, decide_eq_true_eq, beq_iff_eq]

/-- A refusal that does not come from the length stands whatever the length is. -/
theorem gate_of_gate_true {s : State} {op : Nat} {q : Req} {st : Nat} (h : gate s op q true = some st) (lenOk : Bool) :
    gate s op q lenOk = some st := by
  rw [gate_eq] at h ⊢
  simp only [Bool.true_eq_false, if_false] at h
  split_ifs at h with hrole hnet hboot
  · rwa [if_pos hrole]
  · rwa [if_neg hrole, if_pos hnet]
  · rwa [if_neg hrole, if_neg hnet, if_pos hboot]

/-- The first check that fails after checks that pass refuses the command. -/
theorem command_of_first_fail {s : State} {op : Nat} {q : Req} {lenOk : Bool} {a b : List (Bool × Nat)} {st : Nat}
    {effect : State} (hg : gate s op q lenOk = none) (ha : ∀ c ∈ a, c.1 = false) :
    command s op q lenOk (a ++ (true, st) :: b) effect = deny s op q st :=
  command_of_fail hg (by simp [firstFail_append_of_pass ha, firstFail])

/-- A command whose every check passes has its effect. -/
theorem command_of_pass {s : State} {op : Nat} {q : Req} {lenOk : Bool} {checks : List (Bool × Nat)} {effect : State}
    (hg : gate s op q lenOk = none) (hc : ∀ c ∈ checks, c.1 = false) : command s op q lenOk checks effect = effect :=
  command_of_accepted (by simp [accepted, hg, firstFail_eq_none.mpr hc])

/-- Settles O8: a refusal of the gate, of the first failing check, none, and the gate's own order. -/
theorem firstFailingCheckDecides : Obligations.FirstFailingCheckDecides := by
  intro s op q lenOk checks effect
  refine ⟨fun st hg => command_of_gate hg, ?_, command_of_pass, gate_eq s op q lenOk⟩
  intro a b st hg hsplit ha
  rw [hsplit]
  exact command_of_first_fail hg ha

/-- A request that the gate refuses invalidates no window bank on its way (R196). -/
theorem winInvalid_of_gate {s : State} {q : Req} {st : Nat} (h : gate s 0x0401 q true = some st) : winInvalid s q = s := by
  simp [winInvalid, h]

/-- A Bisor request that the gate refuses is answered with that refusal. Every row is one `command` on the state at its
arrival; WINDOW_LOAD and TIME_ADJUST alone prepare that state, and they do so only behind the gate. -/
theorem exec_eq_deny_of_gate {i : Instr} {op : Nat} {q : Req} {s : State} {st : Nat} (hreq : requestOf i = some (op, q))
    (hg : gate (arrivalOf i s) op q true = some st) : exec i s = .next (deny (arrivalOf i s) op q st) := by
  cases i with
  | windowLoad q' =>
    cases hreq
    have hgate : gate s 0x0401 q true = some st := hg
    simp only [exec, execWindowLoad, winInvalid_of_gate hgate, ite_self]
    exact congrArg Host.Outcome.next (command_of_gate (gate_of_gate_true hgate _))
  | timeAdjust q' =>
    cases hreq
    have hgate : gate s 0x0A02 q (q.params.length == 4) = some st := gate_of_gate_true hg _
    simp only [exec, execTimeAdjust, hgate, Option.isNone_some, Bool.false_and, Bool.false_eq_true, if_false]
    exact congrArg Host.Outcome.next (command_of_gate hgate)
  | _ => cases hreq <;> exact congrArg Host.Outcome.next (command_of_gate (gate_of_gate_true hg _))

/-- Settles O9, over the rows of the command table. -/
theorem everyBisorCommandPassesTheGate : Obligations.EveryBisorCommandPassesTheGate :=
  fun _ _ _ _ _ hreq hg => exec_eq_deny_of_gate hreq hg

-- Byte memories

/-- A read of the range just written gives the bytes. -/
theorem Mem.read_write : ∀ (b : List Byte) (m : List Host.Cell) (a : Nat), Mem.read (Mem.write m a b) a b.length = b
  | [], _, _ => rfl
  | x :: t, m, a => by
    have hhead : Mem.get (Mem.write (Mem.set m a x) (a + 1) t) a = x := by
      rw [Mem.get_write_of_lt t _ _ _ (Nat.lt_succ_self a), Mem.get_set, if_pos rfl]
    simp only [Mem.write, List.length_cons, Mem.read, hhead, Mem.read_write t]

/-- A write leaves every address outside its range as it was. -/
theorem Mem.get_write_outside (m : List Host.Cell) (a : Nat) (b : List Byte) {x : Nat} (hx : x < a ∨ a + b.length ≤ x) :
    Mem.get (Mem.write m a b) x = Mem.get m x := by
  rw [Mem.get_write, if_neg (by omega)]

/-- Settles O22, by the laws of a read and a byte after a write. -/
theorem memoryReadsWhatWasWritten : Obligations.MemoryReadsWhatWasWritten := fun m a b =>
  ⟨Mem.read_write b m a, fun _ hx => Mem.get_write_outside m a b hx, rfl, Memory.wf_write b a⟩

-- Sticky fault bits (R533)

/-- FLT_FIRST is none of the sticky registers. -/
theorem FLT_STICKY_ne_FLT_FIRST (n : Nat) : FLT_STICKY n ≠ FLT_FIRST := by
  unfold FLT_STICKY FLT_FIRST
  omega

/-- A write of FLT_FIRST sets and clears no sticky bit. -/
theorem anySticky_wr_FLT_FIRST (s : State) (v : Word) : anySticky (s.wr FLT_FIRST v) = anySticky s := by
  simp [anySticky, FLT_STICKY_ne_FLT_FIRST]

/-- What clearing sticky bits answers: the register with the named bits cleared and, with no sticky bit left, FLT_FIRST
at 0. -/
theorem clearSticky_eq (s : State) (n : Nat) (v : Word) :
    let t := s.wr (FLT_STICKY n) (s.rd (FLT_STICKY n) &&& ~~~ v)
    clearSticky s n v = if anySticky t then t else t.wr FLT_FIRST 0 := by
  have hw1c : s.w1c (FLT_STICKY n) 0xFFFFFFFF v = s.wr (FLT_STICKY n) (s.rd (FLT_STICKY n) &&& ~~~ v) := by
    rw [State.w1c_eq]
    exact congrArg (fun x => s.wr (FLT_STICKY n) (s.rd (FLT_STICKY n) &&& ~~~ x)) (BitVec.and_allOnes (x := v))
  unfold clearSticky
  rw [hw1c]

/-- Settles O30, with a sticky bit left and with none. -/
theorem stickyWriteClearsNamedBits : Obligations.StickyWriteClearsNamedBits := by
  intro s n v hn
  have hexec : exec (.fltStickyWrite n v) s = .next (clearSticky s n v) := by
    simp [exec, execFltStickyWrite, hn]
  refine ⟨_, hexec, ?_⟩
  rw [clearSticky_eq]
  have hne := FLT_STICKY_ne_FLT_FIRST n
  split
  next hleft =>
    exact ⟨by simp, fun a ha _ => by simp [ha], fun _ => by simp [hne.symm], fun hnone => by simp [hleft] at hnone, rfl⟩
  next hnone =>
    have hstill := anySticky_wr_FLT_FIRST (s.wr (FLT_STICKY n) (s.rd (FLT_STICKY n) &&& ~~~ v)) 0
    exact ⟨by simp [hne], fun a ha hf => by simp [ha, hf], fun hleft => absurd (hstill.symm.trans hleft) hnone,
      fun _ => by simp, rfl⟩

-- The reset state

/-- Every table of the reset state is empty, so canonical. -/
theorem reset_canonical : State.reset.canonical := ⟨rfl, rfl, rfl, rfl, rfl, rfl, rfl, rfl, rfl, rfl⟩

/-- Out of reset every register reads its reset value. -/
theorem reset_rd (a : Nat) : State.reset.rd a = Regs.dflt a := rfl

/-- Out of reset bit 0 of every vector's control word is set (R376). -/
theorem reset_vectorMasked (v : Nat) : vectorMasked State.reset v = true := by
  have hword : msixWord State.reset v 3 = 1 := if_pos (by omega)
  simp [vectorMasked, hword, bit]

/-- The fuses of an OT-6432 leave no unit absent that has a fault source (log 1). -/
theorem reset_srcAbsent (n : Nat) : srcAbsent State.reset n = false := by
  have hnvme : (nvmePorts State.reset == 0) = false := by decide
  have hdisplay : displayPresent State.reset = true := by decide
  have hcorr : corrPresent State.reset = true := by decide
  have hquads : ∀ k < 4, quadPresent State.reset k = true := by decide
  simp [srcAbsent, hnvme, hdisplay, hcorr, hquads (n % 4) (Nat.mod_lt _ (by decide))]

/-- A key that is found is in the list with its value. -/
theorem mem_of_lookupN {k v : Nat} : ∀ {l : List (Nat × Nat)}, lookupN l k = some v → (k, v) ∈ l
  | (a, w) :: t, h => by
    simp only [lookupN] at h
    split at h
    next hak => cases h; subst hak; exact List.mem_cons_self
    next => exact List.mem_cons_of_mem _ (mem_of_lookupN h)

/-- The reset byte of a source fits a byte. -/
theorem srcCfgReset_lt (n : Nat) : srcCfgReset n < 256 := by
  have hclass : ∀ p ∈ faultMin, p.2 ≤ 3 := by decide
  unfold srcCfgReset
  split
  next m hm =>
    have := hclass _ (mem_of_lookupN hm)
    dsimp only at this
    omega
  next => decide

/-- FLT_SRCCFG out of reset holds the reset bytes of its four sources (R540). -/
theorem reset_rdN_srcCfg {w : Nat} (hw : w < 64) :
    State.reset.rdN (FLT_SRCCFG w) = srcCfgReset (4 * w) + 256 * srcCfgReset (4 * w + 1) + 65536 * srcCfgReset (4 * w + 2) +
      16777216 * srcCfgReset (4 * w + 3) := by
  have h0 := srcCfgReset_lt (4 * w)
  have h1 := srcCfgReset_lt (4 * w + 1)
  have h2 := srcCfgReset_lt (4 * w + 2)
  have h3 := srcCfgReset_lt (4 * w + 3)
  have hoff : FLT_SRCCFG w - 0x20100 = 4 * w := by unfold FLT_SRCCFG; omega
  have hrange : 0x20100 ≤ FLT_SRCCFG w ∧ FLT_SRCCFG w < 0x20200 ∧ FLT_SRCCFG w % 4 = 0 := by
    unfold FLT_SRCCFG; omega
  rw [State.rdN, reset_rd, Regs.dflt, if_pos hrange]
  simp only [hoff, w32, BitVec.toNat_ofNat]
  omega

/-- Byte `i` of a word made of four bytes. -/
theorem bitsOf_bytes {b : Nat → Nat} (hb : ∀ i, b i < 256) {i : Nat} (hi : i < 4) :
    bitsOf (b 0 + 256 * b 1 + 65536 * b 2 + 16777216 * b 3) (8 * i + 7) (8 * i) = b i := by
  have h0 := hb 0
  have h1 := hb 1
  have h2 := hb 2
  have h3 := hb 3
  have hwidth : 8 * i + 7 + 1 - 8 * i = 8 := by omega
  rw [bitsOf, hwidth]
  interval_cases i <;> norm_num <;> omega

/-- Out of reset every source's byte of FLT_SRCCFG has its reset value. -/
theorem reset_srcCfg {n : Nat} (hn : n < 256) : srcCfg State.reset n = srcCfgReset n := by
  have hsplit : 4 * (n / 4) + n % 4 = n := Nat.div_add_mod n 4
  have hbyte := bitsOf_bytes (b := fun i => srcCfgReset (4 * (n / 4) + i)) (fun i => srcCfgReset_lt _)
    (Nat.mod_lt n (by decide))
  simp only [srcCfg, reset_srcAbsent, Bool.false_eq_true, if_false, reset_rdN_srcCfg (show n / 4 < 64 by omega)]
  exact hbyte.trans (congrArg srcCfgReset hsplit)

/-- Settles O3: the tables are empty, every register reads its reset value, and the fault sources byte by byte. -/
theorem resetStateIsSound : Obligations.ResetStateIsSound := by
  refine ⟨reset_canonical, rfl, rfl, rfl, fun _ => rfl, by decide, by decide, by decide, by decide, by decide, rfl, rfl, rfl,
    reset_vectorMasked, ?_⟩
  intro n hn m hm
  rw [reset_srcCfg hn, srcCfgReset, hm]

-- Accesses to BAR0 (R375, R377)

/-- An access by a master that reaches the BAR has its effect. -/
theorem onBar_of_reachable {s : State} {m : Master} (h : m = .host → s.pci.d3 = false) (t : State) : onBar s m t = t := by
  unfold onBar
  split
  next hd3 => simp [h hd3.1] at hd3
  next => rfl

theorem barRead_window {s : State} {m : Master} {a n : Nat} (tclk : Nat) (ha : inWindow a = true)
    (hn : windowOk s m n s.pci.mrrs = true) : barRead s m a n tclk = windowRead s m a n := by
  simp [barRead, ha, hn]

theorem barRead_dw {s : State} {m : Master} {a : Nat} (tclk : Nat) (ha : inWindow a = false) (h4 : a % 4 = 0) :
    barRead s m a 4 tclk = dwRead s m tclk a := by
  simp [barRead, ha, shapeOk, h4]

/-- No memory window lies in the mask memory. -/
theorem inWindow_of_mask {a : Nat} (h0 : 0x1710000 ≤ a) (h1 : a < 0x1720000) : inWindow a = false := by
  simp only [inWindow, Bool.or_eq_false_iff, Bool.and_eq_false_iff, decide_eq_false_iff_not]
  omega

theorem barWrite_window {s : State} {m : Master} {a : Nat} {b : List Byte} (ha : inWindow a = true)
    (hb : windowOk s m b.length s.pci.mps = true) : barWrite s m a b = windowWrite s m a b := by
  simp [barWrite, ha, hb]

theorem barWrite_dw {s : State} {m : Master} {a : Nat} {b : List Byte} (ha : inWindow a = false) (h4 : a % 4 = 0)
    (hb : b.length = 4) : barWrite s m a b = registerWrite s m a (w32 (u32 b 0)) := by
  simp [barWrite, ha, shapeOk, h4, hb]

theorem barWrite_two_dw {s : State} {m : Master} {a : Nat} {b : List Byte} (ha : inWindow a = false) (h4 : a % 4 = 0)
    (hb : b.length = 8) : barWrite s m a b =
      registerWrite (registerWrite s m a (w32 (u32 b 0))) m (a + 4) (w32 (u32 b 4)) := by
  simp [barWrite, ha, shapeOk, h4, hb]

theorem exec_pairLoRead {s : State} {m : Master} (a : Span) (tclk : Nat) (h : m = .host → s.pci.d3 = false) :
    exec (.pairLoRead m a tclk) s = .next (barRead s m a.base a.len tclk) :=
  congrArg Host.Outcome.next (onBar_of_reachable h _)

theorem exec_registerWrite {s : State} {m : Master} (a : Nat) (b : List Byte) (h : m = .host → s.pci.d3 = false) :
    exec (.registerWrite m a b) s = .next (barWrite s m a b) :=
  congrArg Host.Outcome.next (onBar_of_reachable h _)

/-- Settles O60, row by row: the access reaches the BAR, and its address and length choose what it does there. -/
theorem registerAccessesComplete : Obligations.RegisterAccessesComplete := by
  refine ⟨?rawRead, ?regRead, ?maskRead, ?windowRead, ?beatRead, ?nowRead, ?calRead, ?stampRead, ?swevt, ?shadow, ?dwWrite,
    ?twoDwWrite, ?windowWrite⟩
  case rawRead =>
    intro s m a tclk h hbase hlen
    rw [exec_pairLoRead a tclk h, hbase, hlen, barRead_dw tclk (by decide) (by decide)]
    rfl
  case regRead =>
    intro s m a tclk h h4 hlen hwin hmask
    rw [exec_pairLoRead a tclk h, hlen, barRead_dw tclk hwin h4, dwRead, if_neg (by omega)]
  case maskRead =>
    intro s m a tclk h h4 hlen h0 h1
    rw [exec_pairLoRead a tclk h, hlen, barRead_dw tclk (inWindow_of_mask h0 h1) h4, dwRead, if_pos ⟨h0, h1⟩]
  case windowRead =>
    intro s m a tclk h hwin hn
    rw [exec_pairLoRead a tclk h, barRead_window tclk hwin hn]
  case beatRead =>
    intro s m cyc h
    exact congrArg Host.Outcome.next (onBar_of_reachable h _)
  case nowRead =>
    intro s m tclk h
    exact congrArg Host.Outcome.next (onBar_of_reachable h _)
  case calRead =>
    intro s m core hcore
    exact congrArg Host.Outcome.next (if_pos hcore)
  case stampRead =>
    intro s m ch hch
    exact congrArg Host.Outcome.next (if_pos hch)
  case swevt =>
    intro s m v h hv
    have hfire : swevt s v = fire s (fld v 9 0) := if_neg (by omega)
    exact congrArg Host.Outcome.next ((onBar_of_reachable h _).trans hfire)
  case shadow =>
    intro s m a v r l g h hreg hgroup hpresent hfree
    have hwrite : shadowWrite s m a v = fieldsWrite s a r v := by
      simp [shadowWrite, hreg, hgroup, hpresent, hfree]
    exact congrArg Host.Outcome.next ((onBar_of_reachable h _).trans hwrite)
  case dwWrite =>
    intro s m a b h hwin h4 hlen
    rw [exec_registerWrite a b h, barWrite_dw hwin h4 hlen]
  case twoDwWrite =>
    intro s m a b h hwin h4 hlen
    rw [exec_registerWrite a b h, barWrite_two_dw hwin h4 hlen]
  case windowWrite =>
    intro s m a b h hwin hok
    rw [exec_registerWrite a b h, barWrite_window hwin hok]

end Sys2Proof.Machine
end

section
/-! PROOFS. What a command leaves alone: the memories, locks and values in force that its row does not name; what a fault
report may write; a write of a shadowed register; the beat marks. -/
namespace Sys2Proof.Machine

-- The tables that a row does not name

/-- A table of a frame: kept as `m`, or free where the row may change it. -/
def keepUnless {α : Type} (changed : Bool) (m : α) : Option α := if changed then none else some m

theorem keepUnless_eq_none {α : Type} {changed : Bool} (m : α) (h : changed = true) : keepUnless changed m = none := if_pos h

theorem eq_of_mem_keepUnless {α : Type} {changed : Bool} {m x : α} (h : x ∈ keepUnless changed m) : m = x := by
  cases changed with
  | false => exact Option.some.inj h
  | true => cases h

/-- A kept table is its contents in the frame. -/
theorem eq_of_keepUnless {α : Type} {changed : Bool} {m x : α} (hkeep : ∀ y ∈ keepUnless changed m, x = y)
    (h : changed = false) : x = m := by
  subst h
  exact hkeep m rfl

/-- The frame of a command on a state: every table that its row does not name, with its contents. -/
def unnamed (c : Instr) (s : State) : Frame where
  queue := s.pending
  active := keepUnless (changesActive c) s.active
  mbx := keepUnless (storesMbx c) s.mbx
  hbm := keepUnless (storesHbm c) s.hbm
  sram := keepUnless (storesSram c) s.sram
  flash := keepUnless (storesFlash c) s.flash
  slcRam := keepUnless (storesSlcRam c) s.slcRam
  msix := keepUnless (storesMsix c) s.msix
  locks := keepUnless (changesLocks c) s.locks

/-- A state with canonical tables has the contents that its own frame names. -/
theorem unnamed_kept (c : Instr) {s : State} (hs : s.canonical) : Kept (unnamed c s) s.fuses s where
  pending := rfl
  fuses := Fuses.Burned.refl _
  canonical := hs
  frame := by constructor <;> exact fun _ => eq_of_mem_keepUnless

/-- A command keeps every table that its row does not name. -/
theorem exec_keeps_unnamed {c : Instr} {s t : State} (hs : s.canonical) (hexec : exec c s = .next t) :
    Kept (unnamed c s) s.fuses t := by
  have hout : KeptOut (unnamed c s) s.fuses (exec c s) :=
    exec_kept c s (unnamed_kept c hs) (keepUnless_eq_none _) (keepUnless_eq_none _) (keepUnless_eq_none _)
      (keepUnless_eq_none _) (keepUnless_eq_none _) (keepUnless_eq_none _) (keepUnless_eq_none _) (keepUnless_eq_none _)
  rwa [hexec] at hout

/-- Settles O7: the command keeps the frame of the tables that its row does not name. -/
theorem onlyTheNamedCommandsTouchMemory : Obligations.OnlyTheNamedCommandsTouchMemory := by
  intro c s t hs hexec
  have hframe := (exec_keeps_unnamed hs hexec).frame
  exact ⟨eq_of_keepUnless hframe.hbm, eq_of_keepUnless hframe.sram, eq_of_keepUnless hframe.flash,
    eq_of_keepUnless hframe.slcRam, eq_of_keepUnless hframe.msix, eq_of_keepUnless hframe.locks,
    eq_of_keepUnless hframe.active, eq_of_keepUnless hframe.mbx⟩

-- What a fault report may write (R523–R535)

/-- Setting a bit sets that bit and leaves the others. -/
theorem bit_putBit_true (v : Word) (i k : Nat) : bit (putBit v i true) k = (bit v k || (decide (k < 32) && decide (i = k))) := by
  have hone : (BitVec.ofNat 32 (2 ^ i)).getLsbD k = (decide (k < 32) && decide (i = k)) := by
    rw [BitVec.getLsbD_ofNat, Nat.testBit_two_pow]
  have hmask : mask i i = BitVec.ofNat 32 (2 ^ i) := by
    simp only [mask, Nat.add_sub_cancel_left, pow_one, Nat.reduceSub, one_mul]
  have hfield : 1 % 2 ^ (i + 1 - i) * 2 ^ i = 2 ^ i := by
    simp only [Nat.add_sub_cancel_left, pow_one, Nat.reduceMod, one_mul]
  simp only [bit, BitVec.testBit_toNat, putBit, setFld, if_true, BitVec.getLsbD_or, BitVec.getLsbD_and, BitVec.getLsbD_not,
    hmask, hfield, hone]
  cases hv : v.getLsbD k
  · simp
  · have hk : k < 32 := BitVec.lt_of_getLsbD hv
    by_cases hik : i = k <;> simp [hk, hik]

/-- A state `t` that fault reports made of `s`: no value in force and no commit lock has changed, no register outside the PWR
and FLT blocks, and every sticky bit that was set still is. -/
structure Reported (s t : State) : Prop where
  active : t.active = s.active
  locked : t.locked = s.locked
  rd : ∀ a, a < 0x10000 ∨ 0x30000 ≤ a → t.rd a = s.rd a
  sticky : ∀ n k, s.rb (FLT_STICKY n) k = true → t.rb (FLT_STICKY n) k = true

namespace Reported
variable {s t u : State}

theorem refl (s : State) : Reported s s := ⟨rfl, rfl, fun _ _ => rfl, fun _ _ h => h⟩

theorem trans (h : Reported s t) (h' : Reported t u) : Reported s u :=
  ⟨h'.active.trans h.active, h'.locked.trans h.locked, fun a ha => (h'.rd a ha).trans (h.rd a ha),
    fun n k hk => h'.sticky n k (h.sticky n k hk)⟩

/-- A change beside the registers, the values in force and the commit locks. -/
theorem beside (h : Reported s t) (hregs : u.regs = t.regs := by rfl) (hactive : u.active = t.active := by rfl)
    (hlocked : u.locked = t.locked := by rfl) : Reported s u := by
  have hrd : ∀ a, u.rd a = t.rd a := fun a => by rw [State.rd, State.rd, hregs]
  exact h.trans ⟨hactive, hlocked, fun a _ => hrd a, fun n k hk => by rwa [State.rb, hrd]⟩

/-- A write of PWR_STAT or of a register of the FLT block below the sticky bits. -/
theorem wr (h : Reported s t) (a : Nat) (v : Word) (hlow : 0x10000 ≤ a := by decide) (hhigh : a < 0x20040 := by decide) :
    Reported s (t.wr a v) := by
  refine h.trans ⟨rfl, rfl, fun b hb => ?_, fun n k hk => ?_⟩
  · rw [State.rd_wr, if_neg (by omega)]
  · rwa [State.rb, State.rd_wr, if_neg (by unfold FLT_STICKY; omega)]

theorem setB (h : Reported s t) (a i : Nat) (b : Bool) (hlow : 0x10000 ≤ a := by decide) (hhigh : a < 0x20040 := by decide) :
    Reported s (t.setB a i b) := h.wr a _ hlow hhigh
theorem setF (h : Reported s t) (a hi lo x : Nat) (hlow : 0x10000 ≤ a := by decide) (hhigh : a < 0x20040 := by decide) :
    Reported s (t.setF a hi lo x) := h.wr a _ hlow hhigh
theorem addR (h : Reported s t) (a n : Nat) (hlow : 0x10000 ≤ a := by decide) (hhigh : a < 0x20040 := by decide) :
    Reported s (t.addR a n) := h.wr a _ hlow hhigh

theorem ite {c : Prop} [Decidable c] (ht : Reported s t) (hu : Reported s u) : Reported s (if c then t else u) := by
  split <;> assumption

theorem vectorIf (h : Reported s t) (en : Bool) (v : Nat) : Reported s (Machine.vectorIf t en v) := by
  unfold Machine.vectorIf vector
  exact ite (ite h.beside h.beside) h

theorem monAsk (h : Reported s t) (kind sel : Nat) : Reported s (Machine.monAsk t kind sel) := by
  unfold Machine.monAsk
  exact ite h h.beside

theorem assertFault (h : Reported s t) : Reported s (Machine.assertFault t) := by
  unfold Machine.assertFault
  exact ite h h.beside

theorem isolateEng (h : Reported s t) (e : Nat) : Reported s (Machine.isolateEng t e) := h.beside

theorem logPut (h : Reported s t) (src code raised cfg : Nat) (esc inj : Bool) :
    Reported s (Machine.logPut t src code raised cfg esc inj).1 := by
  unfold Machine.logPut
  extract_lets n full first st ser e old t₁ t₂ first' t₃ t₄
  have h₁ : Reported s t₁ := h.beside
  have h₂ : Reported s t₂ := h₁.addR _ _
  have h₃ : Reported s t₃ := h₂.setF _ _ _ _
  have h₄ : Reported s t₄ := ite (h₃.setB _ _ _) h₃
  split
  · exact ((h.addR FLT_LOGLOST _).setB FLT_LOGSTAT _ _).setB FLT_LOGSTAT _ _
  · split
    · exact h₂.setB FLT_LOGSTAT _ _
    · exact h₄.vectorIf _ _

/-- The sticky bit of a source. -/
theorem stickyBit (h : Reported s t) (n : Nat) (k : Nat) (hn : n < 8) : Reported s (t.setB (FLT_STICKY n) k true) := by
  refine h.trans ⟨rfl, rfl, fun a ha => ?_, fun m j hj => ?_⟩
  · rw [State.setB_eq, State.rd_wr, if_neg (by unfold FLT_STICKY; omega)]
  · rw [State.rb, State.setB_eq, State.rd_wr]
    split
    next heq => rw [bit_putBit_true, ← heq]; simp [show bit (t.rd (FLT_STICKY m)) j = true from hj]
    next => exact hj

end Reported

/-- One report sets its sticky bit and leaves all else that `Reported` names. -/
theorem raiseOnce_reported (s : State) (src code cls : Nat) (inj : Bool) :
    Reported (s.setB (FLT_STICKY (src / 32)) (src % 32) true) (raiseOnce s src code cls inj).1 := by
  unfold raiseOnce
  extract_lets wasSticky none_ marked esc r counted pended first rep
  have hmarked : Reported marked marked := .refl marked
  have hcounted : Reported marked counted := .ite (hmarked.addR _ _) hmarked
  have hpended : Reported marked pended := (hcounted.setB _ _ _).monAsk _ _
  have hfirst : Reported marked first := .ite (hpended.wr _ _) hpended
  have hlog : Reported marked (if rep then (first.addR FLT_LOGSUP 1, false) else logPut first src code r cls esc inj).1 := by
    split
    · exact hfirst.addR _ _
    · exact hfirst.logPut _ _ _ _ _ _
  split
  · exact hmarked
  split
  next logged due hlogged =>
  rw [hlogged] at hlog
  extract_lets signalled railed asserted isolated latched halting
  have hrailed : Reported marked railed := (hlog.vectorIf _ _).vectorIf _ _
  have hasserted : Reported marked asserted := .ite hrailed.assertFault hrailed
  have hisolated : Reported marked isolated := .ite (hasserted.isolateEng _) hasserted
  have hlatched : Reported marked latched :=
    .ite (hisolated.setB _ _ _) (.ite hisolated ((hisolated.setF FLT_FATALSRC _ _ _).setB _ _ _))
  have hhalting : Reported marked halting := .ite hlatched (hlatched.setB _ _ _)
  exact .ite hhalting.beside hisolated

/-- A report with the log's own source 225 beside it. -/
theorem raise_reported (s : State) (src code cls : Nat) (inj : Bool) :
    Reported (s.setB (FLT_STICKY (src / 32)) (src % 32) true) (raise s src code cls inj) := by
  have honce := raiseOnce_reported s src code cls inj
  unfold raise
  exact .ite ((honce.stickyBit 7 1 (by decide)).trans (raiseOnce_reported _ 225 _ _ _)) honce

theorem report_reported (s : State) {src : Nat} (code : Nat) (hsrc : src < 256) : Reported s (report s src code) := by
  unfold report
  exact .ite (.refl s) (((Reported.refl s).stickyBit _ _ (by omega)).trans (raise_reported s src code _ _))

/-- A report of a source that can fire, and whose rail pair has not failed, leaves its sticky bit set (R523, R525). -/
theorem report_sets_sticky {s : State} {src : Nat} (code : Nat) (himpl : srcReserved src = false)
    (hpresent : srcAbsent s src = false) (hrail : s.rb (FLT_RAILBAD (src / 32)) (src % 32) = false) :
    (report s src code).rb (FLT_STICKY (src / 32)) (src % 32) = true := by
  have hraise : report s src code = raise s src code (srcCfg s src % 4) false := by
    simp [report, himpl, hpresent, hrail]
  rw [hraise]
  refine (raise_reported s src code _ _).sticky _ _ ?_
  simp [State.rb, State.setB_eq, bit_putBit_true, Nat.mod_lt]

-- Shadowed registers (R43, R49)

theorem mem_of_findRow {a : Nat} {r : RegRow} {l : List Nat} :
    ∀ {rows : List RegRow}, findRow rows a = some (r, l) → r ∈ rows
  | x :: rows, h => by
    simp only [findRow] at h
    split at h
    · exact List.mem_cons_of_mem _ (mem_of_findRow h)
    · split at h
      · cases h
        exact List.mem_cons_self
      · exact List.mem_cons_of_mem _ (mem_of_findRow h)

/-- A register lies in the window of a block and is one of the block's rows. -/
theorem block_of_findBlock {a : Nat} {r : RegRow} {l : List Nat} : ∀ {blocks : List (Nat × Nat × List RegRow)},
    findBlock blocks a = some (r, l) → ∃ lo hi rows, (lo, hi, rows) ∈ blocks ∧ lo ≤ a ∧ a ≤ hi ∧ r ∈ rows
  | (lo, hi, rows) :: blocks, h => by
    simp only [findBlock] at h
    split at h
    next hin => exact ⟨lo, hi, rows, List.mem_cons_self, hin.1, hin.2, mem_of_findRow h⟩
    next =>
      obtain ⟨lo', hi', rows', hmem, hrest⟩ := block_of_findBlock h
      exact ⟨lo', hi', rows', List.mem_cons_of_mem _ hmem, hrest⟩

/-- No row of the blocks below the converters has a commit group (R44, R582). -/
theorem unshadowed_below_converters : ∀ b ∈ regBlocks, b.1 < 0x1000000 → ∀ r ∈ b.2.2, 64 ≤ r.group := by decide

/-- The registers below the converters belong to no commit group. -/
theorem groupOf_of_lt {a : Nat} (ha : a < 0x1000000) : groupOf a = none := by
  unfold groupOf
  split
  next r l hreg =>
    obtain ⟨lo, hi, rows, hblock, hlo, -, hrow⟩ := block_of_findBlock hreg
    exact if_neg (Nat.not_lt.mpr (unshadowed_below_converters _ hblock (Nat.lt_of_le_of_lt hlo ha) r hrow))
  next => rfl

theorem exec_shadowRegisterWrite {s : State} {m : Master} (a : Nat) (v : Word) (h : m = .host → s.pci.d3 = false) :
    exec (.shadowRegisterWrite m a v) s = .next (shadowWrite s m a v) :=
  congrArg Host.Outcome.next (onBar_of_reachable h _)

/-- A write of a present shadowed register: refused in a locked group, else taken by the fields. -/
theorem shadowWrite_eq {s : State} {m : Master} {a : Nat} {v : Word} {r : RegRow} {l : List Nat} {g : Nat}
    (hreg : regAt a = some (r, l)) (hgroup : groupOf a = some g) (hpresent : addrAbsent s a = false) :
    shadowWrite s m a v = if groupLocked s g then shadowRefused s m else fieldsWrite s a r v := by
  simp [shadowWrite, hreg, hgroup, hpresent]

/-- An on-chip master whose write is refused gets a bus error. -/
theorem shadowRefused_on_chip {s : State} {m : Master} (h : m ≠ .host) : shadowRefused s m = s.put (.busError m) := by
  cases m with
  | host => exact absurd rfl h
  | mgmt i => rfl
  | ppe e => rfl
  | other => rfl

/-- What a refused host write leaves: WLOCK, then a report of source 229. -/
theorem shadowRefused_host_reported (s : State) : Reported (s.setB GLB_CMTSTAT 2 true) (shadowRefused s .host) :=
  report_reported _ _ (by decide)

/-- Source 229 is implemented on every variant and its sticky bit is bit 5 of FLT_STICKY7. -/
theorem shadowRefused_host_sticky {s : State} (hrail : s.rb (FLT_RAILBAD 7) 5 = false) :
    (shadowRefused s .host).rb (FLT_STICKY 7) 5 = true :=
  report_sets_sticky (src := 229) _ (by decide) (by simp [srcAbsent]) (by
    rw [State.rb, State.setB_eq, State.rd_wr, if_neg (by decide)]
    exact hrail)

/-- Settles O19, by whether the group is locked and who writes. -/
theorem shadowWriteReachesOnlyTheShadow : Obligations.ShadowWriteReachesOnlyTheShadow := by
  intro s m a v r l g hreg hgroup hpresent hbar
  rw [exec_shadowRegisterWrite a v hbar, shadowWrite_eq hreg hgroup hpresent]
  refine ⟨fun hfree => ?taken, fun hlocked hchip => ?chip, fun hlocked hhost => ?host⟩
  case taken =>
    rw [if_neg (by simp [hfree])]
    exact ⟨_, rfl, by simp [fieldsWrite], fun b hb => by simp [fieldsWrite, hb], fun _ => rfl, rfl⟩
  case chip => rw [if_pos hlocked, shadowRefused_on_chip hchip]
  case host =>
    subst hhost
    rw [if_pos hlocked]
    have hrep := shadowRefused_host_reported s
    have hshadow : 0x1000000 ≤ a := by
      by_contra hlow
      simp [groupOf_of_lt (Nat.lt_of_not_le hlow)] at hgroup
    refine ⟨_, rfl, ?_, shadowRefused_host_sticky, ?_, hrep.active, hrep.locked⟩
    · rw [State.rb, hrep.rd GLB_CMTSTAT (.inl (by decide))]
      simp [State.setB_eq, bit_putBit_true]
    · rw [hrep.rd a (.inr (by omega)), State.setB_eq, State.rd_wr, if_neg (by unfold GLB_CMTSTAT; omega)]

-- Events (R589)

/-- A loop leaves what each of its turns leaves. -/
theorem forEach_const {α σ β : Type} (p : σ → β) {f : α → σ → σ} (hf : ∀ a s, p (f a s) = p s) :
    ∀ (l : List α) (s : σ), p (forEach l s f) = p s
  | [], _ => rfl
  | a :: l, s => (forEach_const p hf l (f a s)).trans (hf a s)

/-- The outputs and the values in force. -/
def outAndActive (s : State) : List Out × List (Nat × Word) := (s.out, s.active)

theorem outAndActive_wakeCluster (s : State) (c : Nat) : outAndActive (wakeCluster s c) = outAndActive s := by
  unfold wakeCluster
  split <;> rfl

theorem outAndActive_idleBroken (s : State) (e : Nat) : outAndActive (idleBroken s e) = outAndActive s := by
  unfold idleBroken
  extract_lets
  split <;> rfl

/-- Channels count an event and engines see it; beside the event itself nothing leaves, and no value in force changes. -/
theorem outAndActive_fire (s : State) (e : Nat) : outAndActive (fire s e) = (.event e :: s.out, s.active) := by
  unfold fire
  extract_lets fired counted
  calc
    outAndActive (forEach _ counted _) = outAndActive counted := by
      refine forEach_const outAndActive (fun n t => ?_) _ _
      extract_lets p p' woken
      have hwoken : outAndActive woken = outAndActive t := by
        dsimp only [woken]
        split
        · exact outAndActive_wakeCluster t _
        · rfl
      split
      · exact hwoken
      · exact (outAndActive_idleBroken _ n).trans hwoken
    _ = outAndActive fired := by
      refine forEach_const outAndActive (fun n t => ?_) _ _
      extract_lets
      split <;> rfl
    _ = (.event e :: s.out, s.active) := rfl

-- Beat marks (R30)

/-- The word of a mark that takes a write: EN, PLOG and PHASE of the value, the reserved bits as they were. -/
theorem mark_fields_taken (old v : Word) :
    ((old &&& ~~~ w32 0x9FFFFFFF) ||| (v &&& w32 0x9FFFFFFF)) &&& ~~~ (v &&& w32 0x0) =
      (old &&& 0x60000000) ||| (v &&& 0x9FFFFFFF) := by
  have hkept : ~~~ w32 0x9FFFFFFF = 0x60000000 := by decide
  have hall : ~~~ (v &&& w32 0x0) = BitVec.allOnes 32 := by simp [w32]
  rw [hkept, hall, BitVec.and_allOnes]
  rfl

section
variable {n : Nat} (hn : n < 8)
include hn

theorem regAt_mark : regAt (GLB_MARK n) = some (⟨0x40, [(8, 0x4)], 0x9FFFFFFF, 0x0, 0x0, 64, 0⟩, [n]) := by
  interval_cases n <;> rfl

theorem groupOf_mark : groupOf (GLB_MARK n) = none := groupOf_of_lt (by unfold GLB_MARK; omega)

theorem addrAbsent_mark (s : State) : addrAbsent s (GLB_MARK n) = false := by
  interval_cases n <;> rfl

/-- No register with a rule of its own is a mark. -/
theorem ruled_mark (s : State) (m : Master) (v : Word) : ruled s m (GLB_MARK n) v = none := by
  interval_cases n <;> rfl

/-- No field of a mark keeps its value for being out of range: a faulty write of a mark is ignored whole. -/
theorem keepBad_mark (s : State) (v : Word) : keepBad s (GLB_MARK n) v = v := by
  interval_cases n <;> rfl

theorem afterWrite_mark (s : State) (v : Word) : afterWrite s (GLB_MARK n) v = s := by
  interval_cases n <;> rfl

theorem ignoredWhole_mark (s : State) (v : Word) :
    ignoredWhole s (GLB_MARK n) v = (decide (24 < fld v 28 24) || decide (2 ^ fld v 28 24 ≤ fld v 23 0)) :=
  if_pos (by unfold GLB_MARK; omega)

/-- A write of a mark is ignored whole, or goes into its fields at once: no commit group shadows it. -/
theorem registerWrite_mark (s : State) (m : Master) (v : Word) :
    registerWrite s m (GLB_MARK n) v =
      if 24 < fld v 28 24 ∨ 2 ^ fld v 28 24 ≤ fld v 23 0 then s
      else s.wr (GLB_MARK n) ((s.rd (GLB_MARK n) &&& 0x60000000) ||| (v &&& 0x9FFFFFFF)) := by
  simp only [registerWrite, addrAbsent_mark hn, groupOf_mark hn, ruled_mark hn, regAt_mark hn, keepBad_mark hn,
    afterWrite_mark hn, ignoredWhole_mark hn, fieldsWrite, mark_fields_taken, Option.isSome_none, Bool.false_eq_true, if_false,
    Bool.or_eq_true, decide_eq_true_eq]

theorem exec_registerWrite_mark {s : State} {m : Master} {b : List Byte} (hb : b.length = 4)
    (hbar : m = .host → s.pci.d3 = false) :
    exec (.registerWrite m (GLB_MARK n) b) s = .next (registerWrite s m (GLB_MARK n) (w32 (u32 b 0))) := by
  rw [exec_registerWrite _ b hbar, barWrite_dw (by interval_cases n <;> rfl) (by unfold GLB_MARK; omega) hb]

theorem exec_beatMark (s : State) :
    exec (.beatMark n) s = .next (if markDue s n then fire s (8 + n) else s) := by
  simp [exec, execBeatMark, hn]

end

theorem markDue_iff {s : State} {n : Nat} : markDue s n = true ↔ fclkRuns s = true ∧ s.rb (GLB_MARK n) 31 = true ∧
    s.beat % 2 ^ s.rf (GLB_MARK n) 28 24 = s.rf (GLB_MARK n) 23 0 := by
  simp only [markDue, Bool.and_eq_true, beq_iff_eq, and_assoc]

/-- Settles O36: the mark when it is due and when it is not, then a faulty and an accepted write of it. -/
theorem beatMarkFires : Obligations.BeatMarkFires := by
  intro s n hn
  rw [exec_beatMark hn]
  refine ⟨fun hclk hen hphase => ?due, fun hnot => ?notDue, fun m b hb hbar => ?write, groupOf_mark hn⟩
  case due =>
    rw [if_pos (markDue_iff.mpr ⟨hclk, hen, hphase⟩)]
    have hfire := outAndActive_fire s (8 + n)
    exact ⟨_, rfl, congrArg Prod.fst hfire, congrArg Prod.snd hfire⟩
  case notDue =>
    rw [if_neg]
    rw [markDue_iff]
    rintro ⟨-, hen, hphase⟩
    rcases hnot with hoff | hother
    · simp [hen] at hoff
    · exact hother hphase
  case write =>
    rw [exec_registerWrite_mark hn hb hbar, registerWrite_mark hn]
    refine ⟨fun hfault => by rw [if_pos (.inr hfault)], fun hplog hphase => ?_⟩
    rw [if_neg (by omega)]
    exact ⟨_, rfl, by simp⟩

end Sys2Proof.Machine
end

section
/-! PROOFS. The replies of Bisor commands: the commands that report and do nothing else, what a reply writes and what it
leaves alone, and the acknowledgement that empties a reply mailbox. -/
namespace Sys2Proof.Machine

-- Commands that report (R75)

/-- A command whose effect is a reply answers with a reply whether it is accepted or refused. -/
theorem command_answers {s : State} {op : Nat} {q : Req} {lenOk : Bool} {checks : List (Bool × Nat)} {effect : State}
    (heffect : accepted s op q lenOk checks = true → ∃ payload, effect = answer s op q payload) :
    ∃ payload, (.next (command s op q lenOk checks effect) : Res) = .next (answer s op q payload) := by
  cases hgate : gate s op q lenOk with
  | some st => exact ⟨_, congrArg _ (command_of_gate hgate)⟩
  | none =>
    cases hfail : firstFail checks with
    | some st => exact ⟨_, congrArg _ (command_of_fail hgate hfail)⟩
    | none =>
      have hacc : accepted s op q lenOk checks = true := by simp [accepted, hgate, hfail]
      obtain ⟨payload, rfl⟩ := heffect hacc
      exact ⟨payload, congrArg _ (command_of_accepted hacc)⟩

/-- An accepted command has passed its first check. -/
theorem first_check_of_accepted {s : State} {op : Nat} {q : Req} {lenOk c : Bool} {st : Nat} {checks : List (Bool × Nat)}
    (h : accepted s op q lenOk ((c, st) :: checks) = true) : c = false := by
  simp only [accepted, Bool.and_eq_true, Option.isNone_iff_eq_none] at h
  exact firstFail_eq_none.mp h.2 (c, st) List.mem_cons_self

/-- COMMIT_STATUS finds the ticket that its check has passed, and reports how it stands (R52). -/
theorem commitStatus_answers (q : Req) (s : State) :
    ∃ payload, exec (.commitStatus q) s = .next (answer s 0x0101 q payload) := by
  refine command_answers fun hacc => ?_
  have hfound := first_check_of_accepted hacc
  cases hticket : findTicket s (u32 q.params 0) with
  | none => simp [hticket] at hfound
  | some found =>
    obtain ⟨t, ending⟩ := found
    dsimp only
    split
    · exact ⟨_, rfl⟩
    · exact ⟨_, rfl⟩

/-- Settles O10: COMMIT_STATUS by the ticket it finds; every other query is one `command` whose effect is a reply. -/
theorem queryCommandsOnlyReply : Obligations.QueryCommandsOnlyReply := by
  intro i op q s hquery hreq
  cases i with
  | commitStatus q' =>
    cases hreq
    exact commitStatus_answers _ s
  | _ => cases hquery <;> cases hreq <;> exact command_answers fun _ => ⟨_, rfl⟩

-- What a reply writes (R66, R78, R91)

/-- A vector that fires leaves a message among the outputs or its pending bit. -/
theorem vectorIf_frame (s : State) (en : Bool) (v : Nat) :
    ∃ out pba, vectorIf s en v = { s with out := out, pba := pba } := by
  unfold vectorIf vector
  split_ifs
  · exact ⟨_, _, rfl⟩
  · exact ⟨_, _, rfl⟩
  · exact ⟨_, _, rfl⟩

/-- A vector writes no register, no mailbox byte and no request in hand. -/
@[simp] theorem vectorIf_keeps (s : State) (en : Bool) (v : Nat) :
    (vectorIf s en v).mbx = s.mbx ∧ (vectorIf s en v).inHand = s.inHand ∧ ∀ a, (vectorIf s en v).rd a = s.rd a := by
  obtain ⟨out, pba, hvec⟩ := vectorIf_frame s en v
  rw [hvec]
  exact ⟨rfl, rfl, fun _ => rfl⟩

/-- The state `t` with what a reply may change put back as in `s`. -/
def replyUndone (s t : State) : State :=
  { t with regs := s.regs, mbx := s.mbx, out := s.out, pba := s.pba, inHand := s.inHand }

section
variable (s t : State)

theorem replyUndone_self : replyUndone s s = s := rfl
theorem replyUndone_wr (a : Nat) (v : Word) : replyUndone s (t.wr a v) = replyUndone s t := rfl
theorem replyUndone_mbxWrite (a : Nat) (b : List Byte) : replyUndone s (t.mbxWrite a b) = replyUndone s t := rfl
theorem replyUndone_release (q : Req) : replyUndone s (t.release q) = replyUndone s t := rfl
theorem replyUndone_put (o : Out) : replyUndone s (t.put o) = replyUndone s t := rfl

theorem replyUndone_vectorIf (en : Bool) (v : Nat) : replyUndone s (vectorIf t en v) = replyUndone s t := by
  obtain ⟨out, pba, hvec⟩ := vectorIf_frame t en v
  rw [hvec]
  rfl

end

/-- The reply packet in reply mailbox `n`, with the mailbox's three registers. -/
def replyPosted (s : State) (n : Nat) (q : Req) (pk : List Byte) : State :=
  ((((s.release q).mbxWrite (0x88000 + 0x1000 * n) (pk.take 4096)).wr (MBX_HRSTAT n) (w32 (pk.length * 65536 + 1))).wr
    (MBX_HRSEQ n) q.seq).wr (MBX_HREPOCH n) (w32 (fwEpoch s))

section
variable (s : State) (n : Nat) (q : Req) (pk : List Byte)

theorem rd_replyPosted (a : Nat) :
    (replyPosted s n q pk).rd a = if a = MBX_HREPOCH n then w32 (fwEpoch s) else if a = MBX_HRSEQ n then q.seq
      else if a = MBX_HRSTAT n then w32 (pk.length * 65536 + 1) else s.rd a := by
  simp only [replyPosted, State.rd_wr]
  rfl

theorem mbx_replyPosted : (replyPosted s n q pk).mbx = Mem.write s.mbx (0x88000 + 0x1000 * n) (pk.take 4096) := rfl
theorem inHand_replyPosted : (replyPosted s n q pk).inHand = s.inHand.filter (fun h => !sameSource h.req q) := rfl

theorem replyUndone_replyPosted : replyUndone s (replyPosted s n q pk) = s := by
  simp only [replyPosted, replyUndone_wr, replyUndone_mbxWrite, replyUndone_release, replyUndone_self]

end

section
variable {s : State} {op n : Nat} {q : Req} {payload : List Byte}

/-- A reply to the present epoch of the host is posted, then its vector fires if enabled. -/
theorem answer_of_mailbox (hsrc : q.src = .mailbox n) (hepoch : q.epoch = hostEpoch s) :
    answer s op q payload =
      vectorIf (replyPosted s n q (replyPacket s op q (decide (0 < q.session)) payload)) (s.rb MBX_IRQEN n) n := by
  have hfw : ∀ (u : State) (x y : Word), fwEpoch ((u.wr (MBX_HRSTAT n) x).wr (MBX_HRSEQ n) y) = fwEpoch u := fun u x y => by
    simp only [fwEpoch, State.rf, State.rd_wr]
    rw [if_neg (by unfold MBX_EPOCH MBX_HRSEQ; omega), if_neg (by unfold MBX_EPOCH MBX_HRSTAT; omega)]
  have hirq : (replyPosted s n q (replyPacket s op q (decide (0 < q.session)) payload)).rb MBX_IRQEN n = s.rb MBX_IRQEN n := by
    rw [State.rb, rd_replyPosted, if_neg (by unfold MBX_IRQEN MBX_HREPOCH; omega), if_neg (by unfold MBX_IRQEN MBX_HRSEQ; omega),
      if_neg (by unfold MBX_IRQEN MBX_HRSTAT; omega)]
    rfl
  rw [← hirq]
  have hnow : ¬ q.epoch ≠ hostEpoch (s.release q) := fun h => h hepoch
  simp only [answer, answerAs, hsrc, if_neg hnow, hfw]
  rfl

/-- A reply to an older epoch of the host is discarded (R91). -/
theorem answer_of_old_epoch (hsrc : q.src = .mailbox n) (hepoch : q.epoch ≠ hostEpoch s) : answer s op q payload = s.release q := by
  have hold : q.epoch ≠ hostEpoch (s.release q) := hepoch
  simp only [answer, answerAs, hsrc, if_pos hold]

theorem answer_of_net {p : Peer} (hsrc : q.src = .net p) :
    answer s op q payload = (s.release q).put (.netReply p (replyPacket s op q (decide (0 < q.session)) payload)) := by
  simp only [answer, answerAs, hsrc]

end

/-- A posted packet and its vector change the mailbox's three registers and the reply mailbox. -/
theorem onlyReplied_posted {s : State} {n : Nat} {q : Req} (pk : List Byte) (en : Bool) (hsrc : q.src = .mailbox n) :
    OnlyReplied q s (vectorIf (replyPosted s n q pk) en n) where
  rest := (replyUndone_vectorIf s _ en n).trans (replyUndone_replyPosted s n q pk)
  regs := fun a ha => by
    obtain ⟨hstat, hseq, hepoch⟩ := ha n hsrc
    simp [rd_replyPosted, hstat, hseq, hepoch]
  net := fun hnet => absurd hsrc (hnet n)

/-- A request taken out of hand changes nothing else. -/
theorem onlyReplied_release (s : State) (q : Req) : OnlyReplied q s (s.release q) :=
  ⟨replyUndone_release s s q, fun _ _ => rfl, fun _ => ⟨rfl, rfl⟩⟩

/-- A network reply leaves as a datagram. -/
theorem onlyReplied_net (s : State) (q : Req) (o : Out) : OnlyReplied q s ((s.release q).put o) :=
  ⟨(replyUndone_put s _ o).trans (replyUndone_release s s q), fun _ _ => rfl, fun _ => ⟨rfl, rfl⟩⟩

/-- Settles O11: a posted reply, a reply that is discarded, and a network reply. -/
theorem replyTouchesOnlyItsMailbox : Obligations.ReplyTouchesOnlyItsMailbox := by
  intro s op q payload t len
  have ht : t = answer s op q payload := rfl
  clear_value t
  cases hsrc : q.src with
  | net p =>
    rw [ht, answer_of_net hsrc]
    exact ⟨onlyReplied_net s q _, rfl, fun _ _ h => by cases h⟩
  | mailbox n =>
    by_cases hepoch : q.epoch = hostEpoch s
    · rw [ht, answer_of_mailbox hsrc hepoch]
      refine ⟨onlyReplied_posted _ _ hsrc, by simp [inHand_replyPosted], fun m a hm hout => ?_⟩
      cases hm
      rw [(vectorIf_keeps _ _ _).1, mbx_replyPosted]
      exact Mem.get_write_outside s.mbx _ _ (by rw [List.length_take]; exact hout)
    · rw [ht, answer_of_old_epoch hsrc hepoch]
      exact ⟨onlyReplied_release s q, rfl, fun _ _ _ _ => rfl⟩

/-- The packet of a reply to a mailbox is never cut: its header, the payload, and a tag if it is authenticated. -/
theorem replyPacket_of_mailbox {s : State} {op n : Nat} {q : Req} (auth : Bool) (payload : List Byte)
    (hsrc : q.src = .mailbox n) :
    ∃ tag, replyPacket s op q auth payload = replyHeader s op q auth false payload.length ++ (payload ++ tag) := by
  simp only [replyPacket, hsrc, Bool.false_eq_true, if_false]
  split
  · split
    · exact ⟨_, List.append_assoc _ _ _⟩
    · exact ⟨[], by rw [List.append_nil]⟩
  · exact ⟨[], by rw [List.append_nil]⟩

/-- MBX_HRSTATn as a reply leaves it: the packet's length, and FULL. -/
theorem fld_hrstat {len : Nat} (hlen : len < 65536) :
    fld (w32 (len * 65536 + 1)) 31 16 = len ∧ fld (w32 (len * 65536 + 1)) 1 0 = 1 := by
  simp only [fld, bitsOf, w32, BitVec.toNat_ofNat]
  omega

/-- A reply's packet begins with magic, version and flags, the device id, the request's sequence, the opcode and the payload's
length (R66). -/
theorem replyHeader_fields (s : State) (op : Nat) (q : Req) (auth : Bool) (len : Nat) (rest : List Byte) :
    let pk := replyHeader s op q auth false len ++ rest
    pk.take 4 = b2 0xB150 ++ b1 1 ++ b1 (if auth then 3 else 1) ∧ slice pk 4 4 = b4 (s.devId % 2 ^ 20) ∧
      slice pk 8 4 = bw q.seq ∧ slice pk 12 2 = b2 op ∧ slice pk 14 2 = b2 len :=
  ⟨by cases auth <;> rfl, rfl, rfl, rfl, rfl⟩

/-- Settles O12: the mailbox after the posted reply, the packet's header, and the discarded reply. -/
theorem replyLandsInItsMailbox : Obligations.ReplyLandsInItsMailbox := by
  intro s op n q payload hsrc t pk
  refine ⟨fun hepoch hlen => ?posted, answer_of_old_epoch hsrc⟩
  have ht : t = vectorIf (replyPosted s n q pk) (s.rb MBX_IRQEN n) n := answer_of_mailbox hsrc hepoch
  clear_value t
  obtain ⟨hmbx, -, hrd⟩ := vectorIf_keeps (replyPosted s n q pk) (s.rb MBX_IRQEN n) n
  rw [← ht] at hmbx hrd
  have hread : Mem.read t.mbx (0x88000 + 0x1000 * n) (min 4096 pk.length) = pk.take 4096 := by
    rw [hmbx, mbx_replyPosted, ← List.length_take, Mem.read_write]
  have hstat : t.rd (MBX_HRSTAT n) = w32 (pk.length * 65536 + 1) := by
    rw [hrd, rd_replyPosted, if_neg (by unfold MBX_HRSTAT MBX_HREPOCH; omega), if_neg (by unfold MBX_HRSTAT MBX_HRSEQ; omega),
      if_pos rfl]
  have hseq : t.rd (MBX_HRSEQ n) = q.seq := by
    rw [hrd, rd_replyPosted, if_neg (by unfold MBX_HRSEQ MBX_HREPOCH; omega), if_pos rfl]
  have hfw : t.rd (MBX_HREPOCH n) = w32 (fwEpoch s) := by rw [hrd, rd_replyPosted, if_pos rfl]
  obtain ⟨hfldLen, hfldFull⟩ := fld_hrstat hlen
  obtain ⟨tag, hpk⟩ : ∃ tag, pk = _ := replyPacket_of_mailbox _ payload hsrc
  have hheader := replyHeader_fields s op q (decide (0 < q.session)) payload.length (payload ++ tag)
  rw [← hpk] at hheader
  simp only [decide_eq_true_eq] at hheader
  exact ⟨hread, by rw [State.rf, hstat, hfldLen], by rw [State.rf, hstat, hfldFull], hseq, hfw, hheader⟩

theorem exec_mbxHrackWrite {s : State} {n : Nat} (hn : n < 8) (hbar : s.pci.d3 = false) :
    exec (.mbxHrackWrite n) s = .next (s.wr (MBX_HRSTAT n) 0) :=
  congrArg Host.Outcome.next ((onBar_of_reachable (fun _ => hbar) _).trans (if_pos hn))

/-- Settles O18: the one register written. -/
theorem acknowledgeEmptiesTheReplyMailbox : Obligations.AcknowledgeEmptiesTheReplyMailbox := by
  intro s n hn hbar
  exact ⟨_, exec_mbxHrackWrite hn hbar, by simp, fun a ha => by simp [ha], rfl⟩

end Sys2Proof.Machine
end

section
/-! PROOFS. The hardware locks: who acquires a lock by reading it and what each reader reads (R94, R96), and who releases
it (R95). -/
namespace Sys2Proof.Machine

/-- Lists of numbers are put in ascending order by insertion. -/
theorem insN_eq_orderedInsert (x : Nat) : ∀ l : List Nat, insN x l = l.orderedInsert (· ≤ ·) x
  | [] => rfl
  | a :: t => by simp only [insN, List.orderedInsert, insN_eq_orderedInsert x t]

theorem sortN_eq_insertionSort : ∀ l : List Nat, sortN l = l.insertionSort (· ≤ ·)
  | [] => rfl
  | a :: t => by
    rw [List.insertionSort_cons, ← sortN_eq_insertionSort t, ← insN_eq_orderedInsert]
    rfl

/-- A list that is not empty has a first number in ascending order, its least. -/
theorem exists_head_sortN {l : List Nat} (h : l ≠ []) : ∃ a, (sortN l).head? = some a ∧ a ∈ l ∧ ∀ b ∈ l, a ≤ b := by
  have hperm : List.Perm (sortN l) l := sortN_eq_insertionSort l ▸ List.perm_insertionSort (· ≤ ·) l
  have hsorted : (sortN l).Pairwise (· ≤ ·) := sortN_eq_insertionSort l ▸ List.pairwise_insertionSort (· ≤ ·) l
  cases hl : sortN l with
  | nil => exact absurd (List.nil_perm.mp (hl ▸ hperm)) h
  | cons a t =>
    rw [hl] at hperm hsorted
    refine ⟨a, rfl, hperm.subset List.mem_cons_self, fun b hb => ?_⟩
    rcases List.mem_cons.mp (hperm.symm.subset hb) with rfl | hbt
    · exact Nat.le_refl _
    · exact List.rel_of_pairwise_cons hsorted hbt

/-- Outputs put one after another, the latest first. -/
theorem forEach_put {α : Type} (f : α → Out) : ∀ (l : List α) (s : State),
    forEach l s (fun a s => s.put (f a)) = { s with out := (l.map f).reverse ++ s.out }
  | [], _ => rfl
  | a :: l, s => by
    rw [forEach, forEach_put f l, List.map_cons, List.reverse_cons, List.append_assoc]
    rfl

/-- The owner of lock `n` after the masters `ms` have read it. -/
def ownerAfter (s : State) (n : Nat) (ms : List Master) : Option Nat :=
  (lockOwner s n).or (sortN ((ms.filter lockable).map masterId)).head?

/-- What master `m` reads of lock `n` when the masters `ms` read it. -/
def lockValue (s : State) (n : Nat) (ms : List Master) (m : Master) : Word :=
  if !lockable m then 0x7F
  else match ownerAfter s n ms with
    | some o => if (lockOwner s n).isNone ∧ o = masterId m then w32 (2 ^ 31 + o) else w32 o
    | none => 0

/-- Reading a lock sets its owner and answers each reader. -/
theorem lockRead_eq (s : State) (n : Nat) (ms : List Master) : lockRead s n ms =
    { setLock s n (ownerAfter s n ms) with
      out := (ms.map (fun m => Out.readData m (lockValue s n ms m))).reverse ++ s.out } := by
  have howner : (match lockOwner s n with
      | some o => some o
      | none => (sortN ((ms.filter lockable).map masterId)).head?) = ownerAfter s n ms := by
    unfold ownerAfter
    cases lockOwner s n <;> rfl
  refine Eq.trans ?_ (forEach_put (fun m => Out.readData m (lockValue s n ms m)) ms (setLock s n (ownerAfter s n ms)))
  unfold lockValue
  rw [← howner]
  rfl

theorem lockOwner_lockRead (s : State) (n k : Nat) (ms : List Master) :
    lockOwner (lockRead s n ms) k = if k = n then ownerAfter s n ms else lockOwner s k := by
  rw [lockRead_eq]
  exact lockOwner_setLock s n k _

theorem lockable_iff {m : Master} : lockable m = true ↔ m ≠ .other := by simp [lockable]

/-- A lock that is held keeps its owner. -/
theorem ownerAfter_of_held {s : State} {n o : Nat} (ms : List Master) (h : lockOwner s n = some o) :
    ownerAfter s n ms = some o := by
  rw [ownerAfter, h]
  rfl

/-- A read by masters that can reach the lock. -/
theorem exec_glbLockRead {s : State} {n : Nat} {ms : List Master} (hn : n < 256)
    (hbar : ∀ m ∈ ms, m = .host → s.pci.d3 = false) : exec (.glbLockRead n ms) s = .next (lockRead s n ms) := by
  have hup : ms.filter (fun m => !(decide (m = .host) && s.pci.d3)) = ms := by
    refine List.filter_eq_self.mpr fun m hm => ?_
    by_cases hhost : m = .host
    · simp [hbar m hm hhost]
    · simp [hhost]
  simp only [exec, execGlbLockRead, hup, if_pos hn, if_true]

theorem exec_glbLockRelease {s : State} {m : Master} (n : Nat) (v : Word) (hbar : m = .host → s.pci.d3 = false) :
    exec (.glbLockRelease m n v) s =
      .next (if lockable m ∧ lockOwner s n = some (masterId m) ∧ fld v 6 0 = masterId m then setLock s n none else s) :=
  congrArg Host.Outcome.next (onBar_of_reachable hbar _)

/-- Of one lockable reader of a free lock, that reader becomes the owner. -/
theorem ownerAfter_of_free_singleton {s : State} {n : Nat} {m : Master} (hfree : lockOwner s n = none) (hm : m ≠ .other) :
    ownerAfter s n [m] = some (masterId m) := by
  simp [ownerAfter, hfree, lockable_iff.mpr hm, sortN, insN]

/-- A master without an id takes no lock. -/
theorem ownerAfter_other (s : State) (n : Nat) : ownerAfter s n [.other] = lockOwner s n := by
  simp [ownerAfter, lockable, sortN]

theorem lockValue_other (s : State) (n : Nat) (ms : List Master) : lockValue s n ms .other = 0x7F := rfl

theorem lockValue_of_lockable {s : State} {n o : Nat} {ms : List Master} {m : Master} (hm : m ≠ .other)
    (howner : ownerAfter s n ms = some o) :
    lockValue s n ms m = if lockOwner s n = none ∧ o = masterId m then w32 (2 ^ 31 + o) else w32 o := by
  simp [lockValue, lockable_iff.mpr hm, howner]

/-- Settles O14: a free lock, a held lock, and a reader without an id. -/
theorem lockReadAcquires : Obligations.LockReadAcquires := by
  intro s n m hn hbar
  refine ⟨⟨_, exec_glbLockRead hn fun m' hm' hhost => hbar ((List.mem_singleton.mp hm').symm.trans hhost),
    fun hm hfree => ?free, fun o hm hheld => ?held, fun hm => ?other, fun k hk => ?others, ?rest⟩, fun v => ?release, rfl,
    fun _ => rfl, fun _ => rfl⟩
  case free =>
    have howner := ownerAfter_of_free_singleton hfree hm
    rw [lockOwner_lockRead, if_pos rfl, lockRead_eq]
    simp [howner, lockValue_of_lockable hm howner, hfree]
  case held =>
    have howner := ownerAfter_of_held [m] hheld
    rw [lockOwner_lockRead, if_pos rfl, lockRead_eq]
    simp [howner, lockValue_of_lockable hm howner, hheld]
  case other =>
    subst hm
    rw [lockOwner_lockRead, if_pos rfl, lockRead_eq]
    simp [ownerAfter_other, lockValue_other]
  case others => rw [lockOwner_lockRead, if_neg hk]
  case rest => rw [lockRead_eq]; rfl
  case release => rw [exec_glbLockRelease n v (by simp), if_neg (by simp [lockable])]

/-- Settles O15, by whether the writer is the owner and names itself. -/
theorem lockReleaseByItsOwner : Obligations.LockReleaseByItsOwner := by
  intro s n m v hn hm hbar
  rw [exec_glbLockRelease n v hbar]
  refine ⟨fun howner hid => ?owner, fun hnot => ?other⟩
  case owner =>
    rw [if_pos ⟨lockable_iff.mpr hm, howner, hid⟩]
    exact ⟨_, rfl, by simp, fun k hk => by simp [hk], rfl⟩
  case other =>
    rw [if_neg]
    rintro ⟨-, howner, hid⟩
    exact hnot.elim (· howner) (· hid)

/-- Of the readers of a free lock, a lockable one of the lowest id becomes the owner. -/
theorem exists_winner {s : State} {n : Nat} {ms : List Master} (hfree : lockOwner s n = none) (hms : ∃ m ∈ ms, m ≠ .other) :
    ∃ w ∈ ms, w ≠ .other ∧ ownerAfter s n ms = some (masterId w) ∧ ∀ m ∈ ms, m ≠ .other → masterId w ≤ masterId m := by
  obtain ⟨m₀, hm₀, hlock₀⟩ := hms
  have hmem : ∀ m ∈ ms, m ≠ .other → masterId m ∈ (ms.filter lockable).map masterId := fun m hm hlock =>
    List.mem_map_of_mem (List.mem_filter.mpr ⟨hm, lockable_iff.mpr hlock⟩)
  obtain ⟨a, hhead, ha, hleast⟩ := exists_head_sortN (List.ne_nil_of_mem (hmem m₀ hm₀ hlock₀))
  obtain ⟨w, hw, rfl⟩ := List.mem_map.mp ha
  obtain ⟨hwms, hwlock⟩ := List.mem_filter.mp hw
  exact ⟨w, hwms, lockable_iff.mp hwlock, by rw [ownerAfter, hfree, hhead]; rfl,
    fun m hm hlock => hleast _ (hmem m hm hlock)⟩

/-- Settles O16: the winner owns the lock, and each reader reads its id. -/
theorem lowestReaderWinsALock : Obligations.LowestReaderWinsALock := by
  intro s n ms hn hbar hfree hms
  obtain ⟨w, hw, hlock, howner, hleast⟩ := exists_winner hfree hms
  refine ⟨_, w, exec_glbLockRead hn fun _ _ _ => hbar, hw, hlock, ?_, hleast, fun m hm hmlock => ?_⟩
  · rw [lockOwner_lockRead, if_pos rfl, howner]
  · have hvalue : lockValue s n ms m =
        if masterId m = masterId w then w32 (2 ^ 31 + masterId w) else w32 (masterId w) := by
      rw [lockValue_of_lockable hmlock howner]
      simp only [hfree, true_and, eq_comm]
    rw [← hvalue, lockRead_eq]
    exact List.mem_append_left _ (List.mem_reverse.mpr (List.mem_map_of_mem (f := fun m => Out.readData m (lockValue s n ms m)) hm))

end Sys2Proof.Machine
end

section
/-! PROOFS. Bit fields after a write, doorbells that are taken or refused (R78–R81), the replay window (R69), and what
PORST_N leaves (R515). -/
namespace Sys2Proof.Machine

-- Bit fields

/-- A write of a field sets the field's bits and leaves the others. -/
theorem bit_setFld (v : Word) (hi lo x k : Nat) :
    bit (setFld v hi lo x) k = if k < 32 ∧ lo ≤ k ∧ k ≤ hi then x.testBit (k - lo) else bit v k := by
  have hmask : (mask hi lo).getLsbD k = (decide (k < 32) && (decide (lo ≤ k) && decide (k - lo < hi + 1 - lo))) := by
    rw [mask, BitVec.getLsbD_ofNat, Nat.testBit_mul_two_pow, Nat.testBit_two_pow_sub_one]
  simp only [bit, BitVec.testBit_toNat, setFld, BitVec.getLsbD_or, BitVec.getLsbD_and, BitVec.getLsbD_not, hmask,
    BitVec.getLsbD_ofNat, Nat.testBit_mul_two_pow, Nat.testBit_mod_two_pow]
  by_cases hk : k < 32
  · by_cases hlo : lo ≤ k
    · by_cases hhi : k ≤ hi
      · simp [hk, hlo, hhi, show k - lo < hi + 1 - lo by omega]
      · simp [hk, hlo, hhi, show ¬ k - lo < hi + 1 - lo by omega]
    · simp [hk, hlo]
  · simp [hk, BitVec.getLsbD_of_ge v k (by omega)]

theorem bit_putBit (v : Word) (i : Nat) (b : Bool) (k : Nat) :
    bit (putBit v i b) k = if k < 32 ∧ i = k then b else bit v k := by
  rw [putBit, bit_setFld]
  by_cases hk : k < 32 ∧ i = k
  · obtain ⟨hlt, rfl⟩ := hk
    cases b <;> simp [hlt]
  · rw [if_neg hk, if_neg (by omega)]

/-- Bit `i` of a field is the register's bit at the field's place. -/
theorem testBit_fld (v : Word) (hi lo i : Nat) : (fld v hi lo).testBit i = (decide (i < hi + 1 - lo) && bit v (lo + i)) := by
  rw [fld, bitsOf, Nat.testBit_mod_two_pow, Nat.testBit_div_two_pow, bit, Nat.add_comm i lo]

/-- A field reads what was written to it, cut to its width. -/
theorem fld_setFld_same (v : Word) {hi : Nat} (lo x : Nat) (h : hi < 32) :
    fld (setFld v hi lo x) hi lo = x % 2 ^ (hi + 1 - lo) := by
  refine Nat.eq_of_testBit_eq fun i => ?_
  rw [testBit_fld, bit_setFld, Nat.testBit_mod_two_pow]
  by_cases hi' : i < hi + 1 - lo
  · rw [if_pos (by omega), Nat.add_sub_cancel_left]
  · simp [hi']

/-- A field keeps its value in a write of a field beside it. -/
theorem fld_setFld_beside (v : Word) {hi lo hi' lo' : Nat} (x : Nat) (h : hi < lo' ∨ hi' < lo) :
    fld (setFld v hi' lo' x) hi lo = fld v hi lo := by
  refine Nat.eq_of_testBit_eq fun i => ?_
  rw [testBit_fld, testBit_fld, bit_setFld]
  by_cases hi' : i < hi + 1 - lo
  · rw [if_neg (by omega)]
  · simp [hi']

theorem fld_lt (v : Word) (hi lo : Nat) : fld v hi lo < 2 ^ (hi + 1 - lo) := Nat.mod_lt _ (Nat.two_pow_pos _)

-- What a fault report leaves of the whole state (R523–R535)

/-- The state `t` with what a fault report may change put back as in `s`: the registers, the outputs and pending vectors, the
log, the monitor requests, FAULT_N, the isolated engines and the halt that is due. -/
def faultsUndone (s t : State) : State :=
  { t with
    regs := s.regs, out := s.out, pba := s.pba, log := s.log, lastCls := s.lastCls, ext := s.ext,
    faultLow := s.faultLow, isolated := s.isolated, haltDue := s.haltDue }

/-- Beside what a fault report may change, `t` is `s`. -/
def OnlyFaults (s t : State) : Prop := faultsUndone s t = s

namespace OnlyFaults
variable {s t u : State}

theorem refl (s : State) : OnlyFaults s s := rfl

theorem trans (h : OnlyFaults s t) (h' : OnlyFaults t u) : OnlyFaults s u :=
  (congrArg (faultsUndone s) h').trans h

theorem ite {c : Prop} [Decidable c] (ht : OnlyFaults s t) (hu : OnlyFaults s u) : OnlyFaults s (if c then t else u) := by
  split <;> assumption

theorem wr (h : OnlyFaults s t) (a : Nat) (v : Word) : OnlyFaults s (t.wr a v) := h.trans rfl

theorem vectorIf (h : OnlyFaults s t) (en : Bool) (v : Nat) : OnlyFaults s (Machine.vectorIf t en v) := by
  obtain ⟨out, pba, hvec⟩ := vectorIf_frame t en v
  rw [hvec]
  exact h.trans rfl

theorem monAsk (h : OnlyFaults s t) (kind sel : Nat) : OnlyFaults s (Machine.monAsk t kind sel) := by
  unfold Machine.monAsk
  exact h.trans (ite (refl t) rfl)

theorem assertFault (h : OnlyFaults s t) : OnlyFaults s (Machine.assertFault t) := by
  unfold Machine.assertFault
  exact h.trans (ite (refl t) rfl)

theorem isolateEng (h : OnlyFaults s t) (e : Nat) : OnlyFaults s (Machine.isolateEng t e) := h.trans rfl

theorem haltDue (h : OnlyFaults s t) : OnlyFaults s { t with haltDue := true } := h.trans rfl

theorem logged (h : OnlyFaults s t) (l : List LogEntry) (c : List (Nat × Nat)) :
    OnlyFaults s { t with log := l, lastCls := c } := h.trans rfl

theorem logPut (h : OnlyFaults s t) (src code raised cfg : Nat) (esc inj : Bool) :
    OnlyFaults s (Machine.logPut t src code raised cfg esc inj).1 := by
  unfold Machine.logPut
  extract_lets n full first st ser e old t₁ t₂ first' t₃ t₄
  have h₂ : OnlyFaults s t₂ := (h.logged _ _).wr _ _
  have h₄ : OnlyFaults s t₄ := ite ((h₂.wr _ _).wr _ _) (h₂.wr _ _)
  split
  · exact ((h.wr _ _).wr _ _).wr _ _
  · split
    · exact h₂.wr _ _
    · exact h₄.vectorIf _ _

theorem raiseOnce (h : OnlyFaults s t) (src code cls : Nat) (inj : Bool) :
    OnlyFaults s (Machine.raiseOnce t src code cls inj).1 := by
  unfold Machine.raiseOnce
  extract_lets wasSticky none_ marked esc r counted pended first rep
  have hmarked : OnlyFaults s marked := h.wr _ _
  have hcounted : OnlyFaults s counted := ite (hmarked.wr _ _) hmarked
  have hfirst : OnlyFaults s first :=
    ite (((hcounted.wr _ _).monAsk _ _).wr _ _) ((hcounted.wr _ _).monAsk _ _)
  have hlog : OnlyFaults s (if rep then (first.addR FLT_LOGSUP 1, false) else Machine.logPut first src code r cls esc inj).1 := by
    split
    · exact hfirst.wr _ _
    · exact hfirst.logPut _ _ _ _ _ _
  split
  · exact hmarked
  split
  next logged due hlogged =>
  rw [hlogged] at hlog
  extract_lets signalled railed asserted isolated latched halting
  have hrailed : OnlyFaults s railed := (hlog.vectorIf _ _).vectorIf _ _
  have hasserted : OnlyFaults s asserted := ite hrailed.assertFault hrailed
  have hisolated : OnlyFaults s isolated := ite (hasserted.isolateEng _) hasserted
  have hlatched : OnlyFaults s latched := ite (hisolated.wr _ _) (ite hisolated ((hisolated.wr _ _).wr _ _))
  have hhalting : OnlyFaults s halting := ite hlatched (hlatched.wr _ _)
  exact ite hhalting.haltDue hisolated

theorem report (h : OnlyFaults s t) (src code : Nat) : OnlyFaults s (Machine.report t src code) := by
  unfold Machine.report Machine.raise
  have hraise := h.raiseOnce src code (srcCfg t src % 4) false
  exact ite h (ite (hraise.raiseOnce _ _ _ _) hraise)

/-- No fault report reaches the doorbells, the mailboxes or the requests in hand. -/
theorem boxes (h : OnlyFaults s t) : t.doorbells = s.doorbells ∧ t.mbx = s.mbx ∧ t.inHand = s.inHand := by
  have hback : faultsUndone s t = s := h
  have hd : (faultsUndone s t).doorbells = s.doorbells := by rw [hback]
  have hm : (faultsUndone s t).mbx = s.mbx := by rw [hback]
  have hi : (faultsUndone s t).inHand = s.inHand := by rw [hback]
  exact ⟨hd, hm, hi⟩

end OnlyFaults

-- Doorbells (R78–R81)

theorem exec_mbxHcdbWrite {s : State} {n : Nat} (v : Word) (hn : n < 8) (hbar : s.pci.d3 = false) :
    exec (.mbxHcdbWrite n v) s = .next (ringCommand s n v) :=
  congrArg Host.Outcome.next ((onBar_of_reachable (fun _ => hbar) _).trans (if_pos hn))

/-- The state `t` with the registers and the queue of doorbells of `s`. -/
def ringUndone (s t : State) : State := { t with regs := s.regs, doorbells := s.doorbells }

theorem ringUndone_wr (s t : State) (a : Nat) (v : Word) : ringUndone s (t.wr a v) = ringUndone s t := rfl
theorem ringUndone_doorbells (s t : State) (d : List (Nat × Nat)) :
    ringUndone s { t with doorbells := d } = ringUndone s t := rfl

/-- A doorbell that is taken: the mailbox is FULL, stamped with the host epoch, and last in the queue (R78). -/
theorem ringCommand_of_taken {s : State} {n : Nat} {v : Word} (hfw : fwReady s = true) (hempty : hcFull s n = false)
    (hmin : 24 ≤ fld v 12 0) (hmax : fld v 12 0 ≤ 4096) :
    ringCommand s n v =
      { (s.setF (MBX_HCSTAT n) 1 0 1).setF (MBX_HCSTAT n) 31 16 (hostEpoch s) with
        doorbells := s.doorbells ++ [(n, fld v 12 0)] } := by
  unfold ringCommand
  rw [if_neg (by simp [hfw]), if_neg (by simp [hempty]; omega)]
  rfl

/-- A doorbell of a FULL mailbox, or of a length that no packet has, is refused (R80). -/
theorem ringCommand_of_refused {s : State} {n : Nat} {v : Word} (hfw : fwReady s = true)
    (hbad : hcFull s n = true ∨ fld v 12 0 < 24 ∨ 4096 < fld v 12 0) : ringCommand s n v = hostReject s n := by
  unfold ringCommand
  rw [if_neg (by simp [hfw]), if_pos hbad]

/-- An event of MBX_STAT writes MBX_STAT and MBX_ERRSRC. -/
theorem rd_mbxEvent {s : State} {kind box a : Nat} (hstat : a ≠ MBX_STAT) (hsrc : a ≠ MBX_ERRSRC) :
    (mbxEvent s kind box).rd a = s.rd a := by
  unfold mbxEvent
  split <;> simp [State.setB_eq, hstat, hsrc]

theorem rb_mbxEvent_stat (s : State) {kind : Nat} (box : Nat) (hkind : kind < 32) :
    (mbxEvent s kind box).rb MBX_STAT kind = true := by
  unfold mbxEvent
  simp [State.rb, State.setB_eq, bit_putBit, hkind]

theorem onlyFaults_mbxEvent (s : State) (kind box : Nat) : OnlyFaults s (mbxEvent s kind box) :=
  (OnlyFaults.ite ((OnlyFaults.refl s).wr _ _) (.refl s)).wr _ _

/-- A refused write of a command mailbox: the report of source 228, then REJECT and the pair's vector. -/
theorem hostReject_eq {s : State} {n : Nat} (hn : n < 8) :
    hostReject s n = pairVector ((report (mbxEvent s 0 n) 228 n).setB (MBX_HCSTAT n) 5 true) n := by
  simp only [hostReject, if_pos hn]

theorem rd_pairVector (s : State) (n a : Nat) : (pairVector s n).rd a = s.rd a := by
  obtain ⟨out, pba, hvec⟩ := vectorIf_frame s (s.rb MBX_IRQEN (8 + n)) (8 + n)
  rw [pairVector, hvec]
  rfl

/-- Beside its report a refused write reaches no table. -/
theorem onlyFaults_hostReject {s : State} {n : Nat} (hn : n < 8) : OnlyFaults s (hostReject s n) := by
  rw [hostReject_eq hn, pairVector]
  exact (((onlyFaults_mbxEvent s 0 n).report 228 n).wr _ _).vectorIf _ _

theorem rd_hostReject_hcstat {s : State} {n : Nat} (hn : n < 8) :
    (hostReject s n).rd (MBX_HCSTAT n) = putBit (s.rd (MBX_HCSTAT n)) 5 true := by
  have hrep := report_reported (mbxEvent s 0 n) (src := 228) n (by decide)
  rw [hostReject_eq hn, rd_pairVector, State.setB_eq, State.rd_wr, if_pos rfl,
    hrep.rd _ (.inr (by unfold MBX_HCSTAT; omega)),
    rd_mbxEvent (by unfold MBX_HCSTAT MBX_STAT; omega) (by unfold MBX_HCSTAT MBX_ERRSRC; omega)]

/-- What a refused write leaves in every other register is what its report leaves. -/
theorem rd_hostReject_of_ne {s : State} {n a : Nat} (hn : n < 8) (ha : a ≠ MBX_HCSTAT n) :
    (hostReject s n).rd a = (report (mbxEvent s 0 n) 228 n).rd a := by
  rw [hostReject_eq hn, rd_pairVector, State.setB_eq, State.rd_wr, if_neg ha]

theorem rb_hostReject_stat {s : State} {n : Nat} (hn : n < 8) : (hostReject s n).rb MBX_STAT 0 = true := by
  have hrep := report_reported (mbxEvent s 0 n) (src := 228) n (by decide)
  rw [State.rb, rd_hostReject_of_ne hn (by unfold MBX_STAT MBX_HCSTAT; omega), hrep.rd _ (.inr (by decide))]
  exact rb_mbxEvent_stat s n (by decide)

theorem rb_hostReject_sticky {s : State} {n : Nat} (hn : n < 8) (hrail : s.rb (FLT_RAILBAD 7) 4 = false) :
    (hostReject s n).rb (FLT_STICKY 7) 4 = true := by
  rw [State.rb, rd_hostReject_of_ne hn (by unfold FLT_STICKY MBX_HCSTAT; omega)]
  refine report_sets_sticky (src := 228) n (by decide) (by simp [srcAbsent]) ?_
  rw [State.rb, rd_mbxEvent (by decide) (by decide)]
  exact hrail

/-- Settles O17, by whether the doorbell is taken. -/
theorem doorbellTakenOrRefused : Obligations.DoorbellTakenOrRefused := by
  intro s n v hn hbar hfw
  rw [exec_mbxHcdbWrite v hn hbar]
  refine ⟨fun hempty hmin hmax => ?taken, fun hbad => ?refused⟩
  case taken =>
    rw [ringCommand_of_taken hfw hempty hmin hmax]
    have hrd : ((s.setF (MBX_HCSTAT n) 1 0 1).setF (MBX_HCSTAT n) 31 16 (hostEpoch s)).rd (MBX_HCSTAT n) =
        setFld (setFld (s.rd (MBX_HCSTAT n)) 1 0 1) 31 16 (hostEpoch s) := by simp [State.setF_eq]
    refine ⟨_, rfl, ?full, ?epoch, rfl, rfl, fun a ha => ?others, ?rest⟩
    case full =>
      refine beq_iff_eq.mpr ((congrArg (fun w => fld w 1 0) hrd).trans ?_)
      rw [fld_setFld_beside _ _ (.inl (by decide)), fld_setFld_same _ _ _ (by decide)]
      rfl
    case epoch =>
      refine (congrArg (fun w => fld w 31 16) hrd).trans ?_
      rw [fld_setFld_same _ _ _ (by decide)]
      exact Nat.mod_eq_of_lt (fld_lt _ _ _)
    case others =>
      have hframe : ((s.setF (MBX_HCSTAT n) 1 0 1).setF (MBX_HCSTAT n) 31 16 (hostEpoch s)).rd a = s.rd a := by
        simp [State.setF_eq, ha]
      exact hframe
    case rest =>
      exact (ringUndone_doorbells s _ _).trans ((ringUndone_wr s _ _ _).trans (ringUndone_wr s s _ _))
  case refused =>
    rw [ringCommand_of_refused hfw hbad]
    refine ⟨_, rfl, ?_, rb_hostReject_stat hn, rb_hostReject_sticky hn, ?_, (onlyFaults_hostReject hn).boxes⟩
    · rw [State.rb, rd_hostReject_hcstat hn, bit_putBit]
      rfl
    · rw [hcFull, State.rf, rd_hostReject_hcstat hn, putBit, fld_setFld_beside _ _ (.inl (by decide))]
      rfl

-- The replay window (R69)

/-- A window whose newest number is `n` and whose record shows it seen refuses `n`. -/
theorem replayStep_of_newest {w : Session} {n : Nat} (hopen : w.empty = false) (hhigh : w.high = n)
    (hseen : w.seen.testBit 0 = true) : replayStep w n = none := by
  simp [replayStep, hopen, hhigh, hseen]

/-- A window refuses a number that is not ahead of its newest and whose place in the record shows it seen. -/
theorem replayStep_of_seen {w : Session} {n : Nat} (hopen : w.empty = false)
    (hbehind : ¬(1 ≤ (n + 2 ^ 32 - w.high) % 2 ^ 32 ∧ (n + 2 ^ 32 - w.high) % 2 ^ 32 < 2 ^ 31))
    (hseen : w.seen.testBit ((w.high + 2 ^ 32 - n) % 2 ^ 32) = true) : replayStep w n = none := by
  simp only [replayStep, hopen, hseen, if_neg hbehind, Bool.false_eq_true, if_false, Bool.not_true, and_false]

theorem testBit_zero_or_one (x : Nat) : (x ||| 1).testBit 0 = true := by simp

/-- A window that accepts a number shows it seen: as its newest, or at its place behind the newest, which stays. -/
theorem replayStep_eq_some {w w' : Session} {n : Nat} (h : replayStep w n = some w') : w'.empty = false ∧
    (w'.high = n ∧ w'.seen.testBit 0 = true ∨
      w'.high = w.high ∧ ¬(1 ≤ (n + 2 ^ 32 - w.high) % 2 ^ 32 ∧ (n + 2 ^ 32 - w.high) % 2 ^ 32 < 2 ^ 31) ∧
        w'.seen.testBit ((w.high + 2 ^ 32 - n) % 2 ^ 32) = true) := by
  unfold replayStep at h
  dsimp only at h
  split at h
  next => cases h; exact ⟨rfl, .inl ⟨rfl, by simp⟩⟩
  next hopen =>
    have hopen : w.empty = false := by simpa using hopen
    split at h
    next => cases h; exact ⟨hopen, .inl ⟨rfl, testBit_zero_or_one _⟩⟩
    next hbehind =>
      split at h
      next => cases h; exact ⟨hopen, .inr ⟨rfl, hbehind, by simp [Nat.testBit_or]⟩⟩
      next => cases h

/-- Settles O37: the number that was accepted is now seen; a number outside the window fits no case. -/
theorem acceptedSequenceIsRefusedAgain : Obligations.AcceptedSequenceIsRefusedAgain := by
  refine ⟨fun w w' n hn hhigh hstep => ?again, fun w n hn hhigh hopen hback hahead => ?outside⟩
  case again =>
    obtain ⟨hopen, ⟨hnewest, hseen⟩ | ⟨hsame, hbehind, hseen⟩⟩ := replayStep_eq_some hstep
    · exact replayStep_of_newest hopen hnewest hseen
    · exact replayStep_of_seen hopen (hsame ▸ hbehind) (hsame ▸ hseen)
  case outside =>
    simp only [replayStep, hopen, Bool.false_eq_true, if_false]
    rw [if_neg (by omega), if_neg (by omega)]

-- PORST_N (R515, R531, R538)

/-- An edge of FAULT_N is an output and changes nothing else. -/
theorem faultEdge_keeps (old s : State) :
    (faultEdge old s).mbx = s.mbx ∧ (faultEdge old s).doorbells = s.doorbells ∧ (faultEdge old s).inHand = s.inHand ∧
    (faultEdge old s).locks = s.locks ∧ (faultEdge old s).sessions = s.sessions ∧ (faultEdge old s).tickets = s.tickets ∧
    (faultEdge old s).sram = s.sram ∧ (faultEdge old s).fuses = s.fuses ∧ (faultEdge old s).flash = s.flash ∧
    (faultEdge old s).pending = s.pending ∧ ∀ a, (faultEdge old s).rd a = s.rd a := by
  unfold faultEdge
  split <;> exact ⟨rfl, rfl, rfl, rfl, rfl, rfl, rfl, rfl, rfl, rfl, fun _ => rfl⟩

/-- PORST_N empties the tables; fuses and flash, and the model's queue, are not reset. -/
theorem porst_tables (s : State) (cause : Nat) :
    (porst s cause).mbx = [] ∧ (porst s cause).doorbells = [] ∧ (porst s cause).inHand = [] ∧
    (porst s cause).locks = [] ∧ (porst s cause).sessions = [] ∧ (porst s cause).tickets = [] ∧
    (porst s cause).sram = [] ∧ (porst s cause).fuses = s.fuses ∧ (porst s cause).flash = s.flash ∧
    (porst s cause).pending = s.pending := by
  simp [porst, keepLatch, State.setB_eq, cleared, State.reset]

/-- With no entry in the table every lock is free. -/
theorem lockOwner_of_locks_nil {s : State} (h : s.locks = []) (n : Nat) : lockOwner s n = none := by
  simp [lockOwner, h, Sparse.get]

/-- After PORST_N every register but PWR_RSTCAUSE, PWR_STAT and FLT_FATALSRC reads its reset value. -/
theorem rd_porst {s : State} {cause a : Nat} (hcause : a ≠ PWR_RSTCAUSE) (hstat : a ≠ PWR_STAT) (hlatch : a ≠ FLT_FATALSRC) :
    (porst s cause).rd a = Regs.dflt a := by
  rw [porst, State.rd_wr, if_neg hcause]
  change (((cleared s).wr FLT_FATALSRC _).setB PWR_STAT 1 _).rd a = _
  rw [State.setB_eq, State.rd_wr, if_neg hstat, State.rd_wr, if_neg hlatch]
  rfl

/-- Clearing bit 30 leaves every other bit. -/
theorem putBit_30_false (v : Word) : putBit v 30 false = v &&& ~~~ (0x40000000 : Word) := by
  have hmask : mask 30 30 = 0x40000000 := by decide
  simp [putBit, setFld, hmask]

/-- PORST_N keeps FLT_FATALSRC, but for the test copy of the latch. -/
theorem rd_porst_fatalsrc (s : State) (cause : Nat) :
    (porst s cause).rd FLT_FATALSRC = s.rd FLT_FATALSRC &&& ~~~ (0x40000000 : Word) := by
  rw [porst, State.rd_wr, if_neg (by decide)]
  change (((cleared s).wr FLT_FATALSRC ((s.setB FLT_FATALSRC 30 false).rd FLT_FATALSRC)).setB PWR_STAT 1 _).rd _ = _
  rw [State.setB_eq _ PWR_STAT, State.rd_wr, if_neg (by decide), State.rd_wr, if_pos rfl, State.setB_eq, State.rd_wr,
    if_pos rfl, putBit_30_false]

/-- Settles O27: the emptied tables, and the three registers that PORST_N writes. -/
theorem porstClearsAllButOwlState : Obligations.PorstClearsAllButOwlState := by
  intro s pgood
  obtain ⟨hmbx, hbells, hhand, hlocks, hsess, htick, hsram, hfuses, hflash, hqueue⟩ :=
    porst_tables s (if pgood then 2 else 1)
  obtain ⟨emb, ebells, ehand, elocks, esess, etick, esram, efuses, eflash, equeue, erd⟩ :=
    faultEdge_keeps s (porst s (if pgood then 2 else 1))
  refine ⟨_, rfl, emb.trans hmbx, ebells.trans hbells, ehand.trans hhand, lockOwner_of_locks_nil (elocks.trans hlocks),
    esess.trans hsess, etick.trans htick, esram.trans hsram, fun a hlow hhigh => ?mbxRegs, efuses.trans hfuses,
    eflash.trans hflash, (erd _).trans (rd_porst_fatalsrc s _), equeue.trans hqueue⟩
  case mbxRegs =>
    rw [erd, rd_porst (by unfold PWR_RSTCAUSE; omega) (by unfold PWR_STAT; omega) (by unfold FLT_FATALSRC; omega)]

end Sys2Proof.Machine
end

section
/-! PROOFS. The rows of the device, commit and beat commands (O38), of the PCIe events (O50), and of the mailbox, doorbell
and lock accesses (O59): under the conditions of its rule each row answers exactly the next state of that rule. -/
namespace Sys2Proof.Machine

/-- An accepted command answers its effect. -/
theorem next_command_of_accepted {s : State} {op : Nat} {q : Req} {lenOk : Bool} {checks : List (Bool × Nat)}
    {effect effect' : State} (h : accepted s op q lenOk checks = true) (heffect : effect = effect') :
    (.next (command s op q lenOk checks effect) : Res) = .next effect' :=
  congrArg Host.Outcome.next ((command_of_accepted h).trans heffect)

theorem commitEffect_of_fits {s : State} {q : Req} (h : (commitTrial s q.params).excess = none) : commitEffect s q =
    ticketAdd s 0x0100 q (u64 q.params 0) (commitTarget q.params) (commitGap q.params) none false := by
  simp only [commitEffect, h]

/-- Settles O38, row by row: the checks pass, and the condition of the event selects the rule's branch. -/
theorem deviceCommitAndBeatCommandsComplete : Obligations.DeviceCommitAndBeatCommandsComplete := by
  refine ⟨?ping, ?deviceIdGet, ?deviceIdSet, ?queryCaps, ?lockPeek, ?commit, ?commitCopy, ?commitStatus, ?commitCancel,
    ?budgetCheck, ?profileSet, ?profileGet, ?activeRead, ?cnvDivide, ?restartStop, ?restartRunStart, ?beatBoundary, ?beatMark,
    ?syncinEdge⟩
  case ping => exact fun _ _ hacc => next_command_of_accepted hacc rfl
  case deviceIdGet => exact fun _ _ hacc => next_command_of_accepted hacc rfl
  case deviceIdSet => exact fun _ _ hacc => next_command_of_accepted hacc rfl
  case queryCaps => exact fun _ _ hacc => next_command_of_accepted hacc rfl
  case lockPeek => exact fun _ _ hacc => next_command_of_accepted hacc rfl
  case commit => exact fun _ _ _ hacc hfits => next_command_of_accepted hacc (commitEffect_of_fits hfits)
  case commitCopy => exact fun _ => rfl
  case commitStatus =>
    intro s q t e hacc hfound
    refine next_command_of_accepted hacc ?_
    rw [hfound]
  case commitCancel =>
    intro s q w t s' hacc hfound hlate
    refine next_command_of_accepted hacc ?_
    rw [show findTicket (arrive s w) (u32 q.params 0) = _ from hfound]
    exact if_pos ⟨rfl, by rw [hlate]; rfl⟩
  case budgetCheck => exact fun _ _ hacc => next_command_of_accepted hacc rfl
  case profileSet => exact fun _ _ _ hacc _ => next_command_of_accepted hacc rfl
  case profileGet => exact fun _ _ hacc => next_command_of_accepted hacc rfl
  case activeRead => exact fun _ _ _ _ hacc => next_command_of_accepted hacc rfl
  case cnvDivide => exact fun _ _ _ hacc => next_command_of_accepted hacc rfl
  case restartStop =>
    intro s r hr hdue
    simp only [exec, execRestartStop, hr, if_pos hdue]
  case restartRunStart =>
    intro s r hr hready
    simp only [exec, execRestartRunStart, hr, if_pos hready]
  case beatBoundary => exact fun _ _ => rfl
  case beatMark => exact fun _ _ hdue => congrArg Host.Outcome.next (if_pos hdue)
  case syncinEdge =>
    intro s rising b hon hedge
    exact congrArg Host.Outcome.next (if_neg (by simp [hon, hedge]))

/-- Settles O50, row by row: the condition of the event selects the rule's branch. -/
theorem pcieEventsComplete : Obligations.PcieEventsComplete := by
  refine ⟨fun _ _ => rfl, fun s hrun => ?assert, fun s gen width hheld => ?release, fun _ => rfl,
    fun s gen width hlower => ?downtrain, fun s v hv => ?unmask, fun s _ _ _ _ _ _ hrun => ?config,
    fun s uncor err huncor herr => ?uncorrectable, fun s uncor err hcor herr => ?correctable⟩
  case assert => exact congrArg Host.Outcome.next (if_neg hrun)
  case release => exact congrArg Host.Outcome.next (if_neg hheld)
  case downtrain => exact congrArg Host.Outcome.next (if_pos hlower)
  case unmask => exact congrArg Host.Outcome.next (if_pos hv)
  case config => exact congrArg Host.Outcome.next (if_neg hrun)
  case uncorrectable => exact congrArg Host.Outcome.next ((if_pos huncor).trans (if_pos herr))
  case correctable => exact congrArg Host.Outcome.next ((if_neg (by simp [hcor])).trans (if_pos herr))

-- The mailbox data window (R77, R81, R82)

theorem mailboxParts_nil (f : Nat) (s : State) (m : Master) (a : Nat) : mailboxParts f s m a [] = s := by
  cases f <;> rfl

/-- A write that ends within its mailbox or half is one part. -/
theorem mailboxWrite_of_within {s : State} {m : Master} {a : Nat} {b : List Byte} (hb : b ≠ []) (h : a + b.length ≤ boxEnd a) :
    mailboxWrite s m a b = mailboxPart s m a b := by
  obtain ⟨f, hf⟩ : ∃ f, b.length = f + 1 := Nat.exists_eq_add_one.mpr (List.length_pos_iff.mpr hb)
  have hall : b.length ≤ boxEnd a - a := by omega
  simp only [mailboxWrite, hf, mailboxParts, if_neg hb, List.take_of_length_le hall, List.drop_of_length_le hall,
    mailboxParts_nil]

theorem exec_mailboxDataWrite {s t : State} {m : Master} {a : Nat} {b : List Byte} (hbar : m = .host → s.pci.d3 = false)
    (hb : b ≠ []) (h : a + b.length ≤ boxEnd a) (hpart : mailboxPart s m a b = t) :
    exec (.mailboxDataWrite m a b) s = .next t :=
  congrArg Host.Outcome.next ((onBar_of_reachable hbar _).trans ((mailboxWrite_of_within hb h).trans hpart))

/-- The host writes an EMPTY command mailbox. -/
theorem mailboxPart_command {s : State} {a : Nat} {b : List Byte} (hlo : 0x80000 ≤ a) (hhi : a < 0x88000)
    (hfw : fwReady s = true) (hempty : hcFull s ((a - 0x80000) / 0x1000) = false) :
    mailboxPart s .host a b = s.mbxWrite a b := by
  have hbox : (a - 0x80000) / 0x1000 % 8 = (a - 0x80000) / 0x1000 := Nat.mod_eq_of_lt (by omega)
  simp only [mailboxPart, if_neg (show ¬(a < 0x80000 ∨ 0xD0000 ≤ a) by omega), if_pos (show a < 0x90000 by omega), hfw, hbox,
    hhi, hempty, decide_true, Bool.not_true, Bool.false_eq_true, if_false, if_true]

/-- A management core writes an EMPTY reply mailbox. -/
theorem mailboxPart_reply {s : State} {a i : Nat} {b : List Byte} (hlo : 0x88000 ≤ a) (hhi : a < 0x90000)
    (hfw : fwReady s = true) (hempty : hrFull s ((a - 0x88000) / 0x1000) = false) :
    mailboxPart s (.mgmt i) a b = s.mbxWrite a b := by
  have hbox : (a - 0x80000) / 0x1000 % 8 = (a - 0x88000) / 0x1000 := by omega
  simp only [mailboxPart, if_neg (show ¬(a < 0x80000 ∨ 0xD0000 ≤ a) by omega), if_pos hhi, hfw, hbox,
    show ¬a < 0x88000 by omega, hempty, decide_false, Bool.not_true, Bool.false_eq_true, if_false, Bool.or_self]

section
variable {s : State} {a : Nat} {b : List Byte} (hlo : 0x90000 ≤ a) (hhi : a < 0xD0000)
  (hfence : engFenced s ((a - 0x90000) / 0x1000) = false)
include hlo hhi hfence

/-- An engine writes the EMPTY OUT half of its own mailbox. -/
theorem mailboxPart_out (hhalf : 0x800 ≤ (a - 0x90000) % 0x1000) (hempty : outFull s ((a - 0x90000) / 0x1000) = false) :
    mailboxPart s (.ppe ((a - 0x90000) / 0x1000)) a b = s.mbxWrite a b := by
  simp [mailboxPart, show ¬(a < 0x80000 ∨ 0xD0000 ≤ a) by omega, show ¬a < 0x90000 by omega, hfence, hhalf, hempty]

/-- The host or a management core writes the EMPTY IN half of an engine's mailbox. -/
theorem mailboxPart_in {m : Master} (hm : mayRing m = true) (hhalf : (a - 0x90000) % 0x1000 < 0x800)
    (hempty : inFull s ((a - 0x90000) / 0x1000) = false) : mailboxPart s m a b = s.mbxWrite a b := by
  have hin : decide (0x800 ≤ (a - 0x90000) % 0x1000) = false := by simpa using hhalf
  cases m with
  | host => simp [mailboxPart, show ¬(a < 0x80000 ∨ 0xD0000 ≤ a) by omega, show ¬a < 0x90000 by omega, hfence, hin, hempty]
  | mgmt i => simp [mailboxPart, show ¬(a < 0x80000 ∨ 0xD0000 ≤ a) by omega, show ¬a < 0x90000 by omega, hfence, hin, hempty]
  | ppe e => cases hm
  | other => cases hm

end

-- Packets, expiries and cluster doorbells (R71, R83, R89)

/-- A network packet that passes every check is in hand. -/
theorem acceptNet_of_accepted {s t : State} {p : Peer} {pk : List Byte} (hheader : headerCheck s pk = some 0)
    (hauth : authOk s pk true = true)
    (hreplay : replayCheck s (pkReq pk (.net p) 0).session (pkReq pk (.net p) 0).seq.toNat = some t) :
    acceptNet s p pk = intoHand t (pkOpcode pk) (pkReq pk (.net p) 0) := by
  simp only [acceptNet, hheader, hauth, hreplay, ne_eq, not_true_eq_false, if_false, Bool.not_true, Bool.false_eq_true]

/-- A ring of engines that all take it reaches each of them, and nothing else. -/
theorem ringCluster_of_taken {s : State} {m : Master} {c : Nat} {v : Word} (hcluster : clusterPresent s c = true)
    (hm : mayRing m = true)
    (htaken : ∀ e ∈ (bitList 8 v.toNat).map (fun j => 8 * c + j), engFenced s e = false ∧ inFull s e = false) :
    ringCluster s m c v = forEach ((bitList 8 v.toNat).map (fun j => 8 * c + j)) s (fun e s => ringEngine s m e) := by
  generalize hl : (bitList 8 v.toNat).map (fun j => 8 * c + j) = l at htaken
  have hfenced : l.any (engFenced s) = false := List.any_eq_false.mpr fun e he => by simp [(htaken e he).1]
  have hfull : l.any (fun e => !engFenced s e && inFull s e) = false :=
    List.any_eq_false.mpr fun e he => by simp [(htaken e he).2]
  have hall : l.filter (fun e => !engFenced s e && !inFull s e && mayRing m) = l :=
    List.filter_eq_self.mpr fun e he => by simp [htaken e he, hm]
  simp only [ringCluster, hl, hall, hfenced, hfull]
  simp only [hcluster, hm, Bool.not_true, Bool.or_self, Bool.false_eq_true, if_false, ite_self]

/-- Settles O59, row by row: the access reaches the BAR, and its conditions choose what it does there. -/
theorem mailboxAndLockAccessesComplete : Obligations.MailboxAndLockAccessesComplete := by
  refine ⟨?doorbell, ?command, ?reply, ?outHalf, ?inHost, ?inMgmt, ?take, ?packet, ?ack, ?commandExpiry, ?engineExpiry, ?ring,
    ?outAck, ?count, ?lockRead, ?lockRelease⟩
  case doorbell =>
    intro s n v hbar hn hfw hempty hmin hmax
    rw [exec_mbxHcdbWrite v hn hbar, ringCommand_of_taken hfw hempty hmin hmax]
    rfl
  case command =>
    rintro s m a b rfl hbar hb hend hlo hhi hfw hempty
    exact exec_mailboxDataWrite (fun _ => hbar) hb hend (mailboxPart_command hlo hhi hfw hempty)
  case reply =>
    rintro s m a b i rfl hb hend hlo hhi hfw hempty
    exact exec_mailboxDataWrite (by simp) hb hend (mailboxPart_reply hlo hhi hfw hempty)
  case outHalf =>
    rintro s m a b e hb hend hlo hhi hfence hhalf rfl hempty
    exact exec_mailboxDataWrite (by simp) hb hend (mailboxPart_out hlo hhi hfence hhalf hempty)
  case inHost =>
    rintro s m a b e rfl hbar hb hend hlo hhi hfence hhalf hempty
    exact exec_mailboxDataWrite (fun _ => hbar) hb hend (mailboxPart_in hlo hhi hfence rfl hhalf hempty)
  case inMgmt =>
    rintro s m a b i e rfl hb hend hlo hhi hfence hhalf hempty
    exact exec_mailboxDataWrite (by simp) hb hend (mailboxPart_in hlo hhi hfence rfl hhalf hempty)
  case take =>
    intro s n len hnext hfw
    simp only [exec, execMailboxTake, hnext, if_pos hfw]
  case packet =>
    intro s p pk t s' q hfind hfw hheader hauth hreplay
    simp only [exec, execNetworkPacketTake, hfind, if_pos hfw]
    exact congrArg Host.Outcome.next (acceptNet_of_accepted hheader hauth hreplay)
  case ack => exact fun s n hbar hn => exec_mbxHrackWrite hn hbar
  case commandExpiry =>
    intro s box htmo hbox hfull
    simp only [exec, execMailboxTimeout, mailboxTimeout, if_neg htmo, if_pos hbox, if_pos hfull]
  case engineExpiry =>
    intro s box e host sent t htmo hlo hhi hfull
    simp only [exec, execMailboxTimeout, mailboxTimeout, if_neg htmo, if_neg (show ¬box < 8 by omega)]
    rw [if_pos ⟨hlo, hhi, hfull⟩]
  case ring =>
    intro s m c v l hbar hc hcluster hm htaken
    exact congrArg Host.Outcome.next ((onBar_of_reachable hbar _).trans
      ((if_pos hc).trans (ringCluster_of_taken hcluster hm htaken)))
  case outAck =>
    intro s m e hbar hfull
    exact congrArg Host.Outcome.next ((onBar_of_reachable hbar _).trans (if_pos hfull))
  case count =>
    intro s m which a hbar
    exact congrArg Host.Outcome.next (onBar_of_reachable hbar _)
  case lockRead =>
    intro s n ms up hn
    exact congrArg Host.Outcome.next (if_pos hn)
  case lockRelease =>
    intro s m n v hbar howner
    rw [exec_glbLockRelease n v hbar, if_pos howner]

end Sys2Proof.Machine
end

section
/-! PROOFS. The rows of the converters (O39): under the conditions of its rule each row answers exactly the next state of
that rule. -/
namespace Sys2Proof.Machine

/-- A write of CNV_BGCAL with IVL and MODE in range to a core that is present lands, without its reserved bits (R126). -/
theorem bgcalWrite_of_valid {s : State} {n : Nat} {v : Word} (hpresent : corePresent s n = true) (hv : bgcalBad v = false) :
    bgcalWrite s n v = s.wr (CNV_BGCAL n) (v &&& 0xFFB) :=
  if_neg (by simp [hpresent, hv])

theorem exec_cnvBgcalWrite {s : State} {m : Master} {core : Nat} (v : Word) (hbar : m = .host → s.pci.d3 = false)
    (hcore : core < 32) : exec (.cnvBgcalWrite m core v) s = .next (bgcalWrite s core v) :=
  congrArg Host.Outcome.next ((onBar_of_reachable hbar _).trans (if_pos hcore))

theorem exec_cnvPwrdnWrite {s : State} {m : Master} {core : Nat} (v : Word) (hbar : m = .host → s.pci.d3 = false)
    (hcore : core < 32 ∧ corePresent s core) : exec (.cnvPwrdnWrite m core v) s = .next (pwrdnWrite s core v) :=
  congrArg Host.Outcome.next ((onBar_of_reachable hbar _).trans (if_pos hcore))

/-- Settles O39, row by row: a command's checks pass, a register write reaches the BAR, or the condition of the event
selects the rule's branch. -/
theorem converterCommandsComplete : Obligations.ConverterCommandsComplete := by
  refine ⟨?calForeground, ?foregroundEnd, ?calStatus, ?calAbort, ?calBackground, ?cnvStatus, ?bgcalWrite, ?intervalEnd,
    ?stepLanding, ?pwrdnWrite, ?coreReady, ?episode, ?tailEnd⟩
  case calForeground => exact fun _ _ hacc => next_command_of_accepted hacc rfl
  case foregroundEnd => exact fun _ _ _ hrunning => congrArg Host.Outcome.next (if_pos hrunning)
  case calStatus => exact fun _ _ hacc => next_command_of_accepted hacc rfl
  case calAbort => exact fun _ _ hacc => next_command_of_accepted hacc rfl
  case calBackground => exact fun _ _ hacc => next_command_of_accepted hacc rfl
  case cnvStatus => exact fun _ _ hacc => next_command_of_accepted hacc rfl
  case bgcalWrite =>
    intro s m core v hbar hcore hpresent hv
    rw [exec_cnvBgcalWrite v hbar hcore, bgcalWrite_of_valid hpresent hv]
  case intervalEnd => exact fun _ _ _ hdue => congrArg Host.Outcome.next (if_pos hdue)
  case stepLanding => exact fun _ => rfl
  case pwrdnWrite => exact fun _ _ _ v hbar hcore => exec_cnvPwrdnWrite v hbar hcore
  case coreReady => exact fun _ _ hwaking => congrArg Host.Outcome.next (if_pos hwaking)
  case episode => exact fun _ _ _ _ hsampling => congrArg Host.Outcome.next (if_pos hsampling)
  case tailEnd => exact fun _ _ _ hepisode => congrArg Host.Outcome.next (if_pos hepisode)

end Sys2Proof.Machine
end

section
/-! PROOFS. The rows of path conditioning and of the spectral engine (O40): under the conditions of its rule each row
answers exactly the next state of that rule. -/
namespace Sys2Proof.Machine

/-- A queued request for another bank than the one in force starts its fade when none runs (R156, R157). -/
theorem fadeStart_of_queued {s : State} {n b x : Nat} (hidle : (s.path n).fade = none)
    (hqueued : (s.path n).queued = some (b, x)) (hother : b ≠ (s.path n).bankNow) :
    fadeStart s n =
      showXf (s.setPath n { s.path n with queued := none, fade := some ⟨(s.path n).bankNow, b, x, x⟩ }) n := by
  simp only [fadeStart, hidle, hqueued, if_neg hother]

/-- A fade without beats left ends in its target bank; LAST reads DONE (R156). -/
theorem fadeEnd_of_finished {s : State} {n : Nat} {f : Fade} (hfade : (s.path n).fade = some f) (hleft : f.left = 0) :
    fadeEnd s n =
      let t := s.setPath n { s.path n with fade := none, bankNow := f.tgt }
      let t := (t.setF (PTH_XFSTAT n) 31 30 1).setB (PTH_STAT n) 3 true
      fire (showXf (t.wr (PTH_GRPDLY n) (w32 (grpDly t n f.tgt (pathNext t n)))) n) (288 + n) := by
  simp only [fadeEnd, hfade, if_pos hleft]

/-- An open load of a bank can be abandoned: the bank is neither VALID nor LOADING (R196). -/
theorem exec_windowLoadAbandon {s : State} {slice bank : Nat} {x : WinLoad} (hslice : slice < 16) (hbank : bank < 2)
    (hload : winLoad s slice bank = some x) :
    exec (.windowLoadAbandon slice bank) s =
      .next ((setWinLoad s slice bank none).setF (winInfoReg slice bank) 31 30 0) := by
  simp only [exec, execWindowLoadAbandon, hload, if_pos (And.intro hslice hbank)]

/-- Settles O40, row by row: a command's checks pass, or the condition of the event selects the rule's branch. -/
theorem pathAndSliceCommandsComplete : Obligations.PathAndSliceCommandsComplete := by
  refine ⟨?pthConfig, ?firLoad, ?pthStatus, ?fadeStart, ?fadeEnd, ?coarseToFine, ?slcConfig, ?windowLoad, ?abandon,
    ?traceClear, ?traceRestart, ?slcStatus⟩
  case pthConfig => exact fun _ _ hacc => next_command_of_accepted hacc rfl
  case firLoad => exact fun _ _ hacc => next_command_of_accepted hacc rfl
  case pthStatus => exact fun _ _ hacc => next_command_of_accepted hacc rfl
  case fadeStart =>
    intro s path b x hpath hidle hqueued hother
    exact congrArg Host.Outcome.next ((if_pos hpath).trans (fadeStart_of_queued hidle hqueued hother))
  case fadeEnd =>
    intro s path f hpath hfade hleft
    exact congrArg Host.Outcome.next ((if_pos hpath).trans (fadeEnd_of_finished hfade hleft))
  case coarseToFine => exact fun _ _ hdue => congrArg Host.Outcome.next (if_pos hdue)
  case slcConfig => exact fun _ _ hacc => next_command_of_accepted hacc rfl
  case windowLoad => exact fun _ _ hacc => next_command_of_accepted hacc rfl
  case abandon => exact fun _ _ _ _ hslice hbank hload => exec_windowLoadAbandon hslice hbank hload
  case traceClear => exact fun _ _ hacc => next_command_of_accepted hacc rfl
  case traceRestart => exact fun _ _ _ _ hdue => congrArg Host.Outcome.next (if_neg hdue)
  case slcStatus => exact fun _ _ hacc => next_command_of_accepted hacc rfl

end Sys2Proof.Machine
end

section
/-! PROOFS. The rows of the density histograms and of the correlation array (O41): under the conditions of its rule each
row answers exactly the next state of that rule. -/
namespace Sys2Proof.Machine

/-- The flush waiting first is read out once it is due and no readout runs (R209). -/
theorem exec_densityReadoutStart_of_due {s : State} {f : Flush} {t : List Flush} (hidle : s.denRun = none)
    (hwait : s.denWait = f :: t) (hdue : f.due = true) :
    exec .densityReadoutStart s =
      let f' := { f with
        modes := f.paths.map (fun p => (p, s.rdA (DEN_PCFG p))), slots := f.paths.map (fun p => (p, denSlot s p)),
        start := s.beat }
      .next (showDen (forEach f'.slots { s with denRun := some f', denWait := t }
        (fun x s => s.unitWrite x.2 (leBytes 8 (2 ^ 64 - 1))))) := by
  simp only [exec, execDensityReadoutStart, hidle, hwait, if_pos hdue]

theorem exec_densityReadoutEnd_of_running {s : State} {f : Flush} (spans : List (Nat × Nat)) (hrun : s.denRun = some f) :
    exec (.densityReadoutEnd spans) s =
      .next (showDen ((readAll f f.paths spans { s with denRun := none }).wr64 DEN_LASTFLUSH_LO f.r)) := by
  simp only [exec, execDensityReadoutEnd, hrun]

/-- Where EN is out of force the integration ends for good, whatever IPER says (R223). -/
theorem exec_corrIntegrationEnd_of_disabled {s : State} {c : CorrSt} (hcorr : s.corr = some c)
    (hen : s.ab CORR_CTRL 0 = false) : exec .corrIntegrationEnd s = .next (corrFinal s) := by
  simp [exec, execCorrIntegrationEnd, hcorr, hen]

/-- A running integration ends at a multiple of IPER, unless it was deferred and the other bank is still being dumped
(R223, R224). -/
theorem exec_corrIntegrationEnd_of_period {s : State} {c : CorrSt} (hcorr : s.corr = some c) (hopen : c.ended = none)
    (hage : c.age ≠ 0) (hen : s.ab CORR_CTRL 0 = true) (hper : fld (nth 0 c.cfg 1) 24 0 ≠ 0)
    (hbeat : s.beat % fld (nth 0 c.cfg 1) 24 0 = 0) (hfree : (c.late && s.corrDump.isSome) = false) :
    exec .corrIntegrationEnd s =
      .next ({ s with
        corr := some { c with
          ended := some s.beat, endAge := 0, time := (boundaryTime s s.beat).1, tf := (boundaryTime s s.beat).2 },
        corrNext := some (corrNew s) }.setB CORR_STAT 3 true) := by
  have hrunning : ¬(c.ended.isSome = true ∨ c.age = 0) := by simp [hopen, hage]
  have hends : fld (nth 0 c.cfg 1) 24 0 ≠ 0 ∧ s.beat % fld (nth 0 c.cfg 1) 24 0 = 0 ∧
      (!(c.late && s.corrDump.isSome)) = true := ⟨hper, hbeat, by rw [hfree]; rfl⟩
  simp only [exec, execCorrIntegrationEnd, hcorr, hen, if_neg hrunning, if_pos hends, Bool.not_true, Bool.false_eq_true,
    if_false]

section BankSwap

variable {s : State} {c : CorrSt} {r : Nat} (hcorr : s.corr = some c) (hended : c.ended = some r) (hage : c.endAge ≠ 0)
include hcorr hended hage

/-- A bank that ended before this boundary swaps while no dump runs; otherwise it is deferred, unless it is final
(R224). -/
theorem exec_corrBankSwap_of_ended :
    exec .corrBankSwap s =
      .next (if s.corrDump.isNone then corrSwap s c else if c.final then s else corrDefer s c) := by
  have hfull : ¬(c.ended.isNone = true ∨ c.endAge = 0) := by simp [hended, hage]
  simp only [exec, execCorrBankSwap, hcorr, if_neg hfull]

theorem exec_corrBankSwap_of_free (hdump : s.corrDump = none) : exec .corrBankSwap s = .next (corrSwap s c) := by
  simp [exec_corrBankSwap_of_ended hcorr hended hage, hdump]

theorem exec_corrBankSwap_of_busy {d : CorrSt} (hdump : s.corrDump = some d) (hfinal : c.final = false) :
    exec .corrBankSwap s = .next (corrDefer s c) := by
  simp [exec_corrBankSwap_of_ended hcorr hended hage, hdump, hfinal]

end BankSwap

/-- Settles O41, row by row: a command's checks pass, or the condition of the event selects the rule's branch. -/
theorem densityAndCorrelationCommandsComplete : Obligations.DensityAndCorrelationCommandsComplete := by
  refine ⟨?denSet, ?denPathSet, ?denRegionSet, ?corrSet, ?denStatus, ?flush, ?readoutStart, ?readoutEnd, ?disabledEnd,
    ?periodEnd, ?swapFree, ?swapBusy, ?dumpEnd⟩
  case denSet => exact fun _ _ hacc => next_command_of_accepted hacc rfl
  case denPathSet => exact fun _ _ hacc => next_command_of_accepted hacc rfl
  case denRegionSet => exact fun _ _ hacc => next_command_of_accepted hacc rfl
  case corrSet => exact fun _ _ hacc => next_command_of_accepted hacc rfl
  case denStatus => exact fun _ _ hacc => next_command_of_accepted hacc rfl
  case flush => exact fun _ hmark => congrArg Host.Outcome.next (if_pos hmark)
  case readoutStart => exact fun _ _ _ hidle hwait hdue => exec_densityReadoutStart_of_due hidle hwait hdue
  case readoutEnd => exact fun _ spans _ hrun => exec_densityReadoutEnd_of_running spans hrun
  case disabledEnd => exact fun _ _ hcorr hen => exec_corrIntegrationEnd_of_disabled hcorr hen
  case periodEnd =>
    intro s c per hcorr hopen hage hen hper hbeat hfree
    exact exec_corrIntegrationEnd_of_period hcorr hopen hage hen hper hbeat hfree
  case swapFree => exact fun _ _ _ hcorr hended hage hdump => exec_corrBankSwap_of_free hcorr hended hage hdump
  case swapBusy =>
    exact fun _ _ _ _ hcorr hended hage hdump hfinal => exec_corrBankSwap_of_busy hcorr hended hage hdump hfinal
  case dumpEnd =>
    intro s c hdump
    -- The two sides may carry different matchers for the boundary `r` of the dump; they unfold to the same term.
    simp only [exec, execCorrDumpEnd, hdump] <;> rfl

end Sys2Proof.Machine
end

section
/-! PROOFS. The rows of Ringmaster's triggers and of the Carousel (O42): under the conditions of its rule each row answers
exactly the next state of that rule. -/
namespace Sys2Proof.Machine

/-- An arm request that is due arms its group, unless it is ARMED already (R231). -/
theorem exec_groupArm_of_due {s : State} {m : Nat} (hmaster : isMaster s.rdA m = true) (hdue : dueReq s s.armReq m = true)
    (hst : (s.unit m).st ≠ 1) :
    exec (.groupArm m) s = .next (armGroup { s with armReq := laterReq s s.armReq m } m) :=
  congrArg Host.Outcome.next ((if_pos ⟨hmaster, hdue⟩).trans (if_neg hst))

/-- A force request that is due fires a group that is ARMED and not disarmed at the same boundary (R232, R258). -/
theorem exec_forcedFire_of_armed {s : State} {m : Nat} (hmaster : isMaster s.rdA m = true)
    (hdue : dueReq s s.forceReq m = true) (hst : (s.unit m).st = 1) (hdis : dueReq s s.disReq m = false) :
    exec (.forcedFire m) s =
      .next (groupFire { s with forceReq := dropReq s.forceReq m } m 0xFF []
        ⟨m, s.beat, 0, s.beat, 0, none, false, 0⟩ false) := by
  have hfires : (s.unit m).st = 1 ∧ (!dueReq s s.disReq m) = true := ⟨hst, by rw [hdis]; rfl⟩
  exact congrArg Host.Outcome.next ((if_pos ⟨hmaster, hdue⟩).trans (if_pos hfires))

/-- A stop that is due closes the segment of its channel with END (R256). -/
theorem exec_segmentStopClose_of_due {s : State} {c b : Nat} (hstop : (s.car c).stopAt = some b) (hc : c < 4)
    (hb : b ≤ s.beat) : exec (.segmentStopClose c) s = .next (carStopNow s c 1 true) := by
  simp only [exec, execSegmentStopClose, hstop, if_pos (And.intro hc hb)]

/-- Settles O42, row by row: a command's checks pass, or the condition of the event selects the rule's branch. -/
theorem triggerAndCarouselCommandsComplete : Obligations.TriggerAndCarouselCommandsComplete := by
  refine ⟨?trgConfig, ?trgArm, ?groupArm, ?trgDisarm, ?groupDisarm, ?trgForce, ?forcedFire, ?holdoffEnd, ?pulseEnd, ?maskLoad,
    ?versionRelease, ?carConfig, ?carArm, ?carStop, ?stopClose, ?carStatus, ?segmentEnd, ?gapEnd, ?overflowResume⟩
  case trgConfig => exact fun _ _ hacc => next_command_of_accepted hacc rfl
  case trgArm => exact fun _ _ hacc => next_command_of_accepted hacc rfl
  case groupArm => exact fun _ _ hmaster hdue hst => exec_groupArm_of_due hmaster hdue hst
  case trgDisarm => exact fun _ _ hacc => next_command_of_accepted hacc rfl
  case groupDisarm => exact fun _ _ hdue => congrArg Host.Outcome.next (if_pos hdue)
  case trgForce => exact fun _ _ hacc => next_command_of_accepted hacc rfl
  case forcedFire => exact fun _ _ hmaster hdue hst hdis => exec_forcedFire_of_armed hmaster hdue hst hdis
  case holdoffEnd => exact fun _ _ hover => congrArg Host.Outcome.next (if_pos hover)
  case pulseEnd => exact fun _ _ hpast => congrArg Host.Outcome.next (if_pos hpast)
  case maskLoad => exact fun _ _ hacc => next_command_of_accepted hacc rfl
  case versionRelease => exact fun _ _ htested => congrArg Host.Outcome.next (if_pos htested)
  case carConfig => exact fun _ _ hacc => next_command_of_accepted hacc rfl
  case carArm => exact fun _ _ hacc => next_command_of_accepted hacc rfl
  case carStop => exact fun _ _ hacc => next_command_of_accepted hacc rfl
  case stopClose => exact fun _ _ _ hstop hc hb => exec_segmentStopClose_of_due hstop hc hb
  case carStatus => exact fun _ _ hacc => next_command_of_accepted hacc rfl
  case segmentEnd => exact fun _ _ hfull => congrArg Host.Outcome.next (if_neg hfull)
  case gapEnd => exact fun _ _ hgap => congrArg Host.Outcome.next (if_pos hgap)
  case overflowResume => exact fun _ _ hempty => congrArg Host.Outcome.next (if_pos hempty)

end Sys2Proof.Machine
end

section
/-! PROOFS. The post-processing engines: when a write of an engine register becomes visible (O33), and the rows of the engine
commands (O43) and of the engines' own activity (O44), each of which answers exactly the next state of its rule. -/
namespace Sys2Proof.Machine

-- A write becomes visible (R268)

/-- G0 of either bank ignores a write. -/
theorem ppeVisible_of_zero {p : PpeSt} {w : PpeWr} (hbank : w.key < 256) (hzero : w.key % 128 = 0) : ppeVisible p w = p :=
  if_pos ⟨hzero, hbank⟩

/-- A special other than IEN, PMODE, PBASE and EVSEL is RO or reserved and ignores a write. -/
theorem ppeVisible_of_reserved {p : PpeSt} {w : PpeWr} (hspecial : 256 ≤ w.key) (hien : w.key ≠ 260)
    (hrest : w.key < 264 ∨ 284 ≤ w.key) : ppeVisible p w = p := by
  have hbank : ¬(w.key % 128 = 0 ∧ w.key < 256) := by omega
  have hstored : ¬(w.key < 256 ∨ (264 ≤ w.key ∧ w.key < 280)) := by omega
  have hevsel : ¬(280 ≤ w.key ∧ w.key < 284) := by omega
  rw [ppeVisible, if_neg hbank, if_neg hstored, if_neg hien, if_neg hevsel]

/-- Any register of a bank but its G0 takes the value, and only the registers change. -/
theorem ppeVisible_of_bank {p : PpeSt} {w : PpeWr} (hbank : w.key < 256) (hnonzero : w.key % 128 ≠ 0) :
    ppeVisible p w = { p with regs := Sparse.set (fun _ => 0) p.regs w.key w.val } :=
  (if_neg fun h => hnonzero h.1).trans (if_pos (.inl hbank))

/-- Settles O33: G0 and the specials that are RO or reserved leave the engine as it was, and any other register of a
bank is read back from the table of registers. -/
theorem engineRegisterZeroAndReservedSpecials : Obligations.EngineRegisterZeroAndReservedSpecials := by
  refine ⟨?ignored, ?banked⟩
  case ignored =>
    rintro p w (hG0T | hG0B | ⟨hlo, hhi, hien⟩ | hhigh)
    · exact ppeVisible_of_zero (by omega) (by omega)
    · exact ppeVisible_of_zero (by omega) (by omega)
    · exact ppeVisible_of_reserved hlo hien (.inl hhi)
    · exact ppeVisible_of_reserved (by omega) (by omega) (.inr hhigh)
  case banked =>
    intro p w hbank hnonzero
    rw [ppeVisible_of_bank hbank hnonzero]
    exact ⟨(Sparse.get_set ..).trans (if_pos rfl), fun k hk => (Sparse.get_set ..).trans (if_neg hk), rfl⟩

-- The engine commands (R293, R298)

/-- A command accepted without part `d` of its second check is refused by that check exactly where `d` holds (R8). -/
theorem command_of_accepted_but {s effect : State} {op st₁ st₂ : Nat} {q : Req} {lenOk c₁ c₂ : Bool} (d : Bool)
    (h : accepted s op q lenOk [(c₁, st₁), (c₂, st₂)] = true) :
    command s op q lenOk [(c₁, st₁), (c₂ || d, st₂)] effect = if d then deny s op q st₂ else effect := by
  cases d with
  | false => rw [Bool.or_false]; exact command_of_accepted h
  | true =>
    have hfirst : c₁ = false := first_check_of_accepted h
    simp only [accepted, Bool.and_eq_true, Option.isNone_iff_eq_none] at h
    exact command_of_fail h.1 (by simp [firstFail, hfirst])

/-- Settles O43, row by row: each command's checks pass. PPE_LOAD's image can still be refused for its digest, the last part
of its second check (R292); otherwise it is copied to every engine named. -/
theorem engineCommandsComplete : Obligations.EngineCommandsComplete := by
  refine ⟨?load, ?start, ?stop, ?taskSet, ?status, ?memWrite, ?memRead, ?cluster⟩
  case load =>
    intro s q
    dsimp only
    intro hacc hpolicy hstate hheld hcopied
    refine Eq.trans ?_ (congrArg Host.Outcome.next (command_of_accepted_but (imageDigestBad _) hacc))
    simp only [exec, execPpeLoad, imageBad, hpolicy, hstate, hheld, hcopied, Bool.or_assoc, Bool.false_eq_true, if_false]
  case start => exact fun _ _ hacc => next_command_of_accepted hacc rfl
  case stop => exact fun _ _ hacc => next_command_of_accepted hacc rfl
  case taskSet => exact fun _ _ hacc => next_command_of_accepted hacc rfl
  case status => exact fun _ _ hacc => next_command_of_accepted hacc rfl
  case memWrite => exact fun _ _ hacc => next_command_of_accepted hacc rfl
  case memRead => exact fun _ _ hacc => next_command_of_accepted hacc rfl
  case cluster => exact fun _ _ hacc => next_command_of_accepted hacc rfl

-- The engines' activity (R270–R295)

/-- A due task starts on a READY engine that runs no task, is not fenced and whose cluster is ON (R283). -/
theorem taskDispatch_of_due {s : State} {e t : Nat} {rest : List Nat} (hdue : (s.ppeEng e).due = t :: rest)
    (htask : (s.ppeEng e).task = none) (hready : ppeState s e = 2) (hfence : engFenced s e = false)
    (hcluster : clusterOn s (e / 8) = true) : taskDispatch s e = taskStart s e t rest := by
  simp [taskDispatch, hdue, htask, hready, hfence, hcluster]

/-- A running task that has spent its budget, or whose beat is over, or that waits, is stopped (R285). -/
theorem exec_taskBudgetExpiry_of_spent {s : State} {e t : Nat} (htask : (s.ppeEng e).task = some t)
    (hspent : ppeState s e = 2 ∧ (taskBudget (s.ppeEng e).table t ≤ (s.ppeEng e).cyc ∨ (s.ppeEng e).taskBeat ≠ s.beat ∨
      ((s.ppeEng e).ctx.getD {}).waiting = true)) :
    exec (.taskBudgetExpiry e) s = .next (taskStop s e t) := by
  simp only [exec, execTaskBudgetExpiry, htask, if_pos hspent]

theorem exec_ppeBundleIssue_of_issueable {s : State} {e : Nat} {c : PpeCtx} (stall : Nat) (hissue : issueable s e = some c) :
    exec (.ppeBundleIssue e stall) s = .next (bundleIssue s e stall c) := by
  simp only [exec, execPpeBundleIssue, hissue]

theorem exec_ppeInterrupt_of_takeable {s : State} {e : Nat} {c : PpeCtx} (hold idle : Nat) (hctx : (s.ppeEng e).ctx = some c)
    (hlive : ppeLive s e = true) (htake : takeable (s.ppeEng e) c = true) :
    exec (.ppeInterrupt e hold idle) s = .next (takeInterrupt s e hold idle c) := by
  simp [exec, execPpeInterrupt, hctx, hlive, htake]

theorem exec_mbCtlIntake_of_full {s : State} {e : Nat} (hlive : ppeLive s e = true) (hfull : inFull s e = true) :
    exec (.mbCtlIntake e) s = .next (setIn s e false) :=
  congrArg Host.Outcome.next ((if_pos hlive).trans (if_pos hfull))

theorem exec_mbCtlOutring_of_empty {s : State} {e : Nat} (hlive : ppeLive s e = true) (hempty : outFull s e = false) :
    exec (.mbCtlOutring e) s = .next (outRing s e) := by
  simp [exec, execMbCtlOutring, hlive, hempty]

/-- Settles O44, row by row: the condition of the event selects the rule's branch. -/
theorem engineActivityCompletes : Obligations.EngineActivityCompletes := by
  refine ⟨?dispatch, ?expiry, ?bundle, ?interrupt, ?intake, ?outring, ?gate, ?wake, ?wakeEnd⟩
  case dispatch =>
    intro s e t rest he hdue htask hready hfence hcluster
    exact congrArg Host.Outcome.next ((if_pos he).trans (taskDispatch_of_due hdue htask hready hfence hcluster))
  case expiry => exact fun _ _ _ htask hready hspent => exec_taskBudgetExpiry_of_spent htask ⟨hready, hspent⟩
  case bundle =>
    intro s e stall c0 x s2 wr
    dsimp only
    intro hissue hlegal hwindows haccess hextra hmemory
    rw [exec_ppeBundleIssue_of_issueable stall hissue]
    simp only [bundleIssue, hlegal, hwindows, haccess, hextra, hmemory, Bool.false_eq_true, if_false]
  case interrupt => exact fun _ _ hold idle _ hctx hlive htake => exec_ppeInterrupt_of_takeable hold idle hctx hlive htake
  case intake => exact fun _ _ hlive hfull => exec_mbCtlIntake_of_full hlive hfull
  case outring => exact fun _ _ hlive hempty => exec_mbCtlOutring_of_empty hlive hempty
  case gate => exact fun _ _ hidle => congrArg Host.Outcome.next (if_pos hidle)
  case wake => exact fun _ _ hcause => congrArg Host.Outcome.next (if_pos hcause)
  case wakeEnd => exact fun _ _ hwaking => congrArg Host.Outcome.next (if_pos hwaking)

end Sys2Proof.Machine
end

section
/-! PROOFS. Noviebel's streams: what STREAM_SET changes (O21), and the rows of the streams, volumes, chunks and datagrams
(O45), each of which answers exactly the next state of its rule. -/
namespace Sys2Proof.Machine

-- STREAM_SET (R331)

/-- An entry put into the shadow is what the shadow then holds, and every other shadow entry stays. -/
theorem entryShadow_setShadow (s : State) (n : Nat) (e : List Byte) (k : Nat) :
    (setShadow s n e).entryShadow k = if k = n then e else s.entryShadow k :=
  Sparse.get_set ..

theorem onlyReplied_reply (s : State) (op : Nat) (q : Req) (st : Nat) (rest : List Byte) :
    OnlyReplied q s (reply s op q st rest) :=
  (replyTouchesOnlyItsMailbox s op q _).1

/-- A reply leaves the stream table, in shadow and in force, the streams and the values in force as they were. -/
theorem reply_keeps_streams (s : State) (op : Nat) (q : Req) (st : Nat) (rest : List Byte) :
    (reply s op q st rest).strShadow = s.strShadow ∧ (reply s op q st rest).strActive = s.strActive ∧
      (reply s op q st rest).streams = s.streams ∧ (reply s op q st rest).active = s.active := by
  have hrest : replyUndone s (reply s op q st rest) = s := (onlyReplied_reply s op q st rest).rest
  exact ⟨(congrArg State.strShadow hrest :), (congrArg State.strActive hrest :), (congrArg State.streams hrest :),
    (congrArg State.active hrest :)⟩

/-- STREAM_SET that passes the gate with a stream and reserved bytes in range comes down to whether group 53 is locked. -/
theorem exec_streamSet_of_valid {s : State} {q : Req} (hgate : gate s 0x0800 q (q.params.length == 68) = none)
    (hn : u16 q.params 0 < 256) (hzero : zeroAt q.params 2 2 = true) :
    exec (.streamSet q) s = .next (if groupLocked s 53 then deny s 0x0800 q ST_BUSY
      else reply (setShadow s (u16 q.params 0) (slice q.params 4 64)) 0x0800 q ST_OK []) := by
  have hparams : (decide (256 ≤ u16 q.params 0) || !zeroAt q.params 2 2) = false := by simp [hzero, hn]
  refine congrArg Host.Outcome.next ?_
  cases hlock : groupLocked s 53 with
  | true => exact command_of_fail hgate (by simp [firstFail, hparams])
  | false => exact command_of_pass hgate (by simp [hparams])

/-- Settles O21, by whether group 53 is locked: the reply keeps the entry just written, and every other part of the table. -/
theorem streamSetWritesTheShadowOnly : Obligations.StreamSetWritesTheShadowOnly := by
  intro s q n hgate hn hzero
  have hexec := exec_streamSet_of_valid hgate hn hzero
  refine ⟨fun hfree => ?written, fun hlocked => by rw [hexec, if_pos hlocked]⟩
  obtain ⟨hshadow, hforce, hstreams, hactive⟩ :=
    reply_keeps_streams (setShadow s n (slice q.params 4 64)) 0x0800 q ST_OK []
  have hentry : ∀ k, (reply (setShadow s n (slice q.params 4 64)) 0x0800 q ST_OK []).entryShadow k =
      if k = n then slice q.params 4 64 else s.entryShadow k := fun k => by
    rw [← entryShadow_setShadow, State.entryShadow, hshadow, State.entryShadow]
  refine ⟨_, hexec.trans (by rw [if_neg (by simp [hfree])]), ?_, fun k hk => ?_, hforce, hstreams, hactive, ?_⟩
  · rw [hentry, if_pos rfl]
  · rw [hentry, if_neg hk]
  · rw [hshadow]
    rfl

-- Host rings (R322, R323)

/-- A record that may leave, on a channel that carries it, goes into its host ring (R322). -/
theorem exec_hostRingWrite_of_carried {s : State} {n : Nat} {r : QRec} (hhead : headRec s n = some r)
    (hcarries : carries s n 0 = true) (hbme : s.pci.bme = true) :
    exec (.hostRingWrite n) s = .next (ringWrite s n r.bytes) := by
  simp [exec, execHostRingWrite, hhead, hcarries, hbme]

/-- A consumer count between the one in force and the producer count becomes the stream's (R323). -/
theorem hconsApply_of_valid {s : State} {h c n : Nat} (hring : ringOf s h = some n) (hlo : (s.stream n).cons ≤ c)
    (hhi : c ≤ (s.stream n).prod) :
    hconsApply s h c = (s.setStream n { s.stream n with cons := c }).wr64 (OC_HCONS_LO h) c := by
  have hvalid : ¬(c < (s.stream n).cons ∨ (s.stream n).prod < c) := by omega
  simp only [hconsApply, hring, if_neg hvalid]

/-- A consumer count's low half waits for the high half, which applies the two together (R323). -/
theorem exec_ocHconsWrite {s : State} {h : Nat} (hi : Bool) (v : Word) (hbar : s.pci.d3 = false) (hh : h < 32) :
    exec (.ocHconsWrite h hi v) s =
      .next (if hi then hconsApply s h (v.toNat * 2 ^ 32 + (Sparse.get wordDflt s.hconsLo h).toNat)
        else { s with hconsLo := Sparse.set wordDflt s.hconsLo h v }) :=
  congrArg Host.Outcome.next ((onBar_of_reachable (fun _ => hbar) _).trans (if_neg (by omega)))

-- Chunks (R325)

/-- The chunk of a READY volume that closed first is written. -/
theorem chunkNext_of_closed {s : State} {v : Nat} {c : Chunk} (hclosed : (s.volume v).chunks.find? (fun c => c.closed) = some c)
    (hready : (s.volume v).state = 2) : chunkNext s v = chunkWrite s v c := by
  simp only [chunkNext, hclosed, if_pos hready]

-- Datagrams (R329)

/-- The first half of a launch: the head record, when it is due, moves into its empty context. -/
def headLaunch (s : State) (n : Nat) : State :=
  match (s.stream n).queue.head?, wayOf s (outEntry s n) with
  | some r, some x =>
    if ctxEmpty s (outEntry s n) ∧ launchDue (outEntry s n) r.bytes ≤ timeNow s then datagramMove s n (outEntry s n) x r else s
  | _, _ => s

/-- The second half: the first record of the context of entry `e` leaves at its launch time, or asks for its next hop. -/
def contextLaunch (s : State) (e : List Byte) : State :=
  match txFirst s (ethCtx (dgPort e) (enChan e)), wayOf s e with
  | some b, some x => if launchDue e b ≤ timeNow s then datagramOut s e x true else s
  | some _, none => datagramAsk s e
  | none, _ => s

theorem datagramLaunch_eq (s : State) (n : Nat) :
    datagramLaunch s n = contextLaunch (headLaunch s n) (outEntry s n) := rfl

theorem headLaunch_of_due {s : State} {n : Nat} {r : QRec} {rest : List QRec} {x : Nat × Nat}
    (hqueue : (s.stream n).queue = r :: rest) (hway : wayOf s (outEntry s n) = some x)
    (hempty : ctxEmpty s (outEntry s n) = true) (hdue : launchDue (outEntry s n) r.bytes ≤ timeNow s) :
    headLaunch s n = datagramMove s n (outEntry s n) x r := by
  simp only [headLaunch, hqueue, List.head?_cons, hway, if_pos (And.intro hempty hdue)]

/-- No record moves into a context that still holds one. -/
theorem headLaunch_of_waiting {s : State} {n : Nat} (hfull : ctxEmpty s (outEntry s n) = false) : headLaunch s n = s := by
  unfold headLaunch
  split
  · simp [hfull]
  · rfl

theorem contextLaunch_of_due {s : State} {e b : List Byte} {x : Nat × Nat}
    (hfirst : txFirst s (ethCtx (dgPort e) (enChan e)) = some b) (hway : wayOf s e = some x)
    (hdue : launchDue e b ≤ timeNow s) : contextLaunch s e = datagramOut s e x true := by
  simp only [contextLaunch, hfirst, hway, if_pos hdue]

theorem exec_datagramLaunch_of_carried {s : State} {n tclk : Nat} (hcarries : carries (setClock s tclk) n 2 = true)
    (hlaunch : enLaunch (outEntry (setClock s tclk) n) = true) :
    exec (.datagramLaunch n tclk) s = .next (datagramLaunch (setClock s tclk) n) :=
  congrArg Host.Outcome.next (if_pos ⟨hcarries, hlaunch⟩)

/-- Settles O45, row by row: a command's checks pass, an access reaches the BAR, or the condition of the event selects the
rule's branch. -/
theorem streamCommandsComplete : Obligations.StreamCommandsComplete := by
  refine ⟨?streamSet, ?streamStatus, ?volFormat, ?volFormatDone, ?volStatus, ?hostRingWrite, ?hconsLow, ?hconsHigh, ?chunkWrite,
    ?chunkFlushTime, ?headLaunch, ?contextLaunch⟩
  case streamSet => exact fun _ _ hacc => next_command_of_accepted hacc rfl
  case streamStatus => exact fun _ _ hacc => next_command_of_accepted hacc rfl
  case volFormat => exact fun _ _ hacc => next_command_of_accepted hacc rfl
  case volFormatDone => exact fun _ _ hformatting => congrArg Host.Outcome.next (if_pos hformatting)
  case volStatus => exact fun _ _ hacc => next_command_of_accepted hacc rfl
  case hostRingWrite => exact fun _ _ _ hhead hcarries hbme _ => exec_hostRingWrite_of_carried hhead hcarries hbme
  case hconsLow =>
    rintro s h hi v hbar hh rfl
    exact exec_ocHconsWrite false v hbar hh
  case hconsHigh =>
    rintro s h hi v n c hbar hh rfl hring hlo hhi
    exact (exec_ocHconsWrite true v hbar hh).trans (congrArg Host.Outcome.next (hconsApply_of_valid hring hlo hhi))
  case chunkWrite => exact fun _ _ _ hclosed hready => congrArg Host.Outcome.next (chunkNext_of_closed hclosed hready)
  case chunkFlushTime => exact fun _ _ _ hclosed hready => congrArg Host.Outcome.next (chunkNext_of_closed hclosed hready)
  case headLaunch =>
    intro s n tclk r rest x s' e u hcarries hlaunch hqueue hway hempty hdue
    rw [exec_datagramLaunch_of_carried hcarries hlaunch, datagramLaunch_eq, headLaunch_of_due hqueue hway hempty hdue]
    rfl
  case contextLaunch =>
    intro s n tclk b x s' e hcarries hlaunch hfull hfirst hway hdue
    rw [exec_datagramLaunch_of_carried hcarries hlaunch, datagramLaunch_eq, headLaunch_of_waiting hfull,
      contextLaunch_of_due hfirst hway hdue]

end Sys2Proof.Machine
end

section
/-! PROOFS. The capture memory: what an error met in HBM leaves alone, accesses through BAR2 (O23), and the rows of the capture
memory (O46), each of which answers exactly the next state of its rule. -/
namespace Sys2Proof.Machine

-- What errors and reports leave of HBM (R345, R375)

theorem hbm_report (s : State) (src code : Nat) : (report s src code).hbm = s.hbm :=
  (congrArg State.hbm (show faultsUndone s (report s src code) = s from (OnlyFaults.refl s).report src code) :)

/-- An Unsupported Request changes no byte of HBM. -/
theorem hbm_unsupported (s : State) : (unsupported s).hbm = s.hbm := hbm_report _ _ _

theorem hbm_rowFail (s : State) (c p : Nat) : (rowFail s c p).hbm = s.hbm := by
  unfold rowFail
  split <;> rfl

/-- A corrected error is counted and reported; no byte of HBM changes. -/
theorem hbm_eccCe (s : State) (a : Nat) : (eccCe s a).hbm = s.hbm := by
  unfold eccCe
  extract_lets c p counted near two mem seen
  have hseen : seen.hbm = s.hbm := by simp [seen, counted, setMem, State.addR_eq, State.setB_eq]
  split
  · rw [hbm_rowFail, hbm_report, hseen]
  · exact hseen

/-- An uncorrectable error is counted, reported and remembered as poison; no byte of HBM changes. -/
theorem hbm_eccUe (s : State) (a : Nat) : (eccUe s a).hbm = s.hbm := by
  unfold eccUe
  extract_lets c addressed counted mem poisoned
  have hcounted : counted.hbm = s.hbm := by
    simp only [counted, addressed, State.addR_eq, State.setB_eq, State.wr_frame, apply_ite State.hbm, State.wr64_eq, ite_self]
  have hpoisoned : poisoned.hbm = counted.hbm := by simp only [poisoned, apply_ite State.hbm, setMem, ite_self]
  rw [hbm_rowFail, hbm_report, hpoisoned, hcounted]

theorem hbm_eccRead (s : State) (a n : Nat) (h : EccHits) : (eccRead s a n h).1.hbm = s.hbm :=
  (forEach_const State.hbm (fun x t => hbm_eccUe t x) _ _).trans (forEach_const State.hbm (fun x t => hbm_eccCe t x) _ _)

/-- A loop whose turns each change nothing changes nothing. -/
theorem forEach_of_fixed {α σ : Type} {f : α → σ → σ} {s : σ} (hf : ∀ a, f a s = s) : ∀ l : List α, forEach l s f = s
  | [] => rfl
  | a :: l => by rw [forEach, hf a, forEach_of_fixed hf l]

/-- A read that meets no error and no poisoned word changes nothing. -/
theorem eccRead_of_clean {s : State} (a n : Nat) (hpoison : s.mem.poison = []) : eccRead s a n ⟨[], []⟩ = (s, false) := by
  simp [eccRead, poisonIn, hpoison, uniq, forEach]

-- Accesses through BAR2 (R335)

/-- A write of whole words covers no word in part. -/
theorem partWords_of_whole {a n : Nat} (ha : a % 8 = 0) (hn : n % 8 = 0) : partWords a n = [] := by
  unfold partWords
  split
  · rfl
  next hpos =>
    refine List.filter_eq_nil_iff.mpr fun w hw => ?_
    have hends : w = a / 8 ∨ w = (a + n - 1) / 8 := by
      by_cases hone : (a + n - 1) / 8 = a / 8 <;> simpa [uniq, hone] using hw
    simp only [Bool.not_eq_true', Bool.and_eq_false_iff, decide_eq_false_iff_not, not_or, not_not]
    omega

/-- A write of whole words, or one that meets no error, is the write alone. -/
theorem bar2Write_of_clean {s : State} {a : Nat} {b : List Byte} {h : EccHits}
    (hclean : (a % 8 = 0 ∧ b.length % 8 = 0) ∨ (h = ⟨[], []⟩ ∧ s.mem.poison = [])) : bar2Write s a b h = s.hbmWrite a b := by
  refine congrArg (fun t : State => t.hbmWrite a b) ?_
  rcases hclean with ⟨ha, hb⟩ | ⟨rfl, hpoison⟩
  · rw [partWords_of_whole ha hb, forEach]
  · exact forEach_of_fixed (fun w => by rw [eccRead_of_clean _ _ hpoison]) _

/-- With no page excluded, a write of HBM writes every byte. -/
theorem hbm_hbmWrite {s : State} (a : Nat) (b : List Byte) (hexcl : s.mem.excluded = []) :
    (s.hbmWrite a b).hbm = Mem.write s.hbm a b := if_pos hexcl

/-- A read outside excluded pages answers the bytes that stand there and changes none. -/
theorem bar2Read_of_not_excluded {s : State} (a n : Nat) (h : EccHits) (hexcl : s.mem.excluded = []) :
    (bar2Read s a n h).hbm = s.hbm ∧ .readBytes .host (s.hbmRead a n) ∈ (bar2Read s a n h).out := by
  have hhbm := hbm_eccRead s a n h
  simp only [bar2Read, hexcl, List.any_nil, Bool.false_eq_true, if_false, State.hbmRead, hhbm]
  split
  · exact ⟨hhbm, List.mem_cons_of_mem _ List.mem_cons_self⟩
  · exact ⟨hhbm, List.mem_cons_self⟩

section
variable {s : State} {x n : Nat}

/-- A host access inside a ready HBM, by whether it reaches firmware's part or a FAILED pseudo-channel. -/
theorem exec_bar2Access_inside (w : Bool) (b : List Byte) (h : EccHits) (hbar : s.pci.d3 = false) (hready : memReady s = true)
    (hin : x + n ≤ 48 * 2 ^ 30) : exec (.bar2Access w x n b h) s = .next
      (if inFirmware (HBM0 + x) n || failedIn s (HBM0 + x) n then unsupported s
        else if w then bar2Write s (HBM0 + x) b h else bar2Read s (HBM0 + x) n h) := by
  have hout : ¬(!memReady s || decide (48 * 2 ^ 30 < x + n)) = true := by simpa [hready] using hin
  exact congrArg Host.Outcome.next ((if_neg (by simp [hbar])).trans (if_neg hout))

theorem exec_bar2Access_open (w : Bool) (b : List Byte) (h : EccHits) (hbar : s.pci.d3 = false) (hready : memReady s = true)
    (hin : x + n ≤ 48 * 2 ^ 30) (hfw : inFirmware (HBM0 + x) n = false) (hfailed : failedIn s (HBM0 + x) n = false) :
    exec (.bar2Access w x n b h) s =
      .next (if w then bar2Write s (HBM0 + x) b h else bar2Read s (HBM0 + x) n h) :=
  (exec_bar2Access_inside w b h hbar hready hin).trans (congrArg Host.Outcome.next (if_neg (by simp [hfw, hfailed])))

theorem exec_bar2Access_closed (w : Bool) (b : List Byte) (h : EccHits) (hbar : s.pci.d3 = false) (hready : memReady s = true)
    (hin : x + n ≤ 48 * 2 ^ 30) (hclosed : inFirmware (HBM0 + x) n = true ∨ failedIn s (HBM0 + x) n = true) :
    exec (.bar2Access w x n b h) s = .next (unsupported s) :=
  (exec_bar2Access_inside w b h hbar hready hin).trans (congrArg Host.Outcome.next (if_pos (by simpa using hclosed)))

/-- Above HBM a read returns all ones and a write is dropped. -/
theorem exec_bar2Access_above (w : Bool) (b : List Byte) (h : EccHits) (hbar : s.pci.d3 = false) (habove : 48 * 2 ^ 30 < x + n) :
    exec (.bar2Access w x n b h) s = .next (if w then s else s.put (.readBytes .host (List.replicate n 255))) :=
  congrArg Host.Outcome.next ((if_neg (by simp [hbar])).trans (if_pos (by simpa using .inr habove)))

end

/-- Settles O23: an open write and read, an access that is closed, and one above HBM. -/
theorem bar2MapsHbm : Obligations.Bar2MapsHbm := by
  intro s x n b h hbar
  refine ⟨fun hready hin hfw hfailed hlen hexcl hclean => ?write, fun hready hin hfw hfailed hexcl => ?read,
    fun hready hin hclosed w => ⟨exec_bar2Access_closed w b h hbar hready hin hclosed, hbm_unsupported s⟩,
    fun habove hpos => ⟨exec_bar2Access_above false [] h hbar (by omega), exec_bar2Access_above true b h hbar (by omega)⟩⟩
  case write =>
    subst hlen
    have hwords : ((HBM0 + x) % 8 = 0 ∧ b.length % 8 = 0) ∨ (h = ⟨[], []⟩ ∧ s.mem.poison = []) :=
      hclean.imp_left (And.imp_left fun hx => by unfold HBM0; omega)
    have hexec : exec (.bar2Access true x b.length b h) s = .next (s.hbmWrite (HBM0 + x) b) :=
      (exec_bar2Access_open true b h hbar hready hin hfw hfailed).trans (congrArg Host.Outcome.next (bar2Write_of_clean hwords))
    have hhbm := hbm_hbmWrite (HBM0 + x) b hexcl
    refine ⟨_, hexec, ?_, fun a ha => ?_, rfl⟩
    · rw [State.hbmRead, hhbm, Mem.read_write]
    · rw [hhbm, Mem.get_write_outside _ _ _ ha]
  case read =>
    exact ⟨_, exec_bar2Access_open false [] h hbar hready hin hfw hfailed, bar2Read_of_not_excluded _ n h hexcl⟩

-- The rows of the capture memory (R340–R350)

/-- Settles O46, row by row: a command's checks pass, the condition of the event holds, or the BAR2 access is open. -/
theorem captureMemoryCommandsComplete : Obligations.CaptureMemoryCommandsComplete := by
  refine ⟨?regionSet, ?status, ?retiredRead, ?windowEnd, ?refresh, ?temperature, ?retrain, ?retrainEnd, ?parity, ?scrub, ?repair,
    ?bar2Write, ?bar2Read⟩
  case regionSet => exact fun _ _ hacc => next_command_of_accepted hacc rfl
  case status => exact fun _ _ hacc => next_command_of_accepted hacc rfl
  case retiredRead => exact fun _ _ hacc => next_command_of_accepted hacc rfl
  case windowEnd => exact fun _ _ hdue => congrArg Host.Outcome.next (if_pos hdue)
  case refresh => exact fun _ _ hdue => congrArg Host.Outcome.next (if_pos hdue)
  case temperature => exact fun _ _ _ hstack => congrArg Host.Outcome.next (if_pos hstack)
  case retrain => exact fun _ _ hdue => congrArg Host.Outcome.next (if_pos hdue)
  case retrainEnd => exact fun _ _ _ htraining => congrArg Host.Outcome.next (if_neg htraining)
  case parity => exact fun _ _ _ _ hinService => congrArg Host.Outcome.next (if_neg hinService)
  case scrub => exact fun _ _ hon => congrArg Host.Outcome.next (if_pos hon)
  case repair => exact fun _ _ _ _ hdue => congrArg Host.Outcome.next (if_neg hdue)
  case bar2Write =>
    rintro s _ x n bytes h hbar hready hin hfw hfailed rfl
    exact exec_bar2Access_open true bytes h hbar hready hin hfw hfailed
  case bar2Read =>
    rintro s _ x n bytes h hbar hready hin hfw hfailed rfl
    exact exec_bar2Access_open false bytes h hbar hready hin hfw hfailed

end Sys2Proof.Machine
end

section
/-! PROOFS. The DMA channels: what DMA_SRAM_WRITE stores (O24), which register writes a channel ignores (O34), and the rows of
the DMA commands and channel instructions (O47), each of which answers exactly the next state of its rule. -/
namespace Sys2Proof.Machine

-- DMA_SRAM_WRITE (R354, R373)

/-- A reply leaves DMA SRAM as it was. -/
theorem sram_reply (s : State) (op : Nat) (q : Req) (st : Nat) (rest : List Byte) : (reply s op q st rest).sram = s.sram :=
  (congrArg State.sram (show replyUndone s (reply s op q st rest) = s from (onlyReplied_reply s op q st rest).rest) :)

/-- DMA_SRAM_WRITE that passes the gate comes down to whether its bytes end within DMA SRAM. -/
theorem exec_dmaSramWrite_of_gate {s : State} {q : Req}
    (hgate : gate s 0x0913 q (decide (4 ≤ q.params.length ∧ q.params.length ≤ 4072)) = none) :
    exec (.dmaSramWrite q) s = .next (if u32 q.params 0 + (q.params.length - 4) ≤ 0x80000
      then reply (s.sramWrite (u32 q.params 0) (q.params.drop 4)) 0x0913 q ST_OK [] else deny s 0x0913 q ST_BAD_PARAM) := by
  refine congrArg Host.Outcome.next ?_
  split
  next hfits => exact command_of_pass hgate (by simpa using hfits)
  next hlong => exact command_of_fail hgate (by simp [firstFail, Nat.lt_of_not_le hlong])

/-- Settles O24, by whether the bytes end within DMA SRAM: what they leave there is a write of the byte memory, and a reply
keeps it. -/
theorem dmaSramWriteStoresItsBytes : Obligations.DmaSramWriteStoresItsBytes := by
  intro s q p o hgate
  have hexec := exec_dmaSramWrite_of_gate hgate
  refine ⟨fun hfits => ?stored, fun hlong => ⟨by rw [hexec, if_neg (Nat.not_le_of_lt hlong)], sram_reply ..⟩⟩
  rw [hexec, if_pos hfits]
  have hsram : (reply (s.sramWrite o (p.drop 4)) 0x0913 q ST_OK []).sram = Mem.write s.sram o (p.drop 4) := sram_reply ..
  have hlen : (p.drop 4).length = p.length - 4 := List.length_drop
  refine ⟨_, rfl, ?_, fun a ha => ?_, ?_⟩
  · rw [hsram, ← hlen, Mem.read_write]
  · rw [hsram, Mem.get_write_outside _ _ _ (by rwa [hlen])]
  · rw [hsram]
    rfl

-- Arrays of registers

/-- The address of entry `i` names that entry. -/
theorem inArray_entry {base stride k i : Nat} (hstride : 0 < stride) (hi : i < k) :
    inArray (base + stride * i) base stride k = some i := by
  simp [inArray, hstride, hi]

/-- No entry lies at or above the end of the array. -/
theorem inArray_of_beyond {a base stride k : Nat} (hstride : 0 < stride) (ha : base + k * stride ≤ a) :
    inArray a base stride k = none := by
  have hindex : k ≤ (a - base) / stride := (Nat.le_div_iff_mul_le hstride).mpr (by omega)
  exact if_neg fun h => Nat.not_lt.mpr hindex h.2.2

/-- No entry lies off the array's stride. -/
theorem inArray_of_misaligned {a base stride k : Nat} (h : (a - base) % stride ≠ 0) : inArray a base stride k = none :=
  if_neg fun hentry => h hentry.2.1

-- Writes of the channels' registers (R370, R372)

/-- The aligned addresses of the DMA block (R582). -/
def DmaReg (a : Nat) : Prop := 0x3000000 ≤ a ∧ a < 0x3008000 ∧ a % 4 = 0

theorem dmaReg_ctrl {n : Nat} (hn : n < 128) : DmaReg (DMA_CTRL n) := by
  unfold DmaReg DMA_CTRL
  omega

/-- Both words of a channel's DMA_PROG lie in the block, off the stride of DMA_CTRL, in the channel's own 256 bytes. -/
theorem dmaReg_prog {n a : Nat} (hn : n < 128) (ha : a = DMA_PROG_LO n ∨ a = DMA_PROG_HI n) :
    DmaReg a ∧ (a - 0x3000000) % 0x100 ≠ 0 ∧ (a - 0x3000000) / 0x100 = n := by
  unfold DMA_PROG_LO DMA_PROG_HI at ha
  unfold DmaReg
  omega

section
variable {a : Nat} (ha : DmaReg a)
include ha

/-- No memory window lies in the DMA block. -/
theorem inWindow_of_dma : inWindow a = false := by
  obtain ⟨hlo, hhi, -⟩ := ha
  simp only [inWindow, Bool.or_eq_false_iff, Bool.and_eq_false_iff, decide_eq_false_iff_not]
  omega

/-- No register of the DMA block belongs to a commit group. -/
theorem groupOf_of_dma : groupOf a = none := by
  obtain ⟨hlo, hhi, -⟩ := ha
  have hunshadowed : ∀ b ∈ regBlocks, b.1 < 0x3008000 → 0x3000000 ≤ b.2.1 → ∀ r ∈ b.2.2, 64 ≤ r.group := by decide
  unfold groupOf
  split
  next r l hreg =>
    obtain ⟨lo, hi, rows, hblock, hstart, hend, hrow⟩ := block_of_findBlock hreg
    exact if_neg (Nat.not_lt.mpr (hunshadowed _ hblock (Nat.lt_of_le_of_lt hstart hhi) (Nat.le_trans hlo hend) r hrow))
  next => rfl

/-- In the DMA block DMA_CTRL alone has a rule of its own. -/
theorem ruled_of_dma (s : State) (m : Master) (v : Word) :
    ruled s m a v = (inArray a 0x3000000 0x100 128).map fun n => dmaCtrlWrite s m n v 0 := by
  obtain ⟨hlo, hhi, -⟩ := ha
  have hunit : ruled s m a v = ruledUnit s m a v := by
    simp only [ruled, show ¬a < 0x40000 by omega, show ¬a < 0x50000 by omega, show ¬a < 0x1000000 by omega,
      show a < 0x3100000 by omega, if_true, if_false]
  have hpwrdn : inArray a 0x1000000 0x1000 32 = none := inArray_of_beyond (by omega) (by omega)
  have hbgcal : inArray a 0x1000008 0x1000 32 = none := inArray_of_beyond (by omega) (by omega)
  have hengine : inArray a 0x2000000 0x10000 64 = none := inArray_of_beyond (by omega) (by omega)
  have hcluster : inArray a 0x2400000 0x40 8 = none := inArray_of_beyond (by omega) (by omega)
  simp only [hunit, ruledUnit, hpwrdn, hbgcal, hengine, hcluster]
  cases inArray a 0x3000000 0x100 128 with
  | none => rfl
  | some n => rfl

/-- A write of one DW in the DMA block is a write of that register. -/
theorem exec_registerWrite_dma {s : State} {m : Master} {b : List Byte} (hb : b.length = 4)
    (hbar : m = .host → s.pci.d3 = false) :
    exec (.registerWrite m a b) s = .next (registerWrite s m a (w32 (u32 b 0))) := by
  have hwindow := inWindow_of_dma ha
  obtain ⟨-, -, h4⟩ := ha
  rw [exec_registerWrite a b hbar, barWrite_dw hwindow h4 hb]

end

/-- A write whose rule changes nothing changes nothing. -/
theorem registerWrite_of_ruled_same {s : State} {m : Master} {a : Nat} {v : Word} (hgroup : groupOf a = none)
    (hruled : ruled s m a v = some s) : registerWrite s m a v = s := by
  simp [registerWrite, hgroup, hruled]

/-- A write that the register ignores whole changes nothing. -/
theorem registerWrite_of_ignored {s : State} {m : Master} {a : Nat} {v : Word} (hgroup : groupOf a = none)
    (hruled : ruled s m a v = none) (hignored : ignoredWhole s a v = true) : registerWrite s m a v = s := by
  simp only [registerWrite, hgroup, hruled, hignored, Option.isSome_none, Bool.false_eq_true, if_false, if_true]
  cases regAt a with
  | none => exact ite_self s
  | some row => exact ite_self s

/-- Firmware's channel ignores every other master. -/
theorem dmaCtrlWrite_of_owned {s : State} {m : Master} {n : Nat} (v : Word) (fe : Nat) (hown : fwOwn s n = true)
    (hm : isMgmt m = false) : dmaCtrlWrite s m n v fe = s :=
  if_pos (.inr ⟨hown, by simp [hm]⟩)

theorem registerWrite_dmaCtrl_of_owned {s : State} {m : Master} {n : Nat} (v : Word) (hn : n < 128) (hown : fwOwn s n = true)
    (hm : isMgmt m = false) : registerWrite s m (DMA_CTRL n) v = s := by
  refine registerWrite_of_ruled_same (groupOf_of_dma (dmaReg_ctrl hn)) ?_
  rw [ruled_of_dma (dmaReg_ctrl hn), inArray_entry (by decide) hn, Option.map_some, dmaCtrlWrite_of_owned v 0 hown hm]

section
variable {s : State} {n a : Nat} (hn : n < 128) (ha : a = DMA_PROG_LO n ∨ a = DMA_PROG_HI n)
include hn ha

/-- The words of DMA_PROG ignore every write while their channel runs. -/
theorem ignoredWhole_dmaProg (v : Word) : ignoredWhole s a v = chanRuns s n := by
  obtain ⟨⟨hlo, hhi, -⟩, -, hindex⟩ := dmaReg_prog hn ha
  have hprog : (List.range 128).any (fun k => a == DMA_PROG_LO k || a == DMA_PROG_HI k) = true :=
    List.any_eq_true.mpr ⟨n, List.mem_range.mpr hn, by simpa using ha⟩
  simp only [ignoredWhole, show ¬(0x40 ≤ a ∧ a < 0x60) by omega, show a ≠ GLB_PINCTRL by unfold GLB_PINCTRL; omega,
    show a ≠ TIM_GCTRL by unfold TIM_GCTRL; omega, show ¬(0x3400000 ≤ a ∧ a < 0x3410000) by omega, hprog, hindex,
    if_true, if_false]

theorem registerWrite_dmaProg_of_running (m : Master) (v : Word) (hruns : chanRuns s n = true) : registerWrite s m a v = s := by
  obtain ⟨hreg, hoffset, -⟩ := dmaReg_prog hn ha
  have hruled : ruled s m a v = none := by rw [ruled_of_dma hreg, inArray_of_misaligned hoffset, Option.map_none]
  exact registerWrite_of_ignored (groupOf_of_dma hreg) hruled ((ignoredWhole_dmaProg hn ha v).trans hruns)

theorem exec_registerWrite_dmaProg_of_running {m : Master} {b : List Byte} (hb : b.length = 4)
    (hbar : m = .host → s.pci.d3 = false) (hruns : chanRuns s n = true) : exec (.registerWrite m a b) s = .next s := by
  rw [exec_registerWrite_dma (dmaReg_prog hn ha).1 hb hbar, registerWrite_dmaProg_of_running hn ha m _ hruns]

end

theorem exec_dmaCtrlStart {s : State} {m : Master} (n : Nat) (v : Word) (fe : Nat) (hbar : m = .host → s.pci.d3 = false) :
    exec (.dmaCtrlStart m n v fe) s = .next (dmaCtrlWrite s m n (putBit v 0 true) fe) :=
  congrArg Host.Outcome.next (onBar_of_reachable hbar _)

theorem exec_dmaCtrlAbort {s : State} {m : Master} (n : Nat) (v : Word) (hbar : m = .host → s.pci.d3 = false) :
    exec (.dmaCtrlAbort m n v) s = .next (dmaCtrlWrite s m n (putBit v 1 true) 0) :=
  congrArg Host.Outcome.next (onBar_of_reachable hbar _)

/-- Settles O34: DMA_CTRL of a channel that firmware owns, as a register write, a START and an ABORT, and the two words of
DMA_PROG of a running channel. -/
theorem firmwareOwnedChannelIgnoresOthers : Obligations.FirmwareOwnedChannelIgnoresOthers := by
  intro s m n fe v b hn hb hbar
  refine ⟨fun hm hown => ⟨?ctrl, ?start, ?abort⟩, fun hruns => ⟨?progLo, ?progHi⟩⟩
  case ctrl => rw [exec_registerWrite_dma (dmaReg_ctrl hn) hb hbar, registerWrite_dmaCtrl_of_owned _ hn hown hm]
  case start => rw [exec_dmaCtrlStart n v fe hbar, dmaCtrlWrite_of_owned _ fe hown hm]
  case abort => rw [exec_dmaCtrlAbort n v hbar, dmaCtrlWrite_of_owned _ 0 hown hm]
  case progLo => exact exec_registerWrite_dmaProg_of_running hn (.inl rfl) hb hbar hruns
  case progHi => exact exec_registerWrite_dmaProg_of_running hn (.inr rfl) hb hbar hruns

-- START and ABORT (R368, R369)

section
variable {s : State} {m : Master} {n : Nat} {v : Word} (fe : Nat) (hn : n < 128) (hmay : fwOwn s n = true → isMgmt m = true)
include hn hmay

/-- A channel takes a write of DMA_CTRL: its limit and interrupt, then an abort, then a start. -/
theorem dmaCtrlWrite_of_taken : dmaCtrlWrite s m n v fe =
    let t := (s.setF (DMA_CTRL n) 6 4 (fld v 6 4)).setB (DMA_CTRL n) 2 (bit v 2)
    let t := if bit v 1 then dmaAbort t n else t
    if bit v 0 then dmaStart t n (masterId m) fe else t := by
  refine if_neg ?_
  rintro (hlarge | ⟨hown, hother⟩)
  · omega
  · simp [hmay hown] at hother

theorem dmaCtrlWrite_start (hstart : bit v 0 = true) (habort : bit v 1 = false) : dmaCtrlWrite s m n v fe =
    dmaStart ((s.setF (DMA_CTRL n) 6 4 (fld v 6 4)).setB (DMA_CTRL n) 2 (bit v 2)) n (masterId m) fe := by
  simp only [dmaCtrlWrite_of_taken fe hn hmay, hstart, habort, Bool.false_eq_true, if_true, if_false]

theorem dmaCtrlWrite_abort (habort : bit v 1 = true) (hstart : bit v 0 = false) : dmaCtrlWrite s m n v fe =
    dmaAbort ((s.setF (DMA_CTRL n) 6 4 (fld v 6 4)).setB (DMA_CTRL n) 2 (bit v 2)) n := by
  simp only [dmaCtrlWrite_of_taken fe hn hmay, hstart, habort, Bool.false_eq_true, if_true, if_false]

end

-- Channel instructions (R357–R360)

/-- An instruction that issues and is legal takes the branch behind those two checks. -/
theorem next_of_issues {s : State} {n op : Nat} {illegal : Prop} [Decidable illegal] (hissue : issues s n op = true)
    (hlegal : ¬illegal) (err t : State) : (.next (if !issues s n op then s else if illegal then err else t) : Res) = .next t :=
  congrArg Host.Outcome.next ((if_neg (by simp [hissue])).trans (if_neg hlegal))

-- Bursts (R362–R366)

/-- A channel in RUN whose MOVE has no burst in flight asks for its next burst in this FCLK cycle. -/
theorem exec_burstStart_of_idle {s s' : State} {n cyc : Nat} {m : DmaMove} (hs : s' = { s with cyc := cyc % 512 })
    (hmove : (s'.dmaCh n).mv = some m)
    (hidle : n < 128 ∧ chanState s' n = 1 ∧ m.inFlight = 0 ∧ (!(s'.dmaCh n).abort) = true) :
    exec (.burstStart n cyc) s = .next (burstStart s' n (cyc % 512) (s'.dmaCh n) m) := by
  subst hs
  simp only [exec, execBurstStart, hmove, if_pos hidle]

/-- The burst in flight of a channel in RUN is answered. -/
theorem exec_burstEnd_of_inFlight {s : State} {n : Nat} {m : DmaMove} (data : List Byte) (err : Bool) (h : EccHits) (fe : Nat)
    (hmove : (s.dmaCh n).mv = some m) (hflight : n < 128 ∧ chanState s n = 1 ∧ m.inFlight ≠ 0) :
    exec (.burstEnd n data err h fe) s = .next (burstEnd s n data err h fe (s.dmaCh n) m) := by
  simp only [exec, execBurstEnd, hmove, if_pos hflight]

/-- Settles O47, row by row: a command's checks pass, a write of DMA_CTRL is taken, or the instruction or burst meets the
condition of its rule's branch. -/
theorem dmaCommandsAndInstructionsComplete : Obligations.DmaCommandsAndInstructionsComplete := by
  refine ⟨?start, ?abort, ?status, ?sramWrite, ?ctrlStart, ?ctrlAbort, ?move, ?loop, ?wait, ?waitComplete, ?waitTimeout,
    ?signal, ?ending, ?burstStart, ?burstEnd⟩
  case start => exact fun _ _ _ hacc => next_command_of_accepted hacc rfl
  case abort => exact fun _ _ hacc => next_command_of_accepted hacc rfl
  case status => exact fun _ _ hacc => next_command_of_accepted hacc rfl
  case sramWrite => exact fun _ _ hacc => next_command_of_accepted hacc rfl
  case ctrlStart =>
    intro s m n v fe w hbar hn hmay _ habort
    have hstart : bit w 0 = true := by simp [w, bit_putBit_true]
    rw [exec_dmaCtrlStart n v fe hbar, dmaCtrlWrite_start fe hn hmay hstart habort]
  case ctrlAbort =>
    intro s m n v w hbar hn hmay _ hstart
    have habort : bit w 1 = true := by simp [w, bit_putBit_true]
    rw [exec_dmaCtrlAbort n v hbar, dmaCtrlWrite_abort 0 hn hmay habort hstart]
  case move =>
    exact fun _ _ hissue hlegal hpace => (next_of_issues hissue (by simp [hlegal]) _ _).trans
      (congrArg Host.Outcome.next (if_neg (by simp [hpace])))
  case loop => exact fun _ _ _ hissue hlegal => next_of_issues hissue (by simp [hlegal]) _ _
  case wait => exact fun _ _ _ hissue hcount hzero => next_of_issues hissue (by simp [hcount, hzero]) _ _
  case waitComplete => exact fun _ _ _ hreached => congrArg Host.Outcome.next (if_pos hreached)
  case waitTimeout => exact fun _ _ hdue => congrArg Host.Outcome.next (if_pos hdue)
  case signal => exact fun _ _ _ hissue hlegal => next_of_issues hissue (by simp [hlegal]) _ _
  case ending => exact fun _ _ hissue hzero => next_of_issues hissue (by simp [hzero]) _ _
  case burstStart =>
    intro s n cyc m s' d now hmove hn hrun hflight habort hpaced hready hturn
    have hfree : (!destReady s' d || !hasTurn s' n (cyc % 512)) = false := by rw [hready, hturn]; rfl
    exact (exec_burstStart_of_idle rfl hmove ⟨hn, hrun, hflight, by rw [habort]; rfl⟩).trans
      (congrArg Host.Outcome.next ((if_neg (ne_true_of_eq_false hpaced)).trans (if_neg (ne_true_of_eq_false hfree))))
  case burstEnd =>
    intro s n data err h fe m
    dsimp only
    intro hmove hn hrun hflight herr hsrc hdst hclean
    rw [exec_burstEnd_of_inFlight data err h fe hmove ⟨hn, hrun, hflight⟩]
    simp only [burstEnd, herr, hsrc, hdst, hclean, Bool.true_and, Bool.not_true, Bool.or_self, Bool.false_eq_true, if_false]

end Sys2Proof.Machine
end

section
/-! PROOFS. The fuses along a step (O5), the queue's front command and the idle block (O1, O2), and the rows of the links,
drives, frames and neighbour ports (O48, O49): under the conditions of its rule each row answers exactly the next state of
that rule. -/
namespace Sys2Proof.Machine

/-- Settles O1: the queue's front selects the branch of `step`. -/
theorem stepRunsFrontCommand : Obligations.StepRunsFrontCommand := by
  intro c rest s hqueue
  simp only [step, hqueue]

/-- Settles O2. -/
theorem emptyQueueIdles : Obligations.EmptyQueueIdles := by
  intro s hqueue
  simp only [step, hqueue]

/-- Settles O5: an idle step leaves the fuses alone, and a command keeps them or burns more of them. -/
theorem stepBurnsFusesOneWay : Obligations.StepBurnsFusesOneWay := by
  intro s t hs hstep
  cases hqueue : s.pending with
  | nil =>
    cases hstep.symm.trans (emptyQueueIdles s hqueue)
    exact Fuses.Burned.refl _
  | cons c rest =>
    obtain ⟨t', ht', hkept⟩ := (step_kept hqueue hs).exists_next
    cases hstep.symm.trans ht'
    exact hkept.fuses

-- The branch of a row

section
variable {c : Prop} [Decidable c]

/-- A row whose condition holds answers its effect. -/
theorem next_ite_pos (h : c) (t u : State) : (.next (if c then t else u) : Res) = .next t := congrArg Host.Outcome.next (if_pos h)

/-- A row whose excluding condition fails answers its effect. -/
theorem next_ite_neg (h : ¬c) (t u : State) : (.next (if c then t else u) : Res) = .next u := congrArg Host.Outcome.next (if_neg h)

end

-- Drives (R383–R386)

/-- A completion of the first outstanding command of a port. -/
theorem exec_nvmeCompletion_of_taken {s s' : State} {port : Nat} {c : NvCmd} (ok : Bool) (data : List Byte)
    (htake : nvTake s port = some (c, s')) :
    exec (.nvmeCompletion port ok data) s = .next (if ok then nvDone s' c data else nvError s' c) := by
  simp only [exec, execNvmeCompletion, htake]

/-- A timeout of the first outstanding command of a port. -/
theorem exec_nvmeCommandTimeout_of_taken {s s' : State} {port : Nat} {c : NvCmd} (htake : nvTake s port = some (c, s')) :
    exec (.nvmeCommandTimeout port) s =
      .next (nvError (if c.kind < 2 ∧ !c.again then nvAdmin s' port ([(8, 0), (8, 1)] ++ nvQueues.drop 1) else s') c) := by
  simp only [exec, execNvmeCommandTimeout, htake]

/-- Settles O48, row by row: a command's checks pass, or the condition of the event selects the rule's branch. -/
theorem linkCommandsAndDrivesComplete : Obligations.LinkCommandsAndDrivesComplete := by
  refine ⟨?linkStatus, ?ethMode, ?ethIfSet, ?ethFilterSet, ?nbrSet, ?nvmeReset, ?nvmeInfo, ?nvmeRead, ?bisorPortSet,
    ?bringUp, ?completion, ?timeout, ?portFail, ?smartPoll⟩
  case linkStatus => exact fun _ _ hacc => next_command_of_accepted hacc rfl
  case ethMode => exact fun _ _ hacc => next_command_of_accepted hacc rfl
  case ethIfSet => exact fun _ _ hacc => next_command_of_accepted hacc rfl
  case ethFilterSet => exact fun _ _ hacc => next_command_of_accepted hacc rfl
  case nbrSet => exact fun _ _ hacc => next_command_of_accepted hacc rfl
  case nvmeReset => exact fun _ _ hacc => next_command_of_accepted hacc rfl
  case nvmeInfo => exact fun _ _ hacc => next_command_of_accepted hacc rfl
  case nvmeRead => exact fun _ _ hacc => next_command_of_accepted hacc rfl
  case bisorPortSet => exact fun _ _ hacc => next_command_of_accepted hacc rfl
  case bringUp => exact fun _ _ _ hwaits => next_ite_neg hwaits _ _
  case completion => exact fun _ _ ok data _ _ htake => exec_nvmeCompletion_of_taken ok data htake
  case timeout => exact fun _ _ _ _ htake => exec_nvmeCommandTimeout_of_taken htake
  case portFail => exact fun _ _ hworks => next_ite_neg hworks _ _
  case smartPoll => exact fun _ _ _ _ _ _ hready => next_ite_neg hready _ _

-- Ethernet frames and queues (R389–R394)

/-- A frame that passes step 1 on a port that is UP goes to firmware or is delivered on its interface. -/
theorem frameReceive_of_passed {s s' : State} {f : RxFrame} {i : Nat}
    (hs : s' = if f.fecOk then s else s.setB (LNK_ETHSTAT f.port) 1 true) (hstep : step1Bad s' f (takeApart f.bytes) = false)
    (hifc : ifOfVlan s' f.port ((takeApart f.bytes).tci % 4096) = some i) :
    frameReceive s f =
      (firmwareFrame s' f.port i f.bytes (takeApart f.bytes)).getD (deliver s' f i (takeApart f.bytes)) := by
  subst hs
  simp only [frameReceive, hstep, hifc, Bool.false_eq_true, if_false]
  cases firmwareFrame _ f.port i f.bytes (takeApart f.bytes) <;> rfl

section
variable {s : State} {q : Nat} {d frame : List Byte} (hfits : txRefused d = false)
  (hup : ethUp s (s.rf (LNK_EQCTRL q) 19 16) = true)
include hfits hup

/-- A frame that no launch time holds back yet: it leaves at once, late, or waits for its time. -/
theorem txHead_of_new (hnew : s.txDue.any (fun x => x.1 == q) = false) : txHead s q d frame =
    let b := if (u8 d 12).testBit 0 then padTo (u16 d 8) frame else deviceBytes s (u64 d 0) (u16 d 8)
    if (u8 d 12).testBit 2 then
      (if descTime d < timeNow s then txSend s q d b 1 else { s with txDue := (q, descTime d) :: s.txDue })
    else txSend s q d b 0 := by
  simp only [txHead, hfits, hup, hnew, Bool.not_true, Bool.false_eq_true, if_false]

/-- A frame that waits for its launch time leaves when the time has come. -/
theorem txHead_of_due (hwaits : s.txDue.any (fun x => x.1 == q) = true) (htimed : (u8 d 12).testBit 2 = true)
    (hdue : descTime d ≤ timeNow s) : txHead s q d frame =
    txSend s q d (if (u8 d 12).testBit 0 then padTo (u16 d 8) frame else deviceBytes s (u64 d 0) (u16 d 8)) 0 := by
  simp only [txHead, hfits, hup, hwaits, htimed, if_neg (Nat.not_lt.mpr hdue), Bool.not_true, Bool.false_eq_true, if_false,
    if_true]

end

/-- A record that a running block forwards from a port that is UP gives its credits back and enters its stream. -/
theorem exec_nbrRecordReceive_of_up {s : State} {port n : Nat} {record : List Byte} (hport : port < 2)
    (hup : nbrUp s port = true) (hruns : halted (sendFlit s port 0x40 (b2 (kib record))) = false)
    (hforward : forwardOf (sendFlit s port 0x40 (b2 (kib record))) port (u16 record 6) = some n) :
    exec (.nbrRecordReceive port record) s = .next (forwardRecord (sendFlit s port 0x40 (b2 (kib record))) n record) := by
  refine (next_ite_neg (by simp [hup]; omega) _ _).trans ?_
  simp only [hruns, hforward, Bool.false_eq_true, if_false]

/-- Settles O49, row by row: the condition of the event selects the rule's branch. -/
theorem ethernetAndNeighbourTrafficCompletes : Obligations.EthernetAndNeighbourTrafficCompletes := by
  refine ⟨?frame, ?linkUp, ?linkDown, ?retry, ?refresh, ?tail, ?descriptor, ?launch, ?token, ?present, ?gridReceive, ?gridSend,
    ?record, ?credit, ?echoRequest, ?echoReply, ?echoSend, ?crc, ?portUp, ?portDown⟩
  case frame =>
    intro s f i t s' hup hstep hifc
    have hexec : exec (.ethFrameReceive f) s = .next (frameReceive s f) := next_ite_pos hup _ _
    rw [hexec, frameReceive_of_passed rfl hstep hifc]
    cases firmwareFrame s' f.port i f.bytes t <;> rfl
  case linkUp => exact fun _ _ hport => next_ite_neg hport _ _
  case linkDown => exact fun _ _ => rfl
  case retry => exact fun _ => rfl
  case refresh => exact fun _ _ => rfl
  case tail => exact fun _ _ _ hq => next_ite_pos hq _ _
  case descriptor =>
    exact fun _ _ _ _ _ hready hnew hfits hup => (next_ite_pos ⟨hready, by simp [hnew]⟩ _ _).trans
      (congrArg Host.Outcome.next (txHead_of_new hfits hup hnew))
  case launch =>
    exact fun _ _ _ _ _ hready hwaits hfits hup htimed hdue => (next_ite_pos ⟨hready, hwaits⟩ _ _).trans
      (congrArg Host.Outcome.next (txHead_of_due hfits hup hwaits htimed hdue))
  case token => exact fun _ _ _ _ hport _ _ => next_ite_pos hport _ _
  case present => exact fun _ => rfl
  case gridReceive => exact fun _ _ _ _ _ _ href => next_ite_pos href _ _
  case gridSend => exact fun _ hdue => next_ite_pos hdue _ _
  case record => exact fun _ _ _ _ hport hup hruns hforward _ _ => exec_nbrRecordReceive_of_up hport hup hruns hforward
  case credit => exact fun _ _ _ hup => next_ite_pos hup _ _
  case echoRequest => exact fun _ _ _ hup => next_ite_pos hup _ _
  case echoReply => exact fun _ _ _ _ hup => next_ite_pos hup _ _
  case echoSend => exact fun _ _ _ hup => next_ite_pos hup _ _
  case crc => exact fun _ _ _ _ hport => next_ite_neg hport _ _
  case portUp => exact fun _ _ hdown => next_ite_pos hdown _ _
  case portDown => exact fun _ _ => rfl

end Sys2Proof.Machine
end

section
/-! PROOFS. The rows of disciplined time (O51), edge time-stamping (O52) and clock synthesis (O53): under the conditions of its
rule each row answers exactly the next state of that rule. -/
namespace Sys2Proof.Machine

/-- A command is accepted when the gate lets it pass and every check does. -/
theorem accepted_iff {s : State} {op : Nat} {q : Req} {lenOk : Bool} {checks : List (Bool × Nat)} :
    accepted s op q lenOk checks = true ↔ gate s op q lenOk = none ∧ ∀ c ∈ checks, c.1 = false := by
  simp only [accepted, Bool.and_eq_true, Option.isNone_iff_eq_none, firstFail_eq_none]

-- Time (R410–R427)

/-- An adjustment that is small enough leaves the state in which it is checked as it is. -/
theorem exec_timeAdjust_of_small {s : State} {q : Req} (hsmall : adjustBig s q.params = false) : exec (.timeAdjust q) s =
    .next (command s 0x0A02 q (q.params.length == 4)
      [(adjustBig s q.params, ST_BAD_PARAM), (servo s != SV_FREE || gridOn s, ST_STATE)]
      (reply (pushJump s ⟨1, adjustBy q.params, false⟩) 0x0A02 q ST_OK (b8 (nextBoundary s)))) := by
  simp only [exec, execTimeAdjust, hsmall, Bool.and_false, Bool.false_eq_true, if_false]

/-- A sample of the source in use is the servo's next. -/
theorem exec_servoSample_of_due {s : State} {tclk : Nat} {x : ServoIn} {t : List ServoIn}
    (hfirst : s.time.samples = x :: t)
    (hsrc : x.src = servoSrc (setClock (setTime s { s.time with samples := t }) tclk)) (htau : 0 < x.tau) :
    exec (.servoSample tclk) s = .next (servoSample (setClock (setTime s { s.time with samples := t }) tclk) x) := by
  simp only [exec, execServoSample, hfirst]
  exact next_ite_pos ⟨hsrc, htau⟩ _ _

/-- An averaging window that has ended gives its mean. -/
theorem exec_gridAvgWindowEnd_of_done {s : State} {sum : Int} {n b : Nat} (hdone : s.time.gDone = some (sum, n, b)) :
    exec .gridAvgWindowEnd s = .next (gridWindow
      ((setTime s { s.time with gDone := none }).wr TIM_GRIDERR (i32 (satI 32 (rdiv (sum * 15625) (1024 * n)))))
      (rdiv (sum * 15625) (1024 * n)) (decide ((setTime s { s.time with gDone := none }).time.gFrom ≤ b))) := by
  simp only [exec, execGridAvgWindowEnd, hdone]

section
variable {s : State} {kind tclk : Nat} (hon : (ptpWake (setClock s tclk)).ptp.on = true)
include hon

/-- A message is due only while PTP is on: what a port sends is chosen by the kind. -/
theorem exec_ptpMessageSend_of_on : exec (.ptpMessageSend kind tclk) s = .next (
    let t := ptpWake (setClock s tclk)
    if kind = 0 then (if t.ptp.port = PT_MASTER then ptpSync t else t)
    else if kind = 1 then (if t.ptp.port = PT_MASTER then ptpAnnounce t else t)
    else if t.ptp.p2p ∨ t.ptp.port ∈ [PT_UNCAL, PT_SLAVE] then ptpRequest t else t) :=
  next_ite_neg (by simp [hon]) _ _

end

/-- Settles O51, row by row: a command's checks pass, or the condition of the event selects the rule's branch. -/
theorem timeAndPtpCommandsComplete : Obligations.TimeAndPtpCommandsComplete := by
  refine ⟨?timeGet, ?timeStep, ?timeAdjust, ?servoSet, ?gridAlign, ?gridAbort, ?utcSet, ?servoSample, ?missing, ?holdmax,
    ?jumpApply, ?window, ?slewEnd, ?gridLoad, ?leapInsert, ?leapDelete, ?ppsRise, ?ppsFall, ?ptpSet, ?ptpStatus, ?sync,
    ?announce, ?request, ?receipt⟩
  case timeGet => exact fun _ _ _ hacc => next_command_of_accepted hacc rfl
  case timeStep => exact fun _ _ hacc => next_command_of_accepted hacc rfl
  case timeAdjust =>
    exact fun _ _ hacc hsmall => (exec_timeAdjust_of_small hsmall).trans (next_command_of_accepted hacc rfl)
  case servoSet => exact fun _ _ _ hacc => next_command_of_accepted hacc rfl
  case gridAlign => exact fun _ _ hacc => next_command_of_accepted hacc rfl
  case gridAbort => exact fun _ => rfl
  case utcSet => exact fun _ _ hacc => next_command_of_accepted hacc rfl
  case servoSample => exact fun _ _ _ _ hfirst hsrc htau => exec_servoSample_of_due hfirst hsrc htau
  case missing => exact fun _ _ hsrc => next_ite_neg hsrc _ _
  case holdmax => exact fun _ hheld => next_ite_pos hheld _ _
  case jumpApply => exact fun _ _ hjumps => next_ite_neg hjumps _ _
  case window => exact fun _ _ _ _ hdone => exec_gridAvgWindowEnd_of_done hdone
  case slewEnd => exact fun _ hdone => next_ite_pos hdone _ _
  case gridLoad => exact fun _ _ _ hdue => next_ite_pos hdue _ _
  case leapInsert => exact fun _ _ hinsert hsecond => (next_ite_pos hinsert _ _).trans (next_ite_pos hsecond _ _)
  case leapDelete =>
    exact fun _ _ hinsert hdelete hsecond => (next_ite_neg (ne_true_of_eq_false hinsert) _ _).trans
      (next_ite_pos ⟨hdelete, hsecond⟩ _ _)
  case ppsRise => exact fun _ hdue => next_ite_pos hdue _ _
  case ppsFall => exact fun _ hhigh => next_ite_pos hhigh _ _
  case ptpSet => exact fun _ _ hacc => next_command_of_accepted hacc rfl
  case ptpStatus => exact fun _ _ hacc => next_command_of_accepted hacc rfl
  case sync =>
    exact fun _ _ _ hon hkind hmaster => (exec_ptpMessageSend_of_on hon).trans
      ((next_ite_pos hkind _ _).trans (next_ite_pos hmaster _ _))
  case announce =>
    exact fun _ _ _ hon hkind hmaster => (exec_ptpMessageSend_of_on hon).trans
      ((next_ite_neg (by omega) _ _).trans ((next_ite_pos hkind _ _).trans (next_ite_pos hmaster _ _)))
  case request =>
    exact fun _ _ _ hon hkind hasks => (exec_ptpMessageSend_of_on hon).trans
      ((next_ite_neg (by omega) _ _).trans ((next_ite_neg (by omega) _ _).trans (next_ite_pos hasks _ _)))
  case receipt => exact fun _ hwaits => next_ite_pos hwaits _ _

-- Time stamps and frequency (R428–R441)

/-- FREQ_START: STOP is clear. -/
theorem freqCmd_of_start {q : Req} (s : State) (hstart : (u8 q.params 1).testBit 3 = false) : freqCmd q s =
    let start := if (u8 q.params 1).testBit 1 then u64 q.params 12 else beatOrTick s + 1
    command s 0x0A13 q (q.params.length == 20) [(freqBad q.params, ST_BAD_PARAM),
        ((u8 q.params 1).testBit 1 && decide (u64 q.params 12 ≤ beatOrTick s), ST_STATE)]
      (reply (freqGo s q.params start) 0x0A13 q ST_OK (b8 start)) := by
  simp only [freqCmd, hstart, Bool.not_false, Bool.and_true, Bool.false_eq_true, if_false]

/-- FREQ_STOP: with STOP set the start beat is not read. -/
theorem freqCmd_of_stop {q : Req} (s : State) (hstop : (u8 q.params 1).testBit 3 = true) : freqCmd q s =
    let u := freqUnit s (u8 q.params 0)
    let stop := beatOrTick s + 1
    command s 0x0A13 q (q.params.length == 20) [(freqBad q.params, ST_BAD_PARAM), (false, ST_STATE)]
      (reply (setFreq s (u8 q.params 0) { u with endAt := some stop, stop := min u.stop stop }) 0x0A13 q ST_OK (b8 stop)) := by
  simp only [freqCmd, hstop, Bool.not_true, Bool.and_false, Bool.false_and, Bool.false_eq_true, if_false, if_true]

/-- A check that cannot fail does not decide. -/
theorem accepted_append_pass {s : State} {op st : Nat} {q : Req} {lenOk : Bool} {checks : List (Bool × Nat)}
    (h : accepted s op q lenOk checks = true) : accepted s op q lenOk (checks ++ [(false, st)]) = true := by
  obtain ⟨hgate, hpass⟩ := accepted_iff.mp h
  refine accepted_iff.mpr ⟨hgate, fun c hc => ?_⟩
  rcases List.mem_append.mp hc with hin | hlast
  · exact hpass c hin
  · rw [List.mem_singleton.mp hlast]

/-- The end of the blind time of an edge: a level that differs is an edge of its own. -/
theorem exec_blindTimeEnd_of_changed {s s' : State} {c t cyc b : Nat} {level rise : Bool}
    (hs : s' = setTdcCh s c { tdcCh s c with last := none }) (hlast : (tdcCh s c).last = some (t, rise, cyc, b))
    (hlevel : level ≠ rise) (hon : tdcOn s' = true) (hidle : calibrating s' c = false) :
    exec (.blindTimeEnd c level) s = .next (stampOut s' c (t + 4 * 65536) level true (beatOf s' (t + 4 * 65536)).1
      ((beatOf s' (t + 4 * 65536)).2 / 2 ^ 15)) := by
  subst hs
  simp only [exec, execBlindTimeEnd, hlast]
  exact next_ite_neg (by simp [hlevel, hon, hidle]) _ _

/-- Settles O52, row by row: a command's checks pass, or the condition of the event selects the rule's branch. -/
theorem timeStampCommandsComplete : Obligations.TimeStampCommandsComplete := by
  refine ⟨?chanSet, ?cal, ?calAbort, ?read, ?freqStart, ?freqStop, ?freqResult, ?status, ?edge, ?blind, ?calGood, ?calBad,
    ?recal, ?gateEnd, ?resultWrite, ?ocxo, ?warm, ?level⟩
  case chanSet => exact fun _ _ hacc => next_command_of_accepted hacc rfl
  case cal =>
    exact fun _ _ hacc hstart => next_command_of_accepted hacc (if_neg (by simp [hstart]))
  case calAbort =>
    exact fun _ _ hacc habort => next_command_of_accepted hacc (if_pos (by simp [habort]))
  case read => exact fun _ _ hacc => next_command_of_accepted hacc rfl
  case freqStart =>
    exact fun s _ hacc hstart => (congrArg Host.Outcome.next (freqCmd_of_start s hstart)).trans
      (next_command_of_accepted hacc rfl)
  case freqStop =>
    exact fun s _ hacc hstop => (congrArg Host.Outcome.next (freqCmd_of_stop s hstop)).trans
      (next_command_of_accepted (accepted_append_pass hacc) rfl)
  case freqResult => exact fun _ _ hacc => next_command_of_accepted hacc rfl
  case status => exact fun _ _ hacc => next_command_of_accepted hacc rfl
  case edge => exact fun _ _ _ _ _ _ _ hseen => next_ite_neg hseen _ _
  case blind =>
    exact fun _ _ _ _ _ _ _ hlast hlevel hon hidle => exec_blindTimeEnd_of_changed rfl hlast hlevel hon hidle
  case calGood =>
    exact fun _ _ _ hc hruns hgood => (next_ite_neg (by simp [hruns]; omega) _ _).trans
      (next_ite_neg (ne_true_of_eq_false hgood) _ _)
  case calBad =>
    exact fun _ _ _ hc hruns hbad => (next_ite_neg (by simp [hruns]; omega) _ _).trans (next_ite_pos hbad _ _)
  case recal =>
    exact fun _ hperiod hidle => (next_ite_neg hperiod _ _).trans (next_ite_neg (ne_true_of_eq_false hidle) _ _)
  case gateEnd => exact fun _ _ hends => next_ite_neg hends _ _
  case resultWrite =>
    intro s f r t0 t1 t hresult hf hdue
    simp only [exec, execFreqResultWrite, hresult]
    exact next_ite_neg (by omega) _ _
  case ocxo => exact fun _ _ => rfl
  case warm => exact fun _ _ hmet => next_ite_pos hmet _ _
  case level => exact fun _ _ _ _ hruns => next_ite_pos hruns _ _

-- Clocks (R446–R464)

/-- The end of a phase step that has run its steps. -/
theorem exec_clkPhaseStepEnd_of_ending {s : State} {r : PhaseRun} (hending : phaseEnding s = some r) :
    exec .clkPhaseStepEnd s = .next (reply (phoffAdd (setClk s { s.ext.clk with phases := s.ext.clk.phases.erase r })
      r.quads r.steps) 0x0B02 r.req ST_OK (b8 s.beat)) := by
  simp only [exec, execClkPhaseStepEnd, hending]

/-- Settles O53, row by row: a command's checks pass, or the condition of the event selects the rule's branch. -/
theorem clockCommandsComplete : Obligations.ClockCommandsComplete := by
  refine ⟨?sclkSet, ?bandSet, ?phaseStep, ?status, ?syncArm, ?syncCancel, ?refinLoss, ?refinReturn, ?lossOfLock, ?lock,
    ?bypassReturn, ?bandTimeout, ?hbmLoss, ?sclkinLoss, ?phaseEnd⟩
  case sclkSet => exact fun _ _ hacc => next_command_of_accepted hacc rfl
  case bandSet => exact fun _ _ hacc => next_command_of_accepted hacc rfl
  case phaseStep => exact fun _ _ hacc => next_command_of_accepted hacc rfl
  case status => exact fun _ _ hacc => next_command_of_accepted hacc rfl
  case syncArm => exact fun _ _ => rfl
  case syncCancel => exact fun _ _ => rfl
  case refinLoss => exact fun _ _ hpresent => next_ite_pos hpresent _ _
  case refinReturn => exact fun _ => rfl
  case lossOfLock => exact fun _ _ _ hlocked => next_ite_pos hlocked _ _
  case lock => exact fun _ _ hunlocked => next_ite_pos hunlocked _ _
  case bypassReturn => exact fun _ _ hgood => next_ite_pos hgood _ _
  case bandTimeout => exact fun _ _ htrying => next_ite_pos htrying _ _
  case hbmLoss => exact fun _ _ hlocked => next_ite_pos hlocked _ _
  case sclkinLoss => exact fun _ _ _ hlocked => next_ite_pos hlocked _ _
  case phaseEnd => exact fun _ _ hending => exec_clkPhaseStepEnd_of_ending hending

end Sys2Proof.Machine
end

section
/-! PROOFS. The rows of display scan-out (O54), the Badger monitor (O55), power and reset (O56), faults (O57) and security (O58):
under the conditions of its rule each row answers exactly the next state of that rule. -/
namespace Sys2Proof.Machine

/-- Setting a bit of a word sets it. -/
theorem bit_putBit_same {v : Word} {i : Nat} (hi : i < 32) : bit (putBit v i true) i = true := by
  simp [bit_putBit_true, hi]

-- Display (R469–R482)

/-- A write of DSP_CMT with GO set. -/
theorem dspCmtWrite_of_go {s : State} {v : Word} (hpresent : displayPresent s = true) (hgo : bit v 0 = true) :
    dspCmtWrite s v = askCopy (if bit v 1 then endStretch (setDsp s { s.dsp with dirty := true }) else s) :=
  (if_pos hpresent).trans (if_pos hgo)

/-- A write of DSP_CMT with DIRTY set. -/
theorem dspCmtWrite_of_dirty {s : State} {v : Word} (hpresent : displayPresent s = true) (hdirty : bit v 1 = true) :
    dspCmtWrite s v = if bit v 0 then askCopy (endStretch (setDsp s { s.dsp with dirty := true }))
      else endStretch (setDsp s { s.dsp with dirty := true }) := by
  simp only [dspCmtWrite, hpresent, hdirty, if_true]

/-- Settles O54, row by row: a command's checks pass, or the condition of the event selects the rule's branch. -/
theorem displayCommandsComplete : Obligations.DisplayCommandsComplete := by
  refine ⟨?modeSet, ?bufReg, ?bufFree, ?commit, ?palSet, ?aux, ?status, ?go, ?dirty, ?copyPoint, ?line, ?stretch, ?hpdFall,
    ?hpdRise, ?training⟩
  case modeSet => exact fun _ _ hacc => next_command_of_accepted hacc rfl
  case bufReg => exact fun _ _ hacc => next_command_of_accepted hacc rfl
  case bufFree => exact fun _ _ hacc => next_command_of_accepted hacc rfl
  case commit => exact fun _ _ hacc => next_command_of_accepted hacc rfl
  case palSet => exact fun _ _ hacc => next_command_of_accepted hacc rfl
  case aux =>
    intro s q sink b p n s' hacc hsink
    subst hsink
    exact next_command_of_accepted hacc rfl
  case status => exact fun _ _ hacc => next_command_of_accepted hacc rfl
  case go => exact fun _ _ hpresent => congrArg Host.Outcome.next (dspCmtWrite_of_go hpresent (bit_putBit_same (by decide)))
  case dirty =>
    exact fun _ _ hpresent => congrArg Host.Outcome.next (dspCmtWrite_of_dirty hpresent (bit_putBit_same (by decide)))
  case copyPoint => exact fun _ _ hdue => next_ite_pos hdue _ _
  case line => exact fun _ _ _ hdue => next_ite_pos hdue _ _
  case stretch => exact fun _ hmay => next_ite_pos hmay _ _
  case hpdFall => exact fun _ hhigh => next_ite_pos hhigh _ _
  case hpdRise => exact fun _ hpresent => next_ite_pos hpresent _ _
  case training => exact fun _ _ _ htrains => next_ite_neg htrains _ _

-- The Badger monitor (R483–R497)

/-- A pass of an enabled core that may start starts: at once, or at a boundary of its period. -/
theorem passStart_of_due {s : State} {m : Nat} (hen : bit (s.rd (MON_CTRL m)) 31 = true) (hfast : fastOn s (pairOf m) = false)
    (hperiod : bit (s.rd (MON_CTRL m)) 30 = true →
      beatOrTick s % 2 ^ fld (s.rd (MON_CTRL m)) 21 17 = 0 ∧ (monCore s m).startAt ≠ some (beatOrTick s))
    (hidle : (monCore s m).pass = none) : passStart s m =
    let c := monCore s m
    let v := s.rd (MON_CTRL m)
    let t := setMonCore s m
      { c with ctrl := v, pass := some 0, startAt := (if bit v 30 then some (beatOrTick s) else c.startAt) }
    if c.inj.isSome then t else resume t m := by
  unfold passStart
  refine (if_neg ?_).trans (if_neg (by simp [hidle]))
  rintro (hoff | hbusy | ⟨htimed, hnot⟩)
  · simp [hen] at hoff
  · simp [hfast] at hbusy
  · obtain ⟨hboundary, hnew⟩ := hperiod htimed
    exact hnot.elim (fun h => h hboundary) hnew

/-- The oldest sample in flight of a core gives its result. -/
theorem exec_monEntryDone_of_flight {s s' : State} {m : Nat} {codes : List Nat} {before : Bool} {x : Nat × Word × Word}
    {t : List (Nat × Word × Word)} (hs : s' = if (monCore s m).flight = [] then moveOn s m true else s) (hm : m < 4)
    (hflight : (monCore s' m).flight = x :: t) : exec (.monEntryDone m codes before) s =
    .next (resultWord (setMonCore s' m { monCore s' m with flight := t }) m x codes
      (if before then s'.beat - 1 else s'.beat)) := by
  refine (next_ite_neg (by omega) _ _).trans ?_
  rw [← hs]
  simp only [hflight]

/-- Settles O55, row by row: a command's checks pass, or the condition of the event selects the rule's branch. -/
theorem monitorCommandsComplete : Obligations.MonitorCommandsComplete := by
  refine ⟨?coreSet, ?inject, ?read, ?fwSet, ?passStart, ?entryDone, ?injectRequest, ?fastSample⟩
  case coreSet => exact fun _ _ hacc => next_command_of_accepted hacc rfl
  case inject => exact fun _ _ hacc => next_command_of_accepted hacc rfl
  case read => exact fun _ _ hacc => next_command_of_accepted hacc rfl
  case fwSet => exact fun _ _ hacc => next_command_of_accepted hacc rfl
  case passStart =>
    exact fun _ _ hm hawake hen hfast hperiod hidle => (next_ite_pos (by simp [hm, hawake]) _ _).trans
      (congrArg Host.Outcome.next (passStart_of_due hen hfast hperiod hidle))
  case entryDone => exact fun _ _ _ _ _ _ hm hflight => exec_monEntryDone_of_flight rfl hm hflight
  case injectRequest => exact fun _ _ _ hdue => next_ite_pos hdue _ _
  case fastSample =>
    exact fun _ _ _ _ hm hfast heven hodd hawake _ =>
      next_ite_pos ⟨hm, hfast, by simp [heven], by simp [hodd], hawake⟩ _ _

-- Power (R500–R521)

/-- A power transition that has come to its boundary. -/
theorem exec_pwrTransitionApply_of_due {s : State} {us c b : Nat} (hat : s.pwrAt = some (c, b)) (hdue : b ≤ s.beat + 1) :
    exec (.pwrTransitionApply us) s = .next (pwrApply s c b us) := by
  simp only [exec, execPwrTransitionApply, hat, if_pos hdue]

section
variable {s : State} {b : Nat} (hcfg : s.rb PWR_WAKECFG b = true)
include hcfg

/-- A wake during entry is held until entry completes. -/
theorem wake_of_entering (hstate : pwrState s = PS_ENTERING) : wake s b = { s with wakeHeld := s.wakeHeld ||| 2 ^ b } :=
  (if_neg (by simp [hcfg])).trans (if_pos hstate)

/-- A wake in a low-power state acts at once. -/
theorem wake_of_asleep (hstate : pwrState s = PS_STANDBY ∨ pwrState s = PS_HIBERNATE) : wake s b = wakeNow s (2 ^ b) := by
  refine (if_neg (by simp [hcfg])).trans ((if_neg ?_).trans (if_pos hstate))
  rcases hstate with h | h <;> rw [h] <;> decide

end

/-- With no FATAL latch a wake from STANDBY to another state starts the way out of it. -/
theorem wakeNow_of_standby {s : State} {srcs : Nat} (hstate : pwrState s = PS_STANDBY) (hto : wakeTo s ≠ PS_STANDBY)
    (hlatch : latchSet s = false) : wakeNow s srcs =
    leaveBegin (s.orR PWR_WAKESRC srcs) 16 (wakeTo (s.orR PWR_WAKESRC srcs)) := by
  have hkept : latchSet (s.orR PWR_WAKESRC srcs) = false := by
    rw [← hlatch, latchSet, State.rb, State.rb, State.orR_eq, State.rd_wr, if_neg (by decide)]
    rfl
  refine (if_neg (by rw [hstate]; decide)).trans ((if_neg hto).trans (if_neg ?_))
  simp [hkept]

/-- Settles O56, row by row: a command's checks pass, or the condition of the event selects the rule's branch. -/
theorem powerAndResetCommandsComplete : Obligations.PowerAndResetCommandsComplete := by
  refine ⟨?stateSet, ?apply, ?entry, ?step, ?stepFail, ?firstBeatWaking, ?firstBeatBooting, ?status, ?reset, ?wakeEntering,
    ?wakeStandby, ?wakeHibernate, ?owlTimer, ?porst, ?warmReset, ?vddAon, ?coldBoot, ?firmware, ?vddCore, ?junction, ?shutdown⟩
  case stateSet => exact fun _ _ hacc => next_command_of_accepted hacc rfl
  case apply => exact fun _ _ _ _ hat hdue _ => exec_pwrTransitionApply_of_due hat hdue
  case entry => exact fun _ _ hmay => next_ite_pos hmay _ _
  case step =>
    exact fun _ _ _ hmay hhalt hleft => (next_ite_neg (by simp [hmay]) _ _).trans
      ((next_ite_neg (ne_true_of_eq_false hhalt) _ _).trans (next_ite_pos hleft _ _))
  case stepFail => exact fun _ _ hmay => next_ite_pos hmay _ _
  case firstBeatWaking =>
    exact fun _ _ hclk hfirst hwaking => (next_ite_neg (by simp [hclk, hfirst]) _ _).trans (next_ite_pos hwaking _ _)
  case firstBeatBooting =>
    exact fun _ _ hclk hfirst hwaking hboot => (next_ite_neg (by simp [hclk, hfirst]) _ _).trans
      ((next_ite_neg (ne_true_of_eq_false hwaking) _ _).trans (next_ite_pos hboot _ _))
  case status => exact fun _ _ hacc => next_command_of_accepted hacc rfl
  case reset => exact fun _ _ hacc => next_command_of_accepted hacc rfl
  case wakeEntering => exact fun _ hcfg hstate => congrArg Host.Outcome.next (wake_of_entering hcfg hstate)
  case wakeStandby =>
    exact fun _ hcfg hstate hto hlatch => congrArg Host.Outcome.next
      ((wake_of_asleep hcfg (.inl hstate)).trans (wakeNow_of_standby hstate hto hlatch))
  case wakeHibernate => exact fun _ hcfg hstate => congrArg Host.Outcome.next (wake_of_asleep hcfg (.inr hstate))
  case owlTimer => exact fun _ hruns => next_ite_pos hruns _ _
  case porst => exact fun _ _ => rfl
  case warmReset => exact fun _ _ _ hon => next_ite_neg hon _ _
  case vddAon => exact fun _ => rfl
  case coldBoot => exact fun _ _ _ _ hheld => next_ite_pos hheld _ _
  case firmware => exact fun _ _ hready => next_ite_neg hready _ _
  case vddCore => exact fun _ => rfl
  case junction => exact fun _ _ => rfl
  case shutdown => exact fun _ => rfl

-- Faults (R522–R539)

/-- The report of a source that can fire, and whose rail pair has not failed, is raised at its configured class. -/
theorem report_of_live {s : State} {src : Nat} (code : Nat) (himpl : srcReserved src = false)
    (hpresent : srcAbsent s src = false) (hrail : s.rb (FLT_RAILBAD (src / 32)) (src % 32) = false) :
    report s src code = raise s src code (srcCfg s src % 4) false :=
  if_neg (by simp [himpl, hpresent, hrail])

/-- Settles O57, row by row: a command's checks pass, or the condition of the event selects the rule's branch. -/
theorem faultCommandsComplete : Obligations.FaultCommandsComplete := by
  refine ⟨?status, ?ack, ?config, ?logRead, ?logClear, ?inject, ?release, ?injectRegister, ?classes, ?sticky, ?railbad, ?report,
    ?railFail⟩
  case status => exact fun _ _ hacc => next_command_of_accepted hacc rfl
  case ack => exact fun _ _ hacc => next_command_of_accepted hacc rfl
  case config => exact fun _ _ hacc => next_command_of_accepted hacc rfl
  case logRead => exact fun _ _ hacc => next_command_of_accepted hacc rfl
  case logClear => exact fun _ _ hacc => next_command_of_accepted hacc rfl
  case inject => exact fun _ _ hacc => next_command_of_accepted hacc rfl
  case release => exact fun _ _ hacc => next_command_of_accepted hacc rfl
  case injectRegister => exact fun _ _ htest => next_ite_pos htest _ _
  case classes => exact fun _ _ => rfl
  case sticky => exact fun _ _ _ hn => next_ite_pos hn _ _
  case railbad => exact fun _ _ _ hn => next_ite_pos hn _ _
  case report =>
    exact fun _ _ code _ himpl hpresent hrail => congrArg Host.Outcome.next (report_of_live code himpl hpresent hrail)
  case railFail => exact fun _ _ hsrc => next_ite_pos hsrc _ _

-- Security (R542–R561)

/-- When the first checks of a command pass, the rest decide. -/
theorem command_append_of_accepted {s : State} {op : Nat} {q : Req} {lenOk : Bool} {a b : List (Bool × Nat)} {effect : State}
    (hacc : accepted s op q lenOk a = true) :
    command s op q lenOk (a ++ b) effect = (firstFail b).elim effect (deny s op q) := by
  obtain ⟨hgate, hpass⟩ := accepted_iff.mp hacc
  simp only [command, hgate, firstFail_append_of_pass hpass]
  cases firstFail b <;> rfl

/-- A running update ends. -/
theorem exec_fwUpdateEnd_of_running {s : State} {u : Update} (result : Nat) (hupdate : s.update = some u) :
    exec (.fwUpdateEnd result) s = .next (updateEnd s u result) := by
  simp only [exec, execFwUpdateEnd, hupdate]

/-- An exchange of the right length for which there is a session number: R556's checks decide. -/
theorem keyExchange_of_slot {s : State} {q : Req} {n : Nat} (hlen : q.params.length = 780)
    (hslot : kxSlot s (kxOp q.params) = some n) : keyExchange s q = (kxFail s q).elim (kxOpen s q n) (kxRefuse s q) := by
  refine (if_neg (not_not.mpr hlen)).trans ?_
  cases kxFail s q with
  | some st => rfl
  | none =>
    rw [hslot]
    rfl

section
variable {s : State} {q : Req} (hacc : accepted s 0x0F0A q true [(tuLocked s, ST_LOCKED)] = true)
include hacc

/-- The first form of TEST_UNLOCK asks for a challenge. -/
theorem testUnlock_of_empty (hparams : q.params = []) : testUnlock s q = tuChallenge s q := by
  obtain ⟨hgate, hpass⟩ := accepted_iff.mp hacc
  have hunlocked : tuLocked s = false := hpass _ List.mem_cons_self
  refine (command_of_pass (by simpa [hparams] using hgate) ?_).trans (if_pos (by simp [hparams]))
  simp [hparams, hunlocked]

/-- The second form answers the challenge that stands: its signature decides. -/
theorem testUnlock_of_signature {c : BitVec 256} (hlen : q.params.length = 384) (hchallenge : s.challenge = some c) :
    testUnlock s q = if tuOk s q.params then tuUnlock s q else deny s 0x0F0A q ST_SIG_FAIL := by
  obtain ⟨hgate, hpass⟩ := accepted_iff.mp hacc
  have hunlocked : tuLocked s = false := hpass _ List.mem_cons_self
  have hgate' : gate s 0x0F0A q (q.params.length == 0 || q.params.length == 384) = none := by simpa [hlen] using hgate
  split
  next hok => exact (command_of_pass hgate' (by simp [hunlocked, hok, hchallenge])).trans (if_neg (by omega))
  next hbad => exact command_of_fail hgate' (by simp [firstFail, hunlocked, hlen, hchallenge, hbad])

end

/-- Settles O58, row by row: a command's checks pass, or the condition of the event selects the rule's branch. -/
theorem securityCommandsComplete : Obligations.SecurityCommandsComplete := by
  refine ⟨?fwStatus, ?fwUpdate, ?updateEnd, ?attest, ?keyExchange, ?keyClose, ?idle, ?operatorSet, ?identity, ?rollback,
    ?policy, ?ownerKey, ?challenge, ?unlock⟩
  case fwStatus => exact fun _ _ hacc => next_command_of_accepted hacc rfl
  case fwUpdate =>
    intro s q p h c hacc
    refine (congrArg Host.Outcome.next (command_append_of_accepted hacc)).trans ?_
    cases firstFail [(c == 1 || c == 2 || c == 3, ST_SIG_FAIL), (c == 4, ST_ROLLBACK),
      (!headerForm h || fuLength p != 4096 + hdLength h, ST_BAD_PARAM)] <;> rfl
  case updateEnd => exact fun _ result _ hupdate => exec_fwUpdateEnd_of_running result hupdate
  case attest => exact fun _ _ _ hacc => next_command_of_accepted hacc rfl
  case keyExchange =>
    intro s q n hacc hlen hslot
    refine next_command_of_accepted hacc ((keyExchange_of_slot hlen hslot).trans ?_)
    cases kxFail s q <;> rfl
  case keyClose => exact fun _ _ hacc => next_command_of_accepted hacc rfl
  case idle => exact fun _ _ hopen => next_ite_pos hopen _ _
  case operatorSet => exact fun _ _ hacc => next_command_of_accepted hacc rfl
  case identity => exact fun _ _ hacc => next_command_of_accepted hacc rfl
  case rollback => exact fun _ _ hacc => next_command_of_accepted hacc rfl
  case policy => exact fun _ _ hacc => next_command_of_accepted hacc rfl
  case ownerKey => exact fun _ _ hacc => next_command_of_accepted hacc rfl
  case challenge => exact fun _ _ hacc hparams => congrArg Host.Outcome.next (testUnlock_of_empty hacc hparams)
  case unlock =>
    exact fun _ _ _ hacc hlen hchallenge => congrArg Host.Outcome.next (testUnlock_of_signature hacc hlen hchallenge)

end Sys2Proof.Machine
end

section
/-! PROOFS. Vectors that are masked (O25), the time shown and a new rate (O26), commands while BOOTING (O13), the FATAL latch (O28),
software events (O35), the rollback count (O31) and a session that closes (O32). -/
namespace Sys2Proof.Machine

-- MSI-X (R375, R376, R379)

/-- Without `v` itself, inserting `v` changes nothing. -/
theorem filter_ne_insN (v : Nat) : ∀ l : List Nat, (insN v l).filter (· != v) = l.filter (· != v)
  | [] => by simp [insN]
  | a :: l => by
    unfold insN
    split
    · simp
    · simp only [List.filter_cons, filter_ne_insN v l]

theorem mem_insN_self (v : Nat) : ∀ l : List Nat, v ∈ insN v l
  | [] => List.mem_singleton_self v
  | a :: l => by
    unfold insN
    split
    · exact List.mem_cons_self
    · exact List.mem_cons_of_mem _ (mem_insN_self v l)

theorem vector_of_masked {s : State} {v : Nat} (h : vectorMasked s v = true) :
    vector s v = { s with pba := insN v (s.pba.filter (· != v)) } := if_pos h

/-- A vector that is pending and masked stays as it is when it fires again. -/
theorem vector_vector_of_masked {s : State} {v : Nat} (h : vectorMasked s v = true) : vector (vector s v) v = vector s v := by
  have hmask : vectorMasked (vector s v) v = true := by
    rw [vector_of_masked h]
    exact h
  have hpba : insN v ((vector s v).pba.filter (· != v)) = (vector s v).pba := by
    rw [vector_of_masked h]
    simp only [filter_ne_insN, List.filter_filter, Bool.and_self]
  rw [vector_of_masked hmask, hpba]

/-- A word of the MSI-X table after a write of a word of it. -/
theorem msixWord_set (s : State) (o v w : Nat) (x : Word) :
    msixWord { s with msix := Sparse.set (fun a => if a % 16 = 12 then (1 : Word) else 0) s.msix o x } v w =
      if 16 * v + 4 * w = o then x else msixWord s v w :=
  Sparse.get_set ..

/-- With one vector pending whose message is not held back, that message is sent. -/
theorem sendPending_of_single {s : State} {v : Nat} (hpba : s.pba = [v]) (hopen : vectorMasked s v = false) :
    sendPending s = sendMsi { s with pba := [] } v := by
  have hdue : s.pba.filter (fun v => !vectorMasked s v) = [v] := by simp [hpba, hopen]
  have hheld : s.pba.filter (fun v => vectorMasked s v) = [] := by simp [hpba, hopen]
  simp only [sendPending, hdue, hheld]
  rfl

/-- Vector control of `v` written with 0. -/
def msixUnmasked (s : State) (v : Nat) : State :=
  { s with msix := Sparse.set (fun a => if a % 16 = 12 then (1 : Word) else 0) s.msix (16 * v + 12) 0 }

/-- The write of an unmask clears vector control's one bit. -/
theorem msixWrite_unmask (s : State) (v : Nat) : msixWrite s (16 * v + 12) 0 = sendPending (msixUnmasked s v) := by
  have hzero : (0 : Word) &&& msixMask ((16 * v + 12) / 4 % 4) = 0 := BitVec.zero_and
  simp only [msixWrite, hzero, msixUnmasked]

/-- The unmasked vector's message is not held back, and its address and data stay. -/
theorem vectorMasked_msixUnmasked {s : State} {v : Nat} (hen : s.pci.msixEn = true) (hfn : s.pci.fmask = false) :
    vectorMasked (msixUnmasked s v) v = false := by
  have hword : msixWord (msixUnmasked s v) v 3 = 0 := (msixWord_set ..).trans (if_pos rfl)
  have hbit : bit (0 : Word) 0 = false := by decide
  simp only [vectorMasked, hword, hbit, Bool.false_or, Bool.or_eq_false_iff, Bool.not_eq_false']
  exact ⟨hfn, hen⟩

theorem msixWord_msixUnmasked (s : State) (v : Nat) {w : Nat} (hw : w < 3) : msixWord (msixUnmasked s v) v w = msixWord s v w :=
  (msixWord_set ..).trans (if_neg (by omega))

/-- An unmask by the host that reaches the endpoint. -/
theorem exec_msixUnmask {s : State} {v : Nat} (hv : v < 2048) (hbar : s.pci.d3 = false) :
    exec (.msixUnmask v) s = .next (sendPending (msixUnmasked s v)) := by
  rw [← msixWrite_unmask]
  exact (next_ite_pos hv _ _).trans (congrArg Host.Outcome.next (onBar_of_reachable (fun _ => hbar) _))

/-- Settles O25: a masked vector, an unmasked one, an unmask in D3hot, and one that sends the pending message. -/
theorem maskedVectorIsHeldOnce : Obligations.MaskedVectorIsHeldOnce := by
  refine ⟨fun s v hmask => ?masked, fun s v hopen => ⟨_, _, if_neg (ne_true_of_eq_false hopen)⟩, fun s v hv hd3 => ?asleep,
    fun s v hv hbar hpba hen hfn => ?unmask⟩
  case masked =>
    refine ⟨?_, ?_, vector_vector_of_masked hmask, ?_⟩ <;> rw [vector_of_masked hmask]
    exact mem_insN_self v _
  case asleep => exact (next_ite_pos hv _ _).trans (next_ite_pos ⟨rfl, hd3⟩ _ _)
  case unmask =>
    have hopen := vectorMasked_msixUnmasked (v := v) hen hfn
    have hsent : sendPending (msixUnmasked s v) = sendMsi { msixUnmasked s v with pba := [] } v :=
      sendPending_of_single hpba hopen
    refine ⟨_, exec_msixUnmask hv hbar, ?_⟩
    rw [hsent, ← msixWord_msixUnmasked s v (w := 0) (by decide), ← msixWord_msixUnmasked s v (w := 1) (by decide),
      ← msixWord_msixUnmasked s v (w := 2) (by decide)]
    exact ⟨rfl, hopen, rfl, rfl⟩

-- The time shown (R406–R409)

/-- The counts and the time shown move; no other register does. -/
theorem rd_setClock_of_ne {s : State} {c a : Nat} (h : a ≠ TIM_RAW_LO ∧ a ≠ TIM_RAW_HI ∧ a ≠ TIM_NOW_LO ∧ a ≠ TIM_NOW_HI ∧
    a ≠ TIM_NOW_X) : (setClock s c).rd a = s.rd a := by
  obtain ⟨hrawLo, hrawHi, hlo, hhi, hx⟩ := h
  simp [setClock, State.wr64_eq, hrawLo, hrawHi, hlo, hhi, hx]

/-- TIM_NOW after the count has moved on: nanoseconds, low seconds, then high seconds beside the fraction. -/
theorem rdN_setClock_now (s : State) (c : Nat) :
    let t := timeAt s (max c (s.rd64 TIM_RAW_LO))
    (setClock s c).rdN TIM_NOW_LO = t / 65536 % 1000000000 ∧ (setClock s c).rdN TIM_NOW_HI = t / 65536000000000 % 2 ^ 32 ∧
      (setClock s c).rdN TIM_NOW_X = t % 65536 * 65536 + t / 65536000000000 / 2 ^ 32 % 65536 := by
  intro t
  have hlo : (setClock s c).rd TIM_NOW_LO = w32 (t / 65536 % 1000000000) := by simp [setClock, t]
  have hhi : (setClock s c).rd TIM_NOW_HI = w32 (t / 65536000000000) := by simp [setClock, t]
  have hx : (setClock s c).rd TIM_NOW_X = w32 (t % 65536 * 65536 + t / 65536000000000 / 2 ^ 32 % 65536) := by
    simp [setClock, t]
  clear_value t
  simp only [State.rdN, hlo, hhi, hx, w32, BitVec.toNat_ofNat, true_and]
  omega

theorem toNat_emod_timeWrap_lt (x : Int) : (x % timeWrap).toNat < 2 ^ 48 * 1000000000 * 65536 := by
  unfold timeWrap
  omega

/-- The disciplined time has 48 bits of seconds (R408). -/
theorem timeAt_lt (s : State) (c : Nat) : timeAt s c < 2 ^ 48 * 1000000000 * 65536 := toNat_emod_timeWrap_lt _

/-- The two halves of a word. -/
theorem fld_halves {v : Word} {hi lo : Nat} (hhi : hi < 65536) (hlo : lo < 65536) (hv : v.toNat = hi * 65536 + lo) :
    fld v 15 0 = lo ∧ fld v 31 16 = hi := by
  simp only [fld, bitsOf, hv]
  omega

/-- TIM_NOW's registers put together give the time that they were made from. -/
theorem timeNow_setClock (s : State) (c : Nat) : timeNow (setClock s c) = timeAt s (max c (s.rd64 TIM_RAW_LO)) := by
  obtain ⟨hlo, hhi, hx⟩ := rdN_setClock_now s c
  have hlt := timeAt_lt s (max c (s.rd64 TIM_RAW_LO))
  generalize timeAt s (max c (s.rd64 TIM_RAW_LO)) = t at hlo hhi hx hlt
  obtain ⟨hsecHi, hfrac⟩ := fld_halves (Nat.mod_lt _ (by decide)) (Nat.mod_lt _ (by decide)) hx
  rw [timeNow, State.rf, State.rf, hlo, hhi, hsecHi, hfrac]
  omega

-- A new rate (R407, R413, R426)

/-- At the count of its base the disciplined time is its offset. -/
theorem timeAt_base (s : State) : ((timeAt s s.time.c : Nat) : Int) = s.time.o % timeWrap := by
  have hnonneg := Int.emod_nonneg s.time.o (show timeWrap ≠ 0 by decide)
  have hround : rhu 0 40 = 0 := by decide
  simp only [timeAt, Int.sub_self, Int.zero_mul, hround, Int.add_zero]
  exact Int.toNat_of_nonneg hnonneg

/-- TIM_RATE takes a word in FREE, with the time base set to the present. -/
theorem registerWrite_rate {s : State} {m : Master} {v : Word} (hfree : servo s = SV_FREE) :
    registerWrite s m TIM_RATE v = (rebase s).wr TIM_RATE v := by
  have hpresent : addrAbsent s TIM_RATE = false := rfl
  have hruled : ruled s m TIM_RATE v = some (rateWrite s v) := rfl
  have hgroup : groupOf TIM_RATE = none := groupOf_of_lt (by decide)
  simp only [registerWrite, hpresent, hgroup, hruled, rateWrite, if_pos hfree, Option.isSome_none, Bool.false_eq_true, if_false]

theorem exec_registerWrite_rate {s : State} {m : Master} {b : List Byte} (hbar : m = .host → s.pci.d3 = false)
    (hfree : servo s = SV_FREE) (hb : b.length = 4) :
    exec (.registerWrite m TIM_RATE b) s = .next ((rebase s).wr TIM_RATE (w32 (u32 b 0))) := by
  rw [exec_registerWrite _ b hbar, barWrite_dw (by decide) (by decide) hb, registerWrite_rate hfree]

/-- Settles O26: the time shown at a count, and the time base that a new rate leaves. -/
theorem rateChangeKeepsTime : Obligations.RateChangeKeepsTime := by
  refine ⟨timeNow_setClock, fun s b hfree hb => ?_⟩
  exact ⟨_, exec_registerWrite_rate (by simp) hfree hb, by simp, timeAt_base ((rebase s).wr TIM_RATE (w32 (u32 b 0))), rfl,
    fun a ha => by rw [State.rd_wr, if_neg ha]; rfl⟩

-- Commands while BOOTING (R513)

/-- The arrival of a command moves the clocks and not the power state. -/
theorem pwrState_setClock (s : State) (c : Nat) : pwrState (setClock s c) = pwrState s :=
  congrArg (fun w => fld w 31 29) (rd_setClock_of_ne (by decide))

theorem pwrState_arrive (s : State) (w : At) : pwrState (arrive s w) = pwrState s :=
  pwrState_setClock { s with cyc := w.cyc % 512 } w.tclk

theorem pwrState_arrivalOf (i : Instr) (s : State) : pwrState (arrivalOf i s) = pwrState s := by
  unfold arrivalOf
  split
  case h_1 w | h_2 w | h_3 w | h_4 w | h_5 w | h_6 w => exact pwrState_arrive s w
  case h_7 tclk => exact pwrState_setClock s tclk
  case h_8 => rfl

/-- While BOOTING a request that no earlier check refuses and that R513 does not allow is refused. -/
theorem gate_of_booting {s : State} {op : Nat} {q : Req} (hboot : pwrState s = PS_BOOTING) (hrole : roleOk s op q = true)
    (hnet : (isNet q.src && decide (op ∈ netLocked)) = false) (hop : bootAllowed op = false) :
    gate s op q true = some ST_STATE := by
  simp [gate, firstFail, hboot, hrole, hnet, hop]

/-- While BOOTING a request that R513 allows is accepted when its own checks pass. -/
theorem accepted_of_bootAllowed {s : State} {op : Nat} {q : Req} {lenOk : Bool} {checks : List (Bool × Nat)}
    (hop : bootAllowed op = true) (hrole : roleOk s op q = true) (hnet : (isNet q.src && decide (op ∈ netLocked)) = false)
    (hlen : lenOk = true) (hchecks : firstFail checks = none) : accepted s op q lenOk checks = true := by
  simp [accepted, gate, firstFail, hop, hrole, hnet, hlen, hchecks]

/-- Settles O13: a request that is not allowed, then each of those that are. -/
theorem bootingAnswersInTwoWays : Obligations.BootingAnswersInTwoWays := by
  refine ⟨?refused, ?ping, ?deviceIdGet, ?deviceIdSet, ?queryCaps, ?lockPeek, ?pwrStatus, ?fltStatus, ?fltAck, ?fltConfig,
    ?logRead, ?logClear, ?fltInject, ?fltRelease⟩
  case refused =>
    intro i op q s hreq hboot hrole hnet hop
    exact exec_eq_deny_of_gate hreq (gate_of_booting ((pwrState_arrivalOf i s).trans hboot) hrole hnet hop)
  all_goals
    exact fun _ _ _ hrole hnet hlen hchecks =>
      next_command_of_accepted (accepted_of_bootAllowed (by decide) hrole hnet hlen hchecks) rfl

-- The FATAL latch (R531)

/-- With the latch set, a request for RUN or IDLE with valid parameters first fails at the latch. -/
theorem firstFail_pwrChecks_of_latch {s : State} {q : Req} (hparams : (pwrChecks s q).head? = some (false, ST_BAD_PARAM))
    (htarget : u8 q.params 0 ≤ 1) (hlatch : latchSet s = true) : firstFail (pwrChecks s q) = some ST_FAULT := by
  have hrange := congrArg Prod.fst (Option.some.inj hparams)
  dsimp only at hrange
  have hnotHibernate : (pwTarget q.params == 3) = false := by simpa [pwTarget] using (by omega : u8 q.params 0 ≠ 3)
  have hlow : pwTarget q.params ≤ 1 := htarget
  simp only [pwrChecks, firstFail, hrange, hnotHibernate, hlow, hlatch, Bool.false_and, decide_true, Bool.and_self,
    Bool.false_eq_true, if_false, if_true]

/-- Settles O28: the latch's check is the first that fails. -/
theorem fatalLatchRefusesRun : Obligations.FatalLatchRefusesRun := by
  intro s q hgate hparams htarget hlatch
  have hset : latchSet s = true := by simpa [latchSet] using hlatch
  exact congrArg Host.Outcome.next (command_of_fail hgate (firstFail_pwrChecks_of_latch hparams htarget hset))

-- Software events (R586)

/-- Settles O35, by the event that the write names. -/
theorem softwareEventsBelow512AreIgnored : Obligations.SoftwareEventsBelow512AreIgnored := by
  intro s m v hbar
  have hexec : exec (.glbSwevtWrite m v) s = .next (swevt s v) := congrArg Host.Outcome.next (onBar_of_reachable hbar _)
  rw [hexec]
  refine ⟨fun hlow => congrArg Host.Outcome.next (if_pos hlow), fun hhigh => ⟨_, rfl, ?_⟩⟩
  rw [swevt, if_neg (by omega)]
  exact congrArg Prod.fst (outAndActive_fire s (fld v 9 0))

-- The rollback count (R548)

/-- A reply leaves fuses, flash, stored settings and sessions as they were. -/
theorem reply_keeps_security (s : State) (op : Nat) (q : Req) (st : Nat) (rest : List Byte) :
    (reply s op q st rest).fuses = s.fuses ∧ (reply s op q st rest).flash = s.flash ∧
      (reply s op q st rest).store = s.store ∧ (reply s op q st rest).sessions = s.sessions := by
  have hrest : replyUndone s (reply s op q st rest) = s := (onlyReplied_reply s op q st rest).rest
  exact ⟨(congrArg State.fuses hrest :), (congrArg State.flash hrest :), (congrArg State.store hrest :),
    (congrArg State.sessions hrest :)⟩

/-- ROLLBACK_COMMIT burns the rollback count and nothing else. -/
theorem rollbackCommit_keeps (s : State) :
    (rollbackCommit s).fuses = { s.fuses with svn := max s.fuses.svn (min 64 s.fwSvn) } ∧
      (rollbackCommit s).flash = s.flash ∧ (rollbackCommit s).store = s.store := ⟨rfl, rfl, rfl⟩

/-- Settles O31: the fuses after the commit, which its reply keeps. -/
theorem rollbackCommitBurnsToRunningSvn : Obligations.RollbackCommitBurnsToRunningSvn := by
  intro s q hgate hidle
  have heffect : exec (.rollbackCommit q) s = .next (reply (rollbackCommit s) 0x0F07 q ST_OK
      (b4 (max s.fuses.svn (min 64 s.fwSvn)))) :=
    congrArg Host.Outcome.next (command_of_pass hgate (by simp [hidle]))
  obtain ⟨hfuses, hflash, hstore⟩ := rollbackCommit_keeps s
  obtain ⟨rfuses, rflash, rstore, -⟩ :=
    reply_keeps_security (rollbackCommit s) 0x0F07 q ST_OK (b4 (max s.fuses.svn (min 64 s.fwSvn)))
  rw [hfuses] at rfuses
  refine ⟨_, heffect, by rw [rfuses], by rw [rfuses], rflash.trans hflash, rstore.trans hstore, fun hmax => ?_, fun hsvn => ?_⟩
  · rw [rfuses]
    exact Nat.max_le.mpr ⟨hmax, Nat.min_le_left 64 _⟩
  · rw [rfuses, Nat.max_eq_left ((Nat.min_le_right 64 _).trans hsvn)]

-- Sessions (R556, R557)

theorem session_closeSession (s : State) (n k : Nat) : (closeSession s n).session k = if k = n then none else s.session k :=
  Sparse.get_set s.sessions n none k

theorem closeSession_keeps (s : State) (n : Nat) : (closeSession s n).fuses = s.fuses ∧ (closeSession s n).store = s.store :=
  ⟨rfl, rfl⟩

/-- Settles O32, by whether the command arrives on a session. -/
theorem keyCloseEndsTheSession : Obligations.KeyCloseEndsTheSession := by
  intro s q hgate
  refine ⟨fun hnone => congrArg Host.Outcome.next (command_of_fail hgate (by simp [firstFail, hnone])), fun hopen => ?_⟩
  have heffect : exec (.keyClose q) s = .next (closeSession (reply s 0x0F04 q ST_OK []) q.session) :=
    congrArg Host.Outcome.next (command_of_pass hgate (by simp [hopen]))
  obtain ⟨hfuses, hstore⟩ := closeSession_keeps (reply s 0x0F04 q ST_OK []) q.session
  obtain ⟨rfuses, -, rstore, rsessions⟩ := reply_keeps_security s 0x0F04 q ST_OK []
  refine ⟨_, heffect, by rw [session_closeSession, if_pos rfl], fun n hn => ?_, hfuses.trans rfuses, hstore.trans rstore⟩
  rw [session_closeSession, if_neg hn, State.session, rsessions]
  rfl

end Sys2Proof.Machine
end

section
/-! PROOFS. What a unit's fault report records: its sticky bit, the class that becomes pending, the halt that is due (O29). -/
namespace Sys2Proof.Machine

/-- From `s` to `t` no pending class has been acknowledged and no halt that was due has been taken back. -/
structure StillPending (s t : State) : Prop where
  pending : ∀ k, s.rb FLT_CLSPEND k = true → t.rb FLT_CLSPEND k = true
  halts : s.haltDue = true → t.haltDue = true

namespace StillPending
variable {s t u : State}

theorem refl (s : State) : StillPending s s := ⟨fun _ h => h, id⟩

theorem trans (h : StillPending s t) (h' : StillPending t u) : StillPending s u :=
  ⟨fun k hk => h'.pending k (h.pending k hk), fun hdue => h'.halts (h.halts hdue)⟩

/-- A change beside the registers and the halt. -/
theorem beside (h : StillPending s t) (hregs : u.regs = t.regs := by rfl) (hhalt : u.haltDue = t.haltDue := by rfl) :
    StillPending s u := by
  refine h.trans ⟨fun k hk => ?_, fun hdue => hhalt.trans hdue⟩
  rwa [State.rb, State.rd, hregs]

theorem wr (h : StillPending s t) (a : Nat) (v : Word) (ha : a ≠ FLT_CLSPEND := by decide) : StillPending s (t.wr a v) := by
  refine h.trans ⟨fun k hk => ?_, id⟩
  rwa [State.rb, State.rd_wr, if_neg ha.symm]

theorem setB (h : StillPending s t) (a i : Nat) (b : Bool) (ha : a ≠ FLT_CLSPEND := by decide) :
    StillPending s (t.setB a i b) := h.wr a _ ha
theorem setF (h : StillPending s t) (a hi lo x : Nat) (ha : a ≠ FLT_CLSPEND := by decide) :
    StillPending s (t.setF a hi lo x) := h.wr a _ ha
theorem addR (h : StillPending s t) (a n : Nat) (ha : a ≠ FLT_CLSPEND := by decide) : StillPending s (t.addR a n) := h.wr a _ ha

/-- One more class becomes pending. -/
theorem pend (h : StillPending s t) (r : Nat) : StillPending s (t.setB FLT_CLSPEND r true) := by
  refine h.trans ⟨fun k hk => ?_, id⟩
  rw [State.rb, State.setB_eq, State.rd_wr, if_pos rfl, bit_putBit_true]
  exact Bool.or_eq_true_iff.mpr (.inl hk)

theorem halt (h : StillPending s t) : StillPending s { t with haltDue := true } := h.trans ⟨fun _ hk => hk, fun _ => rfl⟩

theorem ite {c : Prop} [Decidable c] (ht : StillPending s t) (hu : StillPending s u) : StillPending s (if c then t else u) := by
  split <;> assumption

theorem vectorIf (h : StillPending s t) (en : Bool) (v : Nat) : StillPending s (Machine.vectorIf t en v) := by
  obtain ⟨out, pba, hvec⟩ := vectorIf_frame t en v
  rw [hvec]
  exact h.beside

theorem monAsk (h : StillPending s t) (kind sel : Nat) : StillPending s (Machine.monAsk t kind sel) := by
  unfold Machine.monAsk
  exact ite h h.beside

theorem assertFault (h : StillPending s t) : StillPending s (Machine.assertFault t) := by
  unfold Machine.assertFault
  exact ite h h.beside

theorem isolateEng (h : StillPending s t) (e : Nat) : StillPending s (Machine.isolateEng t e) := h.beside

theorem logPut (h : StillPending s t) (src code raised cfg : Nat) (esc inj : Bool) :
    StillPending s (Machine.logPut t src code raised cfg esc inj).1 := by
  unfold Machine.logPut
  extract_lets n full first st ser e old t₁ t₂ first' t₃ t₄
  have h₁ : StillPending s t₁ := h.beside
  have h₂ : StillPending s t₂ := h₁.addR _ _
  have h₃ : StillPending s t₃ := h₂.setF _ _ _ _
  have h₄ : StillPending s t₄ := ite (h₃.setB _ _ _) h₃
  split
  · exact ((h.addR FLT_LOGLOST _).setB FLT_LOGSTAT _ _).setB FLT_LOGSTAT _ _
  · split
    · exact h₂.setB FLT_LOGSTAT _ _
    · exact h₄.vectorIf _ _

end StillPending

/-- The class that a report is raised at: the next higher one while its own is pending and below FATAL (R525). -/
def raisedClass (s : State) (cls : Nat) : Nat := if s.rb FLT_CLSPEND cls = true ∧ cls < 3 then cls + 1 else cls

theorem raisedClass_lt {s : State} {cls : Nat} (h : cls < 4) : raisedClass s cls < 4 := by
  unfold raisedClass
  split <;> omega

theorem FLT_STICKY_ne_clspend (n : Nat) : FLT_STICKY n ≠ FLT_CLSPEND := by
  unfold FLT_STICKY FLT_CLSPEND
  omega

/-- A sticky bit is no part of a source's configuration. -/
theorem srcCfg_setB_sticky (s : State) {src n : Nat} (k : Nat) (b : Bool) (hn : n < 8) :
    srcCfg (s.setB (FLT_STICKY n) k b) src = srcCfg s src := by
  have hne : FLT_SRCCFG (src / 4) ≠ FLT_STICKY n := by
    unfold FLT_SRCCFG FLT_STICKY
    omega
  rw [srcCfg, State.rdN, State.setB_eq, State.rd_wr, if_neg hne]
  rfl

/-- One report keeps what is pending; that of an enabled source makes its class pending, and halts when that is FATAL. -/
theorem raiseOnce_pends (s : State) {src cls : Nat} (code : Nat) (inj : Bool) (hsrc : src < 256) (hcls : cls < 4) :
    StillPending s (raiseOnce s src code cls inj).1 ∧
      (128 ≤ srcCfg s src → (raiseOnce s src code cls inj).1.rb FLT_CLSPEND (raisedClass s cls) = true ∧
        (raisedClass s cls = 3 → (raiseOnce s src code cls inj).1.haltDue = true)) := by
  unfold raiseOnce
  extract_lets wasSticky none_ marked esc r counted pended first rep
  have hcfg : srcCfg marked src = srcCfg s src := srcCfg_setB_sticky s _ _ (by omega)
  have hesc : (marked.rb FLT_CLSPEND cls && decide (cls < 3)) = decide (s.rb FLT_CLSPEND cls = true ∧ cls < 3) := by
    have hclspend : marked.rd FLT_CLSPEND = s.rd FLT_CLSPEND := by
      dsimp only [marked]
      rw [State.setB_eq, State.rd_wr, if_neg (FLT_STICKY_ne_clspend _).symm]
    rw [State.rb, hclspend, Bool.decide_and, Bool.decide_eq_true]
    rfl
  have hr : r = raisedClass s cls := by
    simp only [r, esc, hesc, decide_eq_true_eq]
    rfl
  clear_value r esc
  have hmarked : StillPending s marked := (StillPending.refl s).setB _ _ _ (FLT_STICKY_ne_clspend _)
  have hcounted : StillPending s counted := .ite (hmarked.addR _ _) hmarked
  have hpended : StillPending (counted.setB FLT_CLSPEND r true) pended := (StillPending.refl _).monAsk _ _
  have hfirst : StillPending (counted.setB FLT_CLSPEND r true) first := .ite (hpended.wr _ _) hpended
  have hlog : StillPending (counted.setB FLT_CLSPEND r true)
      (if rep then (first.addR FLT_LOGSUP 1, false) else logPut first src code r cls esc inj).1 := by
    split
    · exact hfirst.addR _ _
    · exact hfirst.logPut _ _ _ _ _ _
  split
  next hoff => exact ⟨hmarked, fun hon => by omega⟩
  split
  next logged due hlogged =>
  rw [hlogged] at hlog
  extract_lets signalled railed asserted isolated latched halting
  have hrailed : StillPending _ railed := (hlog.vectorIf _ _).vectorIf _ _
  have hasserted : StillPending _ asserted := .ite hrailed.assertFault hrailed
  have hisolated : StillPending _ isolated := .ite (hasserted.isolateEng _) hasserted
  have hlatched : StillPending _ latched :=
    .ite (hisolated.setB _ _ _) (.ite hisolated ((hisolated.setF FLT_FATALSRC _ _ _).setB _ _ _))
  have hhalting : StillPending _ halting := .ite hlatched (hlatched.setB _ _ _)
  have hend := StillPending.ite (c := r = 3) hhalting.halt hisolated
  refine ⟨(hcounted.pend r).trans hend, fun _ => ⟨hr ▸ hend.pending r ?_, fun hfatal => ?_⟩⟩
  · rw [State.rb, State.setB_eq, State.rd_wr, if_pos rfl]
    exact bit_putBit_same (by have := raisedClass_lt (s := s) hcls; omega)
  · exact congrArg State.haltDue (if_pos (hr.trans hfatal))

/-- A report with the log's own source 225 beside it. -/
theorem raise_pends {s : State} {src cls : Nat} (code : Nat) (inj : Bool) (hsrc : src < 256) (hcls : cls < 4)
    (hon : 128 ≤ srcCfg s src) :
    (raise s src code cls inj).rb FLT_CLSPEND (raisedClass s cls) = true ∧
      (raisedClass s cls = 3 → (raise s src code cls inj).haltDue = true) := by
  obtain ⟨hpend, hhalt⟩ := (raiseOnce_pends s code inj hsrc hcls).2 hon
  have hkept : StillPending (raiseOnce s src code cls inj).1 (raise s src code cls inj) := by
    unfold raise
    exact .ite (raiseOnce_pends _ _ _ (by decide) (Nat.mod_lt _ (by decide))).1 (.refl _)
  exact ⟨hkept.pending _ hpend, fun hfatal => hkept.halts (hhalt hfatal)⟩

/-- Settles O29: a report that fires, then one of a source that cannot. -/
theorem faultReportIsRecorded : Obligations.FaultReportIsRecorded := by
  refine fun s src code cyc hsrc => ⟨fun himpl hpresent hrail => ?fires, fun hdead => ?ignored⟩
  case fires =>
    refine ⟨_, rfl, report_sets_sticky code himpl hpresent hrail, fun hon => ?_⟩
    have hraise := report_of_live (s := { s with cyc := cyc % 512 }) code himpl hpresent hrail
    rw [hraise]
    exact raise_pends (s := { s with cyc := cyc % 512 }) code false hsrc (Nat.mod_lt _ (by decide)) hon
  case ignored => exact congrArg Host.Outcome.next (if_pos hdead)

end Sys2Proof.Machine
end
